-- ==== Sys2Proof/Word.lean ====
section
/-! DEFINITION. The word types of the SLG-1200 model: bytes and the 64-bit words of registers,
device addresses and tag words (00_scope R8, 04_prixel_isa R129, R136). -/

namespace Sys2Proof

/-- An 8-bit byte. -/
abbrev Byte := BitVec 8

/-- A 64-bit word: a scalar register, a device address, a tag word. -/
abbrev Word := BitVec 64

end Sys2Proof
end

