-- ==== Sys2Proof/Syntax.lean ====
section
/-! DEFINITION. The commands of the SLG-1200 block: one constructor of `Instr` per row of the
operation table, with the operands that the row's rule gives it. A Prixel row carries the core and
the context that issue it and the fields of its operand layout (R133). Every other row is an event
of one unit; what happens outside the module or inside a memory cell (a reading, a lost bit, a
trained lane) is an operand of the event that reports it. -/

namespace Sys2Proof

/-- The core (logical number, R15) and the context (0-7) that issue an instruction. -/
structure At where
  core : Nat
  ctx : Nat
  deriving DecidableEq, Repr

/-- Layout S (R133): sd [55:51], sa [50:46], sb [45:41], i [40], imm32 [31:0]; sub is the row's. -/
structure LayS where
  sd : BitVec 5
  sa : BitVec 5
  sb : BitVec 5
  i : BitVec 1
  imm : BitVec 32
  deriving DecidableEq, Repr

/-- Layout V (R133): vd, va, vb, vc, sa, sb, format, imm16; sub is the row's. -/
structure LayV where
  vd : BitVec 4
  va : BitVec 4
  vb : BitVec 4
  vc : BitVec 4
  sa : BitVec 5
  sb : BitVec 5
  fmt : BitVec 6
  imm : BitVec 16
  deriving DecidableEq, Repr

/-- Layout T (R133). -/
structure LayT where
  acc : BitVec 2
  dk : BitVec 1
  vd : BitVec 4
  sa : BitVec 5
  sb : BitVec 5
  fmt : BitVec 6
  zero : BitVec 33
  deriving DecidableEq, Repr

/-- Layout A (R133). -/
structure LayA where
  sd : BitVec 5
  sa : BitVec 5
  zero : BitVec 46
  deriving DecidableEq, Repr

/-- Layout M (R133). -/
structure LayM where
  sd : BitVec 5
  sa : BitVec 5
  sb : BitVec 5
  ck : BitVec 2
  ct : BitVec 17
  zero : BitVec 22
  deriving DecidableEq, Repr

/-- Layout Y (R133). -/
structure LayY where
  id : BitVec 17
  sr : BitVec 5
  i : BitVec 1
  w : BitVec 1
  imm : BitVec 32
  deriving DecidableEq, Repr

/-- Layout Z (R133). -/
structure LayZ where
  sd : BitVec 5
  sa : BitVec 5
  sb : BitVec 5
  sf : BitVec 5
  zero : BitVec 33
  ctx : BitVec 3
  deriving DecidableEq, Repr

/-- The unit kinds of an error record (R468). -/
inductive UnitKind where
  | core | cluster | rowEngine | swath | exchange | dieSteward | turf | near | fallow | barrow
  | link | netPort | hostPort | hub | power | software
  deriving DecidableEq, Repr

/-- A unit by its kind and its logical number (R468). -/
structure UnitRef where
  kind : UnitKind
  index : Nat
  deriving DecidableEq, Repr

/-- A message inside the module (R30): its tag word, and whether it writes or reads which address. -/
structure Msg where
  tag : Word
  write : Bool
  addr : Word
  data : List Byte
  deriving DecidableEq, Repr

/-- A participant of a mode change (R324): a die steward, a cluster steward, the hub units. -/
inductive Participant where
  | die (d : Nat)
  | cluster (c : Nat)
  | hub
  deriving DecidableEq, Repr

/-- A participant of a partition's mode change, which the release of the prepare line reaches (R326). -/
structure CommitAt where
  part : Nat
  unit : Participant
  deriving DecidableEq, Repr

/-- A host function: port 0-3, function 0 (physical) or 1-16 (virtual) (R40, R433). -/
structure FuncRef where
  port : Nat
  fn : Nat
  deriving DecidableEq, Repr

/-- A queue pair of a function (R436). -/
structure QRef where
  port : Nat
  fn : Nat
  q : Nat
  deriving DecidableEq, Repr

/-- An accessor of the register map: management or one of the 68 functions (R557). -/
inductive Accessor where
  | mgmt
  | host (f : FuncRef)
  deriving DecidableEq, Repr

/-- The register blocks of the map (R545). -/
inductive Block where
  | hub | mgt | pwr | ident | ns | ft | pl | xu | np | hqGlobal
  | hq (f : FuncRef)
  | fd (d : Nat)
  | cl (c : Nat)
  | co (k : Nat)
  deriving DecidableEq, Repr

/-- A digest that another member of the replica group presents (R258). -/
structure PeerDigest where
  member : Nat
  ready : Bool
  digest : Nat
  deriving DecidableEq, Repr

/-- A near stack or a fallow channel (R279). -/
inductive MemUnit where
  | stack (s : Nat)
  | channel (c : Nat)
  deriving DecidableEq, Repr

/-- Why a near-stack row is remapped (R291). -/
inductive RemapWhy where
  | uncorrectable
  | corrections (count : Nat)
  deriving DecidableEq, Repr

/-- What the scrubber finds when it reads a granule (R476, R477). -/
inductive Found where
  | clean
  | corrected
  | uncorrectable
  deriving DecidableEq, Repr

/-- What recovery's read of a journal record met, where it was not clean (R248, R249): an uncorrectable error, or bytes that
read correctly and whose CRC fails. The record is named by its die and its sequence number. -/
structure RecRead where
  die : Nat
  seq : Nat
  crcFails : Bool
  deriving DecidableEq, Repr

/-- What a recovery finds in a partition's journals, where a record did not read cleanly (R247 to R249). -/
structure RecoverIn where
  part : Nat
  found : List RecRead
  deriving DecidableEq, Repr

/-- What a peer shard of the replica group answers about a granule (R478): whether its last digest comparison agreed,
the version word of its row block, the granule's bytes. -/
structure PeerBlock where
  agreed : Bool
  version : Word
  bytes : List Byte
  deriving DecidableEq, Repr

/-- What retires: a core or a cluster (R480). -/
inductive RetireKind where
  | core
  | cluster
  deriving DecidableEq, Repr

/-- The 8-byte word of a context's registers in which an error lies (R102): a scalar register, lanes 2w and 2w + 1 of a
vector register, half w of an accumulator's elements. -/
inductive RegRef where
  | scalar (r : BitVec 5)
  | vector (r : BitVec 4) (w : Nat)
  | acc (r : BitVec 2) (w : Nat)
  deriving DecidableEq, Repr

/-- The conditions of R480, with what a core's error checking reports beside them: `count` more corrections, an
uncorrectable word of its scratchpad (R102, R116, R126). -/
inductive RetireWhy where
  | stateError (ctx : Nat)
  | registerError (ctx : Nat) (r : RegRef)
  | corrections (count : Nat)
  | scratchError (off : Nat)
  | request
  | logicFault
  | coreShareUsed
  deriving DecidableEq, Repr

/-- What one power-control period reads (R506): the hottest sensor of each field die and of the hub,
the module's and the hub's power in W, each die's power, its rail in mV, the energy so far in mJ,
the usable hold-up energy in J. -/
structure PowerReading where
  dieTemp : List Nat
  hubTemp : Nat
  inputW : Nat
  hubW : Nat
  dieW : List Nat
  railMv : List Nat
  energyMj : Nat
  bankJ : Nat
  deriving DecidableEq, Repr

/-- The self-test's result for one field die at stage 0x05 (R13, R17, R19): physical cluster and unused core of each
logical cluster, free clusters, logical clusters whose unused core passed, cores marked bad. -/
structure DieMap where
  clusters : List (Nat × Nat)
  clustersFree : Nat
  spareOk : List Nat
  retired : Nat
  deriving DecidableEq, Repr

/-- What a bring-up stage finds (R524, R526); `failed` names the units that stages 0x05 and 0x06 retire (R524, R533). -/
structure StageInput where
  outcome : BitVec 8
  firstUnit : BitVec 16
  faulty : BitVec 32
  otherImageOk : Bool
  maps : List DieMap
  outStacks : List Nat
  rowsLeft : List Nat
  failed : List (RetireKind × Nat)
  outChannels : List Nat
  trained : List (Nat × Nat × Nat × Word)
  hostPorts : List Nat
  netPorts : List Nat
  deriving DecidableEq, Repr

/-- The outcome of a host-memory read (R439). -/
inductive HostRead where
  | data (bytes : List Byte)
  | failed
  deriving DecidableEq, Repr

/-- Topology-search traffic (R349, R350): a search of a generation by an initiator, a report of
modules, a restart notice. A report gives each module's identity and, for its 24 links, the neighbour's
identity, the neighbour's link and the width (R351). -/
inductive SearchMsg where
  | search (generation : Nat) (initiator : Word)
  | report (generation : Nat) (modules : List (Word × List (Word × Nat × Nat)))
  | restart (generation : Nat)
  deriving DecidableEq, Repr

/-- A remote RDMA request on a connection (R452, R454). -/
structure RdmaReq where
  part : Nat
  conn : Nat
  rkey : BitVec 32
  offset : Nat
  data : List Byte
  length : Nat
  deriving DecidableEq, Repr

/-- A UDP datagram at a network port (R455, R457): its addressing for the return route and its
payload. -/
structure Datagram where
  fragmented : Bool
  ipv : Nat
  vlan : BitVec 16
  clientPort : BitVec 16
  ownPort : BitVec 16
  clientIp : List Byte
  ownIp : List Byte
  mac : List Byte
  payload : List Byte
  deriving DecidableEq, Repr

/-- A JLP flit (R337 to R339): the header fields, and the payload as fields: `status`, `srcId`, `first` and `credits` of a
keepalive (its link number, its per-class credits), the `vals` of a data flit with `size` bytes each, of other types the
numbers they carry. `first` of a data flit is the place of its first value, which no byte of the flit holds. -/
structure Flit where
  epoch : BitVec 32
  dst : Nat
  src : Nat
  srcId : Word
  step : BitVec 16
  seq : BitVec 12
  ack : BitVec 12
  type : BitVec 4
  part : Nat
  fmt : BitVec 6
  blight : Bool
  subst : Bool
  cls : BitVec 3
  coll : BitVec 10
  status : Nat
  credits : List Nat
  first : Nat
  vals : List Nat
  size : Nat
  deriving DecidableEq, Repr

/-- The result of a retrain attempt (R343). -/
structure TrainResult where
  ok : Bool
  lanes : BitVec 5
  peer : Word
  peerLink : Nat
  deriving DecidableEq, Repr

/-- One exchange of time flits (R345, R346): the four stamps in tenths of a nanosecond, and what the
neighbour advertises. -/
structure TimeExchange where
  t1 : Int
  t2 : Int
  t3 : Int
  t4 : Int
  root : Word
  depth : Nat
  neighbour : Word
  deriving DecidableEq, Repr

/-- What a phase of a collective learns from the other members (R361): their logical shard total,
element counts, and per-element maximum exponents. -/
structure PhaseInput where
  shards : Nat
  counts : List Nat
  exponents : List Int
  deriving DecidableEq, Repr

/-- A vendor-defined register request on the management bus (R573). -/
structure MgmtReq where
  tag : Nat
  width : Nat
  addr : Word
  deriving DecidableEq, Repr

/-- The way an SPDM request comes: a physical function's DOE mailbox or the management bus (R538). -/
inductive SpdmVia where
  | doe (port : Nat)
  | mctp
  deriving DecidableEq, Repr

/-- One command of the block: one constructor per row of the operation table. -/
inductive Instr where
  /-- ADD (R145). -/
  | add (p : At) (f : LayS)
  /-- SUB (R145). -/
  | sub (p : At) (f : LayS)
  /-- AND (R145). -/
  | and (p : At) (f : LayS)
  /-- OR (R145). -/
  | or (p : At) (f : LayS)
  /-- XOR (R145). -/
  | xor (p : At) (f : LayS)
  /-- SHL (R145). -/
  | shl (p : At) (f : LayS)
  /-- SHR (R145). -/
  | shr (p : At) (f : LayS)
  /-- SAR (R145). -/
  | sar (p : At) (f : LayS)
  /-- MUL (R145). -/
  | mul (p : At) (f : LayS)
  /-- MULHU (R145). -/
  | mulhu (p : At) (f : LayS)
  /-- MIN (R145). -/
  | min (p : At) (f : LayS)
  /-- MAX (R145). -/
  | max (p : At) (f : LayS)
  /-- MINU (R145). -/
  | minu (p : At) (f : LayS)
  /-- MAXU (R145). -/
  | maxu (p : At) (f : LayS)
  /-- SLT (R145). -/
  | slt (p : At) (f : LayS)
  /-- SLTU (R145). -/
  | sltu (p : At) (f : LayS)
  /-- LIH (R145). -/
  | lih (p : At) (f : LayS)
  /-- LD (R145). -/
  | ld (p : At) (f : LayS) (sub : BitVec 8)
  /-- ST (R145). -/
  | st (p : At) (f : LayS) (sub : BitVec 8)
  /-- BEQ (R145). -/
  | beq (p : At) (f : LayS)
  /-- BNE (R145). -/
  | bne (p : At) (f : LayS)
  /-- BLT (R145). -/
  | blt (p : At) (f : LayS)
  /-- BGE (R145). -/
  | bge (p : At) (f : LayS)
  /-- BLTU (R145). -/
  | bltu (p : At) (f : LayS)
  /-- BGEU (R145). -/
  | bgeu (p : At) (f : LayS)
  /-- JAL (R145). -/
  | jal (p : At) (f : LayS)
  /-- JALR (R145). -/
  | jalr (p : At) (f : LayS)
  /-- GETS (R150). -/
  | gets (p : At) (f : LayS) (sub : BitVec 8)
  /-- VADD (R145). -/
  | vadd (p : At) (f : LayV)
  /-- VSUB (R145). -/
  | vsub (p : At) (f : LayV)
  /-- VMUL (R145). -/
  | vmul (p : At) (f : LayV)
  /-- VFMA (R145). -/
  | vfma (p : At) (f : LayV)
  /-- VMIN (R145). -/
  | vmin (p : At) (f : LayV)
  /-- VMAX (R145). -/
  | vmax (p : At) (f : LayV)
  /-- VABS (R145). -/
  | vabs (p : At) (f : LayV)
  /-- VNEG (R145). -/
  | vneg (p : At) (f : LayV)
  /-- VSEL (R145). -/
  | vsel (p : At) (f : LayV)
  /-- VCLT (R145). -/
  | vclt (p : At) (f : LayV)
  /-- VCEQ (R145). -/
  | vceq (p : At) (f : LayV)
  /-- VGMAX (R113). -/
  | vgmax (p : At) (f : LayV)
  /-- VGSUM (R113). -/
  | vgsum (p : At) (f : LayV)
  /-- VCVT (R146). -/
  | vcvt (p : At) (f : LayV)
  /-- VEXP2 (R147). -/
  | vexp2 (p : At) (f : LayV)
  /-- VLOG2 (R147). -/
  | vlog2 (p : At) (f : LayV)
  /-- VRCP (R147). -/
  | vrcp (p : At) (f : LayV)
  /-- VRSQRT (R147). -/
  | vrsqrt (p : At) (f : LayV)
  /-- VSQRT (R147). -/
  | vsqrt (p : At) (f : LayV)
  /-- VRSUM (R113). -/
  | vrsum (p : At) (f : LayV)
  /-- VRSUMF (R113). -/
  | vrsumf (p : At) (f : LayV)
  /-- VRMAX (R145). -/
  | vrmax (p : At) (f : LayV)
  /-- VRMAXA (R145). -/
  | vrmaxa (p : At) (f : LayV)
  /-- VLD (R145). -/
  | vld (p : At) (f : LayV)
  /-- VST (R145). -/
  | vst (p : At) (f : LayV)
  /-- VQ (R149). -/
  | vq (p : At) (f : LayV)
  /-- VDQ (R149). -/
  | vdq (p : At) (f : LayV)
  /-- VBCAST (R145). -/
  | vbcast (p : At) (f : LayV)
  /-- VEXT (R145). -/
  | vext (p : At) (f : LayV)
  /-- VRNG (R392). -/
  | vrng (p : At) (f : LayV)
  /-- TMUL (R151). -/
  | tmul (p : At) (f : LayT)
  /-- TCLR (R145). -/
  | tclr (p : At) (f : LayT)
  /-- TMOVV (R115). -/
  | tmovv (p : At) (f : LayT)
  /-- TLDA (R151). -/
  | tlda (p : At) (f : LayT)
  /-- TSTA (R151). -/
  | tsta (p : At) (f : LayT)
  /-- TADDM (R151). -/
  | taddm (p : At) (f : LayT)
  /-- TILE_PRODUCT_COMPLETE (R111). -/
  | tileProductComplete (core : Nat)
  /-- RGATH (R181). -/
  | rgath (p : At) (f : LayA)
  /-- RGRAD (R216). -/
  | rgrad (p : At) (f : LayA)
  /-- RPREL (R201). -/
  | rprel (p : At) (f : LayA)
  /-- RSTAT (R217). -/
  | rstat (p : At) (f : LayA)
  /-- RSALT (R210). -/
  | rsalt (p : At) (f : LayA)
  /-- MOV (R152). -/
  | mov (p : At) (f : LayM)
  /-- MOVZ (R152). -/
  | movz (p : At) (f : LayM)
  /-- MOVE_COMPLETE (R152). -/
  | moveComplete (p : At) (n : Nat)
  /-- MFENCE (R145). -/
  | mfence (p : At) (f : LayM)
  /-- OPERAND_DATA_RETURN (R118). -/
  | operandDataReturn (p : At) (n : Nat) (bad : Bool)
  /-- FSET (R311). -/
  | fset (p : At) (f : LayY)
  /-- FCLR (R311). -/
  | fclr (p : At) (f : LayY)
  /-- FWAIT (R312). -/
  | fwait (p : At) (f : LayY)
  /-- FWAITC (R312). -/
  | fwaitc (p : At) (f : LayY)
  /-- CPROD (R314). -/
  | cprod (p : At) (f : LayY)
  /-- CCONS (R314). -/
  | ccons (p : At) (f : LayY)
  /-- CWAITR (R315). -/
  | cwaitr (p : At) (f : LayY)
  /-- CWAITA (R315). -/
  | cwaita (p : At) (f : LayY)
  /-- CREAD (R315). -/
  | cread (p : At) (f : LayY)
  /-- HARR (R318). -/
  | harr (p : At) (f : LayY)
  /-- HWAIT (R319). -/
  | hwait (p : At) (f : LayY)
  /-- HBAR (R319). -/
  | hbar (p : At) (f : LayY)
  /-- SYNC_STORE_OPERATION (R313). -/
  | syncStoreOperation (die n : Nat)
  /-- WAKE (R104). -/
  | wake (p : At)
  /-- CONTEXT_WAIT_WATCHDOG (R316). -/
  | contextWaitWatchdog (p : At)
  /-- POWER_LENDING (R317). -/
  | powerLending (u : UnitRef)
  /-- HEDGEROW_ARRIVAL (R321). -/
  | hedgerowArrival (n : Nat)
  /-- LINE_REPORT_RECEIVE (R322). -/
  | lineReportReceive (line member : Nat) (epoch phase : BitVec 32) (t : Nat)
  /-- JOB_WIDE_RELEASE (R322). -/
  | jobWideRelease (line : Nat)
  /-- TXB (R154). -/
  | txb (p : At) (f : LayA)
  /-- TXC (R254). -/
  | txc (p : At) (f : LayA)
  /-- TXA (R255). -/
  | txa (p : At) (f : LayA)
  /-- XCOLL (R359). -/
  | xcoll (p : At) (f : LayA)
  /-- XLAG (R370). -/
  | xlag (p : At) (f : LayA)
  /-- TSTEP (R145). -/
  | tstep (p : At) (f : LayA)
  /-- TGET (R145). -/
  | tget (p : At) (f : LayA)
  /-- TSTAT (R135). -/
  | tstat (p : At) (f : LayA)
  /-- MEPOCH (R145). -/
  | mepoch (p : At) (f : LayA)
  /-- STEPB (R218). -/
  | stepb (p : At) (f : LayA)
  /-- NOP (R145). -/
  | nop (p : At) (f : LayZ)
  /-- HALT (R145). -/
  | halt (p : At) (f : LayZ)
  /-- CSTART (R161). -/
  | cstart (p : At) (f : LayZ)
  /-- CSTOP (R161). -/
  | cstop (p : At) (f : LayZ)
  /-- CSTATE (R145). -/
  | cstate (p : At) (f : LayZ)
  /-- EPOST (R145). -/
  | epost (p : At) (f : LayZ)
  /-- IFENCE (R164). -/
  | ifence (p : At) (f : LayZ)
  /-- ILL (R159). -/
  | ill (p : At)
  /-- STRICT_OPERAND_DELIVERY (R385). -/
  | strictOperandDelivery (p : At) (n : Nat)
  /-- FREEZE_RESUME (R385). -/
  | freezeResume (core : Nat)
  /-- STRICT_WAIT_WAKE (R386). -/
  | strictWaitWake (p : At)
  /-- MESSAGE_RECEIPT (R33). -/
  | messageReceipt (u : UnitRef) (m : Msg)
  /-- APPLY_WRITE (R45). -/
  | applyWrite (by_ : Accessor) (part : Nat) (value : BitVec 32)
  /-- APPLY_RUN (R46). -/
  | applyRun
  /-- PREPARE (R324). -/
  | prepare (part : Nat)
  /-- PREPARE_RECEIVE (R324). -/
  | prepareReceive (part : Nat) (u : Participant) (canStage : Bool)
  /-- PREPARE_TIMEOUT (R325). -/
  | prepareTimeout (part : Nat)
  /-- PREPARE_ABORT_RECEIVE (R325). -/
  | prepareAbortReceive (part : Nat) (u : Participant)
  /-- STEP_HOLD_TIMEOUT (R328). -/
  | stepHoldTimeout (part : Nat)
  /-- MODE_COMMIT (R326). -/
  | modeCommit (c : CommitAt)
  /-- COMMIT_LINE_RELEASE (R327). -/
  | commitLineRelease (part : Nat)
  /-- ROW_FETCH (R179). -/
  | rowFetch (job i : Nat) (bad : Bool)
  /-- RICK_CACHE_FETCH (R200). -/
  | rickCacheFetch (job i : Nat) (bad : Bool)
  /-- SKETCH_DECAY (R199). -/
  | sketchDecay (die : Nat)
  /-- WINDROW_COPY (R205). -/
  | windrowCopy (n : Nat)
  /-- GATHER_SEGMENT_DONE (R191). -/
  | gatherSegmentDone (job i : Nat)
  /-- GATHER_DEADLINE (R194). -/
  | gatherDeadline (job : Nat)
  /-- GATHER_COMPLETE (R192). -/
  | gatherComplete (job : Nat)
  /-- PRESSURE_INTERVAL (R209). -/
  | pressureInterval
  /-- RESALT_GROUP_MIGRATE (R211). -/
  | resaltGroupMigrate (part table : Nat)
  /-- GRADIENT_CONTRIBUTION (R226). -/
  | gradientContribution (job : Nat)
  /-- SWEEP_START (R218). -/
  | sweepStart (part : Nat)
  /-- SWEEP_ROW_BLOCK (R237). -/
  | sweepRowBlock (part entry block : Nat)
  /-- SWEEP_COMPLETE (R221). -/
  | sweepComplete (part : Nat)
  /-- DIGEST_EXCHANGE (R258). -/
  | digestExchange (part : Nat) (others : List PeerDigest)
  /-- JOURNAL_RECORD_PLACE (R243). -/
  | journalRecordPlace (die : Nat)
  /-- TX_PREPARED (R239). -/
  | txPrepared (tx die : Nat) (bad : Bool)
  /-- TX_DURABLE_POINT (R239). -/
  | txDurablePoint (tx : Nat)
  /-- TX_RETIRE (R239). -/
  | txRetire (tx : Nat)
  /-- RECOVERY (R248). -/
  | recovery (r : RecoverIn)
  /-- EXPORT_RUN (R260). -/
  | exportRun (part : Nat)
  /-- MEM_APPLY (R277). -/
  | memApply (by_ : Accessor) (value : BitVec 32)
  /-- RESERVATION_WINDOW (R273). -/
  | reservationWindow
  /-- THROTTLE_TEMP_CHANGE (R279). -/
  | throttleTempChange (u : MemUnit) (temp throttle critical : Nat)
  /-- FALLOW_WRITE (R287). -/
  | fallowWrite (n : Nat)
  /-- FALLOW_CHUNK_WAIT_END (R288). -/
  | fallowChunkWaitEnd (channel : Nat)
  /-- FALLOW_READ (R289). -/
  | fallowRead (p : At) (n : Nat)
  /-- ROW_REMAP (R291). -/
  | rowRemap (stack row : Nat) (why : RemapWhy) (resource : Bool) (lost : List Nat)
  /-- SCRUB_GRANULE (R477). -/
  | scrubGranule (tier granule : Nat) (found : Found)
  /-- SCRUB_REPAIR (R478). -/
  | scrubRepair (granule : Nat) (peer : Option PeerBlock)
  /-- SCRUB_SWEEP_START (R476). -/
  | scrubSweepStart (tier : Nat)
  /-- CORRECTED_SUMMARY (R472). -/
  | correctedSummary
  /-- DISCARD_MERGE_INTERVAL_END (R472). -/
  | discardMergeIntervalEnd (u : UnitRef) (cause : Nat)
  /-- RETIREMENT (R482). -/
  | retirement (kind : RetireKind) (number : Nat) (why : RetireWhy)
  /-- RETIREMENT_DRAINED (R482). -/
  | retirementDrained
  /-- RETIREMENT_COPIED (R482). -/
  | retirementCopied
  /-- RETIRE_REQUEST (R497). -/
  | retireRequest (by_ : Accessor) (value : BitVec 32)
  /-- FW_IMAGE_WRITE (R487). -/
  | fwImageWrite (image : List Byte) (signature : List Byte) (security version : Nat)
  /-- FW_ACTIVATE (R488). -/
  | fwActivate (by_ : Accessor) (value : BitVec 32)
  /-- FW_CONTROLLER_SWITCH (R488). -/
  | fwControllerSwitch (controller : Nat)
  /-- FW_POINTER_FLIP (R488). -/
  | fwPointerFlip
  /-- FW_REVERT (R489). -/
  | fwRevert (controller : Nat)
  /-- POWER_CONTROL_PERIOD (R506). -/
  | powerControlPeriod (r : PowerReading)
  /-- THERMAL_CUT (R508). -/
  | thermalCut (die sensor reading : Nat)
  /-- HOLDUP_GATE_OPEN (R513). -/
  | holdupGateOpen (bank : Nat)
  /-- INPUT_LOSS (R514). -/
  | inputLoss
  /-- INPUT_OVERVOLTAGE (R566). -/
  | inputOvervoltage
  /-- LOSS_SET_SAVE_COMPLETE (R514). -/
  | lossSetSaveComplete
  /-- HOLD_ENERGY_EXHAUSTED (R514). -/
  | holdEnergyExhausted (bank : Nat)
  /-- INPUT_RETURN (R515). -/
  | inputReturn
  /-- QUALIFICATION_COMPLETE (R515). -/
  | qualificationComplete
  /-- BRINGUP_STAGE (R524). -/
  | bringupStage (r : StageInput)
  /-- CORE_RESET (R528). -/
  | coreReset (target : Nat)
  /-- CLUSTER_RESET (R528). -/
  | clusterReset (target : Nat)
  /-- PARTITION_RESET (R530). -/
  | partitionReset (target : Nat)
  /-- COMPUTE_RESET (R528). -/
  | computeReset
  /-- MODULE_RESET (R532). -/
  | moduleReset (keep : Bool)
  /-- MOD_RESET_N_ASSERT (R569). -/
  | modResetNAssert
  /-- MOD_RESET_N_RELEASE (R569). -/
  | modResetNRelease
  /-- HOST_PERST (R570). -/
  | hostPerst (port : Nat)
  /-- FUNCTION_LEVEL_RESET (R448). -/
  | functionLevelReset (f : FuncRef)
  /-- BUS_MASTER_DISABLE (R447). -/
  | busMasterDisable (f : FuncRef)
  /-- BUS_MASTER_ENABLE (R447). -/
  | busMasterEnable (f : FuncRef)
  /-- SQ_TAIL_WRITE (R436). -/
  | sqTailWrite (q : QRef) (value : Word)
  /-- CQ_HEAD_WRITE (R437). -/
  | cqHeadWrite (q : QRef) (value : Word)
  /-- QUEUE_ENABLE (R464). -/
  | queueEnable (q : QRef) (value : BitVec 32)
  /-- QUEUE_DISABLE (R464). -/
  | queueDisable (q : QRef) (value : BitVec 32)
  /-- SQE_FETCH (R436). -/
  | sqeFetch (q : QRef) (r : HostRead)
  /-- HOST_NOP (R442). -/
  | hostNop (q : QRef)
  /-- HOST_WRITE (R442). -/
  | hostWrite (q : QRef)
  /-- HOST_READ (R442). -/
  | hostRead (q : QRef)
  /-- SIGNAL (R442). -/
  | signal (q : QRef)
  /-- PROGRAM_LOAD (R163). -/
  | programLoad (q : QRef)
  /-- LAUNCH (R442). -/
  | launch (q : QRef)
  /-- STOP (R442). -/
  | stop (q : QRef)
  /-- INSTALL_TABLE (R176). -/
  | installTable (q : QRef)
  /-- INSTALL_OBJECT (R271). -/
  | installObject (q : QRef)
  /-- REMOVE (R443). -/
  | remove (q : QRef)
  /-- REMOVE_TAKE_EFFECT (R443). -/
  | removeTakeEffect (part : Nat)
  /-- INSTALL_SWEEP_PLAN (R230). -/
  | installSweepPlan (q : QRef)
  /-- INSTALL_MIRROR (R406). -/
  | installMirror (q : QRef)
  /-- MIRROR_COPY (R406). -/
  | mirrorCopy (part obj : Nat)
  /-- INSTALL_MEMBERSHIP (R353). -/
  | installMembership (q : QRef)
  /-- TOPOLOGY_SEARCH (R348). -/
  | topologySearch (q : QRef)
  /-- SEARCH_FLIT_RECEIVE (R349). -/
  | searchFlitReceive (link : Nat) (m : SearchMsg)
  /-- EXPORT (R442). -/
  | exportCmd (q : QRef)
  /-- IMPORT (R262). -/
  | importCmd (q : QRef)
  /-- REPLAY_START (R395). -/
  | replayStart (q : QRef)
  /-- REPLAY_END (R397). -/
  | replayEnd (q : QRef)
  /-- REGISTER_REGION (R452). -/
  | registerRegion (q : QRef)
  /-- DEREGISTER_REGION (R442). -/
  | deregisterRegion (q : QRef)
  /-- CONNECT (R453). -/
  | connect (q : QRef)
  /-- DISCONNECT (R442). -/
  | disconnect (q : QRef)
  /-- OPEN_STREAM (R442). -/
  | openStream (q : QRef)
  /-- CLOSE_STREAM (R442). -/
  | closeStream (q : QRef)
  /-- MSIX_HOLDOFF_EXPIRY (R446). -/
  | msixHoldoffExpiry (f : FuncRef) (vector : Nat)
  /-- MSIX_UNMASK (R446). -/
  | msixUnmask (f : FuncRef) (vector : Nat)
  /-- RDMA_WRITE (R454). -/
  | rdmaWrite (r : RdmaReq)
  /-- RDMA_WRITE_IMMEDIATE (R454). -/
  | rdmaWriteImmediate (r : RdmaReq) (imm : BitVec 32)
  /-- RDMA_READ (R452). -/
  | rdmaRead (r : RdmaReq)
  /-- CNP_RECEIVE (R452). -/
  | cnpReceive (part conn : Nat)
  /-- RATE_RECOVERY_STEP (R452). -/
  | rateRecoveryStep (part conn : Nat)
  /-- SERVE_REQUEST (R411). -/
  | serveRequest (port : Nat) (d : Datagram)
  /-- SERVE_BACKSTOP (R416). -/
  | serveBackstop (part n : Nat) (queued : Bool)
  /-- SERVE_HOLD_BOUND_EXPIRY (R422). -/
  | serveHoldBoundExpiry (part : Nat)
  /-- RECORD_FRAGMENT (R460). -/
  | recordFragment (port : Nat) (d : Datagram)
  /-- PARTIAL_RECORD_TIMEOUT (R461). -/
  | partialRecordTimeout (part stream : Nat)
  /-- CREDIT_TIMER (R459). -/
  | creditTimer (part stream : Nat)
  /-- FLIT_RECEIVE (R341). -/
  | flitReceive (link : Nat) (f : Flit) (crc : BitVec 64)
  /-- RETRY_REQUEST_RECEIVE (R341). -/
  | retryRequestReceive (link : Nat) (seq : BitVec 12)
  /-- KEEPALIVE_TIMER (R343). -/
  | keepaliveTimer (link : Nat)
  /-- LINK_DOWN_TIMEOUT (R343). -/
  | linkDownTimeout (link : Nat)
  /-- LINK_RETRAIN (R343). -/
  | linkRetrain (link : Nat) (r : TrainResult)
  /-- LANE_FAILURE (R335). -/
  | laneFailure (link lane : Nat)
  /-- TIME_FLIT_EXCHANGE (R345). -/
  | timeFlitExchange (link : Nat) (t : TimeExchange)
  /-- FENCED_REPLY_RECEIVE (R357). -/
  | fencedReplyReceive (part : Nat) (epoch : BitVec 32)
  /-- NEWER_EPOCH_HOLD_EXPIRY (R354). -/
  | newerEpochHoldExpiry (part : Nat)
  /-- COLLECTIVE_PHASE_START (R361). -/
  | collectivePhaseStart (coll : Nat) (r : PhaseInput)
  /-- COLLECTIVE_PIECE_RECEIVE (R364). -/
  | collectivePieceReceive (coll : Nat)
  /-- PERMUTE_PIECE_COMMIT (R368). -/
  | permutePieceCommit (coll : Nat)
  /-- RING_STEP_WATCHDOG (R365). -/
  | ringStepWatchdog (coll : Nat)
  /-- ABORT_FLIT_RECEIVE (R365). -/
  | abortFlitReceive (link : Nat) (f : Flit)
  /-- COLLECTIVE_COMPLETE (R369). -/
  | collectiveComplete (coll : Nat)
  /-- LICENCE_APPLY (R541). -/
  | licenceApply (by_ : Accessor) (value : BitVec 32)
  /-- STAGE_WRITE (R456). -/
  | stageWrite (by_ : Accessor) (part : Nat) (value : BitVec 32)
  /-- KEEP_WRITE (R523). -/
  | keepWrite (by_ : Accessor) (part : Nat) (value : Word)
  /-- SYNC_WRITE (R316). -/
  | syncWrite (by_ : Accessor) (part : Nat) (value : BitVec 32)
  /-- STRICT_WRITE (R389). -/
  | strictWrite (by_ : Accessor) (part : Nat) (value : BitVec 32)
  /-- ERR_HEAD_WRITE (R473). -/
  | errHeadWrite (f : FuncRef) (value : Word)
  /-- COUNTER_SNAPSHOT (R557). -/
  | counterSnapshot (by_ : Accessor) (b : Block) (value : BitVec 32)
  /-- COUNTER_CLEAR (R558). -/
  | counterClear (by_ : Accessor) (b : Block) (value : BitVec 32)
  /-- ACC_ERR_READ (R555). -/
  | accErrRead (by_ : Accessor) (b : Block) (width : Nat)
  /-- NOW_READ (R555). -/
  | nowRead (by_ : Accessor) (b : Block) (width : Nat)
  /-- REGISTER_WRITE (R554). -/
  | registerWrite (by_ : Accessor) (addr width : Nat) (value : Word)
  /-- MGMT_REGISTER_READ (R573). -/
  | mgmtRegisterRead (r : MgmtReq)
  /-- MGMT_REGISTER_WRITE (R573). -/
  | mgmtRegisterWrite (r : MgmtReq) (value : Word)
  /-- MGMT_LOG_READ (R574). -/
  | mgmtLogRead (tag count : Nat) (first : Word)
  /-- SET_ENDPOINT_ID (R571). -/
  | setEndpointId (eid : Byte)
  /-- GET_ENDPOINT_ID (R571). -/
  | getEndpointId
  /-- GET_MCTP_VERSION_SUPPORT (R571). -/
  | getMctpVersionSupport (msgType : Byte)
  /-- GET_MESSAGE_TYPE_SUPPORT (R571). -/
  | getMessageTypeSupport
  /-- PLDM_BASE (R571). -/
  | pldmBase (command : Byte)
  /-- PLDM_SENSOR_READ (R572). -/
  | pldmSensorRead (sensor : Nat)
  /-- SPDM_GET_VERSION (R538). -/
  | spdmGetVersion (v : SpdmVia)
  /-- SPDM_GET_CAPABILITIES (R538). -/
  | spdmGetCapabilities (v : SpdmVia)
  /-- SPDM_NEGOTIATE_ALGORITHMS (R538). -/
  | spdmNegotiateAlgorithms (v : SpdmVia)
  /-- SPDM_GET_DIGESTS (R538). -/
  | spdmGetDigests (v : SpdmVia)
  /-- SPDM_GET_CERTIFICATE (R538). -/
  | spdmGetCertificate (v : SpdmVia) (slot offset length : Nat)
  /-- SPDM_CHALLENGE (R538). -/
  | spdmChallenge (v : SpdmVia) (nonce : List Byte)
  /-- SPDM_GET_MEASUREMENTS (R538). -/
  | spdmGetMeasurements (v : SpdmVia) (index : Nat) (nonce : List Byte)
  /-- TAP_BYPASS (R575). -/
  | tapBypass (code : Nat) (tdi : List Bool)
  /-- TAP_IDCODE (R575). -/
  | tapIdcode
  /-- TAP_SAMPLE_PRELOAD (R575). -/
  | tapSamplePreload (pins preload : List Bool)
  /-- TAP_EXTEST (R576). -/
  | tapExtest (tdi : List Bool)
  /-- TAP_CLAMP (R576). -/
  | tapClamp (tdi : List Bool)
  /-- TAP_HIGHZ (R576). -/
  | tapHighz (tdi : List Bool)
  /-- TAP_RESET (R576). -/
  | tapReset
  /-- INDIRECT_BLOCK_READ (R439). -/
  | indirectBlockRead (q : QRef) (r : HostRead)
  /-- WRITE_VISIBLE (R311). -/
  | writeVisible (p : At)
  /-- DIGEST_RECOMPUTE (R257). -/
  | digestRecompute (part entry : Nat)
  /-- HOT_RESET (R448). -/
  | hotReset (port : Nat)
  /-- HOST_LINK_DOWN (R448). -/
  | hostLinkDown (port : Nat)
  /-- HOST_LINK_UP (R433). -/
  | hostLinkUp (port rate width : Nat)
  /-- NETWORK_LINK_DOWN (R451). -/
  | networkLinkDown (port : Nat) (lanes : BitVec 8)
  /-- NETWORK_LINK_UP (R451). -/
  | networkLinkUp (port : Nat) (lanes : BitVec 8)
  deriving DecidableEq, Repr

end Sys2Proof
end

