-- ==== Sys2Proof/Decode.lean ====
section
/-! DEFINITION. Reading a Prixel instruction from its 64-bit word (R129 to R133, R145), and a command from a word of the
operation table. A word with a reserved class, operation or sub-operation is an illegal instruction (R131), which is what
ILL is (R159). -/

namespace Sys2Proof

/-! ### The operand layouts (R133) -/

/-- Layout S of a word. -/
def layS (w : Word) : LayS :=
  { sd := w.extractLsb' 51 5, sa := w.extractLsb' 46 5, sb := w.extractLsb' 41 5, i := w.extractLsb' 40 1, imm := w.extractLsb' 0 32 }
/-- Layout V of a word. -/
def layV (w : Word) : LayV :=
  { vd := w.extractLsb' 52 4, va := w.extractLsb' 48 4, vb := w.extractLsb' 44 4, vc := w.extractLsb' 40 4, sa := w.extractLsb' 27 5,
    sb := w.extractLsb' 22 5, fmt := w.extractLsb' 16 6, imm := w.extractLsb' 0 16 }
/-- Layout T of a word. -/
def layT (w : Word) : LayT :=
  { acc := w.extractLsb' 54 2, dk := w.extractLsb' 53 1, vd := w.extractLsb' 49 4, sa := w.extractLsb' 44 5, sb := w.extractLsb' 39 5,
    fmt := w.extractLsb' 33 6, zero := w.extractLsb' 0 33 }
/-- Layout A of a word. -/
def layA (w : Word) : LayA := { sd := w.extractLsb' 51 5, sa := w.extractLsb' 46 5, zero := w.extractLsb' 0 46 }
/-- Layout M of a word. -/
def layM (w : Word) : LayM :=
  { sd := w.extractLsb' 51 5, sa := w.extractLsb' 46 5, sb := w.extractLsb' 41 5, ck := w.extractLsb' 39 2, ct := w.extractLsb' 22 17,
    zero := w.extractLsb' 0 22 }
/-- Layout Y of a word. -/
def layY (w : Word) : LayY :=
  { id := w.extractLsb' 39 17, sr := w.extractLsb' 34 5, i := w.extractLsb' 33 1, w := w.extractLsb' 32 1, imm := w.extractLsb' 0 32 }
/-- Layout Z of a word. -/
def layZ (w : Word) : LayZ :=
  { sd := w.extractLsb' 51 5, sa := w.extractLsb' 46 5, sb := w.extractLsb' 41 5, sf := w.extractLsb' 36 5, zero := w.extractLsb' 3 33, ctx := w.extractLsb' 0 3 }

/-! ### The classes (R130, R145) -/

/-- 0x0.0x0: the ALU operations by sub-operation. -/
def scalarOp (p : At) (f : LayS) (sub : Nat) : Instr :=
  match sub with
  | 0 => .add p f
  | 1 => .sub p f
  | 2 => .and p f
  | 3 => .or p f
  | 4 => .xor p f
  | 5 => .shl p f
  | 6 => .shr p f
  | 7 => .sar p f
  | 8 => .mul p f
  | 9 => .mulhu p f
  | 10 => .min p f
  | 11 => .max p f
  | 12 => .minu p f
  | 13 => .maxu p f
  | 14 => .slt p f
  | 15 => .sltu p f
  | _ => .ill p

/-- 0x0.0x4: the branches by sub-operation. -/
def branchSub (p : At) (f : LayS) (sub : Nat) : Instr :=
  match sub with
  | 0 => .beq p f
  | 1 => .bne p f
  | 2 => .blt p f
  | 3 => .bge p f
  | 4 => .bltu p f
  | 5 => .bgeu p f
  | _ => .ill p

/-- 0x2.0x0: the lane-wise operations by sub-operation. -/
def laneOp (p : At) (f : LayV) (sub : Nat) : Instr :=
  match sub with
  | 0 => .vadd p f
  | 1 => .vsub p f
  | 2 => .vmul p f
  | 3 => .vfma p f
  | 4 => .vmin p f
  | 5 => .vmax p f
  | 6 => .vabs p f
  | 7 => .vneg p f
  | 8 => .vsel p f
  | 9 => .vclt p f
  | 10 => .vceq p f
  | 11 => .vgmax p f
  | 12 => .vgsum p f
  | _ => .ill p

/-- 0x2.0x2: the functions by sub-operation. -/
def laneFunc (p : At) (f : LayV) (sub : Nat) : Instr :=
  match sub with
  | 0 => .vexp2 p f
  | 1 => .vlog2 p f
  | 2 => .vrcp p f
  | 3 => .vrsqrt p f
  | 4 => .vsqrt p f
  | _ => .ill p

/-- 0x2.0x3: the reductions by sub-operation. -/
def laneReduce (p : At) (f : LayV) (sub : Nat) : Instr :=
  match sub with
  | 0 => .vrsum p f
  | 1 => .vrsumf p f
  | 2 => .vrmax p f
  | 3 => .vrmaxa p f
  | _ => .ill p

/-- Class 0x0 by operation; LD, ST and GETS take the sub-operation as an operand. -/
def scalarClass (p : At) (f : LayS) (op : Nat) (sub : BitVec 8) : Instr :=
  match op with
  | 0 => scalarOp p f sub.toNat
  | 1 => if sub = 0 then .lih p f else .ill p
  | 2 => .ld p f sub
  | 3 => .st p f sub
  | 4 => branchSub p f sub.toNat
  | 5 => if sub = 0 then (if f.i = 1 then .jal p f else .jalr p f) else .ill p
  | 6 => if sub.toNat ≤ 8 then .gets p f sub else .ill p
  | _ => .ill p

/-- Class 0x2 by operation. -/
def vectorClass (p : At) (f : LayV) (op sub : Nat) : Instr :=
  match op with
  | 0 => laneOp p f sub
  | 1 => only (.vcvt p f)
  | 2 => laneFunc p f sub
  | 3 => laneReduce p f sub
  | 4 => only (.vld p f)
  | 5 => only (.vst p f)
  | 6 => only (.vq p f)
  | 7 => only (.vdq p f)
  | 8 => only (.vbcast p f)
  | 9 => only (.vext p f)
  | 10 => only (.vrng p f)
  | _ => .ill p
where
  /-- An operation whose one sub-operation is 0x00. -/
  only (i : Instr) : Instr := if sub = 0 then i else .ill p

/-- Class 0x4. -/
def tileClass (p : At) (f : LayT) (op : Nat) : Instr :=
  match op with
  | 0 => .tmul p f
  | 1 => .tclr p f
  | 2 => .tmovv p f
  | 3 => .tlda p f
  | 4 => .tsta p f
  | 5 => .taddm p f
  | _ => .ill p

/-- Class 0x6. -/
def rowClass (p : At) (f : LayA) (op : Nat) : Instr :=
  match op with
  | 0 => .rgath p f
  | 1 => .rgrad p f
  | 2 => .rprel p f
  | 3 => .rstat p f
  | 4 => .rsalt p f
  | _ => .ill p

/-- Class 0x8. -/
def moveClass (p : At) (f : LayM) (op : Nat) : Instr :=
  match op with
  | 0 => .mov p f
  | 1 => .movz p f
  | 2 => .mfence p f
  | _ => .ill p

/-- Class 0xA. -/
def syncClass (p : At) (f : LayY) (op : Nat) : Instr :=
  match op with
  | 0 => .fset p f
  | 1 => .fclr p f
  | 2 => .fwait p f
  | 3 => .fwaitc p f
  | 4 => .cprod p f
  | 5 => .ccons p f
  | 6 => .cwaitr p f
  | 7 => .cwaita p f
  | 8 => .cread p f
  | 9 => .harr p f
  | 10 => .hwait p f
  | 11 => .hbar p f
  | _ => .ill p

/-- Class 0xC. -/
def txClass (p : At) (f : LayA) (op : Nat) : Instr :=
  match op with
  | 0 => .txb p f
  | 1 => .txc p f
  | 2 => .txa p f
  | _ => .ill p

/-- Class 0xD. -/
def exchangeClass (p : At) (f : LayA) (op : Nat) : Instr :=
  match op with
  | 0 => .xcoll p f
  | 1 => .xlag p f
  | _ => .ill p

/-- Class 0xE. -/
def tagClassOp (p : At) (f : LayA) (op : Nat) : Instr :=
  match op with
  | 0 => .tstep p f
  | 1 => .tget p f
  | 2 => .tstat p f
  | 3 => .mepoch p f
  | 4 => .stepb p f
  | _ => .ill p

/-- Class 0xF; 0xF is ILL. -/
def systemClass (p : At) (f : LayZ) (op : Nat) : Instr :=
  match op with
  | 0 => .nop p f
  | 1 => .halt p f
  | 2 => .cstart p f
  | 3 => .cstop p f
  | 4 => .cstate p f
  | 5 => .epost p f
  | 6 => .ifence p f
  | _ => .ill p

/-- The instruction that a 64-bit word spells for a context (R129, R130): the class in [63:60], the operation in [59:56], the
sub-operation of layouts S and V in [39:32]. -/
def decodePrixel (p : At) (w : Word) : Instr :=
  let op := (w.extractLsb' 56 4).toNat
  let sub := w.extractLsb' 32 8
  match (w.extractLsb' 60 4).toNat with
  | 0x0 => scalarClass p (layS w) op sub
  | 0x2 => vectorClass p (layV w) op sub.toNat
  | 0x4 => tileClass p (layT w) op
  | 0x6 => rowClass p (layA w) op
  | 0x8 => moveClass p (layM w) op
  | 0xA => syncClass p (layY w) op
  | 0xC => txClass p (layA w) op
  | 0xD => exchangeClass p (layA w) op
  | 0xE => tagClassOp p (layA w) op
  | 0xF => systemClass p (layZ w) op
  | _ => .ill p

/-- The command that a word spells: a Prixel instruction word for context 0 of core 0 (log entry 60). The table gives no row
any bits, so a word of another length spells none. -/
def decodeTableWord (nbits w : Nat) : Option Instr := if nbits = 64 then some (decodePrixel ⟨0, 0⟩ (BitVec.ofNat 64 w)) else none

end Sys2Proof
end

