-- ==== Sys2Proof/Machine/State.lean ====
section
/-! DEFINITION. The state of the SLG-1200 as plain data: one group of fields per chapter of the
spec, every field with its reset value. Where the spec gives a reset value it stands here; where it
gives none the value is the model's and `notes/assumptions` names it (entries 2 to 6). -/

namespace Sys2Proof.Machine

/-- A sparse table by number; `Tab.get` says what an absent number reads as. -/
abbrev Tab (α : Type) := List (Nat × α)

/-! ### Cores and contexts (chapter "Cores, contexts and engines") -/

/-- A vector register: 128 lanes (an absent lane reads 0), its blight and substituted bits (R135). -/
structure VReg where
  lanes : List (BitVec 32) := []
  blight : Bool := false
  subst : Bool := false
  deriving DecidableEq, Repr

/-- A tile accumulator: anchor, term count, W96 elements (absent reads 0), marks (R100, R135). -/
structure TileAcc where
  anchor : BitVec 10 := 0
  terms : Nat := 0
  elems : Tab (BitVec 128) := []
  blight : Bool := false
  subst : Bool := false
  deriving DecidableEq, Repr

/-- What a waiting context waits for (R312, R315, R319). -/
inductive WaitCond where
  | flag (id : Nat) (set : Bool)
  | below (pair : Nat) (n : Nat)
  | atLeast (pair : Nat) (n : Nat)
  | release (line : Nat) (phase : Nat)
  deriving DecidableEq, Repr

/-- A descheduled wait (R103): the time and CO_CNT_BEATS when it began, its strict budget in beats,
whether its signal has come. -/
structure Wait where
  cond : WaitCond
  since : Nat := 0
  beat : Nat := 0
  budget : Nat := 0
  signalled : Bool := false
  deriving DecidableEq, Repr

/-- Where an operation on the sync stores comes from. -/
inductive SyncSrc where
  | ctx (p : At)
  | unit (part : Nat)
  deriving DecidableEq, Repr

/-- What an operation does at its store (R311 to R315). -/
inductive SyncDo where
  | setFlag (id : Nat)
  | clearFlag (id : Nat)
  | produce (pair : Nat) (n : Nat)
  | consume (pair : Nat) (n : Nat)
  | wait (c : WaitCond)
  | read (pair : Nat) (consumed : Bool) (sr : BitVec 5)
  deriving DecidableEq, Repr

/-- An operation on its way to the store of a die (R307), with its tag word (R30). -/
structure SyncOp where
  src : SyncSrc
  die : Nat
  act : SyncDo
  tag : Word := 0
  deriving DecidableEq, Repr

/-- Why a context that is in its program does not issue (R99, R254, R311). -/
inductive Stall where
  | operand
  | unitFull
  | fence
  | release (op : SyncOp)
  | commit (tx : Nat) (sd : BitVec 5)
  | stopping
  deriving DecidableEq, Repr

/-- Where a read from beyond the scratchpad delivers (R109, R118): a register, or an instruction of the vector or tile
engine that has read `len` bytes for results in some registers, or a product of the tile engine by its number. -/
inductive LoadDest where
  | scalar (r : BitVec 5) (size : Nat) (signed : Bool)
  | vector (r : BitVec 4)
  | engine (len : Nat) (vs : List (BitVec 4)) (as : List (BitVec 2))
  | product (len num : Nat)
  deriving DecidableEq, Repr

/-- A load from beyond the scratchpad that has not delivered yet, with the tag word of its issue (R30); `data` once its
bytes and marks have reached the core before a strict budget ended (R385); `beat` is CO_CNT_BEATS at its issue. -/
structure Load where
  dest : LoadDest
  addr : Word
  beat : Nat := 0
  tag : Word := 0
  data : Option (List Byte × Bool × Bool) := none
  due : Bool := false
  deriving DecidableEq, Repr

/-- A store that is not visible yet, with the tag word of its issue (R30); `num` is its place among the context's
writes. -/
structure Store where
  num : Nat
  addr : Word
  data : List Byte
  blight : Bool := false
  subst : Bool := false
  tag : Word := 0
  deriving DecidableEq, Repr

/-- A move in progress (R152) with the tag word of its issue (R30): `src = none` writes zeros; `bytes` once the source has
been read. -/
structure Move where
  num : Nat
  src : Option Word
  dst : Word
  len : Nat
  ck : BitVec 2
  ct : BitVec 17
  bytes : Option (List Byte) := none
  blight : Bool := false
  subst : Bool := false
  tx : Option Nat := none
  queued : Bool := false
  tag : Word := 0
  deriving DecidableEq, Repr

/-- Who controls a context (R160). -/
inductive Controller where
  | lead
  | ctx (p : At)
  deriving DecidableEq, Repr

/-- The context states of R123 that the part uses. -/
inductive CtxState where
  | idle | ready | stalled | waiting | faulted
  deriving DecidableEq, Repr

/-- A hardware context (R100) with the registers of R122 and R158; `owed` holds fault-flag releases that
wait for its earlier writes (R156), `arrivals` the arrival bits with the phase each stands in (R319). -/
structure Ctx where
  state : CtxState := .idle
  pc : Word := 0
  s : Tab Word := []
  v : Tab VReg := []
  acc : Tab TileAcc := []
  step : BitVec 16 := 0
  txid : BitVec 16 := 0
  stickyBlight : Bool := false
  stickySubst : Bool := false
  watchdog : Bool := false
  wait : Option Wait := none
  stalledOn : Option Stall := none
  owed : List SyncOp := []
  faultCause : BitVec 8 := 0
  faultPc : BitVec 20 := 0
  faultFlag : Option (BitVec 17) := none
  controller : Option Controller := none
  arrivals : Tab (BitVec 32) := []
  loads : List Load := []
  stores : List Store := []
  moves : List Move := []
  nextMove : Nat := 0
  tx : Option Nat := none
  deriving DecidableEq, Repr

/-- What one finished element of a product brings: units on the grid, special code, overflow. -/
structure Partial where
  units : Int := 0
  special : BitVec 2 := 0
  overflow : Bool := false
  deriving DecidableEq, Repr

/-- Where a tile product delivers (R108, R151). -/
inductive TileDest where
  | acc (a : BitVec 2) (parts : List Partial) (terms : Nat)
  | vec (vd : BitVec 4) (regs : List (List (BitVec 32)))
  deriving DecidableEq, Repr

/-- A product in the tile engine: running, or waiting behind the running one (R99); `num` is its core's count of issues
at its own. -/
structure TileJob where
  p : At
  num : Nat := 0
  dest : TileDest
  beats : Nat
  side : Nat
  blight : Bool := false
  subst : Bool := false
  deriving DecidableEq, Repr

/-- Why a strict-order core is frozen (R385, R386). -/
inductive Freeze where
  | load (ctx : Nat)
  | wait (ctx : Nat)
  | full (ctx : Nat)
  | retire
  deriving DecidableEq, Repr

/-- The counters of R126. -/
structure CoreCount where
  beats : Nat := 0
  issued : Nat := 0
  tileBeats : Nat := 0
  sideProducts : Nat := 0
  vecBeats : Nat := 0
  turfBytes : Nat := 0
  qstallBeats : Nat := 0
  desched : Nat := 0
  quiescentNs : Nat := 0
  eccCorr : Nat := 0
  deriving DecidableEq, Repr

/-- A core (R98 the context that issued last, R100, R126), with the entry points of the image loaded last (R162);
`vecEnds` holds, for each instruction that the vector engine has accepted, the beat at which it is done with it (R99). -/
structure Core where
  ctxs : Tab Ctx := []
  tiles : List TileJob := []
  vecEnds : List Nat := []
  frozen : Option Freeze := none
  lastIssued : Nat := 7
  entries : List Nat := []
  cnt : CoreCount := {}
  deriving DecidableEq, Repr

/-! ### Clusters, dies and unit buffers -/

/-- The states of a swath unit (R263). -/
inductive SwState where
  | idle | sweeping | recovering | exporting | digesting
  deriving DecidableEq, Repr

/-- The swath counters of R264. -/
structure SwCount where
  elements : Nat := 0
  commits : Nat := 0
  late : Nat := 0
  skipped : Nat := 0
  blighted : Nat := 0
  guarded : Nat := 0
  replayed : Nat := 0
  discarded : Nat := 0
  txAborts : Nat := 0
  gateNs : Nat := 0
  deriving DecidableEq, Repr

/-- A logical cluster: the settings its steward has applied (R101, R326) and those of the epoch before, which it keeps
(R33), its swath unit (R263). -/
structure Cluster where
  part : Option Nat := none
  strict : Bool := false
  epoch : BitVec 12 := 0
  prevPart : Option Nat := none
  prevStrict : Bool := false
  prevEpoch : BitVec 12 := 0
  sw : SwState := .idle
  divergent : Bool := false
  planValid : Bool := false
  swStep : BitVec 16 := 0
  cnt : SwCount := {}
  vacant : Bool := false
  deriving DecidableEq, Repr

/-- FD_CLMAPn (R17). -/
structure ClMap where
  valid : Bool := false
  unusedCore : Nat := 0
  physical : Nat := 0
  deriving DecidableEq, Repr

/-- A field die's map and spares (R17, R19; cores_free is the number of logical clusters in `spareOk`), and what is
fenced: physical cluster and core, 16 for a whole cluster (R486). -/
structure Die where
  maps : Tab ClMap := []
  clustersFree : Nat := 0
  coresRetired : Nat := 0
  fenced : List (Nat × Nat) := []
  spareOk : List Nat := []
  deriving DecidableEq, Repr

/-- A unit's input buffers: held messages (R33), messages processed with the epoch whose settings
they took, and the discard count (R32). -/
structure UnitBuf where
  held : List Msg := []
  processed : List (Msg × BitVec 12) := []
  discards : Nat := 0
  deriving DecidableEq, Repr

/-! ### Partitions -/

/-- The applied configuration of a partition (R38 to R40). -/
structure PartCfg where
  enable : Bool := false
  serve : Bool := false
  strict : Bool := false
  src : Nat := 0
  port : Nat := 0
  fn : Nat := 0
  clusters : List Nat := []
  deriving DecidableEq, Repr

/-- How far a mode change has come (R324 to R328). -/
inductive ChangePhase where
  | waiting | prepared | aborting | committed
  deriving DecidableEq, Repr

/-- A mode change in progress (R324): the settings it carries and those it replaces, who has arrived on which line, who
lost its staged settings by a reset (R329), and whether the controller holds its own arrival for a step boundary
(R328). -/
structure Change where
  retire : Bool := false
  cfg : PartCfg := {}
  old : PartCfg := {}
  phase : ChangePhase := .waiting
  sentAt : Nat := 0
  members : List Participant := []
  staged : List Participant := []
  lost : List Participant := []
  applied : List Participant := []
  hold : Bool := false
  arrived : Bool := false
  deriving DecidableEq, Repr

/-- An installed table (R173, R174), with the lists its descriptor names and the copied fallback. -/
structure Table where
  rows : Nat := 0
  width : Nat := 0
  fmt : Nat := 0
  escSlots : Nat := 0
  promSlots : Nat := 0
  salt : Word := 0
  newSalt : Word := 0
  cursor : Nat := 0
  resalting : Bool := false
  fallbackAddr : Word := 0
  shadowOn : Bool := false
  shadowObj : Nat := 0
  hot : Nat := 0
  copies : Nat := 0
  windrowObj : Nat := 0
  cacheOn : Bool := false
  cacheShare : Nat := 0
  param : Word := 0
  threshold : Nat := 0
  outliers : List Nat := []
  objs : List Nat := []
  fallback : List Byte := []
  fallbackBad : Bool := false
  counts : Tab Nat := []
  deriving DecidableEq, Repr

/-- An installed object (R175); a mirror names its source object (R405); `oldRec` is the record size of its rows where their
table has been removed since. -/
structure Obj where
  tier : Nat := 0
  kind : Nat := 0
  table : Nat := 0
  mask : BitVec 16 := 0
  firstRow : Nat := 0
  rowCount : Nat := 0
  size : Nat := 0
  verOff : Nat := 0
  base : Nat := 0
  mirrorOf : Option Nat := none
  copied : Bool := true
  oldRec : Nat := 0
  deriving DecidableEq, Repr

/-- An entry of the sweep plan (R229). -/
structure PlanEntry where
  valid : Bool := false
  dense : Bool := false
  block : Bool := false
  moments : Nat := 0
  guard : Bool := false
  digest : Bool := false
  perBlock : Bool := false
  table : Nat := 0
  slot : Nat := 0
  mTable1 : Nat := 0
  mTable2 : Nat := 0
  wDesc : Word := 0
  mDesc1 : Word := 0
  mDesc2 : Word := 0
  accAddr : Word := 0
  seed : Word := 0
  tensor : Word := 0
  consts : List (BitVec 32) := []
  verAddr : Word := 0
  statAddr : Word := 0
  deriving DecidableEq, Repr

/-- The sweep plan (R228); `cover` lists the areas of its dense entries with digest = 1 (R257). -/
structure Plan where
  entries : List PlanEntry := []
  ck : BitVec 2 := 0
  ct : BitVec 17 := 0
  period : Nat := 0
  group : Nat := 0
  report : Word := 0
  shard : Word := 0
  cover : List (Nat × Word × Nat) := []
  deriving DecidableEq, Repr

/-- An entry of a redo record (R245): kind 0 home write, 1 version word, 2 accumulator release; `core` names
the scratchpad that an address of space 0x0 means. -/
structure JEntry where
  addr : Word
  data : List Byte
  kind : Nat := 0
  blight : Bool := false
  subst : Bool := false
  core : Nat := 0
  deriving DecidableEq, Repr

/-- The statistics record of one row block of a plan entry (R94): of the new weights (`which` 0) or of a moment. -/
structure SweepStat where
  entry : Nat
  which : Nat
  block : Nat
  bytes : List Byte
  deriving DecidableEq, Repr

/-- A running sweep (R218 to R221): the row blocks (plan entry and place among the entry's blocks) already
opened and those committed, whether the digest exchange is due, what a replay captures, statistics; a reset
partition's waits for its next step boundary (R530). -/
structure Sweep where
  step : Word := 0
  suspended : Bool := false
  opened : List (Nat × Nat) := []
  committed : List (Nat × Nat) := []
  digestDue : Bool := false
  captured : List (Nat × Nat × List JEntry) := []
  stats : List SweepStat := []
  deriving DecidableEq, Repr

/-- A host command that completes later: its queue, sequence, id and interrupt flag (R440). -/
structure CmdRef where
  q : QRef
  seq : Nat
  id : Word
  intr : Bool
  deriving DecidableEq, Repr

/-- A requested export (R260, R442). -/
structure Export where
  step : Word
  checkpoint : Option Nat
  conn : Nat
  remote : Word
  rkey : BitVec 32
  cmd : CmdRef
  deriving DecidableEq, Repr

/-- A partition's replay (R395), with the sweep steps it held before (R397). -/
structure Replay where
  step : Word
  object : Nat
  swept : Bool := false
  cmd : Option CmdRef := none
  heldStarted : Word := 0
  heldAny : Bool := false
  deriving DecidableEq, Repr

/-- A running import (R262): the sections imported, and the writes of the transactions still to come. -/
structure Import where
  cmd : CmdRef
  sections : Nat
  batches : List (List JEntry)
  deriving DecidableEq, Repr

/-- A remove that waits to take effect (R443). -/
structure Removal where
  isTable : Bool
  num : Nat
  cmd : CmdRef
  deriving DecidableEq, Repr

/-- A partition: its staged and applied configuration, its mode change, its management registers,
and what is installed for it; `nextPlan` is a plan installed while a sweep runs, which the next sweep takes (R221). -/
structure Part where
  stCfg : BitVec 32 := 0
  stMask0 : BitVec 32 := 0
  stMask1 : BitVec 32 := 0
  stMask2 : BitVec 32 := 0
  epoch : BitVec 12 := 0
  busy : Bool := false
  result : BitVec 8 := 0
  cfg : PartCfg := {}
  prevCfg : PartCfg := {}
  change : Option Change := none
  rickStaged : BitVec 32 := 0
  rickActive : Nat := 0
  stageBase : Nat := 0
  stageSize : Nat := 0
  stepHoldS : Nat := 0x1E
  ctxWaitMs : Nat := 0x07D0
  budgetWritten : Nat := 0x04000
  budget : Nat := 0x04000
  keepValid : Bool := false
  keepObj : Nat := 0
  tables : Tab Table := []
  objects : Tab Obj := []
  plan : Option Plan := none
  nextPlan : Option Plan := none
  slots : Tab (List Word) := []
  stepbs : List (At × BitVec 16) := []
  sweep : Option Sweep := none
  sweepDue : List (BitVec 16) := []
  lastStarted : Word := 0
  started : Bool := false
  lastCompleted : Word := 0
  digests : Tab Nat := []
  stale : List Nat := []
  divergent : Bool := false
  replay : Option Replay := none
  exports : List Export := []
  importing : Option Import := none
  removing : List Removal := []
  rotation : List (Nat × Nat × Nat × Nat) := []
  lastDigestOk : Bool := false
  deriving DecidableEq, Repr

/-! ### Row engines, rick cache, windrow, pressure monitor -/

/-- The gather command block (R181, R182), also RGRAD's (R216). -/
structure GatherCmd where
  table : Nat := 0
  pooling : Nat := 0
  idx32 : Bool := false
  outFmt : Nat := 0
  bag : Nat := 0
  empty : Bool := false
  marks : Bool := false
  idxAddr : Word := 0
  offAddr : Word := 0
  wAddr : Word := 0
  outAddr : Word := 0
  stAddr : Word := 0
  count : Nat := 0
  bags : Nat := 0
  deadline : Nat := 0
  ck : BitVec 2 := 0
  ct : BitVec 17 := 0
  deriving DecidableEq, Repr

/-- What an index of a gather names (R180, R185). -/
inductive FetchKind where
  | row (r : Nat)
  | missing
  | invalid
  | unplaced
  deriving DecidableEq, Repr

/-- How a fetch was ended (R191, R194). -/
inductive FetchEnd where
  | pending | delivered | failed | substShadow | substFallback
  deriving DecidableEq, Repr

/-- The descriptors under which a fetch that has started finishes, where an install has replaced them since (R176): the
table's, its partition's objects, and whether the salts now in force hold for them too. -/
structure OldDesc where
  table : Table
  objs : Tab Obj
  follow : Bool
  deriving DecidableEq, Repr

/-- One fetch of a gather: the next source of R179 to try (0 the home die's cache or turf, 1 a replica or the
home, 3 none left), whether the cache missed (R200), the record once read. -/
structure Fetch where
  kind : FetchKind
  source : Nat := 0
  missed : Bool := false
  bytes : Option (List Byte) := none
  blight : Bool := false
  outcome : FetchEnd := .pending
  old : Option OldDesc := none
  deriving DecidableEq, Repr

/-- A command in a cluster's row engine: a gather or a row-gradient command, with the bag offsets and the
weights (FP32 bits, or argmax positions) it has read, whether those were blighted, whether the offsets
broke R184, the next contribution of a row-gradient command and the bags of which a gradient row was blighted, and the
table's descriptor at issue where an install has replaced it since (R176). -/
structure RowJob where
  num : Nat
  p : At
  part : Nat
  grad : Bool := false
  cmd : GatherCmd := {}
  issuedAt : Nat := 0
  tag : Word := 0
  step : BitVec 16 := 0
  offs : List Nat := []
  wts : List Nat := []
  inBlight : Bool := false
  rejected : Bool := false
  fetches : Tab Fetch := []
  next : Nat := 0
  gradBad : List Nat := []
  old : Option Table := none
  deriving DecidableEq, Repr

/-- A way of the rick cache with its decayed count (R198, R200), or a slot of a windrow object, whose `count`
holds the replica's near stack (R204, R206); `ver` is the commit count of the row block's version that it copies (R205),
`blight` tells that its master was last written blighted. -/
structure Way where
  die : Nat
  part : Nat
  table : Nat
  set : Nat
  way : Nat
  row : Nat
  bytes : List Byte
  count : Nat := 0
  ver : Nat := 0
  blight : Bool := false
  deriving DecidableEq, Repr

/-- A scheduled windrow copy (R204, R205). -/
structure RowCopy where
  die : Nat
  part : Nat
  table : Nat
  row : Nat
  deriving DecidableEq, Repr

/-- A running re-salt (R210, R211); one that went on after a reset has no status byte to write. -/
structure Resalt where
  part : Nat
  table : Nat
  p : At
  status : Option Word
  ck : BitVec 2
  ct : BitVec 17
  tag : Word := 0
  deriving DecidableEq, Repr

/-- The pressure monitor (R208, R209): counts of this interval by channel, and by tier × 64 + channel,
partition and table; runs, whether posted. -/
structure Monitor where
  since : Nat := 0
  near : Tab Nat := []
  fallow : Tab Nat := []
  tables : List (Nat × Nat × Nat × Nat) := []
  nearRun : Nat := 0
  fallowRun : Nat := 0
  nearPosted : Bool := false
  fallowPosted : Bool := false
  deriving DecidableEq, Repr

/-- The row engines of the module, with caches and monitors; `turns` holds by channel the cluster whose row engine it has
served last (R215). -/
structure RowState where
  turns : Tab Nat := []
  jobs : List RowJob := []
  nextJob : Nat := 0
  sketch : Tab Nat := []
  sketchIncs : Tab Nat := []
  rick : List Way := []
  windrow : List Way := []
  copies : List RowCopy := []
  resalts : List Resalt := []
  monitor : Monitor := {}
  deriving DecidableEq, Repr

/-! ### Transactions and the journal -/

/-- Who opened a transaction. -/
inductive TxOrigin where
  | context (p : At)
  | sweep (entry block : Nat)
  | resalt (table group : Nat)
  | permute (coll : Nat) (first count : Nat)
  | imported
  | background
  deriving DecidableEq, Repr

/-- The phases of R239; `opened` is an explicit transaction before TXC. -/
inductive TxPhase where
  | opened | preparing | durable | retired
  deriving DecidableEq, Repr

/-- A transaction (R239, R251 to R255); `others` lists the granules that other transactions have committed
since it began (R253), `checks` version words that must not have changed (R205, R211). A sweep's also holds the elements
it covers, whether its guard stopped it, the blighted rows it passed over, the blocks clamped by table. -/
structure Tx where
  num : Nat
  part : Nat
  coord : Nat
  step : Word := 0
  txid : BitVec 16 := 0
  epoch : BitVec 12 := 0
  origin : TxOrigin
  entries : List JEntry := []
  checks : List (Word × Nat) := []
  phase : TxPhase := .opened
  prepared : List Nat := []
  cluster : Nat := 0
  others : List Nat := []
  overSize : Bool := false
  badRedo : Bool := false
  gateSince : Option Nat := none
  elems : Nat := 0
  guarded : Bool := false
  skipped : List Nat := []
  clamps : Tab Nat := []
  deriving DecidableEq, Repr

/-- The states of a journal record (R244). -/
inductive JState where
  | writing | prepared | durable | applied | free
  deriving DecidableEq, Repr

/-- A journal record (R244): type 1 sweep redo, 2 explicit redo, 3 commit, 4 pad; `crc` is the CRC of the entries that its
header holds. -/
structure JRec where
  die : Nat
  tx : Nat
  part : Nat
  type : Nat
  state : JState := .writing
  off : Nat := 0
  len : Nat := 0
  coord : Nat := 0
  mask : List Nat := []
  step : Word := 0
  seq : Nat := 0
  tag : Word := 0
  crc : BitVec 32 := 0
  entries : List JEntry := []
  cluster : Nat := 0
  deriving DecidableEq, Repr

/-- Transactions, the journal rings, freed records that nothing has overwritten yet (R478), and partitions in recovery (R247). -/
structure TxState where
  txs : List Tx := []
  nextTx : Nat := 0
  journal : List JRec := []
  freed : List JRec := []
  waiting : List JRec := []
  heads : Tab Nat := []
  seqs : List (Nat × Nat × Nat) := []
  recovering : List Nat := []
  deriving DecidableEq, Repr

/-! ### Flags, counter pairs, hedgerow lines -/

/-- A hedgerow line with MGT_LINEk_CFG and MGT_LINEk_STATUS (R330, R331). -/
structure Line where
  jobWide : Bool := false
  leadNs : Nat := 0x07D0
  curJobWide : Bool := false
  curLead : Nat := 0x07D0
  phase : BitVec 32 := 0
  opened : Bool := false
  lateLast : Bool := false
  expected : Nat := 0
  arrived : Nat := 0
  reports : List (Nat × BitVec 32 × Nat) := []
  ownT : Option Nat := none
  releaseAt : Option Nat := none
  deriving DecidableEq, Repr

/-- A wait registered at a store (R313). -/
structure Waiter where
  p : At
  cond : WaitCond
  deriving DecidableEq, Repr

/-- A HARR arrival on its way to its cluster steward (R307). -/
structure Arrival where
  p : At
  line : Nat
  n : Nat
  pc : Word := 0
  tag : Word := 0
  deriving DecidableEq, Repr

/-- The sync stores of the eight dies, and the lines. Flags that are set are listed by their 17-bit
id; pairs are keyed by their 17-bit id and hold (produced, consumed). -/
structure SyncState where
  flags : List Nat := []
  pairs : Tab (Nat × Nat) := []
  inflight : List SyncOp := []
  waiters : List Waiter := []
  wakes : List At := []
  lines : Tab Line := []
  arrivals : List Arrival := []
  deriving DecidableEq, Repr

/-! ### Memory tiers -/

/-- The reservations of R298: serve, training, checkpoint, scrub. -/
structure Rsv where
  serve : BitVec 16 := 0
  training : BitVec 16 := 0
  checkpoint : BitVec 16 := 0
  scrub : BitVec 16 := 0
  deriving DecidableEq, Repr

/-- A near stack's or a fallow channel's status (R303, R304) and counters (R305); `rowErrs` counts a stack's corrected errors
by DRAM row within its scrub sweep (R291). -/
structure MemSt where
  level : Nat := 0
  nextLevel : Nat := 0
  shedding : Bool := false
  temp : Nat := 0
  throttle : Nat := 0
  critical : Nat := 0
  belowSince : Option Nat := none
  remapsFree : Nat := 0
  rowErrs : Tab Nat := []
  pendingRows : List Nat := []
  past90 : Bool := false
  past98 : Bool := false
  capped : Bool := false
  credits : List (Nat × Nat × Nat) := []
  bytes : List Nat := [0, 0, 0, 0, 0]
  shedWindows : Nat := 0
  outOfService : Bool := false
  deriving DecidableEq, Repr

/-- A bale directory entry (R285). -/
structure Bale where
  raw : Bool := false
  chunks : List Nat := []
  deriving DecidableEq, Repr

/-- A write into the fallow tier that has not been done (R287): bale, offset in it, bytes, marks; `waits` once it has found
too few free chunks (R288). -/
structure FallowPut where
  channel : Nat
  bale : Nat
  offset : Nat
  data : List Byte
  blight : Bool
  subst : Bool := false
  p : At
  move : Nat
  waits : Bool := false
  deriving DecidableEq, Repr

/-- A whole reservation table (R277). -/
structure RsvTable where
  near : Tab Rsv := []
  fallow : Tab Rsv := []
  rick : List Nat := []
  deriving DecidableEq, Repr

/-- The memory tiers' control state. -/
structure TierState where
  nearStaged : Tab Rsv := []
  fallowStaged : Tab Rsv := []
  nearActive : Tab Rsv := []
  fallowActive : Tab Rsv := []
  pending : Option RsvTable := none
  memBusy : Bool := false
  memDetail : BitVec 8 := 0
  memResult : BitVec 8 := 0
  nears : Tab MemSt := []
  chans : Tab MemSt := []
  dir : Tab Bale := []
  fallowQ : List FallowPut := []
  remapped : List (Nat × Nat) := []
  lastWindow : Nat := 0
  deriving DecidableEq, Repr

/-! ### Peer links, membership, collectives -/

/-- PL_LINKk_STATUS states (R371). -/
inductive LinkSt where
  | off | training | up | down | unlicensed
  deriving DecidableEq, Repr

/-- An inbound data flit at an exchange unit: when it came, and the tag word it got here (R338). -/
structure InFlit where
  came : Nat
  tag : Word
  flit : Flit
  deriving DecidableEq, Repr

/-- A peer link (R333 to R344, R371, R372): `queued` holds flits with the partition whose job they belong to, 8 for the
link's own; `retryTimes` the times at which flits were replayed, `credits` what may be
sent by order class, `freed` what the next keepalive returns. -/
structure Link where
  st : LinkSt := .off
  lanes : BitVec 5 := 0
  width : Nat := 0
  failed : List Nat := []
  peerResetting : Bool := false
  peerLink : Nat := 0
  peer : Word := 0
  txSeq : BitVec 12 := 0
  rxSeq : BitVec 12 := 0
  replay : List Flit := []
  queued : List (Nat × Flit) := []
  discarding : Bool := false
  retryTimes : List (BitVec 12 × Nat) := []
  credits : List Nat := []
  freed : List Nat := []
  lastGood : Nat := 0
  lastKeep : Nat := 0
  downAt : Nat := 0
  advRoot : Option (Word × Nat × Word) := none
  cnt : List Nat := [0, 0, 0, 0, 0, 0, 0, 0]
  deriving DecidableEq, Repr

/-- PL_TIME_STATUS and PL_TIME_ROOT (R373) with the steering of R347. -/
structure TimeSync where
  inSync : Bool := false
  parentLink : Nat := 0x1F
  depth : Nat := 0
  offsetPs : Int := 0
  root : Word := 0
  goodSince : Option Nat := none
  locked : Bool := false
  stepped : Bool := false
  ratePpm : Int := 0
  deriving DecidableEq, Repr

/-- A topology search (R348 to R350). -/
structure Search where
  highest : Nat := 0
  serving : Bool := false
  own : Bool := false
  initiator : Word := 0
  parent : Nat := 0x1F
  children : List Nat := []
  restarts : Nat := 0
  reports : List (Word × List (Word × Nat × Nat)) := []
  object : Nat := 0
  part : Nat := 0
  cmd : Option CmdRef := none
  deriving DecidableEq, Repr

/-- A membership image (R352). -/
structure MemImage where
  epoch : BitVec 32 := 0
  own : Nat := 0
  members : List (Word × Nat) := []
  groups : List (List Nat) := []
  routes : List Nat := []
  deriving DecidableEq, Repr

/-- A partition's membership (R353 to R358, R375) and its exchange registers and counters (R374,
R376). -/
structure Member where
  image : MemImage := {}
  installed : Bool := false
  quarantined : Bool := false
  fenceEpoch : BitVec 32 := 0
  pending : Option MemImage := none
  pendCmd : Option CmdRef := none
  held : List (Flit × Nat × Nat) := []
  heldReports : List (Nat × Nat × BitVec 32 × BitVec 32 × Nat × Nat) := []
  fencedAt : Tab Nat := []
  ringStepMs : Nat := 0x01F4
  cnt : List Nat := [0, 0, 0, 0, 0, 0]
  deriving DecidableEq, Repr

/-- The collective command block (R359, R360). -/
structure CollCmd where
  kind : Nat := 0
  op : Nat := 0
  group : Nat := 0
  rings : Nat := 0
  inFmt : Nat := 0
  outFmt : Nat := 0
  histBase : BitVec 8 := 0
  inPlace : Bool := false
  inAddr : Word := 0
  outAddr : Word := 0
  cntAddr : Word := 0
  elems : Nat := 0
  stAddr : Word := 0
  statAddr : Word := 0
  buffers : Nat := 0
  bufSize : Nat := 0
  shards : Nat := 0
  ck : BitVec 2 := 0
  ct : BitVec 17 := 0
  deriving DecidableEq, Repr

/-- The phases of R361. -/
inductive CollPhase where
  | submitted | counts | exponents | reduce | gather | direct | ended
  deriving DecidableEq, Repr

/-- A collective in progress (R359 to R369); `no` is its number within its group and step (R338). `sums` holds the carried sum of each element that has
been added so far, `joined` how many contributions of other members it has, `crossed` that another ring's is among them (R363); `stepMs` is
the bound of the ring step that runs (R374); `got` the elements whose final value has
arrived or been formed; `sentLocal` the pieces of an in-place permute that are in commit; `late` the lateness by member; `lateAcc` that it came too late
for an accumulator (R219). -/
structure Coll where
  num : Nat
  no : Nat := 0
  part : Nat
  p : At
  tag : Word := 0
  step : BitVec 16 := 0
  cmd : CollCmd := {}
  phase : CollPhase := .submitted
  totalShards : Nat := 0
  counts : List Nat := []
  exps : List Int := []
  sums : Tab Partial := []
  joined : Tab Nat := []
  crossed : Tab Nat := []
  got : Tab Nat := []
  sentLocal : List (Nat × Nat) := []
  committed : Nat := 0
  ringSteps : Nat := 0
  readyAt : Nat := 0
  stepMs : Nat := 0x01F4
  startedAt : Nat := 0
  late : List (Nat × Nat) := []
  lateAcc : Bool := false
  blight : Bool := false
  subst : Bool := false
  under : Nat := 0
  inbox : List InFlit := []
  status : BitVec 8 := 0
  stalled : BitVec 32 := 0xFFFFFFFF
  deriving DecidableEq, Repr

/-- The lateness of the peers of one collective of an exchange unit (R367, R370). -/
structure LagRec where
  die : Nat
  part : Nat
  late : List (Nat × Nat)
  deriving DecidableEq, Repr

/-- The peer links and the exchange units: collectives, the next number within a partition's group and step,
data flits of collectives that no context has submitted yet, lateness records. -/
structure LinkState where
  links : Tab Link := []
  time : TimeSync := {}
  search : Search := {}
  members : Tab Member := []
  colls : List Coll := []
  nextColl : Nat := 0
  collNums : List (Nat × Nat × BitVec 16 × Nat) := []
  early : List InFlit := []
  lag : List LagRec := []
  deriving DecidableEq, Repr

/-! ### Host ports -/

/-- A submission entry fetched and not yet started (R436). -/
structure Fetched where
  seq : Nat
  desc : List Byte
  deriving DecidableEq, Repr

/-- A command that has been started and waits for its indirect block, or has it (R439). -/
structure Started where
  seq : Nat
  desc : List Byte
  block : Option (List Byte) := none
  deriving DecidableEq, Repr

/-- The queue states of R465. -/
inductive QState where
  | disabled | running | error
  deriving DecidableEq, Repr

/-- A queue pair (R436 to R440, R463 to R465). -/
structure Queue where
  sqBase : Word := 0
  cqBase : Word := 0
  enable : Bool := false
  sizeLog2 : Nat := 0
  vector : Nat := 0
  holdoff : Nat := 0x02
  state : QState := .disabled
  cause : BitVec 8 := 0
  tail : Nat := 0
  head : Nat := 0
  fetchSeq : Nat := 0
  cqHead : Nat := 0
  cqTail : Nat := 0
  posted : Nat := 0
  reserved : Nat := 0
  fetched : List Fetched := []
  started : Option Started := none
  running : List Nat := []
  stopping : Bool := false
  nextCfg : BitVec 32 := 0
  readsOut : Nat := 0
  deriving DecidableEq, Repr

/-- An MSI-X vector (R446) with its table entry (R547). -/
structure Vec where
  addr : Word := 0
  data : BitVec 32 := 0
  pending : Bool := false
  masked : Bool := true
  lastSent : Option Nat := none
  holdoff : Nat := 0
  deriving DecidableEq, Repr

/-- An error record (R468). -/
structure ErrRec where
  cls : BitVec 8 := 0
  cause : BitVec 8 := 0
  unit : BitVec 8 := 0
  loc : BitVec 32 := 0
  seq : Nat := 0
  time : Nat := 0
  tag : Word := 0
  addr : Word := 0
  tbl : BitVec 32 := 0
  count : Nat := 1
  detail : Word := 0
  deriving DecidableEq, Repr

/-- A host error ring (R473, R493 to R495); `overRec` is its overflow record while not final. -/
structure ErrRing where
  base : Word := 0
  enable : Bool := false
  sizeLog2 : Nat := 0
  vector : Nat := 0
  holdoff : Nat := 0x02
  tail : Nat := 0
  head : Nat := 0
  written : Nat := 0
  overRec : Option ErrRec := none
  deriving DecidableEq, Repr

/-- What the part sends: upstream requests of R435, datagrams and RDMA of chapter "Host ports,
command queues and network ports", flits (R339), management and DOE messages, TDO bits. -/
inductive Out where
  | completion (q : QRef) (entry : Nat) (seq : Nat) (id : Word) (result : Word) (status detail : BitVec 16) (phase : Bool)
  | hostData (f : FuncRef) (addr : Word) (bytes : List Byte)
  | errRing (f : FuncRef) (entry : Nat) (r : ErrRec) (phase : Bool)
  | msix (f : FuncRef) (vector : Nat) (addr : Word) (data : BitVec 32)
  | datagram (port : Nat) (route payload : List Byte)
  | rdmaWrite (part conn : Nat) (remote : Word) (rkey : BitVec 32) (bytes : List Byte)
  | rdmaReply (part conn : Nat) (ok : Bool) (bytes : List Byte)
  | flit (link : Nat) (f : Flit)
  | search (link : Nat) (m : SearchMsg)
  | digest (part dst : Nat) (step : Word) (d : PeerDigest) (tag : Word)
  | control (part : Nat) (u : Participant) (what : Nat) (tag : Word)
  | mctp (bytes : List Byte)
  | doe (port : Nat) (bytes : List Byte)
  | tdo (bits : List Bool)
  deriving DecidableEq, Repr

/-- A function (R433, R447, R467); `late` counts block reads still out when a Function Level Reset came (R448). -/
structure Func where
  queues : Tab Queue := []
  busMaster : Bool := false
  held : List Out := []
  vectors : Tab Vec := []
  err : ErrRing := {}
  cnt : List Nat := [0, 0, 0, 0]
  late : Nat := 0
  deriving DecidableEq, Repr

/-- A host port (R433, R466). -/
structure HPort where
  up : Bool := false
  rate : Nat := 0
  width : Nat := 0
  perm : BitVec 32 := 0
  deriving DecidableEq, Repr

/-- The host ports; functions are keyed by port × 32 + function. -/
structure HostState where
  ports : Tab HPort := []
  funcs : Tab Func := []
  deriving DecidableEq, Repr

/-! ### Network ports -/

/-- A network port (R450, R451). -/
structure NPort where
  up : Bool := false
  lanes : BitVec 8 := 0
  fec : Nat := 0
  ip4 : Word := 0
  ip6hi : Word := 0
  ip6lo : Word := 0
  udp : Word := 0x000000004C404C41
  deriving DecidableEq, Repr

/-- A RoCEv2 connection (R452, R453): its parameters, its rate share in 1/65,536. -/
structure Conn where
  params : List Byte
  rate : Nat := 65536
  since : Nat := 0
  deriving DecidableEq, Repr

/-- A registered region (R452). -/
structure Region where
  object : Nat
  write : Bool
  read : Bool
  deriving DecidableEq, Repr

/-- A record of a stream (R459, R460): where its entry starts, counted from the stream's first byte, the pad before
it, and whether it follows a tear. -/
structure PartialRec where
  seq : Nat
  length : Nat
  next : Nat
  at_ : Nat
  first : Nat
  last : Nat
  pad : Nat := 0
  tear : Bool := false
  deriving DecidableEq, Repr

/-- An open record stream (R456 to R461): whole records that wait for the hold-up gate in `publishing`, the bytes
that its entries have taken so far in `wpos`, the credit last sent. -/
structure Stream where
  die : Nat
  offset : Nat
  size : Nat
  pair : Nat
  partialRec : Option PartialRec := none
  lastSeq : Option Nat := none
  discarded : List Nat := []
  torn : Bool := false
  wpos : Nat := 0
  credited : Nat := 0
  creditAt : Nat := 0
  publishing : List PartialRec := []
  port : Nat := 0
  route : List Byte := []
  deriving DecidableEq, Repr

/-- A placed serve request (R410 to R417); the state byte itself lies in the slot in turf. -/
structure Slot where
  index : Nat
  seq : Nat
  id : Word
  deadline : Nat
  step : Word
  route : List Byte
  port : Nat
  held : Bool := false
  lost : Bool := false
  expired : Bool := false
  blight : Bool := false
  subst : Bool := false
  deriving DecidableEq, Repr

/-- A queued serve request (R422). -/
structure Queued where
  bytes : List Byte
  arrived : Nat
  deadline : Nat
  route : List Byte
  port : Nat
  deriving DecidableEq, Repr

/-- A serve partition's intake (R409 to R432). -/
structure Serve where
  intake : Bool := false
  held : Bool := false
  holdUs : Nat := 0x3E8
  guardNs : Nat := 0x07D0
  ring : Word := 0
  links : Word := 0
  fallback : Word := 0
  slots : List Slot := []
  queue : List Queued := []
  nextSeq : Nat := 0
  cnt : List Nat := [0, 0, 0, 0, 0, 0, 0, 0]
  deriving DecidableEq, Repr

/-- The network ports and what runs over them; per-partition tables are keyed by
partition × 4,096 + number; `closed` holds the streams of a restored loss set with their pairs (R517). -/
structure NetState where
  ports : Tab NPort := []
  conns : Tab Conn := []
  regions : Tab Region := []
  streams : Tab Stream := []
  closed : Tab (Stream × Nat × Nat) := []
  streamCnt : Tab (List Nat) := []
  serve : Tab Serve := []
  holdPoint : Tab Nat := []
  fragDropped : Nat := 0
  nextRkey : Nat := 0
  ckpts : Tab (List Byte) := []
  deriving DecidableEq, Repr

/-! ### Errors, scrubbing, retirement, firmware -/

/-- A merge interval of class 0x04 (R472). -/
structure Merge where
  unit : UnitRef
  cause : Nat
  until_ : Nat
  count : Nat := 0
  tag : Word := 0
  tbl : Nat := 0
  parts : List Nat := []
  deriving DecidableEq, Repr

/-- A tier's scrubber (R476, R496). -/
structure Scrub where
  enable : Bool := true
  periodH : Nat := 0
  active : Bool := false
  startedAt : Nat := 0
  seen : List Nat := []
  deriving DecidableEq, Repr

/-- How far a retirement has come (R482). -/
inductive RetirePhase where
  | fenced | drained | copied
  deriving DecidableEq, Repr

/-- A retirement in progress (R480 to R485): its choice (1 core spare, 2 cluster spare), the moved cores, what froze them
before. -/
structure Retiring where
  kind : RetireKind
  number : Nat
  choice : Nat
  part : Option Nat
  phase : RetirePhase := .fenced
  cores : List Nat := []
  wasFrozen : Tab (Option Freeze) := []
  deriving DecidableEq, Repr

/-- A firmware image in the barrow store (R487); an empty digest is that of the image the part was shipped with. -/
structure FwImage where
  digest : List Byte := []
  security : Nat := 0
  version : Nat := 0
  verified : Bool := true
  deriving DecidableEq, Repr

/-- A firmware handover (R488). -/
structure Handover where
  switched : List Nat := []
  deriving DecidableEq, Repr

/-- Error records, scrubbers, retirement, firmware. -/
structure ErrState where
  log : List ErrRec := []
  nextSeq : Nat := 0
  readAll : Bool := true
  merges : List Merge := []
  corrected : List (UnitRef × Nat) := []
  hourMark : Nat := 0
  scrub0 : Scrub := { periodH := 0x0006 }
  scrub1 : Scrub := { periodH := 0x0018 }
  scrub2 : Scrub := { periodH := 0x0048 }
  repairs : List Nat := []
  retireKind : RetireKind := .core
  retireNumber : Nat := 0
  retireResult : BitVec 5 := 0
  retireAsk : Option (RetireKind × Nat) := none
  retiring : Option Retiring := none
  retireQ : List (RetireKind × Nat × RetireWhy) := []
  fwActive : Bool := false
  fwBusy : Bool := false
  fwResult : BitVec 5 := 0
  fwA : FwImage := {}
  fwB : FwImage := {}
  handover : Option Handover := none
  memberLosses : Nat := 0
  deriving DecidableEq, Repr

/-! ### Power and hold-up -/

/-- A field die's rail (R502 to R507, R519, R520). -/
structure Rail where
  target : Nat := 0x2D0
  present : Nat := 0
  applied : Nat := 0
  paceShare : Nat := 0
  temp : Nat := 0
  deriving DecidableEq, Repr

/-- The hold states of R521. -/
inductive Hold where
  | normal | saving | saved | qualifying
  deriving DecidableEq, Repr

/-- A saved loss-set copy (R514, R517, R533): its partitions' saved configuration and keep objects,
the journals, staging and kept bytes. -/
structure LossSet where
  age : Nat
  warm : Bool
  parts : Tab Part
  journal : List JRec
  mem : List Host.Cell
  poison : List Nat
  tiers : TierState
  members : Tab Member
  lines : Tab Line
  serve : Tab Serve
  dies : Tab Die
  streams : Tab Stream
  pairs : Tab (Nat × Nat)
  deriving DecidableEq, Repr

/-- Power controller and hold-up bank; `inputs` the readings of the last 1 ms (R506), `gated` writes of MGT_PARTn_KEEP
(true) and MGT_PARTn_STAGE that wait for the hold-up gate (R513). -/
structure PowerState where
  limitW : Nat := 0x12C0
  rails : Tab Rail := []
  domains : List Nat := [23]
  hold : Hold := .normal
  saveDone : Bool := false
  returnedAt : Option Nat := none
  bankJ : Nat := 0
  hottest : Nat := 0
  energyMj : Nat := 0
  copies : List LossSet := []
  nextAge : Nat := 0
  lent : List UnitRef := []
  activeAt : List (UnitRef × Nat) := []
  inputs : List Nat := []
  gated : List (Nat × Bool × Word) := []
  deriving DecidableEq, Repr

/-! ### Bring-up, identity, registers, management -/

/-- A stage report record (R526). -/
structure Report where
  outcome : BitVec 8 := 0xFF
  firstUnit : BitVec 16 := 0xFFFF
  faulty : BitVec 32 := 0
  start : Nat := 0
  stop : Nat := 0
  count : Nat := 0
  detail : List Byte := []
  deriving DecidableEq, Repr

/-- Bring-up (R524 to R527, R542), resets (R544) and routes (R25); `since` the time the stage that runs began, `archive`
the reports in the log area with their stages (R294). -/
structure BootState where
  stage : BitVec 8 := 0
  state : BitVec 2 := 0
  degraded : Bool := false
  restored : Bool := false
  reports : Tab Report := []
  count : Nat := 0
  coldHold : Bool := false
  keepMemory : Bool := false
  rstBusy : Bool := false
  rstLevel : BitVec 3 := 0
  rstKeep : Bool := false
  rstResult : BitVec 2 := 0
  rstTarget : Nat := 0
  routes : List (Nat × Nat × List Nat) := []
  since : Nat := 0
  archive : Tab Report := []
  deriving DecidableEq, Repr

/-- A stored licence (R539). -/
structure Licence where
  seq : Nat := 0
  variant : BitVec 8 := 3
  bytes : List Byte := []
  deriving DecidableEq, Repr

/-- The identity and licence store (R539 to R543). -/
structure IdState where
  variant : BitVec 8 := 0
  seq : Nat := 0
  busy : Bool := false
  result : BitVec 8 := 0
  data : Tab Byte := []
  stored : Licence := {}
  deriving DecidableEq, Repr

/-- An accessor's holding registers of one block (R557). -/
structure Holding where
  who : Accessor
  block : Block
  time : Nat
  values : Tab Nat
  deriving DecidableEq, Repr

/-- ACC_ERR of a block (R555). -/
structure AccErr where
  block : Block
  count : Nat
  offset : Nat
  deriving DecidableEq, Repr

/-- An answer that an accessor receives. -/
structure Response where
  who : Accessor
  status : BitVec 8
  value : Word
  deriving DecidableEq, Repr

/-- Register access (chapter "Register access and the register map"); `deferred` writes of CNT_CTRL of moved cores that
wait until a retirement ends (R561); `stalled` reads of NOW and ACC_ERR (the common registers 3 and 4), with their widths,
stall until the unit can be reached (R10, R552). -/
structure RegState where
  holds : List Holding := []
  stalled : List (Accessor × Block × Nat × Nat) := []
  deferred : List (Accessor × Block × Word) := []
  accErr : List AccErr := []
  responses : List Response := []
  deriving DecidableEq, Repr

/-- A vendor-defined request on the management bus (R573). -/
inductive MgmtCmd where
  | read (r : MgmtReq)
  | write (r : MgmtReq) (value : Word)
  | log (tag count : Nat) (first : Word)
  deriving DecidableEq, Repr

/-- The management bus and the sideband pins (R567, R571); `waiting` are the requests that are outstanding because the
first of them waits for a unit that a hold has frozen (R574). -/
structure MgmtState where
  waiting : List MgmtCmd := []
  eid : Byte := 0
  modResetLow : Bool := false
  pwrOk : Bool := false
  deriving DecidableEq, Repr

/-- The TAP's instructions (R575, R576). -/
inductive TapIr where
  | bypass | idcode | sample | extest | clamp | highz
  deriving DecidableEq, Repr

/-- The test access port. -/
structure TapState where
  ir : TapIr := .idcode
  boundary : List Bool := []
  driving : Bool := false
  highz : Bool := false
  deriving DecidableEq, Repr

/-- Why the machine stops with a fault. No meaning of this model faults: what the spec calls a
fault is a next state (R156), and no access leaves the address spaces without one. -/
inductive Fault where
  /-- Raised by no command; safe. -/
  | none_
  deriving DecidableEq, Repr

/-- Why a command is refused. -/
inductive Refusal where
  /-- The command of this mnemonic has no meaning yet; raised by no arm of `exec`; safe. -/
  | notModelled (mnemonic : String)
  deriving DecidableEq, Repr

/-- The state of the module. -/
structure State where
  pending : List Instr := []
  now : Nat := 0
  free : Nat := 0
  mem : List Host.Cell := []
  poison : List Nat := []
  substd : List Nat := []
  cores : Tab Core := []
  clusters : Tab Cluster := []
  dies : Tab Die := []
  units : List (UnitRef × UnitBuf) := []
  parts : Tab Part := []
  applyQ : List (Nat × PartCfg × Bool) := []
  row : RowState := {}
  tx : TxState := {}
  sync : SyncState := {}
  tiers : TierState := {}
  link : LinkState := {}
  host : HostState := {}
  net : NetState := {}
  errs : ErrState := {}
  power : PowerState := {}
  boot : BootState := {}
  ident : IdState := {}
  regs : RegState := {}
  mgmt : MgmtState := {}
  tap : TapState := {}
  out : List Out := []
  deriving DecidableEq, Repr

/-- The module right after reset: domain 23 alone powered, bring-up not begun (16 "Bring-up stages",
R51), every register at its reset value, no command waiting. -/
def State.reset : State := {}

end Sys2Proof.Machine
end

