-- ==== Sys2Proof/Machine/Bits.lean ====
section
/-! DEFINITION. Helpers that the whole model shares: sparse tables, little-endian byte lists, field
extraction, mix64 (R177), CRC-32 (R162, R244), SHA-256 and SHA-384 (R256, R536). -/

namespace Sys2Proof.Machine

/-! ### Sparse tables -/

/-- What number `k` holds, `d` where the table does not list it. -/
def Tab.get {α : Type} (d : α) : Tab α → Nat → α
  | [], _ => d
  | (j, a) :: t, k => if j = k then a else Tab.get d t k

/-- What number `k` holds, if it is listed. -/
def Tab.find {α : Type} : Tab α → Nat → Option α
  | [], _ => none
  | (j, a) :: t, k => if j = k then some a else Tab.find t k

/-- Number `k` holds `a` now; every other number is as before. -/
def Tab.set {α : Type} : Tab α → Nat → α → Tab α
  | [], k, a => [(k, a)]
  | (j, b) :: t, k, a =>
    if j = k then (k, a) :: t
    else if k < j then (k, a) :: (j, b) :: t
    else (j, b) :: Tab.set t k a

/-- Number `k` is listed no more. -/
def Tab.del {α : Type} (t : Tab α) (k : Nat) : Tab α := t.filter (fun x => x.1 ≠ k)

/-- Change what number `k` holds. -/
def Tab.upd {α : Type} (d : α) (t : Tab α) (k : Nat) (f : α → α) : Tab α := t.set k (f (t.get d k))

/-! ### Lists -/

/-- The list without its element at position `n`. -/
def dropAt {α : Type} : List α → Nat → List α
  | [], _ => []
  | _ :: t, 0 => t
  | a :: t, n + 1 => a :: dropAt t n

/-- The list with position `n` changed. -/
def updAt {α : Type} (f : α → α) : List α → Nat → List α
  | [], _ => []
  | a :: t, 0 => f a :: t
  | a :: t, n + 1 => a :: updAt f t n

/-- The list with `a` in it once. -/
def addOnce {α : Type} [DecidableEq α] (l : List α) (a : α) : List α := if a ∈ l then l else l ++ [a]

/-- Ascending insertion without repeats. -/
def insertNat : List Nat → Nat → List Nat
  | [], k => [k]
  | j :: t, k => if k = j then j :: t else if k < j then k :: j :: t else j :: insertNat t k

/-! ### Bits and bytes -/

/-- Bits [hi:lo] of a number. -/
def fld (w : Nat) (hi lo : Nat) : Nat := (w >>> lo) % 2 ^ (hi + 1 - lo)

/-- Bit `n` of a number. -/
def bitAt (w n : Nat) : Bool := fld w n n = 1

/-- A Bool as 0 or 1. -/
def b2n (b : Bool) : Nat := if b then 1 else 0

/-- The little-endian number of a byte list (R8 conventions). -/
def leNat : List Byte → Nat
  | [] => 0
  | b :: t => b.toNat + 256 * leNat t

/-- `n` little-endian bytes of a number. -/
def leBytes : Nat → Nat → List Byte
  | 0, _ => []
  | n + 1, w => BitVec.ofNat 8 w :: leBytes n (w / 256)

/-- `n` bytes of a list from `off`, zero beyond its end. -/
def slice (l : List Byte) (off n : Nat) : List Byte :=
  let t := (l.drop off).take n
  t ++ List.replicate (n - t.length) 0

/-- The little-endian field of `n` bytes at `off`. -/
def leAt (l : List Byte) (off n : Nat) : Nat := leNat (slice l off n)

/-- Whether `n` bytes from `off` are all zero. -/
def zeroAt (l : List Byte) (off n : Nat) : Bool := leAt l off n = 0

/-- Pad with zeros to a multiple of `m`. -/
def padTo (m : Nat) (l : List Byte) : List Byte := l ++ List.replicate ((m - l.length % m) % m) 0

/-- The number read as a two's-complement integer of `w` bits. -/
def signed (w n : Nat) : Int := if n % 2 ^ w < 2 ^ (w - 1) then (n % 2 ^ w : Nat) else ((n % 2 ^ w : Nat) : Int) - 2 ^ w

/-- An integer as a number of `w` bits, two's complement. -/
def unsignedOf (w : Nat) (i : Int) : Nat := (i % (2 ^ w : Int)).toNat

/-- Saturating 64-bit count (R126, R96). -/
def sat64 (n : Nat) : Nat := min n (2 ^ 64 - 1)

/-- Quotient rounded up. -/
def ceilDiv (a b : Nat) : Nat := (a + b - 1) / b

/-! ### mix64 (R177) and the generator (R390) -/

/-- mix64 of R177. -/
def mix64 (x : Word) : Word :=
  let x := x ^^^ (x >>> 31)
  let x := x * 0x9E6D2C4B7F1A3B05#64
  let x := x ^^^ (x >>> 29)
  let x := x * 0xC2B35A17D04E8F69#64
  x ^^^ (x >>> 32)

/-- key of R390. -/
def rngKey (seed step tensor : Word) : Word :=
  mix64 (mix64 (mix64 (seed ^^^ 0x5EED000000000001#64) ^^^ step) ^^^ tensor)

/-- word of R390. -/
def rngWord (k element : Word) : Word := mix64 (k ^^^ mix64 (element + 0x632BE59BD9B4E019#64))

/-! ### CRC-32 of IEEE 802.3 -/

/-- One bit of the reflected CRC-32. -/
def crcBit (c : BitVec 32) : BitVec 32 := if c.getLsbD 0 then (c >>> 1) ^^^ 0xEDB88320#32 else c >>> 1

/-- One byte of the reflected CRC-32. -/
def crcByte (c : BitVec 32) (b : Byte) : BitVec 32 :=
  let c := c ^^^ b.setWidth 32
  crcBit (crcBit (crcBit (crcBit (crcBit (crcBit (crcBit (crcBit c)))))))

/-- CRC-32 of a byte list. -/
def crc32 (l : List Byte) : BitVec 32 := ~~~ (l.foldl crcByte 0xFFFFFFFF#32)

/-! ### CRC-64 of ECMA-182 (R337) -/

/-- One bit of the CRC-64: the polynomial 0x42F0E1EBA9EA3693, most significant bit first. -/
def crc64Bit (c : BitVec 64) : BitVec 64 := if c.getLsbD 63 then (c <<< 1) ^^^ 0x42F0E1EBA9EA3693#64 else c <<< 1
/-- One byte of the CRC-64. -/
def crc64Byte (c : BitVec 64) (b : BitVec 8) : BitVec 64 :=
  let c := c ^^^ (b.setWidth 64 <<< 56)
  crc64Bit (crc64Bit (crc64Bit (crc64Bit (crc64Bit (crc64Bit (crc64Bit (crc64Bit c)))))))
/-- CRC-64 of a byte list from zero. -/
def crc64 (l : List Byte) : BitVec 64 := l.foldl crc64Byte 0

/-! ### SHA-2 (FIPS 180-4): constants are the fractional bits of roots of primes -/

/-- The first 80 primes. -/
def shaPrimes : List Nat :=
  [2, 3, 5, 7, 11, 13, 17, 19, 23, 29, 31, 37, 41, 43, 47, 53, 59, 61, 67, 71, 73, 79, 83, 89, 97, 101,
   103, 107, 109, 113, 127, 131, 137, 139, 149, 151, 157, 163, 167, 173, 179, 181, 191, 193, 197, 199,
   211, 223, 227, 229, 233, 239, 241, 251, 257, 263, 269, 271, 277, 281, 283, 293, 307, 311, 313, 317,
   331, 337, 347, 349, 353, 359, 367, 373, 379, 383, 389, 397, 401, 409]

/-- The largest `r` with `r ^ k ≤ n` among those below `2 ^ bits` plus `acc`, bit by bit. -/
def rootBits (k n : Nat) : Nat → Nat → Nat
  | 0, acc => acc
  | b + 1, acc => rootBits k n b (if (acc + 2 ^ b) ^ k ≤ n then acc + 2 ^ b else acc)

/-- The integer square root. -/
def isqrt (n : Nat) : Nat := rootBits 2 n (Nat.log2 n / 2 + 1) 0

/-- The first `w` bits of the fraction of the `k`-th root of `p`. -/
def rootFrac (k w p : Nat) : Nat := rootBits k (p * 2 ^ (k * w)) (w + 8) 0 % 2 ^ w

/-- Right rotation within `w` bits. -/
def rotr (w n x : Nat) : Nat := (x >>> n) ||| ((x <<< (w - n)) % 2 ^ w)

/-- The parameters that distinguish SHA-256 from SHA-384: word width, rounds, rotations. -/
structure ShaKind where
  w : Nat
  rounds : Nat
  s0 : Nat × Nat × Nat
  s1 : Nat × Nat × Nat
  b0 : Nat × Nat × Nat
  b1 : Nat × Nat × Nat

/-- SHA-256's parameters. -/
def sha256Kind : ShaKind := ⟨32, 64, (7, 18, 3), (17, 19, 10), (2, 13, 22), (6, 11, 25)⟩

/-- SHA-384's parameters (those of SHA-512). -/
def sha512Kind : ShaKind := ⟨64, 80, (1, 8, 7), (19, 61, 6), (28, 34, 39), (14, 18, 41)⟩

/-- The message schedule, newest word first: extend by `n` words. -/
def shaExtend (k : ShaKind) : Nat → List Nat → List Nat
  | 0, ws => ws
  | n + 1, ws =>
    let a := ws.getD 14 0
    let b := ws.getD 1 0
    let x := rotr k.w k.s0.1 a ^^^ rotr k.w k.s0.2.1 a ^^^ (a >>> k.s0.2.2)
    let y := rotr k.w k.s1.1 b ^^^ rotr k.w k.s1.2.1 b ^^^ (b >>> k.s1.2.2)
    shaExtend k n ((ws.getD 15 0 + x + ws.getD 6 0 + y) % 2 ^ k.w :: ws)

/-- One round on the eight working words. -/
def shaRound (k : ShaKind) (st : List Nat) (kw : Nat × Nat) : List Nat :=
  match st with
  | [a, b, c, d, e, f, g, h] =>
    let m := 2 ^ k.w
    let s1 := rotr k.w k.b1.1 e ^^^ rotr k.w k.b1.2.1 e ^^^ rotr k.w k.b1.2.2 e
    let ch := (e &&& f) ^^^ ((m - 1 - e) &&& g)
    let t1 := (h + s1 + ch + kw.1 + kw.2) % m
    let s0 := rotr k.w k.b0.1 a ^^^ rotr k.w k.b0.2.1 a ^^^ rotr k.w k.b0.2.2 a
    let mj := (a &&& b) ^^^ (a &&& c) ^^^ (b &&& c)
    [(t1 + s0 + mj) % m, a, b, c, (d + t1) % m, e, f, g]
  | _ => st

/-- The big-endian words of a block. -/
def shaWords (n : Nat) : Nat → List Byte → List Nat
  | 0, _ => []
  | c + 1, l => leNat ((l.take n).reverse) :: shaWords n c (l.drop n)

/-- One block. -/
def shaBlock (k : ShaKind) (st : List Nat) (blk : List Byte) : List Nat :=
  let ws := (shaExtend k (k.rounds - 16) (shaWords (k.w / 8) 16 blk).reverse).reverse
  let ks := (shaPrimes.take k.rounds).map (rootFrac 3 k.w)
  List.zipWith (fun x y => (x + y) % 2 ^ k.w) st ((List.zip ks ws).foldl (shaRound k) st)

/-- All blocks. -/
def shaBlocks (k : ShaKind) : Nat → List Nat → List Byte → List Nat
  | 0, st, _ => st
  | n + 1, st, l => shaBlocks k n (shaBlock k st (l.take (2 * k.w))) (l.drop (2 * k.w))

/-- The padded message's hash words. -/
def shaRun (k : ShaKind) (iv : List Nat) (l : List Byte) : List Nat :=
  let bs := 2 * k.w
  let z := (2 * bs - (l.length + 1 + k.w / 4) % bs) % bs
  let padded := l ++ [0x80#8] ++ List.replicate z 0 ++ (leBytes (k.w / 4) (8 * l.length)).reverse
  shaBlocks k (padded.length / bs) iv padded

/-- SHA-256. -/
def sha256 (l : List Byte) : List Byte :=
  ((shaRun sha256Kind ((shaPrimes.take 8).map (rootFrac 2 32)) l).map (fun w => (leBytes 4 w).reverse)).flatten

/-- SHA-384. -/
def sha384 (l : List Byte) : List Byte :=
  (((shaRun sha512Kind (((shaPrimes.drop 8).take 8).map (rootFrac 2 64)) l).take 6).map
    (fun w => (leBytes 8 w).reverse)).flatten

/-- HMAC-SHA-384 with a key of at most one block (R537). -/
def hmac384 (key msg : List Byte) : List Byte :=
  let k := slice (if key.length ≤ 128 then key else sha384 key) 0 128
  sha384 (k.map (· ^^^ 0x5C#8) ++ sha384 (k.map (· ^^^ 0x36#8) ++ msg))

end Sys2Proof.Machine
end

