-- ==== Sys2Proof/Machine/Flit.lean ====
section
/-! DEFINITION. A JLP flit as its 256 bytes: header, payload, CRC (R337 to R339). -/

namespace Sys2Proof.Machine

/-- The 128-bit flit header (R338). -/
def Flit.header (f : Flit) : Nat :=
  f.epoch.toNat * 2 ^ 96 + f.dst % 2 ^ 14 * 2 ^ 82 + f.src % 2 ^ 14 * 2 ^ 68 + f.step.toNat * 2 ^ 52 + f.seq.toNat * 2 ^ 40
    + f.ack.toNat * 2 ^ 28 + f.type.toNat * 2 ^ 24 + f.part % 2 ^ 3 * 2 ^ 21 + f.fmt.toNat * 2 ^ 15 + b2n f.blight * 2 ^ 14
    + b2n f.subst * 2 ^ 13 + f.cls.toNat * 2 ^ 10 + (if f.type = 1 || f.type = 4 then f.coll.toNat else 0)

/-- The payload: data values one after the other (R364); the contents that R339 lists for the other types, in its order
(R339 gives no places; log entry 64). -/
def Flit.fields (f : Flit) : List Byte :=
  if f.type = 0 then leBytes 1 f.status ++ leBytes 8 f.srcId.toNat ++ leBytes 1 f.first ++ leBytes 1 (f.vals.headD 0) ++ (f.credits.map (leBytes 4)).flatten
  else if f.type = 1 then (f.vals.map (leBytes f.size)).flatten
  else leBytes 8 f.first ++ (f.vals.map (leBytes 8)).flatten

/-- The header and the 232 bytes of payload. -/
def Flit.body (f : Flit) : List Byte := leBytes 16 (Flit.header f) ++ slice (Flit.fields f) 0 232

/-- The CRC of a flit (R337). -/
def Flit.crc (f : Flit) : BitVec 64 := crc64 (Flit.body f)

/-- The 256 bytes of a flit on its lanes (R337). -/
def Flit.bytes (f : Flit) : List Byte := Flit.body f ++ leBytes 8 (Flit.crc f).toNat

end Sys2Proof.Machine
end

