-- ==== Sys2Proof/Config.lean ====
section
/-! DEFINITION. What one SLG-1200 fixes and the spec leaves open: free values (constants without a
body, applied to the counter `State.free`), the depth of command queues, keys and signatures. No
proof can see a value of these; log entries 2 and 7 name them. -/

namespace Sys2Proof.Config

/-- Fresh unconstrained words, one per reading of the free-value counter (log entry 2). -/
opaque freeWord : Nat → Word

/-- The SHA-384 digest of an image that the part was shipped with, by its slot (B true; log entry 7). -/
opaque shippedDigest : (slotB : Bool) → List Byte

/-- Fresh unconstrained numbers (log entry 2). -/
opaque freeNat : Nat → Nat

/-- The beats that a core's pipeline completes before an issue, by the core, its beats and issues so far, and in standard
order mode the counter of free values (R126, R127; log entry 16). -/
opaque freeBeats : (core beats issued run : Nat) → Nat

/-- The bytes that a reader of blocks fetches from side areas in turf, by the core, its beats and issues so far, and in
standard order mode the counter of free values (R109, R127; log entry 16). -/
opaque sideBytes : (core beats issued run : Nat) → Nat

/-- Where a fallow channel looks for free chunks, by the bale and the chunks in use (R287 does not say which are taken;
log entry 36). -/
opaque freeChunk : (bale : Nat) → (used : List Nat) → Nat

/-- The DRAM row of a near stack in which a byte offset lies (R291 names rows and gives no map; log entry 36). -/
opaque dramRow : (stack offset : Nat) → Nat

/-- The bytes of a near stack's DRAM row (R291 gives none; log entry 36). -/
opaque dramRowBytes : (stack : Nat) → Nat

/-- The bytes that a memory's own refresh takes in a window, at most its allotment (R276, R305; log entry 36). -/
opaque refreshBytes : (near : Bool) → (index window : Nat) → Nat

/-- The depth of a row engine's command queue less one (R155 gives none; log entry 7). -/
opaque rowQueueExtra : Nat

/-- The depth of an exchange unit's command queue less one (R155 gives none; log entry 7). -/
opaque exchangeQueueExtra : Nat

/-- The receive buffers of a link by order class, in flits, which a trained link returns as credits (R342 gives no
number; log entry 7). -/
opaque linkCredits : (link cls : Nat) → Nat

/-- Whether a signature verifies under a key (ECDSA P-384, R487, R539). -/
opaque verify : (key message signature : List Byte) → Bool

/-- The signature that a private key of the part makes (R535 to R538). -/
opaque sign : (key message : List Byte) → List Byte

/-- The DeviceID public key in SEC1 uncompressed form (R537). -/
opaque devicePublicKey : List Byte

/-- The hub die's unique device secret (R535). -/
opaque deviceSecret : List Byte

/-- The digest of the Amaradex licence key and the firmware key, fused (R487, R539). -/
opaque licenceKey : List Byte

/-- The fused firmware verification key (R487). -/
opaque firmwareKey : List Byte

/-- The fused minimum security version (R487). -/
opaque minSecurity : Nat

/-- The digests of the eight field-die keys with the die revisions (R536, R538). -/
opaque dieKeyDigests : List Byte

/-- The certificates of the chain below the CA (R537): DeviceID, then the Alias certificate of the firmware whose CDI
this is. -/
opaque certChain : (cdi : List Byte) → List Byte

/-- The Alias key derived from a CDI (R537, R538). -/
opaque aliasKey : (cdi : List Byte) → List Byte

/-- What an SPDM or PLDM reply holds beyond the fields the spec fixes (log entry 8). -/
opaque replyTail : Nat → List Byte

/-- The die revision of a field die: 0xA0 or 0xA1 (R162). -/
opaque dieRevision : Nat → Nat

/-- The number from which the part counts its rkeys (R452 gives none; log entry 2). -/
opaque rkeyBase : Nat

/-- The MAC address of a network port, from the identity store (R450). -/
opaque mac : Nat → List Byte

/-- The rate share of a connection after a recovery step, from the share before it (R452 names 50 microsecond steps and no
size of a step; log entry 9). -/
opaque recoverRate : Nat → Nat

end Sys2Proof.Config
end

