-- ==== Sys2Proof/Machine/Num.lean ====
section
/-! DEFINITION. The arithmetic of chapter "Narrow formats and windowed exact sums": exact values,
FP32, bfloat16 and W96 (R63 to R65), the one rounding (R66, R67), the vector functions (R147), block
formats (R55 to R62), the quantiser (R68 to R76, R172) and windowed exact sums (R83 to R93). -/

namespace Sys2Proof.Machine

/-- An exact value: NaN, an infinity, or the signed dyadic m × 2^e. -/
inductive Val where
  | nan
  | inf (neg : Bool)
  | fin (neg : Bool) (m : Nat) (e : Int)
  deriving DecidableEq, Repr

namespace Val

/-- +0. -/
def zero : Val := .fin false 0 0

/-- Whether the value is finite. -/
def isFin : Val → Bool
  | .fin _ _ _ => true
  | _ => false

/-- The magnitude of a finite value, as m and e; zero for the others. -/
def mag : Val → Nat × Int
  | .fin _ m e => (m, e)
  | _ => (0, 0)

/-- The sign bit. -/
def neg : Val → Bool
  | .fin s _ _ => s
  | .inf s => s
  | .nan => false

end Val

/-! ### Dyadic arithmetic -/

/-- m × 2^e as an integer multiple of 2^f, for f at most e. -/
def scaleTo (f : Int) (m : Nat) (e : Int) : Nat := m * 2 ^ (e - f).toNat

/-- Whether m1 × 2^e1 < m2 × 2^e2. -/
def magLt (a b : Nat × Int) : Bool :=
  let f := min a.2 b.2
  scaleTo f a.1 a.2 < scaleTo f b.1 b.2

/-- The signed integer that a finite value is, in units of 2^f. -/
def unitsAt (f : Int) : Val → Int
  | .fin s m e => if s then -(scaleTo f m e : Int) else scaleTo f m e
  | _ => 0

/-- n / d rounded to the nearest integer, halves away from zero (R66). -/
def roundDiv (n d : Nat) : Nat := (2 * n + d) / (2 * d)

/-- floor(log2 (n / d)) for positive n and d. -/
def log2q (n d : Nat) : Int :=
  let l : Int := (Nat.log2 n : Int) - Nat.log2 d
  if (if 0 ≤ l then d * 2 ^ l.toNat ≤ n else d ≤ n * 2 ^ (-l).toNat) then l else l - 1

/-- floor(log2) of a positive dyadic magnitude. -/
def log2m (a : Nat × Int) : Int := (Nat.log2 a.1 : Int) + a.2

/-! ### FP32 and bfloat16 -/

/-- A wide format by its count of fraction bits (R63): 23 for FP32, 7 for bfloat16. -/
abbrev Frac := Nat

/-- The canonical NaN (R63). -/
def nanBits (b : Frac) : Nat := 0xFF * 2 ^ b + 2 ^ (b - 1)

/-- The bits of a zero. -/
def zeroBits (b : Frac) (s : Bool) : Nat := b2n s * 2 ^ (b + 8)

/-- The bits of an infinity. -/
def infBits (b : Frac) (s : Bool) : Nat := b2n s * 2 ^ (b + 8) + 0xFF * 2 ^ b

/-- Significand q (of b + 1 bits, or 2^(b+1)) at exponent f, as bits: R63's flush, R67's overflow. -/
def packFp (b : Frac) (s : Bool) (q : Nat) (f : Int) : Nat :=
  let (q, f) := if q = 2 ^ (b + 1) then (2 ^ b, f + 1) else (q, f)
  if f < -126 then zeroBits b s
  else if 127 < f then infBits b s
  else b2n s * 2 ^ (b + 8) + (f + 127).toNat * 2 ^ b + (q - 2 ^ b)

/-- The value ± n/d × 2^e rounded once to the format (R63, R66, R67). -/
def roundFp (b : Frac) (s : Bool) (n d : Nat) (e : Int) : Nat :=
  if n = 0 then zeroBits b s
  else
    let f0 := log2q n d
    let k : Int := b - f0
    let q := if 0 ≤ k then roundDiv (n * 2 ^ k.toNat) d else roundDiv n (d * 2 ^ (-k).toNat)
    packFp b s q (f0 + e)

/-- A value rounded once to the format. -/
def encFp (b : Frac) : Val → Nat
  | .nan => nanBits b
  | .inf s => infBits b s
  | .fin s m e => roundFp b s m 1 e

/-- The value of an encoding (R63: subnormals read as zero of the same sign). -/
def decFp (b : Frac) (w : Nat) : Val :=
  let s := bitAt w (b + 8)
  let x := fld w (b + 7) b
  let fr := w % 2 ^ b
  if x = 0xFF then (if fr = 0 then .inf s else .nan)
  else if x = 0 then .fin s 0 0
  else .fin s (2 ^ b + fr) ((x : Int) - 127 - b)

/-- FP32 to value. -/
def fp32 (w : Nat) : Val := decFp 23 w
/-- bfloat16 to value. -/
def bf16 (w : Nat) : Val := decFp 7 w

/-! ### Exact operations -/

/-- The exact sum; an exact zero from unlike signs is +0 (IEEE 754). -/
def addVal : Val → Val → Val
  | .nan, _ => .nan
  | _, .nan => .nan
  | .inf a, .inf b => if a = b then .inf a else .nan
  | .inf a, _ => .inf a
  | _, .inf b => .inf b
  | .fin s m e, .fin t n g =>
    let f := min e g
    let x := unitsAt f (.fin s m e) + unitsAt f (.fin t n g)
    if x = 0 then .fin (s && t) 0 0 else .fin (x < 0) x.natAbs f

/-- Negation. -/
def negVal : Val → Val
  | .nan => .nan
  | .inf s => .inf !s
  | .fin s m e => .fin (!s) m e

/-- Absolute value. -/
def absVal : Val → Val
  | .nan => .nan
  | .inf _ => .inf false
  | .fin _ m e => .fin false m e

/-- The exact product; zero times infinity is NaN. -/
def mulVal : Val → Val → Val
  | .nan, _ => .nan
  | _, .nan => .nan
  | .inf a, .inf b => .inf (a != b)
  | .inf a, .fin t n _ => if n = 0 then .nan else .inf (a != t)
  | .fin s m _, .inf b => if m = 0 then .nan else .inf (s != b)
  | .fin s m e, .fin t n g => .fin (s != t) (m * n) (e + g)

/-- Whether a < b, false with a NaN. -/
def ltVal : Val → Val → Bool
  | .nan, _ => false
  | _, .nan => false
  | .inf a, .inf b => a && !b
  | .inf a, .fin _ _ _ => a
  | .fin _ _ _, .inf b => !b
  | .fin s m e, .fin t n g =>
    let f := min e g
    unitsAt f (.fin s m e) < unitsAt f (.fin t n g)

/-- Whether a = b as numbers, false with a NaN. -/
def eqVal : Val → Val → Bool
  | .nan, _ => false
  | _, .nan => false
  | a, b => !ltVal a b && !ltVal b a

/-- The maximum; NaN wins, and max(+0, −0) is +0 (R63, R93). -/
def maxVal : Val → Val → Val
  | .nan, _ => .nan
  | _, .nan => .nan
  | a, b => if ltVal a b then b else if ltVal b a then a else if a.neg then b else a

/-- The minimum; NaN wins, and min(+0, −0) is −0 (R63). -/
def minVal : Val → Val → Val
  | .nan, _ => .nan
  | _, .nan => .nan
  | a, b => if ltVal a b then a else if ltVal b a then b else if a.neg then a else b

/-! ### Functions, correctly rounded (R147) -/

/-- Working bits of VEXP2 and VLOG2 (log entry 10). -/
def fnBits : Nat := 512

/-- 1/x. -/
def rcpFp (b : Frac) : Val → Nat
  | .nan => nanBits b
  | .inf s => zeroBits b s
  | .fin s m e => if m = 0 then infBits b s else roundFp b s 1 m (-e)

/-- The square root of n/d × 2^(2h), rounded to the format. -/
def sqrtCore (b : Frac) (n d : Nat) (h : Int) : Nat :=
  let f := (log2q n d) / 2
  let k : Int := 2 * (b - f) + 2
  let y := isqrt (if 0 ≤ k then n * 2 ^ k.toNat / d else n / (d * 2 ^ (-k).toNat))
  packFp b false ((y + 1) / 2) (f + h)

/-- VSQRT. -/
def sqrtFp (b : Frac) : Val → Nat
  | .nan => nanBits b
  | .inf s => if s then nanBits b else infBits b false
  | .fin s m e =>
    if m = 0 then zeroBits b s
    else if s then nanBits b
    else if e % 2 = 0 then sqrtCore b m 1 (e / 2) else sqrtCore b (2 * m) 1 ((e - 1) / 2)

/-- VRSQRT. -/
def rsqrtFp (b : Frac) : Val → Nat
  | .nan => nanBits b
  | .inf s => if s then nanBits b else zeroBits b false
  | .fin s m e =>
    if m = 0 then infBits b s
    else if s then nanBits b
    else if e % 2 = 0 then sqrtCore b 1 m (-(e / 2)) else sqrtCore b 1 (2 * m) (-((e - 1) / 2))

/-- The product of the square-root chain 2^(1/2), 2^(1/4), … over the set bits of a fraction,
highest bit first, in units of 2^-fnBits. -/
def exp2Chain : (bits c acc : Nat) → (fr : Nat) → Nat
  | 0, _, acc, _ => acc
  | n + 1, c, acc, fr =>
    let c' := isqrt (c * 2 ^ fnBits)
    exp2Chain n c' (if bitAt fr n then acc * c' / 2 ^ fnBits else acc) fr

/-- VEXP2. -/
def exp2Fp (b : Frac) : Val → Nat
  | .nan => nanBits b
  | .inf s => if s then zeroBits b false else infBits b false
  | .fin s m e =>
    if magLt (1024, 0) (m, e) then (if s then zeroBits b false else infBits b false)
    else if 0 ≤ e then
      let i : Int := if s then -(m * 2 ^ e.toNat : Nat) else (m * 2 ^ e.toNat : Nat)
      roundFp b false 1 1 i
    else
      let k := (-e).toNat
      let x : Int := if s then -(m : Int) else m
      let i := x / (2 ^ k : Int)
      let fr := (x % (2 ^ k : Int)).toNat
      if fr = 0 then roundFp b false 1 1 i
      else roundFp b false (exp2Chain k (2 * 2 ^ fnBits) (2 ^ fnBits) fr) (2 ^ fnBits) i

/-- Binary digits of log2 y for y in [1, 2) held in units of 2^-fnBits, by repeated squaring. -/
def log2Digits : Nat → (y acc : Nat) → Nat
  | 0, _, acc => acc
  | n + 1, y, acc =>
    let y2 := y * y / 2 ^ fnBits
    if 2 * 2 ^ fnBits ≤ y2 then log2Digits n (y2 / 2) (2 * acc + 1) else log2Digits n y2 (2 * acc)

/-- VLOG2. -/
def log2Fp (b : Frac) : Val → Nat
  | .nan => nanBits b
  | .inf s => if s then nanBits b else infBits b false
  | .fin s m e =>
    if m = 0 then infBits b true
    else if s then nanBits b
    else
      let f := log2m (m, e)
      let l := Nat.log2 m
      if m = 2 ^ l then
        (if f < 0 then roundFp b true f.natAbs 1 0 else roundFp b false f.natAbs 1 0)
      else
        let fr := log2Digits 200 (m * 2 ^ (fnBits - l)) 0
        let t : Int := f * (2 ^ 200 : Int) + fr
        roundFp b (t < 0) t.natAbs 1 (-200)

/-! ### W96 (R64, R65) and windowed exact sums (R83 to R91) -/

/-- The value of a stored W96 element. -/
def w96 (w : Nat) : Val :=
  if bitAt w 108 then .nan
  else match fld w 107 106 with
    | 1 => .inf false
    | 2 => .inf true
    | 3 => .nan
    | _ =>
      let v := signed 96 (fld w 95 0)
      .fin (v < 0) v.natAbs ((fld w 105 96 : Int) - 511 - 64)

/-- The special code of a non-finite term: 1 +∞, 2 −∞, 3 NaN. -/
def specialOf : Val → BitVec 2
  | .nan => 3
  | .inf s => if s then 2 else 1
  | .fin _ _ _ => 0

/-- combine of R83: opposite infinities and NaN give NaN. -/
def combine (a b : BitVec 2) : BitVec 2 := a ||| b

/-- round(t / 2^(E − 64)), halves away (R83), for the rational ± n/d × 2^e. -/
def gridUnits (E : Int) (s : Bool) (n d : Nat) (e : Int) : Int :=
  let k := e - (E - 64)
  let r := if 0 ≤ k then roundDiv (n * 2 ^ k.toNat) d else roundDiv n (d * 2 ^ (-k).toNat)
  if s then -(r : Int) else r

/-- The units of a finite value on the grid of E. -/
def unitsOn (E : Int) : Val → Int
  | .fin s m e => gridUnits E s m 1 e
  | _ => 0

/-- The measured window of a group (R85), before its bounds: none with no finite non-zero term. -/
def measure (ts : List Val) : Option Int :=
  (ts.filterMap (fun t => match t with | .fin _ m e => if m = 0 then none else some (log2m (m, e)) | _ => none)).foldl
    (fun o x => some (match o with | none => x | some y => max x y)) none

/-- Overflow comes to an element (R86, R87): from then on its V holds no value, for which the model takes 0 (DESIGN CHOICE,
log entry 59), and further terms leave it as it is. -/
def Partial.over (a : Partial) : Partial := if a.overflow then a else { a with units := 0, overflow := true }

/-- Adding a term to a partial sum under a window; `declared` applies R86's bound. -/
def addTerm (E : Int) (declared : Bool) (a : Partial) (t : Val) : Partial :=
  match t with
  | .fin s m e =>
    if declared && (m ≠ 0 && E + 1 ≤ log2m (m, e)) then a.over
    else if a.overflow then a
    else { a with units := a.units + gridUnits E s m 1 e }
  | t => { a with special := combine a.special (specialOf t) }

/-- The sum of a group under a window. -/
def sumOn (E : Int) (declared : Bool) (ts : List Val) : Partial := ts.foldl (addTerm E declared) {}

/-- The windowed exact sum under a measured window, with R85's bounds: the sum and its E. Where the spec gives the stored
window field no meaning (a zero sum with no finite non-zero term, a sum whose measured E exceeds 512) the model takes E = 0
and E = 512 (DESIGN CHOICE, log entry 59). -/
def sumMeasured (ts : List Val) : Partial × Int :=
  match measure ts with
  | none => (sumOn 0 false ts, 0)
  | some e =>
    if 512 < e then ({ sumOn 0 false (ts.filter (fun t => !t.isFin)) with overflow := true }, 512)
    else let E := max e (-511); (sumOn E false ts, E)

/-- Whether an integer fits the 96 bits of V. -/
def fits96 (v : Int) : Bool := -(2 ^ 95 : Int) ≤ v && v < (2 ^ 95 : Int)

/-- The stored W96 element of a partial sum (R64, R87). Where the sum does not fit, V holds no value and the model writes
0 there (DESIGN CHOICE, log entry 59). -/
def encW96 (p : Partial) (E : Int) : BitVec 128 :=
  let ok := fits96 p.units
  BitVec.ofNat 128 (b2n (p.overflow || !ok) * 2 ^ 108 + p.special.toNat * 2 ^ 106 + (E + 511).toNat * 2 ^ 96
    + (if ok then unsignedOf 96 p.units else 0))

/-- The partial sum that a stored W96 element is. -/
def decW96 (w : BitVec 128) : Partial × Int :=
  ({ units := signed 96 (fld w.toNat 95 0), special := BitVec.ofNat 2 (fld w.toNat 107 106), overflow := bitAt w.toNat 108 },
    (fld w.toNat 105 96 : Int) - 511)

/-- The final scaling of R89, divided by a count inside the rounding. -/
def finalFp (b : Frac) (p : Partial) (E : Int) (count : Nat) : Nat :=
  if p.overflow || p.special = 3 then nanBits b
  else if p.special = 1 then infBits b false
  else if p.special = 2 then infBits b true
  else roundFp b (p.units < 0) p.units.natAbs count (E - 64)

/-- Exact addition of a W96 element to another on one grid (R87): overflow is sticky and further terms leave V as it is. -/
def addW96 (a b : Partial) : Partial :=
  let u := a.units + b.units
  let sp := combine a.special b.special
  if a.overflow then { a with special := sp }
  else if b.overflow || !fits96 u then { a.over with special := sp }
  else { a with units := u, special := sp }

/-! ### Block formats (R55 to R62) -/

/-- The element width of a narrow format (R53). -/
def eltBits : Nat → Nat
  | 1 => 4 | 2 => 3 | 3 => 2 | 4 => 1 | 5 => 8 | _ => 0

/-- Whether a format code is one of R53's. -/
def fmtKnown (c : Nat) : Bool := c ≤ 5 || c = 0x10 || c = 0x11 || c = 0x20

/-- qmax of R69 (B1 has magnitude 1). -/
def qmaxOf : Nat → Nat
  | 1 => 7 | 2 => 3 | 3 => 1 | 4 => 1 | _ => 127

/-- The 32 codes of a code field (R56). -/
def unpackCodes (w : Nat) (field : Nat) : List Nat :=
  (List.range 32).map (fun i => fld field (w * i + w - 1) (w * i))

/-- The code field of 32 codes (R56). -/
def packCodes (w : Nat) : List Nat → Nat
  | [] => 0
  | c :: t => c % 2 ^ w + 2 ^ w * packCodes w t

/-- The value of a code as an integer, none for the escape code (R55). -/
def codeVal (fmt c : Nat) : Option Int :=
  if fmt = 4 then some (if c = 0 then 1 else -1)
  else
    let w := eltBits fmt
    if c = 2 ^ (w - 1) then none else some (signed w c)

/-- The code of an integer. -/
def codeOf (fmt : Nat) (q : Int) : Nat :=
  if fmt = 4 then b2n (q < 0) else unsignedOf (eltBits fmt) q

/-- The escape code of a format. -/
def escCode (fmt : Nat) : Nat := 2 ^ (eltBits fmt - 1)

/-- The exact value q × s of a code under a scale word (R59, R60). -/
def scaled (q : Int) (sw : Nat) : Val :=
  let e := fld sw 15 8
  if e = 0 then Val.zero
  else .fin (q < 0) (q.natAbs * (16 + fld sw 7 4)) ((e : Int) - 127 - 4)

/-- A block as stored: codes of its format, scale word, its escape entries (position, bfloat16), its
promotion entry's codes. -/
structure Blk where
  fmt : Nat
  codes : List Nat
  scale : Nat
  esc : List (Nat × Nat) := []
  prom : Option (List Nat) := none
  deriving DecidableEq, Repr

/-- The format a block multiplies as (R91, R107). -/
def Blk.asFmt (b : Blk) : Nat := if bitAt b.scale 2 then 5 else b.fmt

/-- The codes a block reads by. -/
def Blk.reads (b : Blk) : List Nat := if bitAt b.scale 2 then b.prom.getD [] else b.codes

/-- A non-finite block (R59); a block whose promotion entry is missing reads alike (R61). -/
def Blk.nonFinite (b : Blk) : Bool := fld b.scale 15 8 = 0xFF || (bitAt b.scale 2 && b.prom.isNone)

/-- Whether the block is inconsistent (R61). -/
def Blk.damaged (b : Blk) : Bool :=
  fld b.scale 15 8 ≠ 0xFF &&
    ((bitAt b.scale 2 && b.prom.isNone)
      || (!bitAt b.scale 3 && b.esc ≠ [])
      || (b.asFmt ≠ 4 && (List.range 32).any (fun i =>
            b.reads.getD i 0 = escCode b.asFmt && (b.esc.find? (fun x => x.1 = i)).isNone)))

/-- Whether a block's marks blight what is read from it (R61, R62). -/
def Blk.blight (b : Blk) : Bool := (fld b.scale 15 8 ≠ 0xFF && bitAt b.scale 1) || b.damaged

/-- The exact value of element `i` (R59 to R61). -/
def Blk.val (b : Blk) (i : Nat) : Val :=
  if b.nonFinite then .nan
  else
    let c := b.reads.getD i 0
    let entry := b.esc.find? (fun x => x.1 = i)
    match codeVal b.asFmt c, entry with
    | some q, none => scaled q b.scale
    | some q, some _ => if bitAt b.scale 3 then scaled q b.scale else .nan
    | none, some (_, v) => if bitAt b.scale 3 then bf16 v else .nan
    | none, none => .nan

/-- Whether element `i` is outside the integer dot (R91): an escape code, or a damaged element. -/
def Blk.special (b : Blk) (i : Nat) : Bool :=
  (codeVal b.asFmt (b.reads.getD i 0)).isNone || (!bitAt b.scale 3 && (b.esc.any (fun x => x.1 = i)))

/-! ### The quantiser (R68 to R76), with the slot limits of row records (R172) -/

/-- What the quantiser writes for a block. -/
structure QOut where
  blk : Blk
  promoted : Bool := false
  nonFinite : Bool := false
  clamped : Bool := false
  saturated : Nat := 0
  deriving DecidableEq, Repr

/-- The smallest grid value at least n/d × 2^e as (exponent, mantissa); none above the grid (R59, R70). -/
def gridUp (n d : Nat) (e : Int) : Option (Nat × Nat) :=
  let f0 := log2q n d
  let k : Int := 4 - f0
  let c := if 0 ≤ k then ceilDiv (n * 2 ^ k.toNat) d else ceilDiv n (d * 2 ^ (-k).toNat)
  let f := f0 + e
  let (f, m) := if c = 32 then (f + 1, 0) else (f, c - 16)
  if f < -126 then some (1, 0) else if 127 < f then none else some ((f + 127).toNat, m)

/-- round(|x| / s) for the grid value s = (ex, mant) (R71). -/
def quot (x : Nat × Int) (s : Nat × Nat) : Nat :=
  let k : Int := x.2 + 4 - ((s.1 : Int) - 127)
  if 0 ≤ k then roundDiv (x.1 * 2 ^ k.toNat) (16 + s.2) else roundDiv x.1 ((16 + s.2) * 2 ^ (-k).toNat)

/-- Positions by falling magnitude, ties to the lower index. -/
def byMag (xs : List (Nat × Val)) : List (Nat × Val) :=
  xs.foldl (fun acc x => acc.takeWhile (fun y => !magLt y.2.mag x.2.mag) ++ [x] ++ acc.dropWhile (fun y => !magLt y.2.mag x.2.mag)) []

/-- Escape selection of R69 over the elements outside the set, largest first; none asks for promotion. -/
def selectEsc (rho : Nat) : Nat → List (Nat × Val) → List Nat → Option (List Nat)
  | 0, _, esc => some esc
  | n + 1, big :: next :: rest, esc =>
    if magLt (rho * next.2.mag.1, next.2.mag.2) big.2.mag then
      if esc.length < 2 then selectEsc rho n (next :: rest) (esc ++ [big.1]) else none
    else some esc
  | _ + 1, _, esc => some esc

/-- The scale target as n, d, e (R70): the largest magnitude over qmax, or B1's mean of |x|. -/
def scaleTarget (fmt : Nat) (xs : List (Nat × Val)) : Nat × Nat × Int :=
  if fmt = 4 then
    let f := (xs.map (fun x => x.2.mag.2)).foldl min 0
    ((xs.map (fun x => scaleTo f x.2.mag.1 x.2.mag.2)).sum, max 1 xs.length, f)
  else
    let a := (xs.map (fun x => x.2.mag)).foldl (fun a b => if magLt a b then b else a) (0, 0)
    (a.1, qmaxOf fmt, a.2)

/-- The 32 codes: outliers 0, escapes the escape code, the others rounded and clamped to qmax. -/
def codesOf (fmt : Nat) (xs : List (Nat × Val)) (esc : List Nat) (s : Option (Nat × Nat)) : List Nat :=
  (List.range 32).map (fun i =>
    match xs.find? (fun x => x.1 = i) with
    | none => 0
    | some (_, x) =>
      if i ∈ esc then escCode fmt
      else if fmt = 4 then b2n (x.neg && x.mag.1 ≠ 0)
      else match s with
        | none => 0
        | some g =>
          let q := min (quot x.mag g) (qmaxOf fmt)
          codeOf fmt (if x.neg then -(q : Int) else q))

/-- The scale word of a grid value with its marks. -/
def scaleWord (s : Option (Nat × Nat)) (esc promoted blight : Bool) : Nat :=
  (match s with | none => 0 | some (e, m) => e * 256 + m * 16) + b2n esc * 8 + b2n promoted * 4 + b2n blight * 2

/-- Escape entries of a set: each value rounded once to bfloat16 (R75), by position. -/
def escEntries (xs : List (Nat × Val)) (esc : List Nat) : List (Nat × Nat) :=
  ((List.range 32).filter (· ∈ esc)).filterMap (fun i =>
    (xs.find? (fun x => x.1 = i)).map (fun x => (i, encFp 7 x.2)))

/-- Whether the block error of R73 exceeds the threshold. -/
def errorHigh (fmt theta : Nat) (xs : List (Nat × Val)) (b : Blk) (esc : List Nat) : Bool :=
  let ys := xs.filter (fun x => x.1 ∉ esc)
  let vals := ys.map (fun x => (x.2, { b with fmt := fmt }.val x.1))
  let f := (vals.map (fun v => min v.1.mag.2 v.2.mag.2)).foldl min 0
  let D := (vals.map (fun v => (unitsAt f v.1 - unitsAt f v.2).natAbs)).sum
  let X := (vals.map (fun v => (unitsAt f v.1).natAbs)).sum
  theta ≠ 0 && theta * X < 65536 * D

/-- The elements whose rounded quotient exceeds qmax, when the target lies above the grid (R72). -/
def tooBig (qm : Nat) (xs : List (Nat × Val)) : List (Nat × Val) :=
  xs.filter (fun x => qm < quot x.2.mag (254, 15))

/-- Promotion (R74) with at most `lim` escapes: none when non-finite elements alone exceed it. -/
def promoteBlk (fmt lim : Nat) (blight : Bool) (xs : List (Nat × Val)) : Option QOut :=
  let nf := (xs.filter (fun x => !x.2.isFin)).map (·.1)
  let ys := xs.filter (fun x => x.2.isFin)
  if min lim 2 < nf.length then none
  else
    let (n, d, e) := scaleTarget 5 ys
    let g := if n = 0 then none else gridUp n d e
    let big := if n = 0 || g.isSome then [] else tooBig 127 ys
    let esc := nf ++ ((byMag big).take (min lim 2 - nf.length)).map (·.1)
    let rest := ys.filter (fun x => x.1 ∉ esc)
    let s := if rest.all (fun x => x.2.mag.1 = 0) then none else some (g.getD (254, 15))
    some { blk := { fmt := fmt, codes := List.replicate 32 0, scale := scaleWord s (esc ≠ []) true blight,
                    esc := escEntries xs esc, prom := some (codesOf 5 xs esc s) },
           promoted := true, saturated := big.length - (esc.length - nf.length) }

/-- Clamping (R172). -/
def clampBlk (fmt : Nat) (blight : Bool) (xs : List (Nat × Val)) : QOut :=
  if xs.any (fun x => !x.2.isFin) then
    { blk := { fmt := fmt, codes := List.replicate 32 0, scale := 0xFF00 }, nonFinite := true, clamped := true }
  else
    let (n, d, e) := scaleTarget fmt xs
    let s := if n = 0 then none else some ((gridUp n d e).getD (254, 15))
    let sat := match s with
      | none => 0
      | some g => if fmt = 4 then 0 else (xs.filter (fun x => qmaxOf fmt < quot x.2.mag g)).length
    { blk := { fmt := fmt, codes := codesOf fmt xs [] s, scale := scaleWord s false false blight },
      clamped := true, saturated := sat }

/-- Quantising one block (R68 to R76) with `freeEsc` escape slots and `freeProm` promotion slots free
(R172); a tensor without slots has 2 and 1 free for every block. B1 has no qmax (R69), so R72 adds none of its elements to
the escape set (log entry 57). -/
def quantBlk (fmt theta shift : Nat) (outl : List Nat) (freeEsc freeProm : Nat) (blight : Bool) (vals : List Val) : QOut :=
  let xs := ((List.range 32).map (fun i => (i, vals.getD i Val.zero))).filter (fun x => x.1 ∉ outl)
  let nf := (xs.filter (fun x => !x.2.isFin)).map (·.1)
  let promote : QOut :=
    if freeProm = 0 then clampBlk fmt blight xs
    else (promoteBlk fmt freeEsc blight xs).getD (clampBlk fmt blight xs)
  if 2 < nf.length then
    { blk := { fmt := fmt, codes := List.replicate 32 0, scale := 0xFF00 }, nonFinite := true }
  else if fmt = 4 && nf ≠ [] then promote
  else
    let fins := xs.filter (fun x => x.2.isFin)
    match (if fmt = 4 then some [] else selectEsc (2 ^ (shift + 1)) 4 (byMag fins) nf) with
    | none => promote
    | some esc =>
      let rest := xs.filter (fun x => x.1 ∉ esc)
      let (n, d, e) := scaleTarget fmt rest
      let g := if n = 0 then none else gridUp n d e
      let big := if n = 0 || g.isSome || fmt = 4 then [] else tooBig (qmaxOf fmt) rest
      let esc2 := if fmt = 5 then esc ++ ((byMag big).take (2 - esc.length)).map (·.1) else esc ++ big.map (·.1)
      let esc2 := if fmt = 5 && 2 < esc.length + big.length then
          nf ++ ((byMag (fins.filter (fun x => x.1 ∈ esc || qmaxOf fmt < quot x.2.mag (254, 15)))).take (2 - nf.length)).map (·.1)
        else esc2
      if 2 < esc2.length then promote
      else
        let rest2 := xs.filter (fun x => x.1 ∉ esc2)
        let s := if rest2.all (fun x => x.2.mag.1 = 0) then none else some (g.getD (254, 15))
        let sat := match s with
          | none => 0
          | some gg => if fmt = 5 && g.isNone then (rest2.filter (fun x => 127 < quot x.2.mag gg)).length else 0
        let b : Blk := { fmt := fmt, codes := codesOf fmt xs esc2 s, scale := scaleWord s (esc2 ≠ []) false blight, esc := escEntries xs esc2 }
        if sat = 0 && errorHigh fmt theta xs b esc2 then promote
        else if freeEsc < esc2.length then promote
        else { blk := b, saturated := sat }

/-! ### Statistics (R94 to R96) -/

/-- A statistics record: max_abs as FP32 bits, the base, the six counts, the 64 bins. -/
structure Stats where
  maxAbs : Nat := 0
  base : BitVec 8 := 0
  counts : List Nat := [0, 0, 0, 0, 0, 0]
  bins : List Nat := List.replicate 64 0
  deriving DecidableEq, Repr

/-- The bin of a value (R94). -/
def binOf (base : Int) : Val → Nat
  | .fin _ m e =>
    if m = 0 then 0
    else
      let f := log2m (m, e)
      if f ≤ base then 1 else if base + 61 ≤ f then 62 else (f - base + 1).toNat
  | _ => 63

/-- The record of some values; the counts beyond the first are given. -/
def statsOf (base : BitVec 8) (vals : List Val) (counts : List Nat) : Stats :=
  { maxAbs := (vals.filter Val.isFin).foldl (fun a x => max a (encFp 23 (absVal x))) 0, base := base,
    counts := vals.length :: counts,
    bins := vals.foldl (fun b x => updAt (fun n => sat64 (n + 1)) b (binOf base.toInt x)) (List.replicate 64 0) }

/-- Merging records (R96). Where their bases differ, which no rule speaks of, the merged record bears the second, newer
one's and adds the bins as they stand (DESIGN CHOICE, log entry 59). -/
def Stats.merge (a b : Stats) : Stats :=
  { maxAbs := max a.maxAbs b.maxAbs, base := b.base, counts := List.zipWith (fun x y => sat64 (x + y)) a.counts b.counts,
    bins := List.zipWith (fun x y => sat64 (x + y)) a.bins b.bins }

/-- The 576 bytes of a record (R95). -/
def Stats.bytes (a : Stats) : List Byte :=
  leBytes 4 a.maxAbs ++ [a.base] ++ leBytes 3 0 ++ (a.counts.map (leBytes 8)).flatten ++ leBytes 8 0 ++ (a.bins.map (leBytes 8)).flatten

/-- The record that 576 bytes hold. -/
def Stats.ofBytes (l : List Byte) : Stats :=
  { maxAbs := leAt l 0 4, base := BitVec.ofNat 8 (leAt l 4 1), counts := (List.range 6).map (fun i => leAt l (8 + 8 * i) 8),
    bins := (List.range 64).map (fun i => leAt l (0x40 + 8 * i) 8) }

end Sys2Proof.Machine
end

