-- ==== Sys2Proof/Machine/Ops.lean ====
section
/-! DEFINITION. The named operations that every family shares: access to cores, contexts,
partitions; memory, addresses and poison (R136, R270, R286, R474, R475); error records and host
error rings (R468 to R473); interrupts and completions (R440, R446, R447); synchronisation stores
(R306 to R315); the issue of an instruction (R98, R99) and the context fault (R156, R157). -/

namespace Sys2Proof.Machine

/-- The outcome of a command. -/
abbrev Res := Host.Outcome State Fault Refusal

/-! ### Access to the parts of the state -/

/-- Die, cluster and core numbers (R15). -/
def coreCluster (k : Nat) : Nat := k / 15
/-- The field die of a logical cluster. -/
def clusterDie (c : Nat) : Nat := c / 10
/-- The field die of a logical core. -/
def coreDie (k : Nat) : Nat := k / 150

def State.core (s : State) (k : Nat) : Core := s.cores.get {} k
def State.updCore (s : State) (k : Nat) (f : Core → Core) : State := { s with cores := s.cores.set k (f (s.core k)) }
def State.ctx (s : State) (p : At) : Ctx := (s.core p.core).ctxs.get {} p.ctx
def State.updCtx (s : State) (p : At) (f : Ctx → Ctx) : State :=
  s.updCore p.core (fun c => { c with ctxs := c.ctxs.set p.ctx (f (c.ctxs.get {} p.ctx)) })
def State.part (s : State) (n : Nat) : Part := s.parts.get {} n
def State.updPart (s : State) (n : Nat) (f : Part → Part) : State := { s with parts := s.parts.set n (f (s.part n)) }
def State.cluster (s : State) (c : Nat) : Cluster := s.clusters.get {} c
def State.updCluster (s : State) (c : Nat) (f : Cluster → Cluster) : State :=
  { s with clusters := s.clusters.set c (f (s.cluster c)) }
def State.die (s : State) (d : Nat) : Die := s.dies.get {} d
def State.updDie (s : State) (d : Nat) (f : Die → Die) : State := { s with dies := s.dies.set d (f (s.die d)) }
def State.member (s : State) (n : Nat) : Member := s.link.members.get {} n
def State.updMember (s : State) (n : Nat) (f : Member → Member) : State :=
  { s with link := { s.link with members := s.link.members.set n (f (s.member n)) } }
def State.lnk (s : State) (k : Nat) : Link := s.link.links.get {} k
def State.updLnk (s : State) (k : Nat) (f : Link → Link) : State :=
  { s with link := { s.link with links := s.link.links.set k (f (s.lnk k)) } }
def State.line (s : State) (k : Nat) : Line := s.sync.lines.get {} k
def State.updLine (s : State) (k : Nat) (f : Line → Line) : State :=
  { s with sync := { s.sync with lines := s.sync.lines.set k (f (s.line k)) } }
def fnKey (f : FuncRef) : Nat := f.port * 32 + f.fn
def qFunc (q : QRef) : FuncRef := ⟨q.port, q.fn⟩
def State.func (s : State) (f : FuncRef) : Func := s.host.funcs.get {} (fnKey f)
def State.updFunc (s : State) (f : FuncRef) (g : Func → Func) : State :=
  { s with host := { s.host with funcs := s.host.funcs.set (fnKey f) (g (s.func f)) } }
def State.queue (s : State) (q : QRef) : Queue := (s.func (qFunc q)).queues.get {} q.q
def State.updQueue (s : State) (q : QRef) (g : Queue → Queue) : State :=
  s.updFunc (qFunc q) (fun f => { f with queues := f.queues.set q.q (g (f.queues.get {} q.q)) })
def State.serve (s : State) (n : Nat) : Serve := s.net.serve.get {} n
def State.updServe (s : State) (n : Nat) (f : Serve → Serve) : State :=
  { s with net := { s.net with serve := s.net.serve.set n (f (s.serve n)) } }
def State.near (s : State) (k : Nat) : MemSt := s.tiers.nears.get {} k
def State.updNear (s : State) (k : Nat) (f : MemSt → MemSt) : State :=
  { s with tiers := { s.tiers with nears := s.tiers.nears.set k (f (s.near k)) } }
def State.chan (s : State) (k : Nat) : MemSt := s.tiers.chans.get {} k
def State.updChan (s : State) (k : Nat) (f : MemSt → MemSt) : State :=
  { s with tiers := { s.tiers with chans := s.tiers.chans.set k (f (s.chan k)) } }
def State.rail (s : State) (d : Nat) : Rail := s.power.rails.get {} d
def State.updRail (s : State) (d : Nat) (f : Rail → Rail) : State :=
  { s with power := { s.power with rails := s.power.rails.set d (f (s.rail d)) } }

/-- The partition that a core's cluster steward has applied (R101). -/
def State.partOf (s : State) (k : Nat) : Option Nat := (s.cluster (coreCluster k)).part
/-- The partition of a core, 0 where its cluster is idle. -/
def State.partNum (s : State) (k : Nat) : Nat := (s.partOf k).getD 0
/-- The logical cores of a partition, ascending. -/
def State.coresOf (s : State) (n : Nat) : List Nat :=
  ((s.part n).cfg.clusters.map (fun c => (List.range 15).map (fun i => c * 15 + i))).flatten
/-- Whether a core is in a partition. -/
def State.inPart (s : State) (n k : Nat) : Bool := coreCluster k ∈ (s.part n).cfg.clusters
/-- The lead context of a partition (R160): context 0 of its lowest logical core. -/
def State.leadOf (s : State) (n : Nat) : At := ⟨((s.part n).cfg.clusters.headD 0) * 15, 0⟩
/-- The contexts of a partition. -/
def State.ctxsOf (s : State) (n : Nat) : List At :=
  ((s.coresOf n).map (fun k => (List.range 8).map (fun c => (⟨k, c⟩ : At)))).flatten
/-- The field dies that hold clusters of a partition, ascending (R225). -/
def State.diesOf (s : State) (n : Nat) : List Nat := ((s.part n).cfg.clusters.map clusterDie).dedup
/-- Whether the module runs: no hold is latched (R514 freezes every unit). -/
def State.live (s : State) : Bool := s.power.hold = .normal
/-- Whether a switched domain is on (R50). -/
def State.domainOn (s : State) (d : Nat) : Bool := d ∈ s.power.domains
/-- Whether bring-up has completed (R542 state 1). -/
def State.up (s : State) : Bool := s.boot.state = 1
/-- Whether the hold-up gate is open (R513): usable energy at least E_req. -/
def lossSetMib (s : State) : Nat :=
  2048 + 8 * ((List.range 8).map (fun n => (s.part n).stageSize)).sum + 128
    + ((List.range 8).map (fun n =>
        if (s.part n).keepValid then ceilDiv ((s.part n).objects.get {} (s.part n).keepObj).size (2 ^ 20) else 0)).sum
/-- E_req of R513 in J. -/
def energyReq (mib : Nat) : Nat := 150 + ceilDiv (112 * mib) 1024
/-- Whether the hold-up gate is open (R513). -/
def State.gateOpen (s : State) : Bool := energyReq (lossSetMib s) ≤ s.power.bankJ

/-- A fresh free value (Config.freeNat) and the state with the counter advanced. -/
def State.fresh (s : State) : State := { s with free := s.free + 1 }

/-! ### Registers of a context -/

/-- A scalar register; s0 reads as zero (R100). -/
def Ctx.getS (c : Ctx) (r : BitVec 5) : Word := if r = 0 then 0 else c.s.get 0 r.toNat
/-- Writing a scalar register; writes to s0 are discarded (R100). -/
def Ctx.setS (c : Ctx) (r : BitVec 5) (v : Word) : Ctx := if r = 0 then c else { c with s := c.s.set r.toNat v }
/-- A vector register. -/
def Ctx.getV (c : Ctx) (r : BitVec 4) : VReg := c.v.get {} r.toNat
/-- Writing a vector register; its marks join the sticky pair (R135). -/
def Ctx.setV (c : Ctx) (r : BitVec 4) (v : VReg) : Ctx :=
  { c with v := c.v.set r.toNat v, stickyBlight := c.stickyBlight || v.blight, stickySubst := c.stickySubst || v.subst }
/-- A tile accumulator. -/
def Ctx.getA (c : Ctx) (r : BitVec 2) : TileAcc := c.acc.get {} r.toNat
/-- Writing a tile accumulator; its marks join the sticky pair (R135). -/
def Ctx.setA (c : Ctx) (r : BitVec 2) (v : TileAcc) : Ctx :=
  { c with acc := c.acc.set r.toNat v, stickyBlight := c.stickyBlight || v.blight, stickySubst := c.stickySubst || v.subst }
/-- ORs marks into the sticky pair (R135). -/
def Ctx.mark (c : Ctx) (b u : Bool) : Ctx := { c with stickyBlight := c.stickyBlight || b, stickySubst := c.stickySubst || u }
/-- Lane `i` of a vector register. -/
def VReg.lane (v : VReg) (i : Nat) : BitVec 32 := v.lanes.getD i 0
/-- bfloat16 element `i` (R100): the lower-numbered of a lane's pair in bits [15:0]. -/
def VReg.half (v : VReg) (i : Nat) : BitVec 16 := (v.lane (i / 2)).extractLsb' (16 * (i % 2)) 16
/-- The 128 lanes of a function. -/
def mkLanes (f : Nat → BitVec 32) : List (BitVec 32) := (List.range 128).map f
/-- The 128 lanes of 256 bfloat16 elements. -/
def mkHalves (f : Nat → Nat) : List (BitVec 32) :=
  mkLanes (fun i => BitVec.ofNat 32 (f (2 * i) % 65536 + 65536 * (f (2 * i + 1) % 65536)))
/-- The 512 bytes of a vector register (R145 VST). -/
def VReg.bytes (v : VReg) : List Byte := ((List.range 128).map (fun i => leBytes 4 (v.lane i).toNat)).flatten
/-- The vector register that 512 bytes give (R145 VLD). -/
def lanesOf (l : List Byte) : List (BitVec 32) := mkLanes (fun i => BitVec.ofNat 32 (leAt l (4 * i) 4))

/-! ### Memory -/

/-- What a byte reads as: 0x00 where nothing has been written (log entry 4). -/
def Memory.get : List Host.Cell → Nat → Byte
  | [], _ => 0
  | (j, b) :: t, k => if j = k then b else Memory.get t k

/-- Writing one byte; writing what an unlisted address reads as removes the entry. -/
def Memory.put : List Host.Cell → Nat → Byte → List Host.Cell
  | [], k, b => if b = 0 then [] else [(k, b)]
  | (j, c) :: t, k, b =>
    if k < j then (if b = 0 then (j, c) :: t else (k, b) :: (j, c) :: t)
    else if k = j then (if b = 0 then t else (k, b) :: t)
    else (j, c) :: Memory.put t k b

/-- The canonical form: addresses strictly rising, no entry equal to the default. -/
def Memory.wf (m : List Host.Cell) : Bool :=
  decide (m.Pairwise (fun a b => a.1 < b.1)) && m.all (fun c => c.2 ≠ 0)

/-- Writing bytes at a list of keys. -/
def Memory.putAll (m : List Host.Cell) (l : List (Nat × Byte)) : List Host.Cell := l.foldl (fun m x => Memory.put m x.1 x.2) m

/-- Physical keys by region: scratchpads, turf, staging, near stacks, fallow channels. -/
def scratchKey (core off : Nat) : Nat := core * 2 ^ 20 + off
def turfKey (off : Nat) : Nat := 2 ^ 60 + off
def stagingKey (die off : Nat) : Nat := 2 * 2 ^ 60 + die * 2 ^ 28 + off
def nearKey (stack off : Nat) : Nat := 4 * 2 ^ 60 + stack * 2 ^ 36 + off
def fallowKey (ch off : Nat) : Nat := 5 * 2 ^ 60 + ch * 2 ^ 39 + off
/-- The region of a key. -/
def keyRegion (k : Nat) : Nat := k / 2 ^ 60
/-- The granule size of a key's region (R474). -/
def granSize (k : Nat) : Nat := if keyRegion k = 0 then 8 else if keyRegion k ≤ 2 then 32 else 64
/-- The granule of a key. -/
def granule (k : Nat) : Nat := k - k % granSize k
/-- A turf slice is 24 MiB (R266). -/
def sliceBytes : Nat := 0x1800000

/-- The bytes at some keys and whether a granule among them is poisoned (R474). -/
def State.readKeys (s : State) (ks : List Nat) : List Byte × Bool :=
  (ks.map (Memory.get s.mem), ks.any (fun k => granule k ∈ s.poison))

/-- The granules marked blighted, or substituted, after a write of some keys with or without the mark (R37, R474, R475). -/
def poisonAfter (poison : List Nat) (ks : List Nat) (blight : Bool) : List Nat :=
  ((ks.map granule).dedup).foldl (fun ps g =>
    if blight then insertNat ps g
    else if (ks.filter (fun k => granule k = g)).dedup.length = granSize g then ps.filter (· ≠ g)
    else ps) poison

/-- A granule is lost: what it holds is a free value from now on, and it carries the poison pattern (R474). -/
def State.lose (s : State) (k : Nat) : State :=
  let g := granule k
  { s with
    mem := Memory.putAll s.mem ((List.range (granSize k)).map (fun i => (g + i, BitVec.ofNat 8 (Config.freeNat (s.free + i)))))
    poison := insertNat s.poison g
    free := s.free + granSize k }

/-! ### The fallow packing (R283 to R287) -/

/-- A mask with the bits of some places set, as bytes. -/
def maskLe (len : Nat) (places : List Nat) : List Byte := leBytes len ((places.map (2 ^ ·)).sum)

/-- Nibbles two per byte, the lower-numbered in bits [3:0], with a final zero nibble when their count is odd (R283). -/
def packNibbles : List Nat → List Byte
  | [] => []
  | [a] => [BitVec.ofNat 8 a]
  | a :: b :: r => BitVec.ofNat 8 (a + 16 * b) :: packNibbles r

/-- Nibble `j` of a line (R283). -/
def lineNibble (l : List Byte) (j : Nat) : Nat := (l.getD (j / 2) 0).toNat / 16 ^ (j % 2) % 16

/-- The four encodings of a line of 64 bytes, as (mode, payload) in the order of their codes; mode zero for an all-zero line
alone (R283). -/
def lineForms (l : List Byte) : List (Nat × List Byte) :=
  let words := (List.range 16).filter (fun i => leAt l (4 * i) 4 ≠ 0)
  let nibs := (List.range 128).filter (fun j => lineNibble l j ≠ 0)
  (if words = [] then [(0, [])] else [])
    ++ [(1, maskLe 2 words ++ (words.map (fun i => slice l (4 * i) 4)).flatten),
        (2, maskLe 16 nibs ++ packNibbles (nibs.map (lineNibble l))), (3, slice l 0 64)]

/-- The smaller of two encodings; a tie goes to the lower mode code (R283). -/
def smallerForm (a b : Nat × List Byte) : Nat × List Byte := if b.2.length < a.2.length then b else a

/-- A line as it is packed: its mode and its payload (R283). -/
def linePack (l : List Byte) : Nat × List Byte := (lineForms l).foldl smallerForm (3, slice l 0 64)

/-- A bale packed: the header with line i's mode in bits [2i + 1 : 2i], then the payloads in line order (R284). -/
def balePacked (l : List Byte) : List Byte :=
  let ls := (List.range 32).map (fun i => linePack (slice l (64 * i) 64))
  leBytes 8 (((List.range 32).map (fun i => (ls.getD i (0, [])).1 * 4 ^ i)).sum) ++ (ls.map (·.2)).flatten

/-- What a bale of 2,048 bytes is stored as: whether raw, and the bytes that its chunks hold (R284). -/
def baleStored (l : List Byte) : Bool × List Byte :=
  let p := balePacked l
  if p.length = 8 then (false, []) else if 1792 < p.length then (true, slice l 0 2048) else (false, p)

/-- The chunks of 256 bytes that a bale takes, and whether it is stored raw (R284). -/
def balePack (l : List Byte) : Nat × Bool := (ceilDiv (baleStored l).2.length 256, (baleStored l).1)

/-- The number of a bale in the directories: channel × 2^28 + bale, from the key of one of its bytes. -/
def baleOf (k : Nat) : Nat := (k - 5 * 2 ^ 60) / 2048
/-- The channel of a bale number. -/
def baleChan (b : Nat) : Nat := b / 2 ^ 28
/-- The bytes of a bale in memory. -/
def baleBytes (mem : List Host.Cell) (b : Nat) : List Byte := (List.range 2048).map (fun i => Memory.get mem (5 * 2 ^ 60 + b * 2048 + i))

/-- A bale's directory entry as it stands in its channel's directory (R285). -/
def Bale.word (b : Bale) : BitVec 256 :=
  BitVec.ofNat 256 (b2n b.raw * 2 ^ 236 + b.chunks.length % 16 * 2 ^ 232
    + ((List.range (min 8 b.chunks.length)).map (fun k => b.chunks.getD k 0 % 2 ^ 29 * 2 ^ (29 * k))).sum)

/-- The chunks of a channel in use. -/
def usedChunks (dir : Tab Bale) (ch : Nat) : List Nat := ((dir.filter (fun x => baleChan x.1 = ch)).map (fun x => x.2.chunks)).flatten

/-- The chunk pool of a fallow channel under a licence variant, in chunks of 256 bytes (R285, R540). -/
def poolChunks (v : BitVec 8) : Nat := if v = 1 || v = 2 then 0x0F000000 else 0x1E000000

/-- Free chunks of a channel's pool, looked for from a free start: R287 does not say which are taken. -/
def allocChunks (pool : Nat) (dir : Tab Bale) (b n : Nat) : List Nat :=
  let used := usedChunks dir (baleChan b)
  let start := Config.freeChunk b used
  (((List.range (used.length + n)).map (fun i => (start + i) % pool)).filter (· ∉ used)).take n

/-- A bale's directory entry after its bytes have changed (R284 to R287). -/
def rebale (pool : Nat) (mem : List Host.Cell) (dir : Tab Bale) (b : Nat) : Tab Bale :=
  let (n, raw) := balePack (baleBytes mem b)
  if n = 0 then dir.del b else dir.set b { raw := raw, chunks := allocChunks pool dir b n }

/-- The bales among some keys. -/
def balesIn (ks : List Nat) : List Nat := ((ks.filter (fun k => keyRegion k = 5)).map baleOf).dedup

/-- Writing bytes at keys with a blight mark (R474, R475); bales of the fallow tier are packed again (R287). -/
def State.writeKeys (s : State) (ks : List Nat) (data : List Byte) (blight : Bool) : State :=
  let mem := Memory.putAll s.mem (List.zip ks data)
  let s := { s with mem := mem, poison := poisonAfter s.poison ks blight, substd := poisonAfter s.substd ks false }
  match balesIn ks with
  | [] => s
  | bs => { s with tiers := { s.tiers with dir := bs.foldl (rebale (poolChunks s.ident.variant) mem) s.tiers.dir } }

/-- Whether a granule among some keys holds bytes derived from a substituted row (R37). -/
def State.substAt (s : State) (ks : List Nat) : Bool := ks.any (fun k => granule k ∈ s.substd)

/-- The bytes at some keys carry the substituted mark of what was written there (R37). -/
def State.markSubst (s : State) (ks : List Nat) (subst : Bool) : State :=
  if subst then { s with substd := poisonAfter s.substd ks true } else s

/-! ### Rows, tables, objects -/

/-- B of R168: blocks per row. -/
def Table.blocks (t : Table) : Nat := ceilDiv t.width 32
/-- The record size of a layout (R170). -/
def recordBytes (blocks bits outl esc prom : Nat) : Nat :=
  32 * ceilDiv (8 * ceilDiv (blocks * 4 * bits + 2 * blocks + 2 * outl) 8 + 8 * esc + 40 * prom) 32
/-- The record size of a table (R170). -/
def Table.recSize (t : Table) : Nat := recordBytes t.blocks (eltBits t.fmt) t.outliers.length t.escSlots t.promSlots
/-- The record size of a table's T2 shadow (R197). -/
def Table.shadowSize (t : Table) : Nat := recordBytes t.blocks 2 t.outliers.length 0 0

/-- The stacks set in a channel mask, ascending. -/
def maskBits (m : BitVec 16) : List Nat := (List.range 16).filter (fun i => m.getLsbD i)
/-- The channels an object spreads over: its masked stacks, or the 32 fallow channels. -/
def Obj.width (o : Obj) : Nat := if o.tier = 1 then (maskBits o.mask).length else 32
/-- The record size of the rows that an object holds; of a table that has been removed, the one that it had. -/
def Obj.recSize (o : Obj) (t : Table) : Nat := if t.width = 0 then o.oldRec else if o.kind = 3 then t.shadowSize else t.recSize
/-- Whether an object holds rows. -/
def Obj.hasRows (o : Obj) : Bool := o.kind = 1 || o.kind = 3

/-- The salted objects of a table in the order of the re-salt: its near and fallow objects by list
order, then its shadow object (R211). -/
def Part.salted (q : Part) (t : Table) : List (Nat × Obj) :=
  ((t.objs ++ (if t.shadowOn then [t.shadowObj] else [])).map (fun n => (n, q.objects.get {} n))).filter
    (fun x => x.2.tier ≠ 0 && x.2.width ≠ 0)
/-- The row groups of an object. -/
def Obj.groups (o : Obj) : Nat := ceilDiv o.rowCount (max 1 o.width)
/-- The number of row groups of the salted objects before object `n`: a group's place in the cursor. -/
def groupBase (l : List (Nat × Obj)) (n : Nat) : Nat :=
  ((l.takeWhile (fun x => x.1 ≠ n)).map (fun x => x.2.groups)).sum

/-- place of R177: channel index among the object's channels and slot, under a salt. -/
def placeRow (salt : Word) (table n r f : Nat) : Nat × Nat :=
  let loc := r - f
  let g := loc / n
  let rot := (mix64 (salt ^^^ BitVec.ofNat 64 (table * 2 ^ 40) ^^^ BitVec.ofNat 64 g)).toNat % n
  ((loc % n + rot) % n, g)

/-- The salt that holds for a row group of an object (R212). -/
def saltFor (q : Part) (t : Table) (num g : Nat) : Word :=
  if t.resalting && groupBase (q.salted t) num + g < t.cursor then t.newSalt else t.salt

/-- The channel and the address of a row's record in a near or fallow object (R177, R212). -/
def rowHome (q : Part) (num : Nat) (o : Obj) (r : Nat) : Nat × Nat :=
  let t := q.tables.get {} o.table
  let n := max 1 o.width
  let (k, g) := placeRow (saltFor q t num ((r - o.firstRow) / n)) o.table n r o.firstRow
  ((if o.tier = 1 then (maskBits o.mask).getD k 0 else k), o.base + g * o.recSize t)

/-- The key of byte `x` of an interleaved area (R270, R286). -/
def spread (o : Obj) (base x : Nat) : Nat :=
  if o.tier = 1 then
    let n := max 1 o.width
    nearKey ((maskBits o.mask).getD (x / 4096 % n) 0) (base + x / (4096 * n) * 4096 + x % 4096)
  else fallowKey (x / 2048 % 32) (base + x / 65536 * 2048 + x % 2048)

/-- Rounding up to a multiple. -/
def roundUp (m x : Nat) : Nat := m * ceilDiv x m

/-- The key of byte `x` of an object (R270, R286), none where the byte lies nowhere. -/
def objKey (q : Part) (num : Nat) (o : Obj) (x : Nat) : Option Nat :=
  if o.size ≤ x then none
  else if o.tier = 0 then some (turfKey (o.base + x))
  else if !o.hasRows then some (spread o o.base x)
  else
    let rs := o.recSize (q.tables.get {} o.table)
    if rs = 0 then none
    else if x < o.rowCount * rs then
      let (ch, a) := rowHome q num o (o.firstRow + x / rs)
      some (if o.tier = 1 then nearKey ch (a + x % rs) else fallowKey ch (a + x % rs))
    else if o.kind = 1 && o.verOff ≤ x then
      some (spread o (roundUp (if o.tier = 1 then 4096 else 2048) (o.base + o.groups * rs)) (x - o.verOff))
    else none

/-! ### Device addresses (R136, R137) -/

/-- The address space of a device address. -/
def spaceOf (a : Word) : Nat := fld a.toNat 63 60

/-- The object a partition names by number; a serve partition falls back to its source's (R420). -/
def State.findObj (s : State) (n num : Nat) : Option (Part × Obj) :=
  match (s.part n).objects.find num with
  | some o =>
    match o.mirrorOf with
    | some src => if o.copied then some (s.part n, o)
        else ((s.part (s.part n).cfg.src).objects.find src).map (fun x => (s.part (s.part n).cfg.src, x))
    | none => some (s.part n, o)
  | none =>
    if (s.part n).cfg.serve then ((s.part (s.part n).cfg.src).objects.find num).map (fun o => (s.part (s.part n).cfg.src, o))
    else none

/-- The offset of an address in its space and the space's limit there; none outside (R136). -/
def State.bounds (s : State) (n : Nat) (a : Word) : Option (Nat × Nat) :=
  let w := a.toNat
  match spaceOf a with
  | 0 => if fld w 59 20 = 0 then some (fld w 19 0, 2 ^ 20) else none
  | 1 => if fld w 59 36 = 0 && fld w 35 25 < 1200 && s.inPart n (fld w 35 25) then some (fld w 24 0, sliceBytes) else none
  | 2 =>
    let q := s.part n
    if fld w 59 35 = 0 && fld w 31 28 = 0 && q.stageBase * 2 ^ 20 ≤ fld w 27 0 then
      some (fld w 27 0, min 0xF000000 ((q.stageBase + q.stageSize) * 2 ^ 20)) else none
  | 3 => objBounds 0 w
  | 4 => objBounds 1 w
  | 5 => objBounds 2 w
  | _ => none
where
  /-- An object space: the object must lie in the space's tier. -/
  objBounds (tier w : Nat) : Option (Nat × Nat) :=
    match s.findObj n (fld w 59 40) with
    | some (_, o) =>
      if (if (((s.part n).objects.find (fld w 59 40)).bind (·.mirrorOf)).isSome then 0 else o.tier) = tier
      then some (fld w 39 0, o.size) else none
    | none => none

/-- Whether every byte of an access has a place: an object's bytes between its rows and its version area, and rows of a table
that is not installed, have none (R270, log entry 45). -/
def State.placed (s : State) (n : Nat) (a : Word) (len : Nat) : Bool :=
  match (if spaceOf a < 3 then none else s.findObj n (fld a.toNat 59 40)) with
  | some (q, o) =>
    let rows := o.rowCount * o.recSize (q.tables.get {} o.table)
    let off := fld a.toNat 39 0
    o.tier = 0 || !o.hasRows || (rows ≠ 0 && (off + len ≤ rows || (o.kind = 1 && (o.verOff ≤ off || o.verOff = rows))))
  | none => true

/-- Whether `len` bytes from an address lie within their space (R136). -/
def State.within (s : State) (n : Nat) (a : Word) (len : Nat) : Bool :=
  match s.bounds n a with
  | some (off, lim) => off + len ≤ lim && off < lim && s.placed n a len
  | none => false

/-- The key of one byte for an access of a partition from a core. -/
def State.keyOf (s : State) (n core : Nat) (a : Word) : Option Nat :=
  let w := a.toNat
  match spaceOf a with
  | 0 => some (scratchKey core (fld w 19 0))
  | 1 => some (turfKey (fld w 35 25 * sliceBytes + fld w 24 0))
  | 2 => some (stagingKey (fld w 34 32) (fld w 27 0))
  | 3 => (s.findObj n (fld w 59 40)).bind (fun x => objKey x.1 (fld w 59 40) x.2 (fld w 39 0))
  | 4 => (s.findObj n (fld w 59 40)).bind (fun x => objKey x.1 (fld w 59 40) x.2 (fld w 39 0))
  | 5 => (s.findObj n (fld w 59 40)).bind (fun x => objKey x.1 (fld w 59 40) x.2 (fld w 39 0))
  | _ => none

/-- The keys of `len` bytes from an address. -/
def State.keysOf (s : State) (n core : Nat) (a : Word) (len : Nat) : List Nat :=
  (List.range len).filterMap (fun i => s.keyOf n core (a + BitVec.ofNat 64 i))

/-- Reading device bytes: the bytes and the blight of their granules. -/
def State.readDev (s : State) (n core : Nat) (a : Word) (len : Nat) : List Byte × Bool := s.readKeys (s.keysOf n core a len)

/-- Reading device bytes with both of their marks (R37, R474). -/
def State.readMarked (s : State) (n core : Nat) (a : Word) (len : Nat) : List Byte × Bool × Bool :=
  let r := s.readDev n core a len
  (r.1, r.2, s.substAt (s.keysOf n core a len))

/-- Whether an access kind may name a space (R137). -/
inductive Access where
  | load | store | moveSrc | moveDst | area | descriptor | block
  deriving DecidableEq, Repr

/-- The spaces of each kind of access (R137). -/
def Access.spaces : Access → List Nat
  | .load => [0, 1, 2, 3]
  | .store => [0, 1, 3]
  | .moveSrc => [0, 1, 2, 3, 4, 5]
  | .moveDst => [0, 1, 3, 4, 5]
  | .area => [0, 1, 3, 4]
  | .descriptor => [0, 1]
  | .block => [0]

/-- Whether a serve partition may write to a space (R404). -/
def State.serveWriteOk (s : State) (n : Nat) (a : Word) : Bool := !(s.part n).cfg.serve || spaceOf a ≤ 1

/-- The fault cause of an access, address before alignment (R132 step 5, R137, R138). -/
def State.accessFault (s : State) (n : Nat) (k : Access) (a : Word) (len align : Nat) : Option (BitVec 8) :=
  if spaceOf a ∉ k.spaces || !s.within n a len then some 0x06
  else if (k = .store || k = .moveDst) && !s.serveWriteOk n a then some 0x06
  else if a.toNat % align ≠ 0 then some 0x07
  else none

/-! ### What a plain write touches besides its bytes: digests (R257), cached rows (R179, R203) -/

/-- A byte's place as a region and a linear offset: all turf is one region, so slices and turf objects
that share bytes share places. -/
def State.linear (s : State) (n : Nat) (a : Word) : Nat × Nat :=
  match spaceOf a with
  | 1 => (0, fld a.toNat 35 25 * sliceBytes + fld a.toNat 24 0)
  | 3 => match s.findObj n (fld a.toNat 59 40) with
    | some (_, o) => if o.tier = 0 then (0, o.base + fld a.toNat 39 0) else (1 + fld a.toNat 59 40, fld a.toNat 39 0)
    | none => (1 + fld a.toNat 59 40, fld a.toNat 39 0)
  | 0 => (2 ^ 40, fld a.toNat 19 0)
  | 2 => (2 ^ 41, fld a.toNat 34 0)
  | _ => (1 + fld a.toNat 59 40, fld a.toNat 39 0)

/-- Whether two runs of bytes share a place. -/
def State.sharePlace (s : State) (n : Nat) (a : Word) (la : Nat) (b : Word) (lb : Nat) : Bool :=
  let x := s.linear n a
  let y := s.linear n b
  x.1 = y.1 && x.2 < y.2 + lb && y.2 < x.2 + la

/-- The objects of a partition that a run of bytes lies in. -/
def State.objsAt (s : State) (n : Nat) (a : Word) (len : Nat) : List Nat :=
  if 3 ≤ spaceOf a then [fld a.toNat 59 40]
  else if spaceOf a = 1 then
    ((s.part n).objects.filter (fun x => x.2.tier = 0 && s.sharePlace n a len (BitVec.ofNat 64 (3 * 2 ^ 60 + x.1 * 2 ^ 40)) x.2.size)).map (·.1)
  else []

/-- The plan entries with digest = 1 that a run of bytes belongs to (R256, R257). -/
def State.coverOf (s : State) (n : Nat) (a : Word) (len : Nat) : List Nat :=
  let q := s.part n
  match q.plan with
  | none => []
  | some pl =>
    let objs := s.objsAt n a len
    (List.range pl.entries.length).filter (fun i =>
      let e := pl.entries.getD i {}
      e.valid && e.digest &&
        (if e.dense then pl.cover.any (fun c => c.1 = i && s.sharePlace n a len c.2.1 c.2.2)
         else ([e.table] ++ (if 1 ≤ e.moments then [e.mTable1] else []) ++ (if 2 ≤ e.moments then [e.mTable2] else [])).any
            (fun t => (q.tables.get {} t).objs.any (· ∈ objs))))

/-- Marks the entries that a write outside any transaction covers as stale (R257). -/
def State.markStale (s : State) (n : Nat) (a : Word) (len : Nat) : State :=
  match s.coverOf n a len with
  | [] => s
  | l => s.updPart n (fun q => { q with stale := l.foldl insertNat q.stale })

/-- The keys of a row's record at its home. -/
def rowKeys (q : Part) (num : Nat) (o : Obj) (r : Nat) : List Nat :=
  let rs := o.recSize (q.tables.get {} o.table)
  (List.range rs).filterMap (fun i => objKey q num o ((r - o.firstRow) * rs + i))

/-- The object of a table that holds a row, if any (R180). -/
def Part.rowObj (q : Part) (t r : Nat) : Option (Nat × Obj) :=
  ((q.tables.get {} t).objs.map (fun n => (n, q.objects.get {} n))).find? (fun x =>
    x.2.kind = 1 && x.2.table = t && x.2.firstRow ≤ r && r < x.2.firstRow + x.2.rowCount)

/-- The keys of the version word of a row's block (R238, R270). -/
def rowVerKeys (q : Part) (num : Nat) (o : Obj) (r : Nat) : List Nat :=
  (List.range 8).filterMap (fun i => objKey q num o (o.verOff + 8 * ((r - o.firstRow) / 32) + i))

/-- Where a write at some keys has changed the record of a cached row or replica, or the version word of its row block, the
copy holds what its master holds now, its blight with it (R179, R203, R205, R207). -/
def State.refreshCopies (s : State) (n t : Nat) (ks : List Nat) : State :=
  let upd (w : Way) : Way :=
    match (if w.part = n && w.table = t then (s.part n).rowObj t w.row else none) with
    | some (num, o) =>
      let rk := rowKeys (s.part n) num o w.row
      let vk := rowVerKeys (s.part n) num o w.row
      let w := if rk.any (· ∈ ks) then { w with bytes := (s.readKeys rk).1, blight := (s.readKeys rk).2 } else w
      if vk.any (· ∈ ks) then { w with ver := leNat (s.readKeys vk).1 % 2 ^ 40 } else w
    | none => w
  { s with row := { s.row with rick := s.row.rick.map upd, windrow := s.row.windrow.map upd } }

/-- Writing device bytes outside any transaction (R257, R474, R475). -/
def State.writeDev (s : State) (n core : Nat) (a : Word) (data : List Byte) (blight : Bool) : State :=
  let s := (s.writeKeys (s.keysOf n core a data.length) data blight).markStale n a data.length
  match (if 4 ≤ spaceOf a then (s.part n).objects.find (fld a.toNat 59 40) else none) with
  | some o => if o.kind = 1 then s.refreshCopies n o.table (s.keysOf n core a data.length) else s
  | none => s

/-- Writing device bytes with both of their marks (R37). -/
def State.writeMarked (s : State) (n core : Nat) (a : Word) (data : List Byte) (blight subst : Bool) : State :=
  (s.writeDev n core a data blight).markSubst (s.keysOf n core a data.length) subst

/-! ### Interrupts, posted writes, error records -/

/-- What the part sends. -/
def State.send (s : State) (o : Out) : State := { s with out := s.out ++ [o] }

/-- A posted write or message of a function: held while Bus Master Enable is clear (R447). -/
def State.emit (s : State) (f : FuncRef) (o : Out) : State :=
  if (s.func f).busMaster then s.send o else s.updFunc f (fun x => { x with held := x.held ++ [o] })

/-- Sends a pending vector's message when it is unmasked and its holdoff has passed (R446); it stays pending while Bus Master
Enable is clear (R447). -/
def State.trySend (s : State) (f : FuncRef) (v : Nat) : State :=
  let x := (s.func f).vectors.get {} v
  let free := match x.lastSent with | none => true | some t => t + 1000 * x.holdoff ≤ s.now
  if x.pending && !x.masked && free && (s.func f).busMaster then
    (s.updFunc f (fun g => { g with vectors := g.vectors.set v { x with pending := false, lastSent := some s.now } })).emit f (.msix f v x.addr x.data)
  else s

/-- Makes a vector pending (R446). -/
def State.raise (s : State) (f : FuncRef) (v holdoff : Nat) : State :=
  (s.updFunc f (fun g => { g with vectors := g.vectors.upd {} v (fun x => { x with pending := true, holdoff := holdoff }) })).trySend f v

/-- The phase bit of entry number `n` of a ring of `2^k` entries (R440). -/
def phaseBit (n k : Nat) : Bool := n / 2 ^ k % 2 = 0

/-- The unit codes of R468. -/
def unitCode : UnitKind → BitVec 8
  | .core => 0x00 | .cluster => 0x01 | .rowEngine => 0x02 | .swath => 0x03 | .exchange => 0x04
  | .dieSteward => 0x05 | .turf => 0x06 | .near => 0x07 | .fallow => 0x08 | .barrow => 0x09
  | .link => 0x0A | .netPort => 0x0B | .hostPort => 0x0C | .hub => 0x0D | .power => 0x0E | .software => 0x0F

/-- Writing a record to a function's error ring, with its reserved overflow entry (R473). -/
def State.ringPost (s : State) (f : FuncRef) (r : ErrRec) : State :=
  let e := (s.func f).err
  let size := 2 ^ e.sizeLog2
  let used := e.tail - e.head
  if !e.enable then s
  else if used + 2 ≤ size then
    ((s.updFunc f (fun g => { g with err := { e with tail := e.tail + 1 } })).emit f
      (.errRing f (e.tail % size) r (phaseBit e.tail e.sizeLog2))).raise f e.vector e.holdoff
  else if used < size then
    let o : ErrRec := { cls := 0x0F, cause := 0x01, unit := 0x0D, seq := r.seq, time := s.now, addr := BitVec.ofNat 64 r.seq, count := 1 }
    ((s.updFunc f (fun g => { g with err := { e with tail := e.tail + 1, overRec := some o } })).emit f
      (.errRing f (e.tail % size) o (phaseBit e.tail e.sizeLog2))).raise f e.vector e.holdoff
  else match e.overRec with
    | some o =>
      let o := { o with count := o.count + 1, seq := r.seq }
      (s.updFunc f (fun g => { g with err := { e with overRec := some o } })).emit f
        (.errRing f ((e.tail - 1) % size) o (phaseBit (e.tail - 1) e.sizeLog2))
    | none => s

/-- The function that an enabled partition is bound to. -/
def State.funcOf (s : State) (n : Nat) : Option FuncRef :=
  let c := (s.part n).cfg
  if c.enable then some ⟨c.port, c.fn⟩ else none

/-- The module error log holds the newest 2^29 records (R471). -/
def logCap : Nat := 2 ^ 29

/-- Posting an error record: into the module log with the next sequence and the time, and into the
rings of the functions of the named partitions (R471). -/
def State.post (s : State) (r : ErrRec) (parts : List Nat) : State :=
  let r := { r with seq := s.errs.nextSeq, time := s.now }
  let log := s.errs.log ++ [r]
  let s := { s with errs := { s.errs with log := if logCap < log.length then log.drop 1 else log,
                                          nextSeq := s.errs.nextSeq + 1, readAll := false } }
  parts.foldl (fun s n => match s.funcOf n with | some f => s.ringPost f r | none => s) s

/-- A record of class 0x04 about a unit (R470). -/
def discardRec (u : UnitRef) (cause : Nat) (tag : Word) (tbl count : Nat) : ErrRec :=
  { cls := 0x04, cause := BitVec.ofNat 8 cause, unit := unitCode u.kind, loc := BitVec.ofNat 32 u.index, tag := tag,
    tbl := BitVec.ofNat 32 tbl, count := count }

/-- Posting a record of class 0x04, merged per unit and cause in intervals of 1 ms (R472). -/
def State.discard (s : State) (u : UnitRef) (cause : Nat) (tag : Word) (tbl : Nat) (parts : List Nat) : State :=
  let ms := s.errs.merges
  if ms.any (fun (m : Merge) => m.unit = u && m.cause = cause) then
    { s with errs := { s.errs with merges := ms.map (fun (m : Merge) =>
        if m.unit = u && m.cause = cause then { m with count := m.count + 1, tag := tag, tbl := tbl, parts := parts } else m) } }
  else
    let m : Merge := { unit := u, cause := cause, until_ := s.now + 1000000, tag := tag, tbl := tbl, parts := parts }
    ({ s with errs := { s.errs with merges := ms ++ [m] } } : State).post (discardRec u cause tag tbl 1) parts

/-- A pending merged record is posted and its posting opens the next interval (R472). -/
def State.postMerge (s : State) (m : Merge) : State :=
  ({ s with errs := { s.errs with merges := s.errs.merges.map (fun (x : Merge) =>
      if x.unit = m.unit && x.cause = m.cause then { x with count := 0, until_ := s.now + 1000000 } else x) } } : State).post
    (discardRec m.unit m.cause m.tag m.tbl m.count) m.parts

/-- Every pending merged record that names a partition is posted before a completion, a reply or a
publication (R472, promise 6 of R445). -/
def State.flushMerges (s : State) (n : Nat) : State :=
  (s.errs.merges.filter (fun (m : Merge) => m.count ≠ 0 && n ∈ m.parts)).foldl State.postMerge s

/-! ### Bytes served (R272, R305) -/

/-- The class of a partition's requests: serve 0, training 1 (R272). -/
def State.classOf (s : State) (n : Nat) : Nat := if (s.part n).cfg.serve then 0 else 1

/-- Bytes at some keys are served in a class: serve 0, training 1, checkpoint 2, scrub 3, refresh 4 (R305). -/
def State.served (s : State) (ks : List Nat) (cls : Nat) : State :=
  let add (k : Nat) (m : MemSt) : MemSt := { m with bytes := updAt (fun x => sat64 (x + k)) m.bytes cls }
  let nears := ks.filter (fun k => keyRegion k = 4)
  let chans := ks.filter (fun k => keyRegion k = 5)
  let stackOf (k : Nat) : Nat := (k - 4 * 2 ^ 60) / 2 ^ 36
  let chanOf (k : Nat) : Nat := (k - 5 * 2 ^ 60) / 2 ^ 39
  let s := ((nears.map stackOf).dedup).foldl (fun s i => s.updNear i (add (nears.filter (fun k => stackOf k = i)).length)) s
  ((chans.map chanOf).dedup).foldl (fun s i => s.updChan i (add (chans.filter (fun k => chanOf k = i)).length)) s

/-! ### Fallow pools (R288) -/

/-- Whether a write finds too few free chunks on a channel for the bales it changes, while their old chunks are still held
(R287, R288). -/
def State.shortOn (s : State) (ch : Nat) (ks : List Nat) (data : List Byte) : Bool :=
  let mem := Memory.putAll s.mem (List.zip ks data)
  let need := (((balesIn ks).filter (fun b => baleChan b = ch)).map (fun b => (balePack (baleBytes mem b)).1)).sum
  decide (poolChunks s.ident.variant < (usedChunks s.tiers.dir ch).length + need)

/-- Whether a write finds the chunks it needs free on every channel that it changes (R288). -/
def State.fallowFits (s : State) (ks : List Nat) (data : List Byte) : Bool :=
  (((balesIn ks).map baleChan).dedup).all (fun ch => !s.shortOn ch ks data)

/-- The enabled partitions that have a fallow object with bytes on a channel (R471): rows and areas spread over all. -/
def State.fallowParts (s : State) : List Nat := (List.range 8).filter (fun n => (s.part n).cfg.enable && (s.part n).objects.any (fun o => o.2.tier = 2))

/-- A channel's pool passes 90% or 98% in use, or falls below (R288, R471). -/
def State.notePool (s : State) (ch : Nat) : State :=
  let used := (usedChunks s.tiers.dir ch).length
  let pool := poolChunks s.ident.variant
  let hi := decide (90 * pool < 100 * used)
  let top := decide (98 * pool < 100 * used)
  let x := s.chan ch
  let note (c : Nat) (s : State) : State :=
    s.post { cls := 0x06, cause := BitVec.ofNat 8 c, unit := unitCode .fallow, loc := BitVec.ofNat 32 ch } s.fallowParts
  let s := if hi && !x.past90 then note 4 s else s
  let s := if top && !x.past98 then note 5 s else s
  if hi = x.past90 && top = x.past98 then s else s.updChan ch (fun x => { x with past90 := hi, past98 := top })

/-- The channels of some keys after they were written. -/
def State.notePools (s : State) (ks : List Nat) : State := (((balesIn ks).map baleChan).dedup).foldl State.notePool s

/-! ### Tag words (R30) -/

/-- The fields of a tag word (R30). -/
def tagPart (t : Word) : Nat := fld t.toNat 63 61
def tagEpoch (t : Word) : BitVec 12 := BitVec.ofNat 12 (fld t.toNat 60 49)
def tagFmt (t : Word) : Nat := fld t.toNat 16 11
def tagBlight (t : Word) : Bool := bitAt t.toNat 10
def tagClass (t : Word) : Nat := fld t.toNat 8 6

/-- The order classes of R31. -/
inductive OrderClass where
  | bulk | gather | exchange | transaction | sync | control | serve | error
  deriving DecidableEq, Repr

/-- The codes of R31. -/
def OrderClass.code : OrderClass → Nat
  | .bulk => 0 | .gather => 1 | .exchange => 2 | .transaction => 3 | .sync => 4 | .control => 5 | .serve => 6 | .error => 7

/-- A tag word in another order class: that of the path on which the message leaves (R37). -/
def inClass (t : Word) (c : OrderClass) : Word := (t &&& ~~~(0x1C0 : Word)) ||| BitVec.ofNat 64 (c.code * 2 ^ 6)

/-- The tag word of a partition's unit that works for no context, for a step (R30, R37). -/
def State.partTag (s : State) (n : Nat) (step : BitVec 16) (c : OrderClass) : Word :=
  BitVec.ofNat 64 (n * 2 ^ 61 + (s.part n).epoch.toNat * 2 ^ 49 + step.toNat * 2 ^ 33 + c.code * 2 ^ 6)

/-- The tag word of a context's work with a format code and an order class (R30, R37, R101). -/
def State.tagOf (s : State) (p : At) (fmt cls : Nat) (blight subst : Bool) : Word :=
  let c := s.ctx p
  BitVec.ofNat 64 (s.partNum p.core * 2 ^ 61 + (s.cluster (coreCluster p.core)).epoch.toNat * 2 ^ 49
    + c.step.toNat * 2 ^ 33 + c.txid.toNat * 2 ^ 17 + fmt * 2 ^ 11 + b2n blight * 2 ^ 10 + b2n subst * 2 ^ 9 + cls * 2 ^ 6)

/-- The class in which a context's loads, stores and moves travel (R31): bulk, or serve for the reads of a serve
partition. -/
def State.dataClass (s : State) (p : At) (read : Bool) : OrderClass :=
  if read && (s.part (s.partNum p.core)).cfg.serve then .serve else .bulk

/-- Step comparison of R36: whether tag step `a` is later than reference `b`. -/
def stepLater (a b : BitVec 16) : Bool := 1 ≤ (a - b).toNat ∧ (a - b).toNat ≤ 32767
/-- Step comparison of R36: whether tag step `a` is earlier than reference `b`. -/
def stepEarlier (a b : BitVec 16) : Bool := 32768 ≤ (a - b).toNat
/-- The full step number that a 16-bit tag step names near a full reference (R36). -/
def fullStep (ref : Word) (t : BitVec 16) : Word :=
  let d := t - ref.setWidth 16
  if d.toNat ≤ 32767 then ref + d.setWidth 64 else ref - (BitVec.setWidth 64 (-d))

/-! ### Completion entries (R440) -/

/-- The fields of HQ_QPq_CFG in a disabled queue (R464): enable with 4 to 12 for the size starts the pair afresh. -/
def Queue.setCfg (q : Queue) (v : BitVec 32) : Queue :=
  let size := fld v.toNat 29 26
  let x := { q with sizeLog2 := size, vector := fld v.toNat 15 8, holdoff := fld v.toNat 7 0 }
  if v.getLsbD 31 && 4 ≤ size && size ≤ 12 then
    { x with enable := true, state := .running, cause := 0, tail := 0, head := 0, fetchSeq := 0, cqHead := 0, cqTail := 0, posted := 0, reserved := 0, readsOut := 0,
             fetched := [], started := none, running := [] }
  else x

/-- The reads of submission entries that a queue has out: while Bus Master Enable is set it asks at once for every entry up to its
tail, at most 16 ahead of its oldest unstarted command (R436); while it is clear, those asked for before are left (R447; log entry 43). -/
def Queue.reads (q : Queue) (busMaster : Bool) : Nat :=
  if !q.enable || q.state ≠ .running then 0
  else if busMaster then min ((q.tail + 2 ^ q.sizeLog2 - q.head) % 2 ^ q.sizeLog2) (16 - q.fetched.length)
  else q.readsOut

/-- Whether a queue that stops was told to start afresh once it is disabled (R463, R464). -/
def Queue.restarts (q : Queue) : Bool := q.stopping && q.nextCfg.getLsbD 31

/-- A queue that was told to stop is disabled once nothing that it started is left (R464); the last word written to its
HQ_QPq_CFG then takes effect. -/
def Queue.settle (q : Queue) : Queue :=
  if q.stopping && q.running = [] then ({ q with stopping := false, state := .disabled, fetched := [], started := none } : Queue).setCfg q.nextCfg else q

/-- Posts a completion entry for a command, with its interrupt; the records it depends on first. -/
def State.complete (s : State) (c : CmdRef) (status detail : BitVec 16) (result : Word) : State :=
  let q := s.queue c.q
  let n := (List.range 8).find? (fun n => s.funcOf n = some (qFunc c.q))
  let s := match n with | some n => s.flushMerges n | none => s
  let s := s.updQueue c.q (fun q => Queue.settle { q with
    cqTail := q.cqTail + 1
    posted := q.posted + 1
    reserved := q.reserved - 1
    running := q.running.filter (· ≠ c.seq) })
  let s := s.updFunc (qFunc c.q) (fun f => { f with cnt := updAt (fun n => sat64 (n + 1)) f.cnt 1 })
  let s := s.emit (qFunc c.q) (.completion c.q (q.cqTail % 2 ^ q.sizeLog2) c.seq c.id result status detail (phaseBit q.cqTail q.sizeLog2))
  if c.intr then s.raise (qFunc c.q) q.vector q.holdoff else s

/-! ### Synchronisation stores (R306 to R315) -/

/-- The partition that owns a flag id (R308), none for the reserved indices. -/
def State.flagPart (s : State) (id : Nat) : Option Nat :=
  let i := fld id 13 0
  if 15360 ≤ i then none else (s.cluster (fld id 16 14 * 10 + i / 1536)).part
/-- The partition that owns a counter pair (R308). -/
def State.pairPart (s : State) (id : Nat) : Option Nat :=
  let j := fld id 11 0
  if 3840 ≤ j then none else (s.cluster (fld id 16 14 * 10 + j / 384)).part

/-- A counter pair: produced and consumed. -/
def State.pair (s : State) (id : Nat) : Nat × Nat := s.sync.pairs.get (0, 0) id
/-- D = P − C as a signed 64-bit integer (R315). -/
def pairDiff (x : Nat × Nat) : Int := signed 64 (unsignedOf 64 ((x.1 : Int) - x.2))

/-- Whether a wait's condition holds in its store now (R312, R315, R319). -/
def State.condMet (s : State) : WaitCond → Bool
  | .flag id v => decide (id ∈ s.sync.flags) = v
  | .below id n => pairDiff (s.pair id) < n
  | .atLeast id n => (n : Int) ≤ pairDiff (s.pair id)
  | .release l ph => (s.line l).phase.toNat ≠ ph

/-- Every registered waiter whose condition now holds gets its wake (R313). -/
def State.wakeSatisfied (s : State) : State :=
  let sat := s.sync.waiters.filter (fun w => s.condMet w.cond)
  { s with sync := { s.sync with waiters := s.sync.waiters.filter (fun w => !s.condMet w.cond),
                                 wakes := s.sync.wakes ++ sat.map (·.p) } }

/-- Adding to a counter, held at 2^64 − 1 with an error record (R314). -/
def State.addPair (s : State) (id n : Nat) (consumed : Bool) : State :=
  let x := s.pair id
  let v := (if consumed then x.2 else x.1) + n
  let s := { s with sync := { s.sync with pairs := s.sync.pairs.set id (if consumed then (x.1, sat64 v) else (sat64 v, x.2)) } }
  let s := s.wakeSatisfied
  if 2 ^ 64 ≤ v then
    s.post { cls := 0x05, cause := 0x02, unit := unitCode .dieSteward, loc := BitVec.ofNat 32 id }
      (match s.pairPart id with | some n => [n] | none => [])
  else s

/-- Setting or clearing a flag (R311). -/
def State.putFlag (s : State) (id : Nat) (v : Bool) : State :=
  { s with sync := { s.sync with flags := if v then insertNat s.sync.flags id else s.sync.flags.filter (· ≠ id) } }.wakeSatisfied

/-- An operation with its tag word, in order class 4 (R30, R306): a context's operation bears that context's tag state. -/
def State.tagged (s : State) (op : SyncOp) : SyncOp :=
  { op with tag := match op.src with
      | .ctx p => s.tagOf p 0 OrderClass.sync.code false false
      | .unit _ => inClass op.tag .sync }

/-- An operation leaves for its store (R307). -/
def State.sendSync (s : State) (op : SyncOp) : State := { s with sync := { s.sync with inflight := s.sync.inflight ++ [s.tagged op] } }

/-- The completion action of R152 for a partition's unit, tagged as the work that completes (R37). -/
def State.action (s : State) (n : Nat) (tag : Word) (ck : BitVec 2) (ct : BitVec 17) : State :=
  let d := fld ct.toNat 16 14
  match ck.toNat with
  | 1 => s.sendSync { src := .unit n, die := d, act := .setFlag ct.toNat, tag := tag }
  | 2 => s.sendSync { src := .unit n, die := d, act := .produce ct.toNat 1, tag := tag }
  | 3 => s.sendSync { src := .unit n, die := d, act := .consume ct.toNat 1, tag := tag }
  | _ => s

/-- Whether a completion name's zero-marked bits are clear (R153). -/
def ctShapeOk (ck : BitVec 2) (ct : BitVec 17) : Bool :=
  if ck = 0 then ct = 0 else if ck = 1 then true else fld ct.toNat 13 12 = 0
/-- Whether a completion name lies in a partition's allocation (R153, R308). -/
def State.ctOwned (s : State) (n : Nat) (ck : BitVec 2) (ct : BitVec 17) : Bool :=
  if ck = 0 then true else if ck = 1 then s.flagPart ct.toNat = some n else s.pairPart ct.toNat = some n

/-! ### Transactions: the abort that faults, HALT and resets share (R255) -/

/-- A swath counter of a cluster. -/
def State.updSw (s : State) (c : Nat) (f : SwCount → SwCount) : State := s.updCluster c (fun x => { x with cnt := f x.cnt })

/-- The nanoseconds that a durable point has waited on the hold-up gate (R264). -/
def State.gateWaited (s : State) (num : Nat) : State :=
  match s.tx.txs.find? (fun t => t.num = num) with
  | some t =>
    match t.gateSince with
    | some g => s.updSw t.cluster (fun c => { c with gateNs := sat64 (c.gateNs + (s.now - g)) })
    | none => s
  | none => s

/-- A transaction is gone and none of its writes reaches a home (R255). -/
def State.dropTx (s : State) (num : Nat) : State :=
  let s := s.gateWaited num
  { s with tx := { s.tx with txs := s.tx.txs.filter (fun t => t.num ≠ num),
                             waiting := s.tx.waiting.filter (fun r => r.tx ≠ num),
                             journal := s.tx.journal.filter (fun r => r.tx ≠ num) } }

/-- Aborting the open transaction of a context (R255); counted on its cluster (R264). One past its durable
point is committed whatever becomes of its context. -/
def State.abortTx (s : State) (p : At) : State :=
  match (s.ctx p).tx with
  | none => s
  | some num =>
    let s := s.updCtx p (fun c => { c with tx := none, txid := 0 })
    if s.tx.txs.any (fun t => t.num = num && (t.phase = .durable || t.phase = .retired)) then
      { s with tx := { s.tx with txs := s.tx.txs.map (fun t => if t.num = num then { t with origin := .background } else t) } }
    else
      (s.dropTx num).updCluster (coreCluster p.core) (fun c => { c with cnt := { c.cnt with txAborts := sat64 (c.cnt.txAborts + 1) } })

/-! ### Context faults (R156, R157) and what a drained context does -/

/-- Whether every earlier store and move of a context is visible (R311). -/
def Ctx.drained (c : Ctx) : Bool := c.stores = [] && c.moves = []

/-- A release that the core owes for a context: sent at once when its writes are visible, else when
they are (R156, R311). -/
def State.releaseWhenDrained (s : State) (p : At) (op : SyncOp) : State :=
  if (s.ctx p).drained then s.sendSync op else s.updCtx p (fun c => { c with owed := c.owed ++ [op] })

/-- Taking a context fault (R156, R157): faulted, cause and pc recorded, the open transaction
aborted, an error record posted, the fault flag set with release semantics. -/
def State.faultCtx (s : State) (p : At) (cause : BitVec 8) : State :=
  let c := s.ctx p
  let s := s.abortTx p
  let s := s.updCtx p (fun c => { c with state := .faulted, faultCause := cause, faultPc := c.pc.setWidth 20,
                                         wait := none, stalledOn := none })
  let s := s.post { cls := 0x05, cause := 0x01, unit := 0x00, loc := BitVec.ofNat 32 p.core, tag := s.tagOf p 0 0 false false,
                    detail := BitVec.ofNat 64 (p.ctx * 2 ^ 32 + cause.toNat * 2 ^ 24 + c.pc.toNat % 2 ^ 20) } (s.partOf p.core).toList
  match c.faultFlag.filter (fun id => s.flagPart id.toNat = s.partOf p.core) with
  | some id => s.releaseWhenDrained p { src := .ctx p, die := fld id.toNat 16 14, act := .setFlag id.toNat }
  | none => s

/-- A context becomes idle: HALT, CSTOP (R161); its open transaction aborts. -/
def State.idleCtx (s : State) (p : At) : State :=
  (s.abortTx p).updCtx p (fun c => { c with state := .idle, wait := none, stalledOn := none })

/-- The held instruction of a context goes on: it is ready, past that instruction. -/
def State.goOn (s : State) (p : At) : State :=
  s.updCtx p (fun c => { c with state := .ready, stalledOn := none, pc := c.pc + 8 })

/-! ### Beats -/

/-- The free number of beats that pass on a core before one in which it issues (log entry 16). In strict order mode it
depends on the core and on its own counts alone, so that it repeats from run to run for the same work (R127). -/
def State.beatsBefore (s : State) (k : Nat) : Nat :=
  Config.freeBeats k (s.core k).cnt.beats (s.core k).cnt.issued (if (s.cluster (coreCluster k)).strict then 0 else s.free)

/-- One beat of the pipeline, with those that pass before it. -/
def State.beat (s : State) (k : Nat) : State :=
  (s.updCore k (fun c => { c with cnt := { c.cnt with beats := sat64 (c.cnt.beats + 1 + s.beatsBefore k) } })).fresh

/-- A unit is at work: it holds its power share and is not quiescent from here on (R317). -/
def State.active (s : State) (u : UnitRef) : State :=
  { s with power := { s.power with lent := s.power.lent.filter (· ≠ u)
                                   activeAt := (s.power.activeAt.filter (fun x => x.1 ≠ u)) ++ [(u, s.now)] } }

/-- A cluster's swath unit enters a state (R263); it is not quiescent until it is idle again (R317). -/
def State.putSw (s : State) (c : Nat) (x : SwState) : State := (s.updCluster c (fun k => { k with sw := x })).active ⟨.swath, c⟩

/-- The rotation of R98 moves on: this context took the beat's issue slot. -/
def State.slot (s : State) (p : At) : State := ((s.beat p.core).active ⟨.core, p.core⟩).updCore p.core (fun c => { c with lastIssued := p.ctx })

/-- What an instruction that has issued does to counters and pc before its effect (R97, R126). -/
def State.issued (s : State) (p : At) : State :=
  ((s.slot p).updCore p.core (fun c => { c with cnt := { c.cnt with issued := sat64 (c.cnt.issued + 1) } })).updCtx p
    (fun c => { c with state := .ready, stalledOn := none, pc := c.pc + 8 })

/-- Whether a context still waits for what its issued instructions bring: loads, stores, moves, products of the tile
engine, replies of sync stores (R161). -/
def State.unretired (s : State) (p : At) : Bool :=
  let c := s.ctx p
  !(c.drained && c.loads = []) || (s.core p.core).tiles.any (fun j => j.p = p)
    || s.sync.inflight.any (fun o => o.src = .ctx p && (match o.act with | .read _ _ _ => true | _ => false))

/-- A context that was told to stop is idle once its issued instructions have retired (R161). -/
def State.afterRetire (s : State) (p : At) : State :=
  if (s.ctx p).stalledOn = some .stopping && !s.unretired p then s.idleCtx p else s

/-- After a write or move of the context became visible: owed releases leave, and a held MFENCE or CSTOP goes on, and a
held release issues, when nothing is left (R145, R161, R311). -/
def State.afterDrain (s : State) (p : At) : State :=
  let c := s.ctx p
  if !c.drained then s
  else
    let s := (c.owed.foldl State.sendSync s).updCtx p (fun c => { c with owed := [] })
    match c.stalledOn with
    | some .fence => s.goOn p
    | some (.release op) => (s.issued p).sendSync op
    | _ => s.afterRetire p

/-- An operand came or a unit has room again: contexts of the core that stalled for it are ready to
issue (R99). -/
def State.unstall (s : State) (k : Nat) : State :=
  s.updCore k (fun c => { c with ctxs := c.ctxs.map (fun x =>
    if x.2.state = .stalled && (x.2.stalledOn = some .operand || x.2.stalledOn = some .unitFull)
    then (x.1, { x.2 with state := .ready, stalledOn := none }) else x) })

/-! ### Issue (R98, R99, R132) -/

/-- Whether a scalar register waits for a load (R99). -/
def Ctx.busyS (c : Ctx) (r : BitVec 5) : Bool :=
  r ≠ 0 && c.loads.any (fun l => match l.dest with | .scalar d _ _ => d = r | _ => false)
/-- Whether a vector register waits for a load (R99). -/
def Ctx.busyV (c : Ctx) (r : BitVec 4) : Bool :=
  c.loads.any (fun l => match l.dest with | .vector d => d = r | .engine _ vs _ => r ∈ vs | _ => false)
/-- Whether an accumulator waits for what a tile instruction reads (R109). -/
def Ctx.busyA (c : Ctx) (r : BitVec 2) : Bool :=
  c.loads.any (fun l => match l.dest with | .engine _ _ as => r ∈ as | _ => false)
/-- The vector registers that products of a context will write. -/
def Core.tileBusyV (k : Core) (ctx : Nat) (r : BitVec 4) : Bool :=
  k.tiles.any (fun j => j.p.ctx = ctx && (match j.dest with | .vec vd regs => vd.toNat ≤ r.toNat && r.toNat < vd.toNat + regs.length | _ => false))
/-- The accumulators that products of a context will write. -/
def Core.tileBusyA (k : Core) (ctx : Nat) (r : BitVec 2) : Bool :=
  k.tiles.any (fun j => j.p.ctx = ctx && (match j.dest with | .acc a _ _ => a = r | _ => false))

/-- Whether a scalar register waits for a CREAD reply (R307). -/
def State.awaits (s : State) (p : At) (r : BitVec 5) : Bool :=
  r ≠ 0 && s.sync.inflight.any (fun o => o.src = .ctx p && (match o.act with | .read _ _ sr => sr = r | _ => false))

/-- The registers an instruction reads or writes. -/
structure Uses where
  s : List (BitVec 5) := []
  v : List (BitVec 4) := []
  a : List (BitVec 2) := []
  deriving DecidableEq, Repr

/-- Whether the operands of an instruction are available (R99). -/
def State.ready (s : State) (p : At) (u : Uses) : Bool :=
  let c := s.ctx p
  let k := s.core p.core
  !(u.s.any c.busyS || u.s.any (s.awaits p) || u.v.any (fun r => c.busyV r || k.tileBusyV p.ctx r)
    || u.a.any (fun r => c.busyA r || k.tileBusyA p.ctx r))

/-- How far a context stands behind the one that issued last, in the order of R98: 0 is the next one. -/
def Core.turn (k : Core) (ctx : Nat) : Nat := (ctx + 7 - k.lastIssued % 8) % 8

/-- Whether the issue stage picks this context (R98): no ready one stands before it, counted from the context that issued
last. A ready context is one that can issue this beat (R123). -/
def Core.picks (k : Core) (ctx : Nat) : Bool :=
  (List.range 8).all (fun i => (k.ctxs.get {} i).state ≠ .ready || k.turn ctx ≤ k.turn i)

/-- Whether a context issues now: the module runs, its core is not frozen, it is ready or stalled on an operand or a
full unit, and the issue stage picks it (R98, R99, R123). -/
def State.canIssue (s : State) (p : At) : Bool :=
  let c := s.ctx p
  s.live && (s.core p.core).frozen.isNone && (c.state = .ready ||
    (c.state = .stalled && (c.stalledOn = some .operand || c.stalledOn = some .unitFull))) && (s.core p.core).picks p.ctx

/-- The fault of fetching at a context's pc (R148). -/
def fetchFault (pc : Word) : Option (BitVec 8) :=
  if 2 ^ 20 ≤ pc.toNat then some 0x06 else if pc.toNat % 8 ≠ 0 then some 0x07 else none

/-- The faulted issue: the beat is taken, the instruction is not counted (R98, R156). -/
def State.issueFault (s : State) (p : At) (cause : BitVec 8) : State := (s.slot p).faultCtx p cause

/-- The unit whose room an instruction needs (R99): whether it is full, and whether strict order
freezes the core on it instead of stalling (R385); `hold` for an instruction that must wait for earlier writes (R311). -/
structure Room where
  full : Bool := false
  freezes : Bool := false
  hold : Option Stall := none
  deriving DecidableEq, Repr

/-- Whether a core's partition runs in strict order mode. -/
def State.strictCore (s : State) (k : Nat) : Bool := (s.cluster (coreCluster k)).strict

/-- The issue of one instruction of a context: no effect where the context does not issue, a stall
where operands or room are missing (a freeze in strict order, R385), the fault of the first failing
check (R98, R132), a hold behind earlier writes, else its effect. -/
def issue (s : State) (p : At) (u : Uses) (room : Room) (check : Option (BitVec 8)) (eff : State → State) : Res :=
  if !s.canIssue p then .next s
  else match fetchFault (s.ctx p).pc with
    | some c => .next (s.issueFault p c)
    | none =>
      if !s.ready p u then .next (s.updCtx p (fun c => { c with state := .stalled, stalledOn := some .operand }))
      else if room.full then
        if room.freezes && s.strictCore p.core then
          .next (s.updCore p.core (fun c => { c with frozen := some (.full p.ctx) }))
        else .next ((s.beat p.core).updCore p.core (fun c => { c with cnt := { c.cnt with qstallBeats := sat64 (c.cnt.qstallBeats + 1) } })
          |>.updCtx p (fun c => { c with state := .stalled, stalledOn := some .unitFull }))
      else match check with
        | some c => .next (s.issueFault p c)
        | none =>
          match room.hold with
          | some h => .next (s.updCtx p (fun c => { c with state := .stalled, stalledOn := some h }))
          | none => .next (eff (s.issued p))

/-- Whether a read is a load's, not one of an instruction of the vector or tile engine. -/
def LoadDest.isLoad : LoadDest → Bool
  | .scalar _ _ _ => true
  | .vector _ => true
  | _ => false

/-- The room in the load/store and move unit: 32 requests a context, 128 a core (R99). -/
def State.lsuRoom (s : State) (p : At) : Room :=
  let out (c : Ctx) : Nat := (c.loads.filter (·.dest.isLoad)).length + c.stores.length + c.moves.length
  { full := 32 ≤ out (s.ctx p) || 128 ≤ ((List.range 8).map (fun i => out (s.ctx ⟨p.core, i⟩))).sum, freezes := true }

/-- The room in the vector engine: the instruction that it works on and 8 in its input queue (R99). -/
def State.vecRoom (s : State) (p : At) : Room :=
  { full := 9 ≤ ((s.core p.core).vecEnds.filter (fun e => (s.core p.core).cnt.beats < e)).length }

/-- Writing a scalar result. -/
def State.setS (s : State) (p : At) (r : BitVec 5) (v : Word) : State := s.updCtx p (fun c => c.setS r v)
/-- Reading a scalar operand. -/
def State.getS (s : State) (p : At) (r : BitVec 5) : Word := (s.ctx p).getS r

/-! ### Write sets (R251, R252) -/

/-- The transaction of a number. -/
def State.txn (s : State) (num : Nat) : Option Tx := s.tx.txs.find? (fun t => t.num = num)
/-- Changing a transaction. -/
def State.updTxn (s : State) (num : Nat) (f : Tx → Tx) : State :=
  { s with tx := { s.tx with txs := s.tx.txs.map (fun t => if t.num = num then f t else t) } }
/-- The 64-byte granules that entries cover. -/
def State.grans (s : State) (n : Nat) (l : List JEntry) : List Nat :=
  ((l.map (fun e => (s.keysOf n e.core e.addr e.data.length).map (fun k => k / 64))).flatten).dedup
/-- An entry joins a write set's entries: a write that goes on where the last one ends, with the same marks, shares its entry
(log entry 62). -/
def joinEntry (l : List JEntry) (e : JEntry) : List JEntry :=
  match l.getLast? with
  | some x =>
    if x.addr + BitVec.ofNat 64 x.data.length = e.addr && x.addr >>> 40 = e.addr >>> 40
        && x.kind = e.kind && x.blight = e.blight && x.subst = e.subst && x.core = e.core
    then l.dropLast ++ [{ x with data := x.data ++ e.data }] else l ++ [e]
  | none => [e]

/-- A write joins a write set; one that would take it over 64 MiB is discarded and binds it to abort
(R251, R252). -/
def State.txWrite (s : State) (num : Nat) (a : Word) (data : List Byte) (blight subst : Bool) : State :=
  match s.txn num with
  | none => s
  | some t =>
    let l := joinEntry t.entries { addr := a, data := data, blight := blight, subst := subst }
    if 2 ^ 20 < (s.grans t.part l).length then s.updTxn num (fun t => { t with overSize := true })
    else s.updTxn num (fun t => { t with entries := l })

/-- Whether a byte lies in a turf slice that a retirement copies: requests to it are held until the moved core resumes
(R482). -/
def State.copying (s : State) (k : Nat) : Bool :=
  keyRegion k = 1 && (match s.errs.retiring with | some r => r.phase ≠ .fenced && (k - 2 ^ 60) / sliceBytes ∈ r.cores | none => false)

/-- Whether an access is held: to an object of a partition in recovery, the source's for a serve partition (R240, R247); to a
turf slice that a retirement copies (R482). -/
def State.heldObj (s : State) (n : Nat) (a : Word) : Bool :=
  (3 ≤ spaceOf a && (n ∈ s.tx.recovering || ((s.part n).cfg.serve && (s.part n).cfg.src ∈ s.tx.recovering)))
    || (1 ≤ spaceOf a && (s.keyOf n 0 a).any s.copying)

/-- The room of an instruction that reads tensor areas: it waits while one of them is held (R247, R482). -/
def State.areaRoom (s : State) (n : Nat) (r : Room) (l : List Word) : Room :=
  { r with hold := if l.any (s.heldObj n) then some .operand else r.hold }

/-- A store of a context (R117, R251): the scratchpad takes it at once, an open transaction takes it
into its write set, else it waits to become visible (WRITE_VISIBLE). -/
def State.store (s : State) (p : At) (a : Word) (data : List Byte) (blight subst : Bool) : State :=
  if spaceOf a = 0 then
    s.writeMarked (s.partNum p.core) p.core a data blight subst
  else match (s.ctx p).tx with
    | some num => s.txWrite num a data blight subst
    | none => s.updCtx p (fun c => { c with stores := c.stores ++ [{ num := c.nextMove, addr := a, data := data, blight := blight, subst := subst,
                                                                     tag := s.tagOf p 0 (s.dataClass p false).code blight subst }],
                                            nextMove := c.nextMove + 1 })

/-! ### Serve slots (R409, R412) -/

/-- The turf-slice address of byte `off` of a serve partition's ring slot (R409, R429). -/
def State.slotAt (s : State) (n i off : Nat) : Word :=
  BitVec.ofNat 64 (2 ^ 60 + (fld (s.serve n).ring.toNat 35 0 + i * 0x4800 + off) % 2 ^ 36)
/-- An ST to a slot's state byte carries the context's sticky pair, which the part keeps with the slot (R412). -/
def State.noteSlot (s : State) (p : At) (a : Word) : State :=
  let n := s.partNum p.core
  let c := s.ctx p
  if (s.part n).cfg.serve && (s.serve n).slots.any (fun x => s.slotAt n x.index 0 = a) then
    s.updServe n (fun v => { v with slots := v.slots.map (fun x =>
      if s.slotAt n x.index 0 = a then { x with blight := c.stickyBlight, subst := c.stickySubst } else x) })
  else s

/-! ### Late gradients (R219) -/

/-- Whether a contribution tagged with a step comes after the sweep of that step has started. -/
def State.late (s : State) (n : Nat) (step : BitVec 16) : Bool :=
  (s.part n).started && !stepLater step ((s.part n).lastStarted.setWidth 16)
/-- A late contribution is discarded, counted and reported (R219). -/
def State.countLate (s : State) (c n : Nat) (tag : Word) : State :=
  (s.updSw c (fun x => { x with late := sat64 (x.late + 1) })).discard ⟨.swath, c⟩ 0x04 tag 0 [n]

/-! ### Distances and strict budgets (R24, R25, R385) -/

/-- The crossings from a field die to the hub. -/
def hubDist (d : Nat) : Nat := if d = 8 then 0 else if d % 2 = 1 then 1 else 2
/-- The crossings of the route between two dies, 8 being the hub (R24, R25). -/
def crossings (a b : Nat) : Nat :=
  if a = b then 0 else if a = 8 || b = 8 then hubDist a + hubDist b
  else
    let r := (a + 8 - b) % 8
    min (min r (8 - r)) (hubDist a + hubDist b)
/-- The budget in beats of a read from a turf or staging address (R385). -/
def State.budget (s : State) (n core : Nat) (a : Word) : Nat :=
  match s.keyOf n core a with
  | none => 64
  | some k =>
    let far (d : Nat) : Nat := if d = coreDie core then 96 else 96 + 32 * crossings (coreDie core) d
    match keyRegion k with
    | 1 =>
      let c := (k - 2 ^ 60) / sliceBytes
      if c = core then 64 else far (coreDie c)
    | 2 => far ((k - 2 * 2 ^ 60) / 2 ^ 28)
    | _ =>
      let d := (k - 4 * 2 ^ 60) / 2 ^ 36 / 2
      if d = coreDie core then 320 else 320 + 32 * crossings (coreDie core) d
/-- A budget's beat has come: the pipeline has completed every beat up to it (R386). -/
def State.toBeat (s : State) (k b : Nat) : State :=
  s.updCore k (fun c => { c with cnt := { c.cnt with beats := sat64 (max c.cnt.beats b) } })

/-! ### Messages of the previous epoch (R35) -/

/-- Whether a message of a partition's previous epoch is still in flight: one that a unit holds, an access or operation
of a context that has not been answered, a fetch of a row engine, an arrival on its way. -/
def State.oldTraffic (s : State) (n : Nat) : Bool :=
  let e := (s.part n).epoch - 1
  let old (t : Word) : Bool := tagPart t = n && tagEpoch t = e
  s.units.any (fun u => u.2.held.any (fun m => old m.tag))
    || s.cores.any (fun k => k.2.ctxs.any (fun c =>
        c.2.loads.any (fun l => old l.tag) || c.2.stores.any (fun w => old w.tag) || c.2.moves.any (fun m => old m.tag)))
    || s.sync.inflight.any (fun o => old o.tag) || s.sync.arrivals.any (fun a => old a.tag)
    || s.row.jobs.any (fun j => old j.tag)

/-! ### Time -/

/-- Whether a core is quiescent (R97): every context is idle, waiting or faulted and every unit has drained. -/
def State.quiescent (s : State) (k : Nat) : Bool :=
  let c := s.core k
  c.tiles = [] && c.vecEnds.all (· ≤ c.cnt.beats) && c.ctxs.all (fun x =>
    (x.2.state = .idle || x.2.state = .waiting || x.2.state = .faulted) && x.2.loads = [] && x.2.stores = [] && x.2.moves = [])

/-- Whether a core is frozen awaiting data or a signal (R385, R386), not fenced for a retirement (R482). -/
def Core.awaiting (c : Core) : Bool := match c.frozen with | some .retire => false | some _ => true | none => false

/-- Whether a budget of a strict core's wait still runs: the pipeline completes its beats (R386). -/
def State.budgetRuns (s : State) (k : Nat) : Bool :=
  (s.cluster (coreCluster k)).strict && (s.core k).frozen.isNone && (s.core k).ctxs.any (fun x => x.2.state = .waiting)

/-- Whether the time of a core counts in CO_CNT_QUIESCENT_NS (R126): its die's logic domain is on, and it is quiescent with
no budget running, or frozen awaiting data or a signal. -/
def State.restsNow (s : State) (k : Nat) : Bool :=
  s.domainOn (coreDie k) && !(s.cluster (coreCluster k)).vacant &&
    ((s.core k).awaiting || ((s.core k).frozen.isNone && s.quiescent k && !s.budgetRuns k))

/-- With no context left to issue, the pipeline completes the beats that the vector engine still needs (R97). -/
def Core.drainVec (c : Core) : Core :=
  if c.vecEnds = [] || c.frozen.isSome || c.ctxs.any (fun x => x.2.state = .ready || x.2.state = .stalled) then c
  else { c with vecEnds := [], cnt := { c.cnt with beats := sat64 (c.vecEnds.foldl max c.cnt.beats) } }

/-- One nanosecond of the timekeeper (R23, log entry 1) with CO_CNT_QUIESCENT_NS of R126. -/
def State.tick (s : State) : State :=
  let s := { s with now := s.now + 1 }
  if s.live then
    let s := { s with cores := s.cores.map (fun x => (x.1, x.2.drainVec)) }
    ((List.range 1200).filter s.restsNow).foldl (fun s k =>
      s.updCore k (fun c => { c with cnt := { c.cnt with quiescentNs := sat64 (c.cnt.quiescentNs + 1) } })) s
  else s

end Sys2Proof.Machine
end

