-- ==== Sys2Proof/Machine/Flags.lean ====
section
/-! DEFINITION. The flags of this hardware's data: the blight and substituted marks that results take
from their inputs (R37, R135), and the counters an instruction raises (R126). -/

namespace Sys2Proof.Machine

/-- A pair of marks: blight and substituted. -/
structure Marks where
  blight : Bool := false
  subst : Bool := false
  deriving DecidableEq, Repr

/-- The OR of two pairs (R37). -/
def Marks.or (a b : Marks) : Marks := ⟨a.blight || b.blight, a.subst || b.subst⟩

/-- The marks of a vector register. -/
def VReg.marks (v : VReg) : Marks := ⟨v.blight, v.subst⟩
/-- The marks of a tile accumulator. -/
def TileAcc.marks (v : TileAcc) : Marks := ⟨v.blight, v.subst⟩
/-- The marks of a result whose inputs are vector registers (R37). -/
def marksOf (c : Ctx) (rs : List (BitVec 4)) : Marks := rs.foldl (fun m r => m.or (c.getV r).marks) {}

/-- A vector register with marks. -/
def vregOf (lanes : List (BitVec 32)) (m : Marks) : VReg := { lanes := lanes, blight := m.blight, subst := m.subst }

/-- The vector engine takes an instruction that occupies it for some beats (R99, R112 to R114): once done with the work
it has, it completes an operation in each of them (CO_CNT_VEC_BEATS of R126). -/
def State.vecBeats (s : State) (k n : Nat) : State :=
  s.updCore k (fun c =>
    let busy := c.vecEnds.filter (fun e => c.cnt.beats < e)
    { c with vecEnds := busy ++ [busy.foldl max c.cnt.beats + n]
             cnt := { c.cnt with vecBeats := sat64 (c.cnt.vecBeats + n) } })
/-- CO_CNT_TURF_BYTES rises for an access to a turf slice (R126: spaces 0x1 and 0x3). -/
def State.turfBytes (s : State) (k : Nat) (a : Word) (n : Nat) : State :=
  if spaceOf a = 1 || spaceOf a = 3 then
    s.updCore k (fun c => { c with cnt := { c.cnt with turfBytes := sat64 (c.cnt.turfBytes + n) } })
  else s
/-- CO_CNT_DESCHED rises (R126). -/
def State.descheduled (s : State) (k : Nat) : State :=
  s.updCore k (fun c => { c with cnt := { c.cnt with desched := sat64 (c.cnt.desched + 1) } })

end Sys2Proof.Machine
end

