-- ==== Sys2Proof/Machine/Operands.lean ====
section
/-! DEFINITION. The operand forms: the checks of R132 on each layout (R133, R134), tensor descriptors
(R139 to R142), tile references (R144), the blocks of a tensor (R77 to R82) and its W96 elements. -/

namespace Sys2Proof.Machine

/-! ### The checks of R132 -/

/-- The first failing check. -/
def firstFault (l : List (Option (BitVec 8))) : Option (BitVec 8) := l.findSome? id

/-- A condition with the cause of its failure. -/
def must (ok : Bool) (cause : BitVec 8) : Option (BitVec 8) := if ok then none else some cause

/-- Whether every field of a list is zero. -/
def allZero (l : List Nat) : Bool := l.all (· = 0)

/-- The second ALU operand (R134). -/
def aluB (c : Ctx) (f : LayS) : Word := if f.i = 1 then f.imm.signExtend 64 else c.getS f.sb
/-- The field that an ALU form leaves unused is zero-marked (R132). -/
def aluShape (f : LayS) : Option (BitVec 8) := must (if f.i = 1 then f.sb = 0 else f.imm = 0) 0x03
/-- A displacement of layout S, sign-extended (log entry 11). -/
def disp (f : LayS) : Word := f.imm.signExtend 64

/-- Formats of the vector classes (R146). -/
def vfmt (f : BitVec 6) : Option (BitVec 8) := must (f = 0x11 || f = 0x10) 0x04
/-- The fraction bits of a wide format code. -/
def fracOf (f : BitVec 6) : Frac := if f = 0x10 then 7 else 23
/-- The elements of a vector register under a format (R100). -/
def elemCount (f : BitVec 6) : Nat := if f = 0x10 then 256 else 128
/-- The exact values of a vector register's elements. -/
def vvals (f : BitVec 6) (v : VReg) : List Val :=
  if f = 0x10 then (List.range 256).map (fun i => bf16 (v.half i).toNat) else (List.range 128).map (fun i => fp32 (v.lane i).toNat)
/-- The lanes that encoded elements fill. -/
def packLanes (f : BitVec 6) (l : List Nat) : List (BitVec 32) :=
  if f = 0x10 then mkHalves (fun i => l.getD i 0) else mkLanes (fun i => BitVec.ofNat 32 (l.getD i 0))

/-! ### Tensor descriptors -/

/-- A tensor descriptor (R139, R140). -/
structure TDesc where
  at_ : Word
  code : Word
  scale : Word
  esc : Word
  prom : Word
  outl : Word
  list : Word
  rows : Nat
  blocks : Nat
  theta : Nat
  kind : Nat
  stats : Bool
  anchor : BitVec 10
  hist : BitVec 8
  outCount : Nat
  shift : Nat
  fmt : Nat
  terms : Nat
  statAddr : Word
  tid : Word
  cursor : Nat
  escN : Nat
  promN : Nat
  clean : Bool
  outliers : List Nat
  deriving DecidableEq, Repr

/-- A device address in a byte list. -/
def addrAt (l : List Byte) (off : Nat) : Word := BitVec.ofNat 64 (leAt l off 8)

/-- The 4-byte channels of an outlier list. -/
def listOf (l : List Byte) (n : Nat) : List Nat := (List.range n).map (fun i => leAt l (4 * i) 4)

/-- The descriptor that 128 bytes give, with its outlier list's bytes. -/
def descOf (a : Word) (l : List Byte) (ol : List Byte) : TDesc :=
  let w := leAt l 0x40 8
  { at_ := a, code := addrAt l 0, scale := addrAt l 8, esc := addrAt l 0x10, prom := addrAt l 0x18, outl := addrAt l 0x20,
    list := addrAt l 0x28, rows := fld (leAt l 0x30 8) 39 0, blocks := fld (leAt l 0x38 4) 23 0, theta := leAt l 0x3C 2,
    kind := fld w 39 37, stats := bitAt w 36, anchor := BitVec.ofNat 10 (fld w 35 26), hist := BitVec.ofNat 8 (fld w 25 18),
    outCount := fld w 17 9, shift := fld w 8 6, fmt := fld w 5 0, terms := leAt l 0x48 8, statAddr := addrAt l 0x50,
    tid := addrAt l 0x58, cursor := leAt l 0x60 8, escN := leAt l 0x68 8, promN := leAt l 0x70 8,
    clean := fld (leAt l 0x30 8) 63 40 = 0 && fld (leAt l 0x38 4) 31 24 = 0 && leAt l 0x3E 2 = 0 && leAt l 0x78 8 = 0 && fld w 63 40 = 0,
    outliers := listOf ol (fld w 17 9) }

/-- A descriptor read from memory, its outlier list with it, and the blight of both. -/
def State.desc (s : State) (n core : Nat) (a : Word) : TDesc × Bool :=
  let (l, b) := s.readDev n core a 128
  let cnt := min (fld (leAt l 0x40 8) 17 9) 256
  let (ol, bo) := s.readDev n core (addrAt l 0x28) (4 * cnt)
  (descOf a l ol, b || bo)

/-- Whether an outlier list is strictly ascending below a length (R80). -/
def outliersOk (l : List Nat) (len : Nat) : Bool := decide (l.Pairwise (· < ·)) && l.all (· < len)

/-- The padded reduction length. -/
def TDesc.len (d : TDesc) : Nat := d.blocks * 32

/-- Whether a descriptor is legal (R142), with R54's format codes. -/
def TDesc.legal (d : TDesc) : Bool :=
  d.clean && d.kind ≤ 3
    && (if d.kind = 0 then 1 ≤ d.fmt && d.fmt ≤ 5 else d.fmt = (if d.kind = 1 then 0x11 else if d.kind = 2 then 0x10 else 0x20))
    && d.rows * d.blocks ≤ 2 ^ 43
    && (if d.kind = 0 then
          d.outCount ≤ 256 && outliersOk d.outliers d.len
            && [d.code, d.scale, d.esc, d.prom, d.outl, d.list].all (fun a => spaceOf a ∈ Access.spaces .area)
        else [d.scale, d.esc, d.prom, d.outl, d.list].all (· = 0) && spaceOf d.code ∈ Access.spaces .area)

/-- The address checks of a descriptor (R137, R138). -/
def State.descFault (s : State) (n : Nat) (a : Word) : Option (BitVec 8) := s.accessFault n .descriptor a 128 128

/-- Whether a run of bytes of a tensor area can be reached (R137). -/
def State.areaOk (s : State) (n : Nat) (a : Word) (len : Nat) : Bool :=
  len = 0 || (s.accessFault n .area a len 1).isNone

/-! ### Blocks of a kind 0 tensor -/

/-- Addition to an address. -/
def plus (a : Word) (x : Nat) : Word := a + BitVec.ofNat 64 x

/-- The bytes that the blocks from `first` for `cnt` take in the code and scale areas, the entries
written in the side areas, and the outlier values of some rows: all reachable. -/
def State.blocksOk (s : State) (n : Nat) (d : TDesc) (first cnt : Nat) : Bool :=
  s.areaOk n (plus d.code (first * 4 * eltBits d.fmt)) (cnt * 4 * eltBits d.fmt)
    && s.areaOk n (plus d.scale (2 * first)) (2 * cnt) && s.areaOk n d.esc (8 * d.escN) && s.areaOk n d.prom (40 * d.promN)
    && (d.outCount = 0 || (s.areaOk n (plus d.outl (2 * (first / max 1 d.blocks) * d.outCount))
          (2 * ((first + cnt - 1) / max 1 d.blocks - first / max 1 d.blocks + 1) * d.outCount) && s.areaOk n d.list (4 * d.outCount)))

/-- The escape entries of a block among those written (R78). -/
def escOf (l : List Byte) (cnt idx : Nat) : List (Nat × Nat) :=
  (List.range cnt).filterMap (fun i =>
    let w := leAt l (8 * i) 8
    if fld w 58 16 = idx then some (fld w 63 59, fld w 15 0) else none)

/-- The promotion entry of a block among those written (R79). -/
def promOf (l : List Byte) (cnt idx : Nat) : Option (List Nat) :=
  (List.range cnt).findSome? (fun i =>
    if fld (leAt l (40 * i) 8) 42 0 = idx then some ((List.range 32).map (fun j => leAt l (40 * i + 8 + j) 1)) else none)

/-- A block of a kind 0 tensor and the blight of the granules it was read from. -/
def State.block (s : State) (n core : Nat) (d : TDesc) (idx : Nat) : Blk × Bool :=
  let w := eltBits d.fmt
  let (c, b0) := s.readDev n core (plus d.code (idx * 4 * w)) (4 * w)
  let (sc, b1) := s.readDev n core (plus d.scale (2 * idx)) 2
  let sw := leNat sc
  let (e, b2) := if bitAt sw 3 || d.escN ≠ 0 then s.readDev n core d.esc (8 * d.escN) else ([], false)
  let (p, b3) := if bitAt sw 2 then s.readDev n core d.prom (40 * d.promN) else ([], false)
  ({ fmt := d.fmt, codes := unpackCodes w (leNat c), scale := sw, esc := escOf e d.escN idx,
     prom := if bitAt sw 2 then promOf p d.promN idx else none },
   b0 || b1 || (bitAt sw 3 && b2) || b3)

/-- The outlier value of a listed channel in a row (R80). -/
def State.outlierVal (s : State) (n core : Nat) (d : TDesc) (row j : Nat) : Val × Bool :=
  let (l, b) := s.readDev n core (plus d.outl (2 * (row * d.outCount + j))) 2
  (bf16 (leNat l), b)

/-- A block as a reader of values sees it: its 32 exact values with outlier channels in place, and
its blight (R59 to R62, R80). -/
def State.blockVals (s : State) (n core : Nat) (d : TDesc) (idx : Nat) : List Val × Bool :=
  let (b, bl) := s.block n core d idx
  let row := idx / max 1 d.blocks
  let st := idx % max 1 d.blocks
  let vs := (List.range 32).map (fun i =>
    match d.outliers.findIdx? (· = 32 * st + i) with
    | some j => if b.nonFinite then (Val.nan, false) else s.outlierVal n core d row j
    | none => (b.val i, false))
  (vs.map (·.1), bl || b.blight || vs.any (·.2))

/-! ### Tile references -/

/-- A tile reference (R144). -/
structure TRef where
  desc : Word
  row : Nat
  step : Nat
  steps : Nat
  clean : Bool
  deriving DecidableEq, Repr

/-- The tile reference at an address, with its blight. -/
def State.tref (s : State) (n core : Nat) (a : Word) : TRef × Bool :=
  let (l, b) := s.readDev n core a 32
  ({ desc := addrAt l 0, row := leAt l 8 8, step := leAt l 0x10 8, steps := leAt l 0x18 4, clean := leAt l 0x1C 4 = 0 }, b)

/-- The address checks of a tile reference (R137, R138). -/
def State.trefFault (s : State) (n : Nat) (a : Word) : Option (BitVec 8) := s.accessFault n .descriptor a 32 32

/-- A tile: its reference and its descriptor, and the blight of both. -/
structure Tile where
  ref : TRef
  d : TDesc
  blight : Bool
  deriving DecidableEq, Repr

/-- The tile at a reference. -/
def State.tile (s : State) (n core : Nat) (a : Word) : Tile :=
  let (r, b) := s.tref n core a
  let (d, bd) := s.desc n core r.desc
  ⟨r, d, b || bd⟩

/-- The addresses of a tile: its reference's, then its descriptor's (R132 step 5). -/
def State.tileHead (s : State) (n core : Nat) (a : Word) : Option (BitVec 8) :=
  firstFault [s.trefFault n a, s.descFault n (s.tref n core a).1.desc]

/-- The contents of a tile's reference and descriptor, each where it can be read (R132 step 4). -/
def State.tileBody (s : State) (n core : Nat) (a : Word) : Option (BitVec 8) :=
  let t := s.tile n core a
  if (s.trefFault n a).isSome then none
  else firstFault [must t.ref.clean 0x05, must ((s.descFault n t.ref.desc).isSome || t.d.legal) 0x05]

/-- Among failing address checks an address fault is found before a misalignment (R132 step 5). -/
def addressFault (l : List (Option (BitVec 8))) : Option (BitVec 8) := if some 0x06 ∈ l then some 0x06 else firstFault l

/-! ### W96 elements in memory -/

/-- The address of a W96 element of a kind 3 tensor (R141): 16 bytes each, rows of `len`. -/
def TDesc.elemAt (d : TDesc) (row col : Nat) : Word := plus d.code (16 * (row * d.len + col))

/-- The window exponent of an anchor field (R82). -/
def anchorE (a : BitVec 10) : Int := (a.toNat : Int) - 511

/-- A stored W96 element as units on the grid of an anchor: an element on another window has the value V × 2^(E − 64) of
R65, which takes its place on the grid by R66's rounding (log entry 12). -/
def onGrid (a : BitVec 10) (w : BitVec 128) : Partial :=
  let (p, e) := decW96 w
  if e = anchorE a then p
  else
    let u := gridUnits (anchorE a) (p.units < 0) p.units.natAbs 1 (e - 64)
    { p with units := if fits96 u then u else 0, overflow := p.overflow || !fits96 u }

/-- The W96 value of 16 bytes. -/
def w96At (l : List Byte) : BitVec 128 := BitVec.ofNat 128 (leAt l 0 16)

/-- Adding to a term count, with the overflow that R87 gives past 2^30 − 1. -/
def addTerms (a b : Nat) : Nat × Bool := (sat64 (a + b), decide (2 ^ 30 - 1 < a + b))

/-- A count of R87 saturates. -/
def termsOver (n : Nat) : Bool := decide (2 ^ 30 - 1 < n)

/-- An element with overflow set (R86, R87). -/
def withOverflow (o : Bool) (p : Partial) : Partial := if o then { p with overflow := true } else p

end Sys2Proof.Machine
end

