-- ==== Sys2Proof/Machine/Scalar.lean ====
section
/-! DEFINITION. The scalar class 0x0 (R145, R148, R150): ALU operations, LIH, loads and stores,
branches, jumps, GETS. -/

namespace Sys2Proof.Machine

/-- A scalar ALU instruction: sd := op sa b, with b of R134. -/
def aluOp (s : State) (p : At) (f : LayS) (op : Word → Word → Word) : Res :=
  issue s p { s := [f.sd, f.sa, f.sb] } {} (aluShape f)
    (fun t => t.setS p f.sd (op ((s.ctx p).getS f.sa) (aluB (s.ctx p) f)))

/-- Shift counts are sb[5:0] (R145). -/
def shAmount (b : Word) : Nat := b.toNat % 64

/-- ADD (R145). -/
def execAdd (p : At) (f : LayS) (s : State) : Res := aluOp s p f (fun a b => a + b)
/-- SUB (R145). -/
def execSub (p : At) (f : LayS) (s : State) : Res := aluOp s p f (fun a b => a - b)
/-- AND (R145). -/
def execAnd (p : At) (f : LayS) (s : State) : Res := aluOp s p f (fun a b => a &&& b)
/-- OR (R145). -/
def execOr (p : At) (f : LayS) (s : State) : Res := aluOp s p f (fun a b => a ||| b)
/-- XOR (R145). -/
def execXor (p : At) (f : LayS) (s : State) : Res := aluOp s p f (fun a b => a ^^^ b)
/-- SHL (R145). -/
def execShl (p : At) (f : LayS) (s : State) : Res := aluOp s p f (fun a b => a <<< shAmount b)
/-- SHR (R145). -/
def execShr (p : At) (f : LayS) (s : State) : Res := aluOp s p f (fun a b => a >>> shAmount b)
/-- SAR (R145). -/
def execSar (p : At) (f : LayS) (s : State) : Res := aluOp s p f (fun a b => a.sshiftRight (shAmount b))
/-- MUL (R145). -/
def execMul (p : At) (f : LayS) (s : State) : Res := aluOp s p f (fun a b => a * b)
/-- MULHU (R145): the high half of the unsigned product. -/
def execMulhu (p : At) (f : LayS) (s : State) : Res := aluOp s p f (fun a b => BitVec.ofNat 64 (a.toNat * b.toNat / 2 ^ 64))
/-- MIN (R145), signed. -/
def execMin (p : At) (f : LayS) (s : State) : Res := aluOp s p f (fun a b => if a.toInt ≤ b.toInt then a else b)
/-- MAX (R145), signed. -/
def execMax (p : At) (f : LayS) (s : State) : Res := aluOp s p f (fun a b => if a.toInt ≤ b.toInt then b else a)
/-- MINU (R145), unsigned. -/
def execMinu (p : At) (f : LayS) (s : State) : Res := aluOp s p f (fun a b => if a.toNat ≤ b.toNat then a else b)
/-- MAXU (R145), unsigned. -/
def execMaxu (p : At) (f : LayS) (s : State) : Res := aluOp s p f (fun a b => if a.toNat ≤ b.toNat then b else a)
/-- SLT (R145), signed. -/
def execSlt (p : At) (f : LayS) (s : State) : Res := aluOp s p f (fun a b => if a.toInt < b.toInt then 1 else 0)
/-- SLTU (R145), unsigned. -/
def execSltu (p : At) (f : LayS) (s : State) : Res := aluOp s p f (fun a b => if a.toNat < b.toNat then 1 else 0)

/-- LIH (R145): sd[63:32] := imm32. -/
def execLih (p : At) (f : LayS) (s : State) : Res :=
  issue s p { s := [f.sd] } {} (must (f.sa = 0 && f.sb = 0 && f.i = 0) 0x03)
    (fun t => t.setS p f.sd (f.imm ++ ((s.ctx p).getS f.sd).setWidth 32))

/-! ### Loads and stores -/

/-- The size of LD and ST: sub[1:0] (R145). -/
def memSize (sub : BitVec 8) : Nat := 2 ^ (sub.toNat % 4)
/-- The word a load of some bytes gives. -/
def extend (size : Nat) (sgn : Bool) (l : List Byte) : Word :=
  if sgn then BitVec.ofInt 64 (signed (8 * size) (leAt l 0 size)) else BitVec.ofNat 64 (leAt l 0 size)
/-- The address of LD and ST. -/
def memAddr (c : Ctx) (f : LayS) : Word := c.getS f.sa + disp f

/-- What a read delivers to its context: a register and the marks of what was read, which join the sticky pair (R37, R135;
log entry 21). Of an instruction of the vector or tile engine, the registers it has written take the marks (R109). -/
def Ctx.take (c : Ctx) (d : LoadDest) (l : List Byte) (b u : Bool) : Ctx :=
  match d with
  | .scalar r sz sg => (c.setS r (extend sz sg l)).mark b u
  | .vector r => c.setV r { lanes := lanesOf l, blight := b, subst := u }
  | .engine _ vs as =>
    let c := vs.foldl (fun c r => c.setV r { c.getV r with blight := (c.getV r).blight || b, subst := (c.getV r).subst || u }) (c.mark b u)
    as.foldl (fun c r => c.setA r { c.getA r with blight := (c.getA r).blight || b, subst := (c.getA r).subst || u }) c
  | .product _ _ => c

/-- The outstanding read of a context from beyond the scratchpad, with the tag word of its issue (R30, R118). -/
def State.loadOf (s : State) (p : At) (d : LoadDest) (a : Word) (beat : Nat) : Load :=
  { dest := d, addr := a, beat := beat, tag := s.tagOf p 0 (s.dataClass p true).code false false }

/-- A read from beyond the scratchpad starts (R118). -/
def State.request (t s : State) (p : At) (d : LoadDest) (a : Word) : State :=
  t.updCtx p (fun c => { c with loads := c.loads ++ [s.loadOf p d a (t.core p.core).cnt.beats] })

/-- A load's result from the scratchpad comes at once; one from beyond waits for
OPERAND_DATA_RETURN (R116, R118). Loads of marked data mark the sticky pair (log entry 21). -/
def startLoad (s t : State) (p : At) (a : Word) (size : Nat) (d : LoadDest) : State :=
  let n := s.partNum p.core
  if spaceOf a = 0 then
    let (l, b, u) := s.readMarked n p.core a size
    t.updCtx p (fun c => c.take d l b u)
  else (t.request s p d a).turfBytes p.core a size

/-- LD (R145). -/
def execLd (p : At) (f : LayS) (sub : BitVec 8) (s : State) : Res :=
  let a := memAddr (s.ctx p) f
  let sz := memSize sub
  issue s p { s := [f.sd, f.sa] } (s.lsuRoom p)
    (firstFault [must (sub.toNat < 8 && f.sb = 0 && f.i = 0) 0x03, s.accessFault (s.partNum p.core) .load a sz sz])
    (fun t => startLoad s t p a sz (.scalar f.sd sz (bitAt sub.toNat 2)))

/-- ST (R145); one to a serve slot's state byte leaves the sticky pair with the slot (R412). -/
def execSt (p : At) (f : LayS) (sub : BitVec 8) (s : State) : Res :=
  let a := memAddr (s.ctx p) f
  let sz := memSize sub
  issue s p { s := [f.sa, f.sb] } (s.lsuRoom p)
    (firstFault [must (sub.toNat < 4 && f.sd = 0 && f.i = 0) 0x03, s.accessFault (s.partNum p.core) .store a sz sz])
    (fun t => ((t.store p a (leBytes sz ((s.ctx p).getS f.sb).toNat) false false).noteSlot p a).turfBytes p.core a sz)

/-! ### Branches and jumps -/

/-- A branch: pc := pc + 8 × imm32 when the comparison holds (R145, R148). -/
def branchOp (s : State) (p : At) (f : LayS) (take : Word → Word → Bool) : Res :=
  issue s p { s := [f.sa, f.sb] } {} (must (f.sd = 0 && f.i = 0) 0x03)
    (fun t => if take ((s.ctx p).getS f.sa) ((s.ctx p).getS f.sb)
      then t.updCtx p (fun c => { c with pc := (s.ctx p).pc + 8 * disp f }) else t)

/-- BEQ (R145). -/
def execBeq (p : At) (f : LayS) (s : State) : Res := branchOp s p f (fun a b => a = b)
/-- BNE (R145). -/
def execBne (p : At) (f : LayS) (s : State) : Res := branchOp s p f (fun a b => a ≠ b)
/-- BLT (R145), signed. -/
def execBlt (p : At) (f : LayS) (s : State) : Res := branchOp s p f (fun a b => a.toInt < b.toInt)
/-- BGE (R145), signed. -/
def execBge (p : At) (f : LayS) (s : State) : Res := branchOp s p f (fun a b => b.toInt ≤ a.toInt)
/-- BLTU (R145), unsigned. -/
def execBltu (p : At) (f : LayS) (s : State) : Res := branchOp s p f (fun a b => a.toNat < b.toNat)
/-- BGEU (R145), unsigned. -/
def execBgeu (p : At) (f : LayS) (s : State) : Res := branchOp s p f (fun a b => b.toNat ≤ a.toNat)

/-- A jump: sd := pc + 8, pc := the target (R145). -/
def jumpTo (s t : State) (p : At) (sd : BitVec 5) (target : Word) : State :=
  (t.setS p sd ((s.ctx p).pc + 8)).updCtx p (fun c => { c with pc := target })

/-- JAL (R145): the i = 1 form. -/
def execJal (p : At) (f : LayS) (s : State) : Res :=
  issue s p { s := [f.sd] } {} (must (f.sa = 0 && f.sb = 0) 0x03) (fun t => jumpTo s t p f.sd ((s.ctx p).pc + 8 * disp f))
/-- JALR (R145): the i = 0 form. -/
def execJalr (p : At) (f : LayS) (s : State) : Res :=
  issue s p { s := [f.sd, f.sa] } {} (must (f.sb = 0 && f.imm = 0) 0x03) (fun t => jumpTo s t p f.sd ((s.ctx p).getS f.sa))

/-! ### GETS -/

/-- The special values of R150. The timekeeper's reading is up to one crossing old (R22, R23), by a
free number of nanoseconds (log entry 18). -/
def special (s t : State) (p : At) (sel : Nat) : Word :=
  let n := s.partNum p.core
  BitVec.ofNat 64 (match sel with
    | 0 => p.ctx
    | 1 => p.core
    | 2 => coreCluster p.core
    | 3 => n
    | 4 => (s.cluster (coreCluster p.core)).epoch.toNat
    | 5 => s.now - Config.freeNat t.free % 6
    | 6 => (t.core p.core).cnt.beats
    | 7 => b2n (s.strictCore p.core)
    | _ => (s.coresOf n).length)

/-- GETS (R150). -/
def execGets (p : At) (f : LayS) (sub : BitVec 8) (s : State) : Res :=
  issue s p { s := [f.sd] } {}
    (firstFault [must (sub.toNat ≤ 8) 0x02, must (f.sa = 0 && f.sb = 0 && f.i = 0 && f.imm = 0) 0x03])
    (fun t => (t.setS p f.sd (special s t p sub.toNat)).fresh)

end Sys2Proof.Machine
end

