-- ==== Sys2Proof/Machine/Vector.lean ====
section
/-! DEFINITION. The vector class 0x2 (R145 to R149, R112 to R115, R392): lane-wise operations,
functions, reductions, conversion, loads and stores, quantising, broadcast, extraction, random
values. -/

namespace Sys2Proof.Machine

/-! ### Shape checks -/

/-- The fields of layout V that an operation with operands vd, va (and vb, vc where told) leaves
unused are zero (R132). -/
def vShape (f : LayV) (vb vc : Bool) : Bool :=
  (vb || f.vb = 0) && (vc || f.vc = 0) && f.sa = 0 && f.sb = 0 && f.imm = 0

/-- Writing vector results with marks, with the engine's beats (R126). -/
def putV (t : State) (p : At) (vd : BitVec 4) (lanes : List (BitVec 32)) (m : Marks) (beats : Nat) : State :=
  (t.updCtx p (fun c => c.setV vd (vregOf lanes m))).vecBeats p.core beats

/-- An operation on one source vector: element values to encoded elements. -/
def vec1 (s : State) (p : At) (f : LayV) (beats : Nat) (op : Frac → List Val → List Nat) : Res :=
  issue s p { v := [f.vd, f.va] } (s.vecRoom p) (firstFault [must (vShape f false false) 0x03, vfmt f.fmt])
    (fun t => putV t p f.vd (packLanes f.fmt (op (fracOf f.fmt) (vvals f.fmt ((s.ctx p).getV f.va))))
      (marksOf (s.ctx p) [f.va]) beats)

/-- A lane-wise operation on two source vectors. -/
def vec2 (s : State) (p : At) (f : LayV) (op : Frac → Val → Val → Nat) : Res :=
  let c := s.ctx p
  issue s p { v := [f.vd, f.va, f.vb] } (s.vecRoom p) (firstFault [must (vShape f true false) 0x03, vfmt f.fmt])
    (fun t => putV t p f.vd (packLanes f.fmt (List.zipWith (op (fracOf f.fmt)) (vvals f.fmt (c.getV f.va)) (vvals f.fmt (c.getV f.vb))))
      (marksOf c [f.va, f.vb]) 1)

/-- A lane-wise operation on three source vectors. -/
def vec3 (s : State) (p : At) (f : LayV) (op : Frac → Val → Val → Val → Nat) : Res :=
  let c := s.ctx p
  issue s p { v := [f.vd, f.va, f.vb, f.vc] } (s.vecRoom p) (firstFault [must (vShape f true true) 0x03, vfmt f.fmt])
    (fun t => putV t p f.vd (packLanes f.fmt
        (List.zipWith (fun a bc => op (fracOf f.fmt) a bc.1 bc.2) (vvals f.fmt (c.getV f.va))
          (List.zip (vvals f.fmt (c.getV f.vb)) (vvals f.fmt (c.getV f.vc)))))
      (marksOf c [f.va, f.vb, f.vc]) 1)

/-! ### Lane-wise operations -/

/-- The difference, rounded by the caller. -/
def subVal (a b : Val) : Val := addVal a (negVal b)
/-- The truth values of VCLT and VCEQ (R145). -/
def truth (b : Frac) (x : Bool) : Nat := if x then encFp b (.fin false 1 0) else zeroBits b false
/-- Whether a value is other than zero. -/
def nonZero (x : Val) : Bool := !(x.isFin && x.mag.1 = 0)

/-- VADD (R145). -/
def execVadd (p : At) (f : LayV) (s : State) : Res := vec2 s p f (fun b x y => encFp b (addVal x y))
/-- VSUB (R145). -/
def execVsub (p : At) (f : LayV) (s : State) : Res := vec2 s p f (fun b x y => encFp b (subVal x y))
/-- VMUL (R145). -/
def execVmul (p : At) (f : LayV) (s : State) : Res := vec2 s p f (fun b x y => encFp b (mulVal x y))
/-- VFMA (R145): rounded once. -/
def execVfma (p : At) (f : LayV) (s : State) : Res := vec3 s p f (fun b x y z => encFp b (addVal (mulVal x y) z))
/-- VMIN (R145, R63). -/
def execVmin (p : At) (f : LayV) (s : State) : Res := vec2 s p f (fun b x y => encFp b (minVal x y))
/-- VMAX (R145, R63). -/
def execVmax (p : At) (f : LayV) (s : State) : Res := vec2 s p f (fun b x y => encFp b (maxVal x y))
/-- VABS (R145). -/
def execVabs (p : At) (f : LayV) (s : State) : Res := vec1 s p f 1 (fun b l => l.map (fun x => encFp b (absVal x)))
/-- VNEG (R145). -/
def execVneg (p : At) (f : LayV) (s : State) : Res := vec1 s p f 1 (fun b l => l.map (fun x => encFp b (negVal x)))
/-- VSEL (R145): vc ≠ 0 picks va, else vb. -/
def execVsel (p : At) (f : LayV) (s : State) : Res := vec3 s p f (fun b x y z => encFp b (if nonZero z then x else y))
/-- VCLT (R145). -/
def execVclt (p : At) (f : LayV) (s : State) : Res := vec2 s p f (fun b x y => truth b (ltVal x y))
/-- VCEQ (R145). -/
def execVceq (p : At) (f : LayV) (s : State) : Res := vec2 s p f (fun b x y => truth b (eqVal x y))

/-! ### Functions (R147) -/

/-- VEXP2 (R147). -/
def execVexp2 (p : At) (f : LayV) (s : State) : Res := vec1 s p f 4 (fun b l => l.map (exp2Fp b))
/-- VLOG2 (R147). -/
def execVlog2 (p : At) (f : LayV) (s : State) : Res := vec1 s p f 4 (fun b l => l.map (log2Fp b))
/-- VRCP (R147). -/
def execVrcp (p : At) (f : LayV) (s : State) : Res := vec1 s p f 4 (fun b l => l.map (rcpFp b))
/-- VRSQRT (R147). -/
def execVrsqrt (p : At) (f : LayV) (s : State) : Res := vec1 s p f 4 (fun b l => l.map (rsqrtFp b))
/-- VSQRT (R147). -/
def execVsqrt (p : At) (f : LayV) (s : State) : Res := vec1 s p f 4 (fun b l => l.map (sqrtFp b))

/-! ### Reductions (R113) -/

/-- The maximum of a list, of absolute values where told (R93). -/
def maxOf (abs : Bool) (l : List Val) : Val :=
  match (if abs then l.map absVal else l) with
  | [] => Val.zero
  | x :: t => t.foldl maxVal x
/-- The windowed exact sum of a list, rounded once (R83, R89). -/
def sumFp (b : Frac) (l : List Val) : Nat := let (q, E) := sumMeasured l; finalFp b q E 1
/-- Applying a reduction to each group of 32 elements, every element of the group getting it; elements from `live` on are
padding, which a reduction skips (R57). -/
def perGroup (live : Nat) (g : List Val → Nat) (l : List Val) : List Nat :=
  ((List.range (l.length / 32)).map (fun i => List.replicate 32 (g (((l.take live).drop (32 * i)).take 32)))).flatten
/-- The four lanes of a W96 value (R145 VRSUM). -/
def w96Lanes (w : BitVec 128) : List (BitVec 32) := mkLanes (fun i => if i < 4 then w.extractLsb' (32 * i) 32 else 0)
/-- A vector with one low element. -/
def oneLane (x : Nat) : List (BitVec 32) := mkLanes (fun i => if i = 0 then BitVec.ofNat 32 x else 0)

/-- A reduction of the whole register into lanes of vd. -/
def reduceOp (s : State) (p : At) (f : LayV) (op : List Val → List (BitVec 32)) : Res :=
  issue s p { v := [f.vd, f.va] } (s.vecRoom p) (firstFault [must (vShape f false false) 0x03, vfmt f.fmt])
    (fun t => putV t p f.vd (op (vvals f.fmt ((s.ctx p).getV f.va))) (marksOf (s.ctx p) [f.va]) 2)

/-- The largest magnitude of each group of 32, of which some FP32 elements may be padding (R57, R113). -/
def groupMax (live : Nat) (p : At) (f : LayV) (s : State) : Res :=
  vec1 s p f 2 (fun b l => perGroup (if f.fmt = 0x11 then live else 256) (fun g => encFp b (maxOf true g)) l)
/-- The sum of each group of 32, of which some FP32 elements may be padding (R57, R113). -/
def groupSum (live : Nat) (p : At) (f : LayV) (s : State) : Res :=
  vec1 s p f 2 (fun b l => perGroup (if f.fmt = 0x11 then live else 256) (sumFp b) l)
/-- VGMAX (R113, R145). -/
def execVgmax (p : At) (f : LayV) (s : State) : Res := groupMax 128 p f s
/-- VGSUM (R113, R145). -/
def execVgsum (p : At) (f : LayV) (s : State) : Res := groupSum 128 p f s
/-- VRSUM (R113, R145). -/
def execVrsum (p : At) (f : LayV) (s : State) : Res :=
  reduceOp s p f (fun l => let (q, E) := sumMeasured l; w96Lanes (encW96 q E))
/-- VRSUMF (R113, R145): to FP32 whatever va's format. -/
def execVrsumf (p : At) (f : LayV) (s : State) : Res := reduceOp s p f (fun l => oneLane (sumFp 23 l))
/-- VRMAX (R145, R93). -/
def execVrmax (p : At) (f : LayV) (s : State) : Res := reduceOp s p f (fun l => oneLane (encFp (fracOf f.fmt) (maxOf false l)))
/-- VRMAXA (R145, R93). -/
def execVrmaxa (p : At) (f : LayV) (s : State) : Res := reduceOp s p f (fun l => oneLane (encFp (fracOf f.fmt) (maxOf true l)))

/-! ### Conversion, broadcast, extraction -/

/-- The lanes that a conversion gives: FP32 from the half of va that `h` names, or that half of vd
replaced by bfloat16 values (R146). -/
def cvtLanes (f : LayV) (c : Ctx) : List (BitVec 32) :=
  let h := f.imm.toNat % 2
  let va := c.getV f.va
  if f.fmt = 0x11 then mkLanes (fun i => BitVec.ofNat 32 (encFp 23 (bf16 (va.half (128 * h + i)).toNat)))
  else mkHalves (fun i => if i / 128 = h then encFp 7 (fp32 (va.lane (i % 128)).toNat) else ((c.getV f.vd).half i).toNat)

/-- VCVT (R146). -/
def execVcvt (p : At) (f : LayV) (s : State) : Res :=
  let c := s.ctx p
  issue s p { v := [f.vd, f.va] } (s.vecRoom p)
    (firstFault [must (f.vb = 0 && f.vc = 0 && f.sa = 0 && f.sb = 0 && f.imm.toNat < 2) 0x03, vfmt f.fmt])
    (fun t => putV t p f.vd (cvtLanes f c) (if f.fmt = 0x11 then marksOf c [f.va] else marksOf c [f.va, f.vd]) 1)

/-- VBCAST (R145). -/
def execVbcast (p : At) (f : LayV) (s : State) : Res :=
  issue s p { s := [f.sb], v := [f.vd] } (s.vecRoom p)
    (must (f.va = 0 && f.vb = 0 && f.vc = 0 && f.sa = 0 && f.fmt = 0 && f.imm = 0) 0x03)
    (fun t => putV t p f.vd (mkLanes (fun _ => ((s.ctx p).getS f.sb).setWidth 32)) {} 1)

/-- VEXT (R145, R134): sa := a lane of va. -/
def execVext (p : At) (f : LayV) (s : State) : Res :=
  let c := s.ctx p
  issue s p { s := [f.sa], v := [f.va] } (s.vecRoom p)
    (must (f.vd = 0 && f.vb = 0 && f.vc = 0 && f.sb = 0 && f.fmt = 0 && f.imm.toNat < 128) 0x03)
    (fun t => ((t.setS p f.sa (((c.getV f.va).lane f.imm.toNat).setWidth 64)).updCtx p
      (fun x => x.mark (c.getV f.va).blight (c.getV f.va).subst)).vecBeats p.core 1)

/-! ### Loads and stores -/

/-- The address of VLD and VST: sb + 64 × imm16, signed (R145). -/
def vAddr (c : Ctx) (f : LayV) : Word := c.getS f.sb + 64 * f.imm.signExtend 64

/-- VLD (R145). -/
def execVld (p : At) (f : LayV) (s : State) : Res :=
  let a := vAddr (s.ctx p) f
  issue s p { s := [f.sb], v := [f.vd] } (s.lsuRoom p)
    (firstFault [must (f.va = 0 && f.vb = 0 && f.vc = 0 && f.sa = 0 && f.fmt = 0) 0x03, s.accessFault (s.partNum p.core) .load a 512 64])
    (fun t => startLoad s t p a 512 (.vector f.vd))

/-- VST (R145): the register's marks go with it and join the sticky pair (R135). -/
def execVst (p : At) (f : LayV) (s : State) : Res :=
  let a := vAddr (s.ctx p) f
  let v := (s.ctx p).getV f.va
  issue s p { s := [f.sb], v := [f.va] } (s.lsuRoom p)
    (firstFault [must (f.vd = 0 && f.vb = 0 && f.vc = 0 && f.sa = 0 && f.fmt = 0) 0x03, s.accessFault (s.partNum p.core) .store a 512 64])
    (fun t => ((t.store p a v.bytes v.blight v.subst).updCtx p (fun c => c.mark v.blight v.subst)).turfBytes p.core a 512)

/-! ### Quantising (R149, R68 to R76) -/

/-- The blocks that a VQ or VDQ takes: 4 of FP32, 8 of bfloat16 (R149). -/
def blockCount (f : BitVec 6) : Nat := if f = 0x10 then 8 else 4

/-- The outlier positions of a block step. -/
def TDesc.outlIn (d : TDesc) (step : Nat) : List Nat := (d.outliers.filter (fun c => c / 32 = step)).map (· % 32)

/-- What VQ writes for its blocks from the cursor on. -/
def vqOuts (d : TDesc) (blight : Bool) (vals : List Val) : List QOut :=
  (List.range (vals.length / 32)).map (fun i =>
    quantBlk d.fmt d.theta d.shift (d.outlIn ((d.cursor + i) % max 1 d.blocks)) 2 1 blight ((vals.drop (32 * i)).take 32))

/-- The bytes of an escape entry (R78). -/
def escBytes (pos idx v : Nat) : List Byte := leBytes 8 (pos * 2 ^ 59 + idx * 2 ^ 16 + v)
/-- The bytes of a promotion entry (R79). -/
def promBytes (idx : Nat) (codes : List Nat) : List Byte := leBytes 8 idx ++ codes.map (BitVec.ofNat 8)

/-- The escape entries of a VQ in order. -/
def vqEsc (d : TDesc) (outs : List QOut) : List Byte :=
  ((List.range outs.length).map (fun i =>
    (((outs.getD i ⟨⟨0, [], 0, [], none⟩, false, false, false, 0⟩).blk.esc).map (fun e => escBytes e.1 (d.cursor + i) e.2)).flatten)).flatten
/-- The promotion entries of a VQ in order. -/
def vqProm (d : TDesc) (outs : List QOut) : List Byte :=
  ((List.range outs.length).map (fun i =>
    match (outs.getD i ⟨⟨0, [], 0, [], none⟩, false, false, false, 0⟩).blk.prom with
    | some cs => promBytes (d.cursor + i) cs
    | none => [])).flatten

/-- The statistics of a VQ (R94, R95). -/
def vqStats (d : TDesc) (outs : List QOut) (vals : List Val) : Stats :=
  statsOf d.hist vals [(outs.map (fun o => o.blk.esc.length)).sum, (outs.filter (·.promoted)).length,
    (outs.filter (·.nonFinite)).length, 0, (outs.map (·.saturated)).sum]

/-- Writing a run of bytes of an area with marks (R37), with the turf bytes it moves. -/
def State.putArea (s : State) (n core : Nat) (a : Word) (l : List Byte) (m : Marks) : State :=
  (s.writeMarked n core a l m.blight m.subst).turfBytes core a l.length

/-- CO_CNT_TURF_BYTES rises for the runs of bytes that lie in turf slices (R109, R126). -/
def State.turfRuns (s : State) (core : Nat) (l : List (Word × Nat)) : State := l.foldl (fun s x => s.turfBytes core x.1 x.2) s

/-- What an instruction reads of a descriptor: its bytes and its outlier list (R109). -/
def TDesc.headRuns (d : TDesc) : List (Word × Nat) := [(d.at_, 128), (d.list, 4 * d.outCount)]

/-- What a reader of blocks may read of the escape and promotion areas: the entries written there (R78, R79). -/
def TDesc.sideRuns (d : TDesc) : List (Word × Nat) := [(d.esc, 8 * d.escN), (d.prom, 40 * d.promN)]

/-- Whether a run of bytes among some holds bytes derived from a substituted row (R37). -/
def State.runsSubst (s : State) (n core : Nat) (l : List (Word × Nat)) : Bool := l.any (fun x => s.substAt (s.keysOf n core x.1 x.2))

/-- The runs of bytes that lie beyond the scratchpad (R385). -/
def farRuns (l : List (Word × Nat)) : List (Word × Nat) := l.filter (fun x => spaceOf x.1 ≠ 0 && x.2 ≠ 0)

/-- The run whose data takes the largest budget (R385); the first of several. -/
def State.slowest (s : State) (n core : Nat) : List (Word × Nat) → Option (Word × Nat)
  | [] => none
  | x :: t => match s.slowest n core t with
    | none => some x
    | some y => if s.budget n core x.1 < s.budget n core y.1 then some y else some x

/-- The bytes that an instruction of the vector or tile engine reads beyond the scratchpad are served (R305). -/
def State.servedRuns (t s : State) (p : At) (runs : List (Word × Nat)) : State :=
  let n := s.partNum p.core
  t.served (((farRuns runs).map (fun y => s.keysOf n p.core y.1 y.2)).flatten) (s.classOf n)

/-- What an instruction of the vector or tile engine waits for: of what it reads beyond the scratchpad the read of the largest
budget, as a load (R109, R385). -/
def State.delay (s : State) (p : At) (dest : Nat → LoadDest) (runs : List (Word × Nat)) (beat : Nat) : List Load :=
  match s.slowest (s.partNum p.core) p.core (farRuns runs) with
  | none => []
  | some x => [s.loadOf p (dest x.2) x.1 beat]

/-- What an instruction of the vector or tile engine reads beyond the scratchpad is served and delays it (R109, R385, R305). -/
def State.awaitRuns (t s : State) (p : At) (dest : Nat → LoadDest) (runs : List (Word × Nat)) : State :=
  (t.servedRuns s p runs).updCtx p (fun c => { c with loads := c.loads ++ s.delay p dest runs (t.core p.core).cnt.beats })

/-- What a reader reads of `cnt` blocks from `first` on: codes, scale words, outlier values (R109). -/
def TDesc.blockRuns (d : TDesc) (first cnt : Nat) : List (Word × Nat) :=
  [(plus d.code (first * 4 * eltBits d.fmt), cnt * 4 * eltBits d.fmt), (plus d.scale (2 * first), 2 * cnt),
   (d.outl, 2 * ((List.range cnt).map (fun i => (d.outlIn ((first + i) % max 1 d.blocks)).length)).sum)]

/-- The bytes of the escape and promotion areas that a reader of blocks fetches: the spec does not say how it searches
them, so their number is free where these areas lie in turf and hold entries (log entry 16). -/
def State.turfSide (s : State) (core : Nat) (d : TDesc) : State :=
  let turf (a : Word) : Bool := spaceOf a = 1 || spaceOf a = 3
  let x := (s.core core).cnt
  let extra := Config.sideBytes core x.beats x.issued (if s.strictCore core then 0 else s.free)
  if (d.escN ≠ 0 && turf d.esc) || (d.promN ≠ 0 && turf d.prom) then
    (s.updCore core (fun c => { c with cnt := { c.cnt with turfBytes := sat64 (c.cnt.turfBytes + extra) } })).fresh
  else s

/-- Everything that VQ writes: codes, scale words, side entries, outlier values, statistics and the
maintained counts (R143, R149). -/
def vqWrite (s : State) (n core : Nat) (d : TDesc) (m : Marks) (vals : List Val) : State :=
  let outs := vqOuts d m.blight vals
  let w := eltBits d.fmt
  let s := s.putArea n core (plus d.code (d.cursor * 4 * w)) ((outs.map (fun o => leBytes (4 * w) (packCodes w o.blk.codes))).flatten) m
  let s := s.putArea n core (plus d.scale (2 * d.cursor)) ((outs.map (fun o => leBytes 2 o.blk.scale)).flatten) m
  let e := vqEsc d outs
  let q := vqProm d outs
  let s := if e = [] then s else s.putArea n core (plus d.esc (8 * d.escN)) e m
  let s := if q = [] then s else s.putArea n core (plus d.prom (40 * d.promN)) q m
  let s := (List.range d.outliers.length).foldl (fun s j =>
    let c := d.outliers.getD j 0
    (List.range outs.length).foldl (fun s i =>
      if (d.cursor + i) % max 1 d.blocks = c / 32 then
        s.putArea n core (plus d.outl (2 * ((d.cursor + i) / max 1 d.blocks * d.outCount + j)))
          (leBytes 2 (encFp 7 (vals.getD (32 * i + c % 32) Val.zero))) m
      else s) s) s
  let s := if d.stats then
      (s.putArea n core d.statAddr (((Stats.ofBytes (s.readDev n core d.statAddr 576).1).merge (vqStats d outs vals)).bytes) {}).turfBytes
        core d.statAddr 576
    else s
  s.putArea n core (plus d.at_ 0x60)
    (leBytes 8 (d.cursor + outs.length) ++ leBytes 8 (d.escN + e.length / 8) ++ leBytes 8 (d.promN + q.length / 40)) {}

/-- Whether a partition may write a tensor area (R404). -/
def State.areaWriteOk (s : State) (n : Nat) (a : Word) : Bool := s.serveWriteOk n a

/-- The checks of VQ beyond its fields (R142, R149). -/
def vqFault (s : State) (n core : Nat) (a : Word) (blight : Bool) (vals : List Val) : Option (BitVec 8) :=
  let d := (s.desc n core a).1
  let outs := vqOuts d blight vals
  firstFault [s.descFault n a,
    must (d.legal && d.kind = 0 && d.cursor + vals.length / 32 ≤ d.rows * d.blocks) 0x05,
    must (s.blocksOk n { d with escN := d.escN + (vqEsc d outs).length / 8, promN := d.promN + (vqProm d outs).length / 40 } d.cursor (vals.length / 32)
      && (!d.stats || s.areaOk n d.statAddr 576)
      && [d.code, d.scale, d.esc, d.prom, d.outl].all (s.areaWriteOk n)) 0x06]

/-- VQ (R149). -/
def execVq (p : At) (f : LayV) (s : State) : Res :=
  let c := s.ctx p
  let n := s.partNum p.core
  let a := c.getS f.sb
  let v := c.getV f.va
  let vals := vvals f.fmt v
  let bad := v.blight || (s.desc n p.core a).2
  let d := (s.desc n p.core a).1
  issue s p { s := [f.sb], v := [f.va] } (s.vecRoom p)
    (firstFault [must (f.vd = 0 && f.vb = 0 && f.vc = 0 && f.sa = 0 && f.imm = 0) 0x03, vfmt f.fmt, vqFault s n p.core a bad vals])
    (fun t =>
      let m : Marks := ⟨bad, v.subst || s.runsSubst n p.core d.headRuns⟩
      let runs := d.headRuns ++ (if d.stats then [(d.statAddr, 576)] else [])
      ((((vqWrite t n p.core d m vals).turfRuns p.core d.headRuns).updCtx p (fun x => x.mark m.blight m.subst)).vecBeats p.core
        (blockCount f.fmt + 2 * ((vqOuts d bad vals).filter (·.promoted)).length)).awaitRuns s p (fun len => .engine len [] []) runs)

/-- A damaged block found by a reader posts record 0x02.0x03 (R61). -/
def State.reportDamage (s : State) (n core : Nat) (d : TDesc) (idx : Nat) : State :=
  if (s.block n core d idx).1.damaged then
    s.post { cls := 0x02, cause := 0x03, unit := 0x00, loc := BitVec.ofNat 32 core, addr := plus d.code (idx * 4 * eltBits d.fmt) } [n]
  else s

/-- VDQ (R149). R149 sets no bound on the starting block index: where the blocks lie at or beyond rows × blocks per row the
instruction reads what the areas hold at those places, if they can be reached (DESIGN CHOICE, log entry 58). -/
def execVdq (p : At) (f : LayV) (s : State) : Res :=
  let c := s.ctx p
  let n := s.partNum p.core
  let a := c.getS f.sb
  let (d, bd) := s.desc n p.core a
  let first := (c.getS f.sa).toNat
  let k := blockCount f.fmt
  let bs := (List.range k).map (fun i => s.blockVals n p.core d (first + i))
  let runs := d.headRuns ++ d.blockRuns first k ++ d.sideRuns
  issue s p { s := [f.sa, f.sb], v := [f.vd] } (s.areaRoom n (s.vecRoom p) [d.code, d.scale, d.esc, d.prom, d.outl])
    (firstFault [must (f.va = 0 && f.vb = 0 && f.vc = 0 && f.imm = 0) 0x03, vfmt f.fmt, s.descFault n a,
      must (d.legal && d.kind = 0) 0x05, must (s.blocksOk n d first k) 0x06])
    (fun t =>
      let t := (List.range k).foldl (fun t i => t.reportDamage n p.core d (first + i)) t
      ((putV t p f.vd (packLanes f.fmt ((bs.map (fun b => b.1.map (encFp (fracOf f.fmt)))).flatten))
        ⟨bd || bs.any (·.2), s.runsSubst n p.core runs⟩ k).turfRuns p.core (d.headRuns ++ d.blockRuns first k)).turfSide p.core d
        |>.awaitRuns s p (fun len => .engine len [f.vd] []) runs)

/-! ### Random values (R392) -/

/-- The lanes of VRNG from a key block. -/
def rngLanes (fmt : BitVec 6) (l : List Byte) : List (BitVec 32) :=
  let k := rngKey (addrAt l 0) (addrAt l 8) (addrAt l 0x10)
  mkLanes (fun i =>
    let w := rngWord k (plus (addrAt l 0x18) i)
    if fmt = 0 then w.setWidth 32 else BitVec.ofNat 32 (encFp 23 (.fin false (w.toNat >>> 40) (-24))))

/-- VRNG (R392). -/
def execVrng (p : At) (f : LayV) (s : State) : Res :=
  let n := s.partNum p.core
  let a := (s.ctx p).getS f.sb
  let (l, b, u) := s.readMarked n p.core a 32
  issue s p { s := [f.sb], v := [f.vd] } (s.vecRoom p)
    (firstFault [must (f.va = 0 && f.vb = 0 && f.vc = 0 && f.sa = 0 && f.imm = 0) 0x03, must (f.fmt = 0 || f.fmt = 0x11) 0x04,
      s.accessFault n .block a 32 32])
    (fun t => putV t p f.vd (rngLanes f.fmt l) ⟨b, u⟩ 1)

end Sys2Proof.Machine
end

