-- ==== Sys2Proof/Machine/Tile.lean ====
section
/-! DEFINITION. The tile class 0x4 (R106 to R111, R115, R144, R151): products with their side path,
accumulators, W96 tiles in memory. -/

namespace Sys2Proof.Machine

/-! ### Operand blocks and terms (R90, R91, R110) -/

/-- One operand block of a product: none for a row that reads as zero; the outlier values in place. -/
structure OpBlk where
  b : Option Blk
  outl : List (Nat × Val)
  blight : Bool
  deriving DecidableEq, Repr

/-- The operand block of a tile at row `i` and block step `st`. -/
def State.opBlk (s : State) (n core : Nat) (t : Tile) (i st : Nat) : OpBlk :=
  let row := t.ref.row + i
  let step := t.ref.step + st
  if t.d.rows ≤ row then ⟨none, [], false⟩
  else
    let (b, bl) := s.block n core t.d (row * t.d.blocks + step)
    let os := (List.range t.d.outliers.length).filterMap (fun j =>
      let c := t.d.outliers.getD j 0
      if c / 32 = step then some (c % 32, s.outlierVal n core t.d row j) else none)
    ⟨some b, os.map (fun o => (o.1, o.2.1)), bl || b.blight || os.any (fun o => o.2.2)⟩

/-- Whether a block is non-finite. -/
def OpBlk.bad (o : OpBlk) : Bool := match o.b with | some b => b.nonFinite | none => false
/-- Whether a position holds an escape or a damaged element. -/
def OpBlk.special (o : OpBlk) (i : Nat) : Bool :=
  match o.b with | some b => !b.nonFinite && b.special i | none => false
/-- The integer code at a position. -/
def OpBlk.code (o : OpBlk) (i : Nat) : Int :=
  match o.b with | some b => (codeVal b.asFmt (b.reads.getD i 0)).getD 0 | none => 0
/-- The block scale as m × 2^e. -/
def OpBlk.scale (o : OpBlk) : Nat × Int :=
  match o.b with
  | some b => if fld b.scale 15 8 = 0 then (0, 0) else (16 + fld b.scale 7 4, (fld b.scale 15 8 : Int) - 131)
  | none => (0, 0)
/-- The exact value at a position (R59, R60, R80). -/
def OpBlk.val (o : OpBlk) (i : Nat) : Val :=
  if o.bad then .nan else match o.outl.find? (fun x => x.1 = i) with
  | some (_, v) => v
  | none => match o.b with | some b => b.val i | none => Val.zero

/-- The side positions of a block pair: an escape of either, or an outlier channel of either (R110). -/
def sidePos (a b : OpBlk) (outl : List Nat) : List Nat :=
  (List.range 32).filter (fun k => a.special k || b.special k || k ∈ outl)

/-- The terms of a block pair: the integer dot under both scales, then the side products (R90, R91). -/
def pairTerms (a b : OpBlk) (outl : List Nat) : List Val :=
  let ps := sidePos a b outl
  let dot := (((List.range 32).filter (· ∉ ps)).map (fun k => a.code k * b.code k)).sum
  let block := if a.bad || b.bad then Val.nan
    else .fin (dot < 0) (dot.natAbs * a.scale.1 * b.scale.1) (a.scale.2 + b.scale.2)
  block :: ps.map (fun k => mulVal (a.val k) (b.val k))

/-- The beats of a block step (R106, R107): `pa`, `pb` tell whether a block of A or B is promoted. -/
def stepBeats (fa fb : Nat) (pa pb : Bool) : Nat :=
  let qa := fa = 5 || pa
  let qb := fb = 5 || pb
  if qa && qb then 16 else if qa || qb then 8 else if fa = 1 then 4 else if fa = 4 then 1 else 2

/-- What a product comes to: the terms of its 1,024 elements, its beats and side products, its blight. -/
structure Product where
  terms : List (List Val)
  beats : Nat
  side : Nat
  blight : Bool
  deriving DecidableEq, Repr

/-- What an instruction reads of a tile reference and its descriptor (R109). -/
def Tile.headRuns (t : Tile) (a : Word) : List (Word × Nat) := (a, 32) :: t.d.headRuns

/-- The rows of a tile that its tensor has (R144). -/
def Tile.liveRows (t : Tile) : List Nat := (List.range 32).filter (fun i => t.ref.row + i < t.d.rows)

/-- What a product reads of the blocks of a tile (R109). -/
def Tile.blockRuns (t : Tile) : List (Word × Nat) :=
  (t.liveRows.map (fun i => t.d.blockRuns ((t.ref.row + i) * t.d.blocks + t.ref.step) t.ref.steps)).flatten

/-- The product of two tiles. -/
def State.product (s : State) (n core : Nat) (a b : Tile) : Product :=
  let k := a.ref.steps
  let as := (List.range 32).map (fun i => (List.range k).map (fun st => s.opBlk n core a i st))
  let bs := (List.range 32).map (fun j => (List.range k).map (fun st => s.opBlk n core b j st))
  let outl := (List.range k).map (fun st => ((a.d.outlIn (a.ref.step + st)) ++ (b.d.outlIn (b.ref.step + st))).dedup)
  let per := (as.map (fun ra => bs.map (fun rb =>
    (List.range k).map (fun st => pairTerms (ra.getD st ⟨none, [], false⟩) (rb.getD st ⟨none, [], false⟩) (outl.getD st []))))).flatten
  let promoted (l : List (List OpBlk)) (st : Nat) : Bool :=
    l.any (fun r => match (r.getD st ⟨none, [], false⟩).b with | some x => bitAt x.scale 2 && fld x.scale 15 8 ≠ 0xFF | none => false)
  { terms := per.map List.flatten,
    beats := ((List.range k).map (fun st => stepBeats a.d.fmt b.d.fmt (promoted as st) (promoted bs st))).sum,
    side := (per.map (fun e => (e.map (fun t => t.length - 1)).sum)).sum,
    blight := a.blight || b.blight || as.flatten.any (·.blight) || bs.flatten.any (·.blight) }

/-! ### Checks -/

/-- The rows of a tile lie in reachable areas. -/
def State.tileOk (s : State) (n : Nat) (t : Tile) : Bool :=
  (List.range 32).all (fun i => t.d.rows ≤ t.ref.row + i ||
    s.blocksOk n t.d ((t.ref.row + i) * t.d.blocks + t.ref.step) t.ref.steps)

/-- Whether two narrow formats pair (R91). -/
def pairing (a b : Nat) : Bool := a = b || a = 5 || b = 5

/-- The checks of TMUL beyond its fields (R151, R108), the contents of both operands before the addresses of their areas
(R132). R108 calls a product to vector registers of more than 256 block steps illegal and names no cause: it takes that of
an illegal tile reference (DESIGN CHOICE, log entry 58). -/
def tmulFault (s : State) (n core : Nat) (sa sb : Word) (toVec : Bool) : Option (BitVec 8) :=
  let a := s.tile n core sa
  let b := s.tile n core sb
  let ha := s.tileHead n core sa
  let hb := s.tileHead n core sb
  firstFault [s.tileBody n core sa, s.tileBody n core sb,
    must (ha.isSome || hb.isSome || (a.d.kind = 0 && b.d.kind = 0 && a.ref.step + a.ref.steps ≤ a.d.blocks
      && b.ref.step + b.ref.steps ≤ b.d.blocks && a.ref.steps = b.ref.steps && pairing a.d.fmt b.d.fmt
      && (!toVec || a.ref.steps ≤ 256))) 0x05,
    addressFault [ha, hb, must (ha.isSome || hb.isSome || (s.tileOk n a && s.tileOk n b)) 0x06]]

/-- The vector registers from vd that a whole accumulator fills: 8 of FP32, 4 of bfloat16 (R151). -/
def regCount (f : BitVec 6) : Nat := if f = 0x10 then 4 else 8
/-- The vector registers that results go to. -/
def regsFrom (vd : BitVec 4) (f : BitVec 6) : List (BitVec 4) := (List.range (regCount f)).map (fun i => vd + BitVec.ofNat 4 i)
/-- Results k = 32 i + j placed over registers (R151). -/
def placeResults (f : BitVec 6) (l : List Nat) : List (List (BitVec 32)) :=
  (List.range (regCount f)).map (fun r => packLanes f ((l.drop (elemCount f * r)).take (elemCount f)))

/-- The room of the tile engine: one product running and two waiting (R99). -/
def State.tileRoom (s : State) (k : Nat) : Room := { full := 3 ≤ (s.core k).tiles.length }

/-! ### TMUL and its completion -/

/-- Where a product goes and its value: into the accumulator under its anchor, or rounded once to
vector registers under measured windows (R108). -/
def productDest (f : LayT) (acc : TileAcc) (q : Product) : TileDest :=
  if f.dk = 0 then
    .acc f.acc (q.terms.map (sumOn (anchorE acc.anchor) true)) ((q.terms.map List.length).foldl max 0)
  else .vec f.vd (placeResults f.fmt (q.terms.map (sumFp (fracOf f.fmt))))

/-- The field checks of TMUL (R151). -/
def tmulShape (f : LayT) : Option (BitVec 8) :=
  firstFault [must (f.zero = 0 && (if f.dk = 0 then f.vd = 0 else f.acc = 0 && (f.vd = 0 || f.vd = 8))) 0x03,
    must (if f.dk = 0 then f.fmt = 0x20 else f.fmt = 0x11 || f.fmt = 0x10) 0x04]

/-- The damaged blocks that a product reads are reported (R61). -/
def State.reportTile (s : State) (n core : Nat) (t : Tile) : State :=
  (List.range 32).foldl (fun s i =>
    if t.d.rows ≤ t.ref.row + i then s
    else (List.range t.ref.steps).foldl (fun s st =>
      s.reportDamage n core t.d ((t.ref.row + i) * t.d.blocks + t.ref.step + st)) s) s

/-- The reads of an operand of a product, counted where they lie in turf (R109, R126). -/
def State.turfOperand (s : State) (core : Nat) (a : Word) (t : Tile) : State :=
  (s.turfRuns core (t.headRuns a ++ t.blockRuns)).turfSide core t.d

/-- The reads and writes of a W96 tile's reference and descriptor, counted where they lie in turf (R109, R126). -/
def State.turfHead (s : State) (core : Nat) (a : Word) (t : Tile) : State := s.turfRuns core (t.headRuns a)

/-- TMUL (R108, R151): the product joins the tile engine and delivers at TILE_PRODUCT_COMPLETE. -/
def execTmul (p : At) (f : LayT) (s : State) : Res :=
  let c := s.ctx p
  let n := s.partNum p.core
  let sa := c.getS f.sa
  let sb := c.getS f.sb
  let u : Uses := if f.dk = 0 then { s := [f.sa, f.sb], a := [f.acc] } else { s := [f.sa, f.sb], v := regsFrom f.vd f.fmt }
  let areas (t : Tile) : List Word := [t.d.code, t.d.scale, t.d.esc, t.d.prom, t.d.outl]
  issue s p u (s.areaRoom n (s.tileRoom p.core) (areas (s.tile n p.core sa) ++ areas (s.tile n p.core sb)))
    (firstFault [tmulShape f, tmulFault s n p.core sa sb (f.dk = 1)])
    (fun t =>
      let a := s.tile n p.core sa
      let b := s.tile n p.core sb
      let q := s.product n p.core a b
      let t := (t.reportTile n p.core a).reportTile n p.core b
      let t := (t.turfOperand p.core sa a).turfOperand p.core sb b
      let runs := a.headRuns sa ++ a.blockRuns ++ a.d.sideRuns ++ b.headRuns sb ++ b.blockRuns ++ b.d.sideRuns
      let num := (t.core p.core).cnt.issued
      (t.updCore p.core (fun k => { k with tiles := k.tiles ++ [{ p := p, num := num, dest := productDest f (c.getA f.acc) q, beats := q.beats,
                                                                  side := q.side, blight := q.blight,
                                                                  subst := s.runsSubst n p.core runs }] })).awaitRuns s p (fun len => .product len num) runs)

/-- Element `k` of an accumulator as a partial sum. -/
def TileAcc.part (a : TileAcc) (k : Nat) : Partial :=
  match a.elems.find k with
  | some w => (decW96 w).1
  | none => {}

/-- An accumulator whose 1,024 elements are these partial sums. -/
def accElems (a : BitVec 10) (f : Nat → Partial) : Tab (BitVec 128) := (List.range 1024).map (fun k => (k, encW96 (f k) (anchorE a)))

/-- Adding a product into an accumulator (R86, R87). -/
def TileAcc.addProduct (a : TileAcc) (parts : List Partial) (terms : Nat) (blight subst : Bool) : TileAcc :=
  let (cnt, o) := addTerms a.terms terms
  { a with terms := cnt, elems := accElems a.anchor (fun k => withOverflow o (addW96 (a.part k) (parts.getD k {}))),
           blight := a.blight || blight, subst := a.subst || subst }

/-- What a product delivers to its context. -/
def Ctx.deliver (c : Ctx) (j : TileJob) : Ctx :=
  match j.dest with
  | .acc a parts terms => c.setA a ((c.getA a).addProduct parts terms j.blight j.subst)
  | .vec vd regs => (List.range regs.length).foldl (fun c i =>
      c.setV (vd + BitVec.ofNat 4 i) { lanes := regs.getD i [], blight := j.blight, subst := j.subst }) c

/-- Whether a product still waits for operands from beyond the scratchpad (R109). -/
def State.productWaits (s : State) (j : TileJob) : Bool :=
  (s.ctx j.p).loads.any (fun l => match l.dest with | .product _ n => n = j.num | _ => false)

/-- TILE_PRODUCT_COMPLETE (R111): the running product, its operands delivered, delivers with its counts (R126). -/
def execTileProductComplete (core : Nat) (s : State) : Res :=
  .next (if !s.live || (s.core core).frozen.isSome then s else
    match (s.core core).tiles with
    | [] => s
    | j :: rest =>
      if s.productWaits j then s else
      let s := s.updCore core (fun k => { k with
        tiles := rest
        cnt := { k.cnt with tileBeats := sat64 (k.cnt.tileBeats + j.beats), sideProducts := sat64 (k.cnt.sideProducts + j.side) } })
      (((s.updCtx j.p (fun c => c.deliver j)).afterRetire j.p).unstall core))

/-! ### Accumulators -/

/-- TCLR (R145): values, overflow and term count cleared, the anchor field set to sa[9:0]. -/
def execTclr (p : At) (f : LayT) (s : State) : Res :=
  issue s p { s := [f.sa], a := [f.acc] } (s.tileRoom p.core)
    (must (f.zero = 0 && f.dk = 0 && f.vd = 0 && f.sb = 0 && f.fmt = 0) 0x03)
    (fun t => t.updCtx p (fun c => c.setA f.acc { anchor := ((s.ctx p).getS f.sa).setWidth 10 }))

/-- TMOVV (R115, R151). -/
def execTmovv (p : At) (f : LayT) (s : State) : Res :=
  let a := (s.ctx p).getA f.acc
  issue s p { a := [f.acc], v := regsFrom f.vd f.fmt } (s.tileRoom p.core)
    (firstFault [must (f.zero = 0 && f.dk = 0 && f.sa = 0 && f.sb = 0 && (f.vd = 0 || f.vd = 8)) 0x03, vfmt f.fmt])
    (fun t =>
      let regs := placeResults f.fmt ((List.range 1024).map (fun k => finalFp (fracOf f.fmt) (a.part k) (anchorE a.anchor) 1))
      t.updCtx p (fun c => (List.range regs.length).foldl (fun c i =>
        c.setV (f.vd + BitVec.ofNat 4 i) (vregOf (regs.getD i []) a.marks)) c))

/-! ### W96 tiles (R144, R151) -/

/-- The address of the 32 elements of row `i` of a W96 tile. -/
def Tile.rowAt (t : Tile) (i : Nat) : Word := t.d.elemAt (t.ref.row + i) (32 * t.ref.step)

/-- What TLDA and TADDM read of a W96 tile's elements (R109). -/
def Tile.elemRuns (t : Tile) : List (Word × Nat) := t.liveRows.map (fun i => (t.rowAt i, 512))

/-- The checks of TLDA, TSTA and TADDM (R151). -/
def w96Fault (s : State) (n core : Nat) (a : Word) (acc : TileAcc) (write : Bool) : Option (BitVec 8) :=
  let t := s.tile n core a
  let h := s.tileHead n core a
  firstFault [s.tileBody n core a,
    must (h.isSome || (t.d.kind = 3 && t.ref.steps = 1 && 32 * t.ref.step + 32 ≤ t.d.len && (!write || t.d.anchor = acc.anchor))) 0x05,
    addressFault [h, must (h.isSome || (t.liveRows.all (fun i => s.areaOk n (t.rowAt i) 512) && (!write || s.serveWriteOk n t.d.code))) 0x06]]

/-- The field checks of TLDA, TSTA and TADDM. -/
def w96Shape (f : LayT) : Option (BitVec 8) := must (f.zero = 0 && f.dk = 0 && f.vd = 0 && f.sb = 0 && f.fmt = 0) 0x03

/-- Element (i, j) of a W96 tile in memory: zero beyond the tensor's rows. -/
def State.tileElem (s : State) (n core : Nat) (t : Tile) (k : Nat) : Partial × Bool :=
  if t.d.rows ≤ t.ref.row + k / 32 then ({}, false)
  else
    let (l, b) := s.readDev n core (plus (t.rowAt (k / 32)) (16 * (k % 32))) 16
    (onGrid t.d.anchor (w96At l), b)

/-- TLDA (R151). -/
def execTlda (p : At) (f : LayT) (s : State) : Res :=
  let n := s.partNum p.core
  let a := (s.ctx p).getS f.sa
  let t := s.tile n p.core a
  issue s p { s := [f.sa], a := [f.acc] } (s.tileRoom p.core) (firstFault [w96Shape f, w96Fault s n p.core a {} false])
    (fun u =>
      let es := (List.range 1024).map (fun k => s.tileElem n p.core t k)
      let runs := t.headRuns a ++ t.elemRuns
      let u := u.updCtx p (fun c => c.setA f.acc
        { anchor := t.d.anchor, terms := t.d.terms, elems := accElems t.d.anchor (fun k => (es.getD k ({}, false)).1),
          blight := t.blight || es.any (·.2), subst := s.runsSubst n p.core runs })
      ((u.turfHead p.core a t).turfBytes p.core t.d.code (512 * t.liveRows.length)).awaitRuns s p (fun len => .engine len [] [f.acc]) runs)

/-- Writing the live rows of a W96 tile. -/
def State.putTile (s : State) (n core : Nat) (t : Tile) (f : Nat → Partial) (m : Marks) : State :=
  t.liveRows.foldl (fun s i => s.putArea n core (t.rowAt i)
    (((List.range 32).map (fun j => leBytes 16 (encW96 (f (32 * i + j)) (anchorE t.d.anchor)).toNat)).flatten) m) s

/-- TSTA (R151); the accumulator's marks go with it and join the sticky pair (R135). -/
def execTsta (p : At) (f : LayT) (s : State) : Res :=
  let n := s.partNum p.core
  let c := s.ctx p
  let a := c.getS f.sa
  let t := s.tile n p.core a
  let acc := c.getA f.acc
  issue s p { s := [f.sa], a := [f.acc] } (s.tileRoom p.core) (firstFault [w96Shape f, w96Fault s n p.core a acc true])
    (fun u => ((((u.putTile n p.core t acc.part acc.marks).putArea n p.core (plus t.ref.desc 0x48)
      (leBytes 8 (max t.d.terms acc.terms)) {}).turfHead p.core a t).updCtx p (fun c => c.mark acc.blight acc.subst)).awaitRuns s p
        (fun len => .engine len [] []) (t.headRuns a))

/-- Overflow on every element of a kind 3 tensor (R87): the overflow bits alone change. -/
def State.overflowAll (s : State) (n core : Nat) (d : TDesc) : State :=
  (List.range (d.rows * d.len)).foldl (fun s k =>
    let a := plus d.code (16 * k)
    let (l, b) := s.readDev n core a 16
    s.writeDev n core a (leBytes 16 (w96At l ||| (1 <<< 108)).toNat) b) s

/-- Whether a descriptor's elements are a dense accumulator of the partition's plan. -/
def State.planAcc (s : State) (n core : Nat) (d : TDesc) : Bool :=
  match (s.part n).plan with
  | some pl => pl.entries.any (fun e => e.valid && e.dense && (s.desc n core e.accAddr).1.code = d.code)
  | none => false

/-- TADDM (R151): a contribution that comes after its step's sweep has started is discarded (R219). -/
def execTaddm (p : At) (f : LayT) (s : State) : Res :=
  let n := s.partNum p.core
  let c := s.ctx p
  let a := c.getS f.sa
  let t := s.tile n p.core a
  let acc := c.getA f.acc
  issue s p { s := [f.sa], a := [f.acc] } (s.tileRoom p.core) (firstFault [w96Shape f, w96Fault s n p.core a acc true])
    (fun u =>
      if s.late n c.step && s.planAcc n p.core t.d then u.countLate (coreCluster p.core) n (s.tagOf p 0x20 0 acc.blight acc.subst)
      else
        let es := (List.range 1024).map (fun k => s.tileElem n p.core t k)
        let (cnt, o) := addTerms t.d.terms acc.terms
        let runs := t.headRuns a ++ t.elemRuns
        let m : Marks := ⟨acc.blight || t.blight || es.any (·.2), acc.subst || s.runsSubst n p.core runs⟩
        let u := u.putTile n p.core t (fun k => addW96 (es.getD k ({}, false)).1 (acc.part k)) m
        let u := (u.putArea n p.core (plus t.ref.desc 0x48) (leBytes 8 cnt) {}).turfHead p.core a t
        let u := (u.turfBytes p.core t.d.code (512 * t.liveRows.length)).updCtx p (fun c => c.mark m.blight m.subst)
        (if o then u.overflowAll n p.core t.d else u).awaitRuns s p (fun len => .engine len [] []) runs)

end Sys2Proof.Machine
end

