-- ==== Sys2Proof/Machine/Move.lean ====
section
/-! DEFINITION. The move class 0x8 (R152), the delivery of operands and the visibility of writes (R118,
R311), and strict-order delivery (R385, R386). -/

namespace Sys2Proof.Machine

/-! ### Checks -/

/-- Whether two runs of bytes share a byte. -/
def State.overlap (s : State) (n core : Nat) (a : Word) (la : Nat) (b : Word) (lb : Nat) : Bool :=
  let ks := s.keysOf n core b lb
  (s.keysOf n core a la).any (· ∈ ks)

/-- Fallow addresses and lengths are multiples of 64 (R289). -/
def fallowAligned (a : Word) (len : Nat) : Bool := spaceOf a ≠ 5 || (a.toNat % 64 = 0 && len % 64 = 0)

/-- The checks of a move beyond its zero fields (R152, R153, R289). -/
def moveFault (s : State) (p : At) (src : Option Word) (dst : Word) (len : Nat) (ck : BitVec 2) (ct : BitVec 17) : Option (BitVec 8) :=
  let n := s.partNum p.core
  firstFault [must (ctShapeOk ck ct && len ≤ 2 ^ 32) 0x03,
    must (s.ctOwned n ck ct) 0x06,
    if len = 0 then none else
      firstFault [s.accessFault n .moveDst dst len 1,
        match src with
        | some a => firstFault [s.accessFault n .moveSrc a len 1, must (!s.overlap n p.core a len dst len) 0x06]
        | none => none,
        must (fallowAligned dst len && (match src with | some a => fallowAligned a len | none => true)) 0x07]]

/-! ### MOV and MOVZ -/

/-- Whether the context's open transaction takes a write to this address (R251). -/
def Ctx.takes (c : Ctx) (dst : Word) : Option Nat := if spaceOf dst = 0 then none else c.tx

/-- A move starts. A scratchpad source is read at issue; a scratchpad destination whose bytes are at
hand is written at issue (R117). -/
def startMove (s t : State) (p : At) (src : Option Word) (dst : Word) (len : Nat) (ck : BitVec 2) (ct : BitVec 17) : State :=
  let n := s.partNum p.core
  let have_ : Option (List Byte × Bool × Bool) := match src with
    | none => some (List.replicate len 0, false, false)
    | some a => if spaceOf a = 0 then some (s.readMarked n p.core a len) else none
  let done := spaceOf dst = 0 && have_.isSome
  let blight := (have_.map (·.2.1)).getD false
  let subst := (have_.map (·.2.2)).getD false
  let t := match have_ with
    | some (l, b, u) => if done then t.writeMarked n p.core dst l b u else t
    | none => t
  let t := (t.turfBytes p.core dst len).turfBytes p.core (src.getD 0) len
  t.updCtx p (fun c => { c with
    moves := c.moves ++ [{ num := c.nextMove, src := src, dst := dst, len := if done then 0 else len, ck := ck, ct := ct,
                           bytes := have_.map (fun x => if done then [] else x.1),
                           blight := blight, subst := subst, tx := (s.ctx p).takes dst,
                           tag := s.tagOf p 0 (s.dataClass p false).code blight subst }]
    nextMove := c.nextMove + 1 })

/-- MOV (R152). -/
def execMov (p : At) (f : LayM) (s : State) : Res :=
  let c := s.ctx p
  let len := (c.getS f.sb).toNat
  issue s p { s := [f.sd, f.sa, f.sb] } (s.lsuRoom p)
    (firstFault [must (f.zero = 0) 0x03, moveFault s p (some (c.getS f.sa)) (c.getS f.sd) len f.ck f.ct])
    (fun t => startMove s t p (some (c.getS f.sa)) (c.getS f.sd) len f.ck f.ct)

/-- MOVZ (R152): sa must be s0. -/
def execMovz (p : At) (f : LayM) (s : State) : Res :=
  let c := s.ctx p
  let len := (c.getS f.sb).toNat
  issue s p { s := [f.sd, f.sb] } (s.lsuRoom p)
    (firstFault [must (f.zero = 0 && f.sa = 0) 0x03, moveFault s p none (c.getS f.sd) len f.ck f.ct])
    (fun t => startMove s t p none (c.getS f.sd) len f.ck f.ct)

/-- Holding an instruction at issue: the pc stays at it. -/
def State.holdAt (s : State) (p : At) (pc : Word) (w : Stall) : State :=
  s.updCtx p (fun c => { c with state := .stalled, stalledOn := some w, pc := pc })

/-- MFENCE (R145): completes when every earlier store and move of the context is visible. -/
def execMfence (p : At) (f : LayM) (s : State) : Res :=
  issue s p {} {} (must (f.sd = 0 && f.sa = 0 && f.sb = 0 && f.ck = 0 && f.ct = 0 && f.zero = 0) 0x03)
    (fun t => if (s.ctx p).drained then t else t.holdAt p (s.ctx p).pc .fence)

/-! ### Completion of moves and stores -/

/-- The bytes that an earlier pending write of the context covers. -/
def State.olderOverlap (s : State) (p : At) (num : Nat) (a : Word) (len : Nat) : Bool :=
  let c := s.ctx p
  let n := s.partNum p.core
  (c.stores.any (fun x => x.num < num && s.overlap n p.core x.addr x.data.length a len))
    || (c.moves.any (fun x => x.num < num && s.overlap n p.core x.dst x.len a len))

/-- Whether no earlier write of the context is pending. -/
def Ctx.nothingBefore (c : Ctx) (num : Nat) : Bool := c.stores.all (fun x => num ≤ x.num) && c.moves.all (fun x => num ≤ x.num)

/-- A move is done: it leaves the unit, its marks join the sticky pair, its action is taken (R152). -/
def State.finishMove (s : State) (p : At) (m : Move) : State :=
  let s := s.updCtx p (fun c => ({ c with moves := c.moves.filter (fun x => x.num ≠ m.num) }).mark m.blight m.subst)
  ((s.action (s.partNum p.core) m.tag m.ck m.ct).afterDrain p).unstall p.core

/-- The bytes that a move carries with their marks: those it has already read, else its source's. -/
def State.moveBytes (s : State) (p : At) (m : Move) : List Byte × Bool × Bool :=
  match m.bytes, m.src with
  | some l, _ => (l, m.blight, m.subst)
  | none, some a => s.readMarked (s.partNum p.core) p.core a m.len
  | none, none => ([], false, false)

/-- The pieces of a fallow write, one per bale (R286, R287). -/
def State.fallowPieces (s : State) (n : Nat) (p : At) (m : Move) (data : List Byte) : List FallowPut :=
  let ks := s.keysOf n p.core m.dst data.length
  ((ks.map (fun k => k / 2048)).dedup).map (fun b =>
    let ix := (List.range data.length).filter (fun i => ks.getD i 0 / 2048 = b)
    { channel := (b * 2048 - 5 * 2 ^ 60) / 2 ^ 39, bale := (b * 2048 - 5 * 2 ^ 60) % 2 ^ 39 / 2048, offset := ks.getD (ix.headD 0) 0 % 2048,
      data := ix.map (fun i => data.getD i 0), blight := m.blight, subst := m.subst, p := p, move := m.num })

/-- MOVE_COMPLETE (R152): the bytes of the nth move reach the destination, in a transaction its write
set (log entry 19), in the fallow tier its write queue (R287). -/
def execMoveComplete (p : At) (i : Nat) (s : State) : Res :=
  let c := s.ctx p
  let n := s.partNum p.core
  .next (match c.moves[i]? with
    | none => s
    | some m =>
      if !s.live || m.queued || s.olderOverlap p m.num m.dst m.len || (m.ck ≠ 0 && !c.nothingBefore m.num)
          || s.heldObj n m.dst || (match m.src with | some a => m.bytes.isNone && (spaceOf a = 5 || s.heldObj n a) | none => false) then s
      else
        let (l, b, u) := s.moveBytes p m
        let m := { m with blight := b, subst := u }
        let s := match m.bytes, m.src with
          | none, some a => s.served (s.keysOf n p.core a m.len) (s.classOf n)
          | _, _ => s
        match m.tx with
        | some num => (s.txWrite num m.dst l b u).finishMove p m
        | none =>
          if spaceOf m.dst = 5 && l ≠ [] then
            let s := s.updCtx p (fun c => { c with moves := c.moves.map (fun x => if x.num = m.num then { m with queued := true, bytes := some l } else x) })
            { s with tiers := { s.tiers with fallowQ := s.tiers.fallowQ ++ s.fallowPieces n p m l } }
          else ((s.served (s.keysOf n p.core m.dst l.length) (s.classOf n)).writeMarked n p.core m.dst l b u).finishMove p m)

/-- WRITE_VISIBLE (R311): the oldest store of the context becomes visible. -/
def execWriteVisible (p : At) (s : State) : Res :=
  let n := s.partNum p.core
  .next (match (s.ctx p).stores with
    | [] => s
    | w :: rest =>
      if !s.live || s.olderOverlap p w.num w.addr w.data.length || s.heldObj n w.addr then s
      else ((((s.writeMarked n p.core w.addr w.data w.blight w.subst).updCtx p (fun c => { c with stores := rest })).afterDrain p).unstall p.core))

/-! ### Delivery of operands (R118, R385) -/

/-- A load delivers its data (R118, R474). -/
def State.deliverLoad (s : State) (p : At) (i : Nat) (l : List Byte) (b u : Bool) : State :=
  match (s.ctx p).loads[i]? with
  | none => s
  | some x =>
    let s := s.updCtx p (fun c => ({ c with loads := dropAt c.loads i }).take x.dest l b u)
    let s := match x.dest with
      | .product _ num => s.updCore p.core (fun k => { k with tiles := k.tiles.map (fun (j : TileJob) =>
          if j.p = p && j.num = num then { j with blight := j.blight || b, subst := j.subst || u } else j) })
      | _ => s
    ((s.afterDrain p).unstall p.core)

/-- The size of a load's data. -/
def LoadDest.size : LoadDest → Nat
  | .scalar _ sz _ => sz
  | .vector _ => 512
  | .engine len _ _ => len
  | .product len _ => len

/-- A granule found uncorrectable by a demand read: poisoned, record 0x02.0x01 with the read's tag word (R30, R470,
R474). -/
def State.demandBad (s : State) (p : At) (a tag : Word) : State :=
  match s.keyOf (s.partNum p.core) p.core a with
  | none => s
  | some k =>
    if granule k ∈ s.poison then s
    else (s.lose k).post
      { cls := 0x02, cause := 0x01, unit := 0x00, loc := BitVec.ofNat 32 p.core, tag := tag ||| 0x400, addr := a }
      [s.partNum p.core]

/-- OPERAND_DATA_RETURN (R118): the data of the nth outstanding load reaches the core; in strict order
mode it is held until its budget (R385). -/
def execOperandDataReturn (p : At) (i : Nat) (bad : Bool) (s : State) : Res :=
  let n := s.partNum p.core
  .next (match (s.ctx p).loads[i]? with
    | none => s
    | some x =>
      if !s.live || x.data.isSome || s.heldObj n x.addr then s
      else
        let s := if bad then s.demandBad p x.addr x.tag else s
        let s := if x.dest.isLoad then s.served (s.keysOf n p.core x.addr x.dest.size) (s.classOf n) else s
        let (l, b, u) := s.readMarked n p.core x.addr x.dest.size
        if s.strictCore p.core then
          s.updCtx p (fun c => { c with loads := updAt (fun x => { x with data := some (l, b, u) }) c.loads i })
        else s.deliverLoad p i l b u)

/-- STRICT_OPERAND_DELIVERY (R385): the budget of the nth load has been reached; without its data the
core freezes. -/
def execStrictOperandDelivery (p : At) (i : Nat) (s : State) : Res :=
  .next (match (s.ctx p).loads[i]? with
    | none => s
    | some x =>
      if !s.live || !s.strictCore p.core || (s.core p.core).frozen.isSome then s
      else
        let s := s.toBeat p.core (x.beat + s.budget (s.partNum p.core) p.core x.addr)
        match x.data with
        | some (l, b, u) => s.deliverLoad p i l b u
        | none => (s.updCtx p (fun c => { c with loads := updAt (fun x => { x with due := true }) c.loads i })).updCore p.core
            (fun k => { k with frozen := some (.load p.ctx) }))

/-- The arrival bit that a wait clears when it ends (R319). -/
def Ctx.clearsBit (c : Ctx) : Ctx :=
  match c.wait with
  | some { cond := .release l _, .. } => { c with arrivals := c.arrivals.del l }
  | _ => c

/-- A waiting context whose wait has ended is ready, past the wait (R104, R319). -/
def State.endWait (s : State) (p : At) : State :=
  s.updCtx p (fun c => { c.clearsBit with state := .ready, wait := none, pc := c.pc + 8 })

/-- The wait of a context is given up: its waiter, its wakes and its wait on the way are gone. -/
def State.forgetWait (s : State) (p : At) : State :=
  let s := { s with sync := { s.sync with
    waiters := s.sync.waiters.filter (fun (w : Waiter) => w.p ≠ p)
    wakes := s.sync.wakes.filter (· ≠ p)
    inflight := s.sync.inflight.filter (fun (o : SyncOp) => !(o.src = SyncSrc.ctx p && (match o.act with | SyncDo.wait _ => true | _ => false))) } }
  s.updCore p.core (fun k => { k with frozen := if k.frozen = some (.wait p.ctx) then none else k.frozen })

/-- FREEZE_RESUME (R385, R386): what a frozen core waited for has come. -/
def execFreezeResume (core : Nat) (s : State) : Res :=
  let thaw (s : State) : State := s.updCore core (fun k => { k with frozen := none })
  .next (if !s.live then s else
    match (s.core core).frozen with
    | some (.load c) =>
      let p : At := ⟨core, c⟩
      match (s.ctx p).loads.findIdx? (fun x => x.due && x.data.isSome) with
      | some i => match (s.ctx p).loads[i]? with
        | some { data := some (l, b, u), .. } => (thaw s).deliverLoad p i l b u
        | _ => s
      | none => s
    | some (.wait c) =>
      let p : At := ⟨core, c⟩
      match (s.ctx p).wait with
      | some w => if w.signalled then (thaw s).endWait p else s
      | none => thaw s
    | some (.full c) => if (s.lsuRoom ⟨core, c⟩).full then s else thaw s
    | _ => s)

/-- STRICT_WAIT_WAKE (R386): the wait budget has been reached: the wait ends if its signal has come,
else the core freezes. -/
def execStrictWaitWake (p : At) (s : State) : Res :=
  .next (match (s.ctx p).wait with
    | none => s
    | some w =>
      if !s.live || !s.strictCore p.core || (s.core p.core).frozen.isSome then s
      else if w.signalled then (s.toBeat p.core (w.beat + w.budget)).endWait p
      else (s.toBeat p.core (w.beat + w.budget)).updCore p.core (fun k => { k with frozen := some (.wait p.ctx) }))

end Sys2Proof.Machine
end

