-- ==== Sys2Proof/Machine/Sync.lean ====
section
/-! DEFINITION. The sync class 0xA and the hedgerow lines (chapter "Flags, counters and hedgerow
barriers"): flags, counter pairs, waits and wakes, the context-wait watchdog, lending, phases of
lines of module and job scope. -/

namespace Sys2Proof.Machine

/-! ### Operands (R134, R153, R308) -/

/-- The count n of layout Y: imm32, or the value of sr (R134). -/
def countY (c : Ctx) (f : LayY) : Nat := if f.i = 1 then f.imm.toNat else (c.getS f.sr).toNat
/-- The unused one of imm32 and sr is zero (R132). -/
def countShape (f : LayY) : Bool := if f.i = 1 then f.sr = 0 else f.imm = 0
/-- No count and no sr. -/
def plainY (f : LayY) : Bool := f.sr = 0 && f.i = 0 && f.imm = 0
/-- A counter pair's id has [13:12] zero (R153). -/
def pairShape (f : LayY) : Bool := fld f.id.toNat 13 12 = 0
/-- A line's id has [16:6] zero (R153). -/
def lineShape (f : LayY) : Bool := fld f.id.toNat 16 6 = 0
/-- The die a name lies on. -/
def nameDie (f : LayY) : Nat := fld f.id.toNat 16 14
/-- A flag in the partition's allocation (R308), else an address fault. -/
def State.flagFault (s : State) (n : Nat) (f : LayY) : Option (BitVec 8) := must (s.flagPart f.id.toNat = some n) 0x06
/-- A pair in the partition's allocation. -/
def State.pairFault (s : State) (n : Nat) (f : LayY) : Option (BitVec 8) := must (s.pairPart f.id.toNat = some n) 0x06
/-- A line of the partition (R309). -/
def lineFault (n : Nat) (f : LayY) : Option (BitVec 8) := must (f.id.toNat / 8 = n) 0x06

/-- An operation of a context on its way to a store. -/
def opOf (p : At) (f : LayY) (a : SyncDo) : SyncOp := { src := .ctx p, die := nameDie f, act := a }

/-! ### FSET, FCLR, CPROD, CCONS, CREAD -/

/-- An operation with release semantics issues once the context's earlier writes are visible (R311); until then the
context holds it. -/
def releaseRoom (s : State) (p : At) (op : SyncOp) : Room :=
  { hold := if (s.ctx p).drained then none else some (.release op) }

/-- FSET (R311). -/
def execFset (p : At) (f : LayY) (s : State) : Res :=
  let op := opOf p f (.setFlag f.id.toNat)
  issue s p {} (releaseRoom s p op) (firstFault [must (plainY f && f.w = 0) 0x03, s.flagFault (s.partNum p.core) f]) (fun t => t.sendSync op)

/-- FCLR (R311): orders nothing beyond program order. -/
def execFclr (p : At) (f : LayY) (s : State) : Res :=
  issue s p {} {} (firstFault [must (plainY f && f.w = 0) 0x03, s.flagFault (s.partNum p.core) f])
    (fun t => t.sendSync (opOf p f (.clearFlag f.id.toNat)))

/-- The checks of CPROD and CCONS: n from 0 to 2^32 − 1 (R314). -/
def addFault (s : State) (p : At) (f : LayY) : Option (BitVec 8) :=
  firstFault [must (countShape f && f.w = 0 && pairShape f && countY (s.ctx p) f < 2 ^ 32) 0x03, s.pairFault (s.partNum p.core) f]

/-- CPROD (R314). -/
def execCprod (p : At) (f : LayY) (s : State) : Res :=
  let op := opOf p f (.produce f.id.toNat (countY (s.ctx p) f))
  issue s p { s := [f.sr] } (releaseRoom s p op) (addFault s p f) (fun t => t.sendSync op)

/-- CCONS (R314). -/
def execCcons (p : At) (f : LayY) (s : State) : Res :=
  let op := opOf p f (.consume f.id.toNat (countY (s.ctx p) f))
  issue s p { s := [f.sr] } (releaseRoom s p op) (addFault s p f) (fun t => t.sendSync op)

/-- CREAD (R315): sr waits for the store's reply (R307). -/
def execCread (p : At) (f : LayY) (s : State) : Res :=
  issue s p { s := [f.sr] } {} (firstFault [must (f.i = 0 && f.imm = 0 && pairShape f) 0x03, s.pairFault (s.partNum p.core) f])
    (fun t => t.sendSync (opOf p f (.read f.id.toNat (f.w = 1) f.sr)))

/-! ### Waits -/

/-- Whether an earlier operation of the context is still on its way to a die's store. -/
def State.inFlightTo (s : State) (p : At) (die : Nat) : Bool := s.sync.inflight.any (fun o => o.src = .ctx p && o.die = die)

/-- A context is descheduled on a condition (R103), its wait instruction not completed. -/
def State.deschedule (s : State) (p : At) (pc : Word) (w : WaitCond) : State :=
  (s.updCtx p (fun c => { c with
    state := .waiting
    pc := pc
    wait := some { cond := w, since := s.now, beat := (s.core p.core).cnt.beats, budget := (s.part (s.partNum p.core)).budget } })).descheduled p.core

/-- A wait at a store: met at issue it completes, else the context is descheduled and the wait goes
to the store (R103, R313). -/
def waitOp (s t : State) (p : At) (die : Nat) (w : WaitCond) : State :=
  if s.condMet w && !s.inFlightTo p die then t
  else (t.deschedule p (s.ctx p).pc w).sendSync { src := .ctx p, die := die, act := .wait w }

/-- FWAIT (R312). -/
def execFwait (p : At) (f : LayY) (s : State) : Res :=
  issue s p {} {} (firstFault [must (plainY f && f.w = 0) 0x03, s.flagFault (s.partNum p.core) f])
    (fun t => waitOp s t p (nameDie f) (.flag f.id.toNat true))

/-- FWAITC (R312). -/
def execFwaitc (p : At) (f : LayY) (s : State) : Res :=
  issue s p {} {} (firstFault [must (plainY f && f.w = 0) 0x03, s.flagFault (s.partNum p.core) f])
    (fun t => waitOp s t p (nameDie f) (.flag f.id.toNat false))

/-- The checks of the counter waits. -/
def waitFault (s : State) (p : At) (f : LayY) : Option (BitVec 8) :=
  firstFault [must (countShape f && f.w = 0 && pairShape f) 0x03, s.pairFault (s.partNum p.core) f]

/-- CWAITR (R315). -/
def execCwaitr (p : At) (f : LayY) (s : State) : Res :=
  issue s p { s := [f.sr] } {} (waitFault s p f) (fun t => waitOp s t p (nameDie f) (.below f.id.toNat (countY (s.ctx p) f)))

/-- CWAITA (R315). -/
def execCwaita (p : At) (f : LayY) (s : State) : Res :=
  issue s p { s := [f.sr] } {} (waitFault s p f) (fun t => waitOp s t p (nameDie f) (.atLeast f.id.toNat (countY (s.ctx p) f)))

/-! ### Hedgerow instructions (R318, R319) -/

/-- Whether the phase in which a context's arrival stands is still open (R319): it has not been released, or the arrival is
still on its way to the cluster steward and will be counted in a phase to come. -/
def State.arrivalOpen (s : State) (p : At) (l : Nat) (ph : BitVec 32) : Bool :=
  (s.line l).phase = ph || s.sync.arrivals.any (fun a => a.p = p && a.line = l)

/-- The checks of HARR and HBAR: n from 1 to 8 × the partition's cores; with the arrival bit set the
phase it stands in must have been released. -/
def arriveFault (s : State) (p : At) (f : LayY) : Option (BitVec 8) :=
  let n := countY (s.ctx p) f
  let part := s.partNum p.core
  let l := f.id.toNat
  firstFault [must (countShape f && f.w = 0 && lineShape f && 1 ≤ n && n ≤ 8 * (s.coresOf part).length) 0x03, lineFault part f,
    match (s.ctx p).arrivals.find l with
    | some ph => must (!s.arrivalOpen p l ph) 0x03
    | none => none]

/-- An arrival leaves for the cluster steward; the arrival bit is set (R307, R319). -/
def arrive (s t : State) (p : At) (l n : Nat) : State :=
  let t := t.updCtx p (fun c => { c with arrivals := c.arrivals.set l (s.line l).phase })
  { t with sync := { t.sync with arrivals := t.sync.arrivals ++ [{ p := p, line := l, n := n, pc := (s.ctx p).pc,
                                                                        tag := s.tagOf p 0 OrderClass.sync.code false false }] } }

/-- HARR (R318). -/
def execHarr (p : At) (f : LayY) (s : State) : Res :=
  issue s p { s := [f.sr] } {} (arriveFault s p f) (fun t => arrive s t p f.id.toNat (countY (s.ctx p) f))

/-- Registering for the release of a line's phase (R321). -/
def State.awaitRelease (s : State) (p : At) (pc : Word) (l : Nat) (ph : BitVec 32) : State :=
  let t := s.deschedule p pc (.release l ph.toNat)
  { t with sync := { t.sync with waiters := t.sync.waiters ++ [{ p := p, cond := .release l ph.toNat }] } }

/-- HWAIT (R319). -/
def execHwait (p : At) (f : LayY) (s : State) : Res :=
  let l := f.id.toNat
  issue s p {} {} (firstFault [must (plainY f && f.w = 0 && lineShape f) 0x03, lineFault (s.partNum p.core) f])
    (fun t => match (s.ctx p).arrivals.find l with
      | some ph => if s.arrivalOpen p l ph then t.awaitRelease p (s.ctx p).pc l (s.line l).phase
          else t.updCtx p (fun c => { c with arrivals := c.arrivals.del l })
      | none => t.awaitRelease p (s.ctx p).pc l (s.line l).phase)

/-- HBAR (R319): HARR then HWAIT. -/
def execHbar (p : At) (f : LayY) (s : State) : Res :=
  let l := f.id.toNat
  issue s p { s := [f.sr] } {} (arriveFault s p f)
    (fun t => (arrive s t p l (countY (s.ctx p) f)).awaitRelease p (s.ctx p).pc l (s.line l).phase)

/-! ### Wakes, watchdog, lending -/

/-- The first element that satisfies a test is taken out of a list. -/
def dropFirst {α : Type} (f : α → Bool) : List α → List α
  | [] => []
  | a :: t => if f a then t else a :: dropFirst f t

/-- WAKE (R104, R386): a wake reaches its core. -/
def execWake (p : At) (s : State) : Res :=
  .next (if !s.live || p ∉ s.sync.wakes then s else
    let s := ({ s with sync := { s.sync with wakes := dropFirst (· = p) s.sync.wakes } } : State).active ⟨.core, p.core⟩
    match (s.ctx p).state, (s.ctx p).wait with
    | .waiting, some w =>
      if s.strictCore p.core then s.updCtx p (fun c => { c with wait := some { w with signalled := true } })
      else s.endWait p
    | _, _ => s)

/-- The partition's context-wait bound in ns (R316). -/
def State.waitBoundNs (s : State) (p : At) : Nat := 1000000 * (s.part (s.partNum p.core)).ctxWaitMs

/-- A context whose wait has outlasted the bound faults with cause 0x01 (R316, R387). -/
def State.watchdog (s : State) (p : At) : State :=
  match (s.ctx p).state, (s.ctx p).wait with
  | .waiting, some w =>
    if w.since + s.waitBoundNs p < s.now then
      let s := { s with sync := { s.sync with waiters := s.sync.waiters.filter (fun x => x.p ≠ p)
                                              wakes := s.sync.wakes.filter (· ≠ p) } }
      let s := (s.updCtx p (fun c => { c with watchdog := true })).faultCtx p 0x01
      s.updCore p.core (fun k => { k with frozen := if k.frozen = some (.wait p.ctx) then none else k.frozen })
    else s
  | _, _ => s

/-- CONTEXT_WAIT_WATCHDOG (R316). -/
def execContextWaitWatchdog (p : At) (s : State) : Res := .next (if s.live then s.watchdog p else s)

/-- Whether a unit is quiescent (R317). -/
def State.idleUnit (s : State) (u : UnitRef) : Bool :=
  match u.kind with
  | .core => s.quiescent u.index
  | .rowEngine => s.row.jobs.all (fun j => coreCluster j.p.core ≠ u.index)
  | .swath => (s.cluster u.index).sw = .idle
  | .exchange => s.link.colls.all (fun c => coreDie c.p.core ≠ u.index)
  | _ => false

/-- POWER_LENDING (R317): a unit quiescent for more than 20 µs lends its share. -/
def execPowerLending (u : UnitRef) (s : State) : Res :=
  let since := ((s.power.activeAt.find? (fun x => x.1 = u)).map (·.2)).getD 0
  .next (if s.live && s.idleUnit u && since + 20000 < s.now then { s with power := { s.power with lent := addOnce s.power.lent u } } else s)

/-! ### Flits on peer links (R337 to R343) -/

/-- The module identity (R537): the first 8 bytes of SHA-384 over the DeviceID public key. -/
def moduleId : Word := BitVec.ofNat 64 (leAt (sha384 Config.devicePublicKey) 0 8)

/-- A link counter (R372). -/
def State.linkCount (s : State) (k i : Nat) : State := s.updLnk k (fun l => { l with cnt := updAt (fun x => sat64 (x + 1)) l.cnt i })

/-- A flit with its link fields: the next sequence number, the last one received in order (R338, R340). -/
def Link.stamp (l : Link) (f : Flit) : Flit := { f with seq := l.txSeq, ack := l.rxSeq - 1 }

/-- Whether a flit may be sent now: the link is up, the replay buffer has room, a data flit has a credit of its
class (R340, R342). -/
def Link.maySend (l : Link) (f : Flit) : Bool :=
  l.st = .up && l.replay.length < 2048 && (f.type ≠ 1 || 0 < l.credits.getD f.cls.toNat 0)

/-- A flit leaves on a link and stays in the replay buffer until it is acknowledged (R340). -/
def State.transmit (s : State) (k : Nat) (f : Flit) : State :=
  let g := (s.lnk k).stamp f
  ((s.updLnk k (fun l => { l with
    txSeq := l.txSeq + 1
    replay := l.replay ++ [g]
    credits := if f.type = 1 then updAt (· - 1) l.credits f.cls.toNat else l.credits })).linkCount k 0).send (.flit k g)

/-- The first flit of a list that may be sent, if any. -/
def Link.firstReady (l : Link) : List Flit → Option Nat
  | [] => none
  | f :: t => if l.maySend f then some 0 else (l.firstReady t).map (· + 1)

/-- Queued flits leave while they may; those of a class without a credit let the others pass (R342). -/
def State.pump (s : State) (k : Nat) : Nat → State
  | 0 => s
  | n + 1 =>
    let l := s.lnk k
    match l.firstReady (l.queued.map (·.2)) with
    | some i => match l.queued[i]? with
      | some (_, f) => State.pump ((s.updLnk k (fun l => { l with queued := dropAt l.queued i })).transmit k f) k n
      | none => s
    | none => s

/-- A flit of a partition's job, or of the link itself (8), is given to a link: it waits behind those that cannot leave yet,
on a link that is down until the link comes up or a membership gives it another route (R343). -/
def State.sendOn (s : State) (k job : Nat) (f : Flit) : State :=
  let s := s.updLnk k (fun l => { l with queued := l.queued ++ [(job, f)] })
  s.pump k (s.lnk k).queued.length

/-- A flit of the link itself. -/
def State.sendFlit (s : State) (k : Nat) (f : Flit) : State := s.sendOn k 8 f

/-- A flit without payload. -/
def bareFlit (type : BitVec 4) : Flit :=
  { epoch := 0, dst := 0, src := 0, srcId := moduleId, step := 0, seq := 0, ack := 0, type := type, part := 0, fmt := 0, blight := false,
    subst := false, cls := 5, coll := 0, status := 0, credits := [], first := 0, vals := [], size := 8 }

/-- The partition number on the module that a link leads to (R338, R352): the destination member's where it lies there,
else that of a member of the job there. -/
def MemImage.partAt (m : MemImage) (peer : Word) (dst dflt : Nat) : Nat :=
  match m.members[dst]? with
  | some x => if x.1 = peer then x.2 else ((m.members.find? (fun x => x.1 = peer)).map (·.2)).getD dflt
  | none => ((m.members.find? (fun x => x.1 = peer)).map (·.2)).getD dflt

/-! ### Membership epochs of arriving traffic (R354, R356) -/

/-- The comparison of R354: 0 current, 1 newer, 2 stale. -/
def epochCmp (flit own : BitVec 32) : Nat := if flit = own then 0 else if (flit - own).toNat < 2 ^ 31 then 1 else 2

/-- An exchange counter of a partition (R376). -/
def State.xuCount (s : State) (n i k : Nat) : State := s.updMember n (fun m => { m with cnt := updAt (fun x => sat64 (x + k)) m.cnt i })

/-- A stale flit is counted; where its source is no longer the member it says it is, a fenced reply
goes to the neighbour that delivered it, at most once every 10 µs a member (R356). -/
def State.stale (s : State) (n src : Nat) (srcId : Option Word) (link : Nat) : State :=
  let m := s.member n
  let s := s.xuCount n 2 1
  let belongs := match m.image.members[src]? with
    | some x => (match srcId with | some w => x.1 = w | none => true)
    | none => false
  let recent := match m.fencedAt.find src with | some t => s.now < t + 10000 | none => false
  if belongs || recent || 24 ≤ link then s
  else
    let s := s.updMember n (fun m => { m with fencedAt := m.fencedAt.set src s.now })
    (s.linkCount link 5).sendOn link n { bareFlit 3 with epoch := m.image.epoch, dst := src, src := m.image.own,
                                                         part := m.image.partAt (s.lnk link).peer src n, first := src }

/-- The live collective that a flit belongs to: number, step, source in the group (R338). -/
def State.collOf (s : State) (n : Nat) (f : Flit) : Option Coll :=
  s.link.colls.find? (fun c => c.part = n && c.step = f.step && c.no % 1024 = f.coll.toNat
    && f.src ∈ ((s.member n).image.groups.getD c.cmd.group []))

/-- Whether the collective of a data flit has already ended here. -/
def State.collGone (s : State) (n : Nat) (f : Flit) : Bool :=
  s.link.collNums.any (fun x => x.1 = n && x.2.2.1 = f.step && f.coll.toNat < x.2.2.2 && f.src ∈ ((s.member n).image.groups.getD x.2.1 []))

/-- The tag word that an inbound message gets: its partition's applied mode epoch, transaction id 0 (R338). -/
def State.inboundTag (s : State) (n : Nat) (f : Flit) : Word :=
  BitVec.ofNat 64 (n * 2 ^ 61 + (s.part n).epoch.toNat * 2 ^ 49 + f.step.toNat * 2 ^ 33 + f.fmt.toNat * 2 ^ 11
    + b2n f.blight * 2 ^ 10 + b2n f.subst * 2 ^ 9 + f.cls.toNat * 2 ^ 6)

/-- A data flit of the partition's own epoch goes to its collective, waits for a context to submit it, or is of one
that has ended (R361, R364). -/
def State.takeData (s : State) (n : Nat) (f : Flit) : State :=
  let x : InFlit := { came := s.now, tag := s.inboundTag n f, flit := f }
  match s.collOf n f with
  | some c => { s with link := { s.link with colls := s.link.colls.map (fun (y : Coll) => if y.num = c.num then { y with inbox := y.inbox ++ [x] } else y) } }
  | none => if s.collGone n f || (s.member n).quarantined then s else { s with link := { s.link with early := s.link.early ++ [x] } }

/-- A data flit is compared with the partition's membership epoch (R354). -/
def State.dataFlit (s : State) (k n : Nat) (f : Flit) : State :=
  let m := s.member n
  match epochCmp f.epoch m.image.epoch with
  | 0 => s.takeData n f
  | 1 => s.updMember n (fun m => { m with held := m.held ++ [(f, k, s.now)] })
  | _ => s.stale n f.src (some f.srcId) k

/-- The partition of this module that is another member of a job, by its member index (R352, R353). -/
def MemImage.sibling (m : MemImage) (n i : Nat) : Option Nat :=
  match m.members[i]? with
  | some x => if x.1 = moduleId && x.2 ≠ n then some x.2 else none
  | none => none

/-- A job's flit goes toward its destination member, its partition field rewritten for the next module (R338, R353); data for
another partition of this module reaches it at once. -/
def State.routeFlit (s : State) (n : Nat) (f : Flit) : State :=
  let m := (s.member n).image
  let k := m.routes.getD f.dst 0xFF
  if k < 24 then s.sendOn k n { f with part := m.partAt (s.lnk k).peer f.dst f.part }
  else match m.sibling n f.dst with
    | some p => if f.type = 1 then s.dataFlit 24 p { f with part := p } else s
    | none => s

/-! ### Lines: arrivals and releases (R318 to R323) -/

/-- A line releases its phase: its waiters are woken, reports of the phase are done with (R321). -/
def State.releaseLine (s : State) (l : Nat) (late : Bool) : State :=
  let x := s.line l
  let s := { s with sync := { s.sync with waiters := s.sync.waiters.map (fun (w : Waiter) =>
      if w.cond = WaitCond.release l x.phase.toNat && s.sync.arrivals.any (fun a => a.p = w.p && a.line = l)
      then { w with cond := .release l (x.phase + 1).toNat } else w) } }
  (s.updLine l (fun x => { x with
    phase := x.phase + 1
    opened := false
    lateLast := if x.curJobWide then late else x.lateLast
    expected := 0
    arrived := 0
    reports := x.reports.filter (fun r => r.2.1 ≠ x.phase)
    ownT := none
    releaseAt := none })).wakeSatisfied

/-- When every member has reported the phase, T is the largest t plus the lead time; a T already past
releases at once and late (R322). -/
def State.settleLine (s : State) (l : Nat) : State :=
  let x := s.line l
  let m := (s.member (l / 8)).image
  match x.ownT with
  | none => s
  | some own =>
    let rs := x.reports.filter (fun r => r.2.1 = x.phase)
    let others := (List.range m.members.length).filter (· ≠ m.own)
    if (s.member (l / 8)).quarantined || !others.all (fun i => rs.any (fun r => r.1 = i)) then s
    else
      let T := (rs.map (fun r => r.2.2)).foldl max own + x.curLead
      if T < s.now then
        (s.releaseLine l true).post { cls := 0x06, cause := 0x06, unit := unitCode .hub, loc := BitVec.ofNat 32 l } [l / 8]
      else s.updLine l (fun x => { x with releaseAt := some T })

/-- A member's report of a job-wide phase; its epoch is judged by R354. -/
def State.lineReport (s : State) (line member : Nat) (epoch phase : BitVec 32) (t : Nat) : State :=
  let n := line / 8
  let m := s.member n
  match epochCmp epoch m.image.epoch with
  | 0 => (s.updLine line (fun x => { x with reports := (x.reports.filter (fun r => !(r.1 = member && r.2.1 = phase))) ++ [(member, phase, t)] })).settleLine line
  | 1 => s.updMember n (fun m => { m with heldReports := m.heldReports ++ [(line, member, epoch, phase, t, s.now)] })
  | _ => s.stale n member none (m.image.routes.getD member 0xFF)

/-- The report of this module's completed phase of line `l` to member `i` of its membership: as a type 7 flit, or straight to the line of
    another partition on this module (R319, R338). -/
def State.tellLine (s : State) (l i : Nat) (phase : BitVec 32) : State :=
  let m := s.member (l / 8)
  match m.image.sibling (l / 8) i with
  | some p => s.lineReport (p * 8 + l % 8) m.image.own m.image.epoch phase s.now
  | none => s.routeFlit (l / 8) { bareFlit 7 with epoch := m.image.epoch, dst := i, src := m.image.own, part := l / 8, first := l, vals := [phase.toNat, s.now] }

/-- This module's arrivals are complete: a line of module scope releases; one of job scope reports to
every member (R321, R322), a member on this module being told at once. -/
def State.lineFull (s : State) (l : Nat) : State :=
  let x := s.line l
  if !x.curJobWide then s.releaseLine l false
  else
    let m := s.member (l / 8)
    let s := s.updLine l (fun x => { x with ownT := some s.now })
    let s := if m.quarantined then s else ((List.range m.image.members.length).filter (· ≠ m.image.own)).foldl (fun s i => s.tellLine l i x.phase) s
    s.settleLine l

/-- HEDGEROW_ARRIVAL (R318, R321): the nth arrival on its way reaches its cluster steward, after those that its core sent
before (R26). -/
def execHedgerowArrival (i : Nat) (s : State) : Res :=
  .next (match s.sync.arrivals[i]? with
    | none => s
    | some a =>
      if !s.live || (s.sync.arrivals.take i).any (fun b => b.p.core = a.p.core) then s else
      let s := { s with sync := { s.sync with arrivals := dropAt s.sync.arrivals i } }
      let x := s.line a.line
      if x.opened && x.expected ≠ a.n then
        let s := (s.updCtx a.p (fun c => { c with arrivals := c.arrivals.del a.line, pc := a.pc })).forgetWait a.p
        (s.post { cls := 0x05, cause := 0x03, unit := unitCode .dieSteward, loc := BitVec.ofNat 32 a.line } [a.line / 8]).faultCtx a.p 0x03
      else
        let s := s.updLine a.line (fun x => { x with
          opened := true
          expected := a.n
          arrived := x.arrived + 1
          curJobWide := if x.opened then x.curJobWide else x.jobWide
          curLead := if x.opened then x.curLead else x.leadNs })
        let s := s.updCtx a.p (fun c => if (c.arrivals.find a.line).isSome then { c with arrivals := c.arrivals.set a.line x.phase } else c)
        if (s.line a.line).arrived = a.n then s.lineFull a.line else s)

/-- LINE_REPORT_RECEIVE (R322): a member's report of a job-wide phase arrives. -/
def execLineReportReceive (line member : Nat) (epoch phase : BitVec 32) (t : Nat) (s : State) : Res :=
  .next (if s.live then s.lineReport line member epoch phase t else s)

/-- JOB_WIDE_RELEASE (R322): the timekeeper reads T. -/
def execJobWideRelease (line : Nat) (s : State) : Res :=
  .next (match (s.line line).releaseAt with
    | some T => if s.live && T ≤ s.now && !(s.member (line / 8)).quarantined then s.releaseLine line false else s
    | none => s)

end Sys2Proof.Machine
end

