-- ==== Sys2Proof/Machine/Link.lean ====
section
/-! DEFINITION. Peer links (R333 to R347): retry, keepalives, link states, lanes, time flits; the topology search
(R348 to R351); fencing and quarantine (R354 to R358). -/

namespace Sys2Proof.Machine

/-- The number of links that a licence variant enables (R334, R540). -/
def linksOf (v : BitVec 8) : Nat := if v = 1 then 8 else if v = 2 then 16 else if v = 3 then 24 else 0

/-! ### Suspects (R355) -/

/-- A suspect event: reason 0 link down, 1 resetting, 2 ring step (R470). -/
def State.suspect (s : State) (n member reason link : Nat) : State :=
  s.post { cls := 0x06, cause := 0x03, unit := if reason = 2 then unitCode .exchange else unitCode .link, loc := BitVec.ofNat 32 member,
           detail := BitVec.ofNat 64 (link * 256 + reason) } [n]

/-- The members of every job that a test picks become suspect. -/
def State.suspects (s : State) (reason link : Nat) (f : MemImage → Nat → Bool) : State :=
  (List.range 8).foldl (fun s n =>
    let m := s.member n
    if !m.installed then s
    else ((List.range m.image.members.length).filter (fun i => i ≠ m.image.own && f m.image i)).foldl (fun s i => s.suspect n i reason link) s) s

/-! ### Topology search (R348 to R351) -/

/-- The links of this module as a report gives them. -/
def State.ownReport (s : State) : Word × List (Word × Nat × Nat) :=
  (moduleId, (List.range 24).map (fun k => let l := s.lnk k; if l.st = .up then (l.peer, l.peerLink, l.width) else (0, 0, 0)))

/-- The links that are up. -/
def State.upLinks (s : State) : List Nat := (List.range 24).filter (fun k => (s.lnk k).st = .up)

/-- A search message leaves on a link, in a flit of type 0x6 (R339). -/
def State.searchOn (s : State) (k : Nat) (m : SearchMsg) : State := (s.send (.search k m)).sendFlit k (bareFlit 6)
/-- Searching messages leave on some links. -/
def State.sendSearch (s : State) (ks : List Nat) (m : SearchMsg) : State := ks.foldl (fun s k => s.searchOn k m) s

/-- A link's word in a published entry (R351). -/
def searchWord (ids : List Word) (x : Word × Nat × Nat) : Nat :=
  if x.2.2 = 0 then 0 else (ids.findIdx (· = x.1)) % 2 ^ 18 + x.2.1 * 2 ^ 18 + x.2.2 * 2 ^ 23

/-- Modules in ascending identity, each once. -/
def sortModules (l : List (Word × List (Word × Nat × Nat))) : List (Word × List (Word × Nat × Nat)) :=
  l.foldl (fun acc x => if acc.any (fun y => y.1 = x.1) then acc else acc.takeWhile (fun y => y.1 < x.1) ++ [x] ++ acc.dropWhile (fun y => y.1 < x.1)) []

/-- A published result (R351). -/
def searchBytes (gen : Nat) (l : List (Word × List (Word × Nat × Nat))) : List Byte :=
  let ms := sortModules l
  let ids := ms.map (·.1)
  leBytes 4 gen ++ [0x00] ++ leBytes 3 0 ++ leBytes 4 ms.length ++ leBytes 52 0
    ++ (ms.map (fun m => leBytes 8 m.1.toNat ++ ((List.range 24).map (fun i => leBytes 4 (searchWord ids (m.2.getD i (0, 0, 0))))).flatten ++ leBytes 24 0)).flatten

/-- Starts a generation of this module's own search. -/
def State.beginSearch (s : State) (gen restarts : Nat) : State :=
  let ups := s.upLinks
  let s := { s with link := { s.link with search := { s.link.search with
    highest := gen, serving := true, own := true, initiator := moduleId, parent := 0x1F, children := ups, restarts := restarts,
    reports := [s.ownReport] } } }
  s.sendSearch ups (.search gen moduleId)

/-- An own search ends: its result is published or not, its command completes. -/
def State.endSearch (s : State) (status detail : BitVec 16) (publish : Bool) : State :=
  let x := s.link.search
  let s := if publish then
      let cap := ((s.part x.part).objects.get {} x.object).size
      s.writeDev x.part 0 (BitVec.ofNat 64 (3 * 2 ^ 60 + x.object * 2 ^ 40)) ((searchBytes x.highest x.reports).take cap) false
    else s
  let s := match x.cmd with | some c => s.complete c status detail (BitVec.ofNat 64 x.highest) | none => s
  { s with link := { s.link with search := { s.link.search with serving := false, own := false, cmd := none, children := [], reports := [] } } }

/-- Nothing is awaited any more: the initiator publishes, another module reports to its parent (R349, R350). -/
def State.searchReady (s : State) : State :=
  let x := s.link.search
  if !x.serving || x.children ≠ [] || (!x.own && x.reports = []) then s
  else if x.own then s.endSearch 0 0 true
  else ({ s with link := { s.link with search := { x with reports := [], serving := true } } } : State).searchOn x.parent (.report x.highest x.reports)

/-- A search that must start over: generation g + 1, at most 16 times in a row (R350). -/
def State.restartSearch (s : State) : State :=
  let x := s.link.search
  if 16 ≤ x.restarts + 1 then s.endSearch 0x05 0x0002 false else (s.beginSearch (x.highest + 1) (x.restarts + 1)).searchReady

/-- A link came up or went down while a generation is served (R350). -/
def State.searchDisturbed (s : State) : State :=
  let x := s.link.search
  if !x.serving then s
  else if x.own then s.restartSearch
  else s.searchOn x.parent (.restart x.highest)

/-- SEARCH_FLIT_RECEIVE (R349, R350). -/
def execSearchFlitReceive (link : Nat) (m : SearchMsg) (s : State) : Res :=
  let x := s.link.search
  .next (if !s.live || (s.lnk link).st ≠ .up then s else
    match m with
    | .search g init =>
      if x.highest < g || (x.serving && g = x.highest && init < x.initiator) then
        let s := if x.own then s.endSearch 0x05 ((Config.freeWord s.free).setWidth 16) false else s
        let kids := s.upLinks.filter (· ≠ link)
        let s := { s.fresh with link := { s.link with search := { s.link.search with
          highest := g, serving := true, own := false, initiator := init, parent := link, children := kids, restarts := 0, reports := [s.ownReport] } } }
        (s.sendSearch kids (.search g init)).searchReady
      else if x.serving && g = x.highest && init = x.initiator then
        ({ s with link := { s.link with search := { x with children := x.children.filter (· ≠ link) } } } : State).searchReady
      else s
    | .report g l =>
      if x.serving && g = x.highest && link ∈ x.children then
        ({ s with link := { s.link with search := { x with children := x.children.filter (· ≠ link), reports := x.reports ++ l } } } : State).searchReady
      else s
    | .restart g =>
      if x.serving && g = x.highest then (if x.own then s.restartSearch else s.searchOn x.parent (.restart g)) else s)

/-! ### The time parent (R346) -/

/-- The links whose neighbour has advertised, with what it said. -/
def State.adverts (s : State) : List (Nat × Word × Nat × Word) :=
  (List.range 24).filterMap (fun k => if (s.lnk k).st = .up then (s.lnk k).advRoot.map (fun a => (k, a.1, a.2.1, a.2.2)) else none)

/-- Whether one advertisement is preferred to another: lowest root, smallest distance, lowest neighbour (R346). -/
def betterParent (a b : Nat × Word × Nat × Word) : Bool :=
  a.2.1 < b.2.1 || (a.2.1 = b.2.1 && (a.2.2.1 < b.2.2.1 || (a.2.2.1 = b.2.2.1 && a.2.2.2 < b.2.2.2)))

/-- The parent, if this module is not the root (R346). -/
def State.timeParent (s : State) : Option (Nat × Word × Nat × Word) :=
  let best := s.adverts.foldl (fun (o : Option (Nat × Word × Nat × Word)) a => match o with | none => some a | some b => if betterParent a b then some a else some b) none
  best.filter (fun a => a.2.1 < moduleId)

/-- The parent is chosen anew: the best advertisement that is left, else this module is the root (R346). -/
def State.chooseParent (s : State) : State :=
  let x := s.link.time
  let y : TimeSync := match s.timeParent with
    | some (k, r, d, _) => { x with parentLink := k, depth := d + 1, root := r }
    | none => { x with parentLink := 0x1F, depth := 0, root := moduleId, offsetPs := 0 }
  { s with link := { s.link with time := y } }

/-! ### Link states (R335, R336, R343) -/

/-- The lane map of a link as a record's detail. -/
def Link.laneMap (l : Link) : Word := l.lanes.setWidth 64

/-- A link goes down (R343): record 0x08.0x02, its members become suspect; its neighbour advertises no root any more. -/
def State.goDown (s : State) (k : Nat) : State :=
  let s := (s.updLnk k (fun l => { l with st := .down, downAt := s.now, width := 0, discarding := false, advRoot := none })).linkCount k 7
  let s := if s.link.time.parentLink = k then s.chooseParent else s
  let s := s.post { cls := 0x08, cause := 0x02, unit := unitCode .link, loc := BitVec.ofNat 32 k, detail := (s.lnk k).laneMap } []
  (s.suspects 0 k (fun m i => m.routes.getD i 0xFF = k)).searchDisturbed

/-- The active lanes of a mask. -/
def lanesIn (l : BitVec 5) : Nat := ((List.range 5).filter (fun i => l.getLsbD i)).length

/-- Replays every flit from a sequence number on (R341); a flit replayed more than 8 times within 100 µs takes the
link down. -/
def State.replayFrom (s : State) (k : Nat) (seq : BitVec 12) : State :=
  let fs := (s.lnk k).replay.dropWhile (fun f => f.seq ≠ seq)
  let times := ((s.lnk k).retryTimes.filter (fun x => s.now < x.2 + 100000)) ++ fs.map (fun f => (f.seq, s.now))
  let s := s.updLnk k (fun l => { l with retryTimes := times })
  if fs.any (fun f => 8 < (times.filter (fun x => x.1 = f.seq)).length) then s.goDown k
  else fs.foldl (fun s f => (s.linkCount k 0).send (.flit k { f with ack := (s.lnk k).rxSeq - 1 })) s

/-- LANE_FAILURE (R335, R336). -/
def execLaneFailure (link lane : Nat) (s : State) : Res :=
  let l := s.lnk link
  .next (if !s.live || l.st ≠ .up || 5 ≤ lane || lane ∈ l.failed then s else
    let failed := l.failed ++ [lane]
    let spare := (List.range 5).find? (fun i => !l.lanes.getLsbD i && i ∉ failed)
    let bit (i : Nat) : BitVec 5 := BitVec.ofNat 5 (2 ^ i)
    let active := l.lanes.getLsbD lane
    let lanes := if !active then l.lanes else (l.lanes &&& ~~~ bit lane) ||| (match spare with | some i => bit i | none => 0)
    let s := (s.updLnk link (fun l => { l with failed := failed, lanes := lanes, width := lanesIn lanes })).linkCount link 6
    let s := s.post { cls := 0x08, cause := 0x01, unit := unitCode .link, loc := BitVec.ofNat 32 link, detail := (s.lnk link).laneMap } []
    if 3 ≤ failed.length then s.goDown link
    else if active then (match (s.lnk link).replay with | f :: _ => s.replayFrom link f.seq | [] => s)
    else s)

/-- LINK_DOWN_TIMEOUT (R343): no flit has passed its CRC for 8 µs. -/
def execLinkDownTimeout (link : Nat) (s : State) : Res :=
  .next (if s.live && (s.lnk link).st = .up && (s.lnk link).lastGood + 8000 ≤ s.now then s.goDown link else s)

/-- The active lanes of a link: the lowest four that have trained; a fifth is the spare (R333, R335). -/
def activeLanes (t : BitVec 5) : BitVec 5 := BitVec.ofNat 5 ((((List.range 5).filter (fun i => t.getLsbD i)).take 4).map (2 ^ ·)).sum

/-- A link comes up on the lanes that have trained; the others are lost (R336, R343). -/
def State.linkUp (s : State) (k : Nat) (trained : BitVec 5) (peer : Word) (peerLink : Nat) : State :=
  s.updLnk k (fun l => { l with
    st := .up, lanes := activeLanes trained, width := lanesIn (activeLanes trained), failed := (List.range 5).filter (fun i => !trained.getLsbD i),
    advRoot := none, peer := peer, peerLink := peerLink, peerResetting := false,
    discarding := false, retryTimes := [], credits := [], freed := (List.range 8).map (fun i => Config.linkCredits k i), lastGood := s.now, lastKeep := s.now })

/-- LINK_RETRAIN (R343): every 10 ms a down link tries to retrain. -/
def execLinkRetrain (link : Nat) (r : TrainResult) (s : State) : Res :=
  let l := s.lnk link
  .next (if !s.live || !(l.st = .training || (l.st = .down && l.downAt + 10000000 ≤ s.now)) then s
    else if r.ok && 3 ≤ lanesIn r.lanes then
      let s := s.linkUp link r.lanes r.peer r.peerLink
      let s := s.post { cls := 0x08, cause := 0x03, unit := unitCode .link, loc := BitVec.ofNat 32 link, detail := (s.lnk link).laneMap } []
      let s := match (s.lnk link).replay with | f :: _ => s.replayFrom link f.seq | [] => s
      (s.pump link (s.lnk link).queued.length).searchDisturbed
    else s.updLnk link (fun l => { l with st := .down, downAt := s.now }))

/-- KEEPALIVE_TIMER (R343): a keepalive with this end's status, identity, link number, lane map and returned credits
(R339); status 1 is sent by a compute reset, which is one command here. -/
def execKeepaliveTimer (link : Nat) (s : State) : Res :=
  .next (if !s.live || (s.lnk link).st ≠ .up then s else
    let l := s.lnk link
    (s.updLnk link (fun l => { l with lastKeep := s.now, freed := [] })).sendFlit link
      { bareFlit 0 with credits := l.freed, first := link, vals := [l.lanes.toNat] })

/-- RETRY_REQUEST_RECEIVE (R341). -/
def execRetryRequestReceive (link : Nat) (seq : BitVec 12) (s : State) : Res :=
  .next (if s.live && (s.lnk link).st = .up then s.replayFrom link seq else s)

/-! ### Receiving flits (R339 to R344, R354) -/

/-- What an accepted flit brings beyond its link fields; those of the types 0x2 to 0x7 that the row of their own
handles are only forwarded here. -/
def State.flitBody (s : State) (k : Nat) (f : Flit) : State :=
  let n := f.part
  let m := s.member n
  let job := f.type = 1 || f.type = 3 || f.type = 4 || f.type = 7
  if f.type = 0 then
    let newly := f.status = 1 && !(s.lnk k).peerResetting
    let s := s.updLnk k (fun l => { l with
      peerResetting := f.status = 1
      peer := f.srcId
      peerLink := f.first
      credits := (List.range 8).map (fun i => l.credits.getD i 0 + f.credits.getD i 0) })
    let s := if newly then s.suspects 1 k (fun m i => (m.members.getD i (0, 0)).1 = f.srcId) else s
    s.pump k (s.lnk k).queued.length
  else if 8 ≤ f.type.toNat then s.linkCount k 4
  else if job && m.installed && f.dst ≠ m.image.own then (if f.dst < m.image.members.length then s.routeFlit n f else s)
  else if f.type = 1 then
    if !(s.part n).cfg.enable then s.discard ⟨.exchange, 0⟩ 0x01 (BitVec.ofNat 64 (n * 2 ^ 61 + f.step.toNat * 2 ^ 33 + f.cls.toNat * 2 ^ 6)) 0 []
    else s.dataFlit k n f
  else s

/-- FLIT_RECEIVE (R337, R340, R341): a flit and the CRC that came with it. A CRC error asks again even while flits are being
discarded: the flit that failed may be the one awaited. -/
def execFlitReceive (link : Nat) (f : Flit) (crc : BitVec 64) (s : State) : Res :=
  let l := s.lnk link
  let ask (again : Bool) (s : State) : State :=
    if l.discarding && !again then s
    else ((s.updLnk link (fun l => { l with discarding := true })).linkCount link 3).sendFlit link { bareFlit 2 with first := l.rxSeq.toNat }
  .next (if !s.live || l.st ≠ .up then s
    else if Flit.crc f ≠ crc then ask true (s.linkCount link 2)
    else
      let s := s.updLnk link (fun l => { l with lastGood := s.now })
      if f.seq ≠ l.rxSeq then ask false s
      else
        let s := (s.updLnk link (fun l => { l with
          rxSeq := l.rxSeq + 1
          discarding := false
          replay := l.replay.filter (fun x => 2048 ≤ (f.ack - x.seq).toNat)
          freed := if f.type = 1 then updAt (· + 1) ((List.range 8).map (fun i => l.freed.getD i 0)) f.cls.toNat else l.freed })).linkCount link 1
        let s := s.pump link (s.lnk link).queued.length
        s.flitBody link f)

/-! ### Time (R345 to R347, R373) -/

/-- TIME_FLIT_EXCHANGE (R345 to R347): a time flit with this module's root and distance, the stamps of the neighbour's last one
and its own departure leaves; the offset to the neighbour
in ps, the parent, the sync state. The steering rate is a free value within ±100 ppm toward the parent. -/
def execTimeFlitExchange (link : Nat) (t : TimeExchange) (s : State) : Res :=
  .next (if !s.live || (s.lnk link).st ≠ .up then s else
    let s := s.updLnk link (fun l => { l with advRoot := some (t.root, t.depth, t.neighbour) })
    let x := s.link.time
    let ps : Int := ((t.t2 - t.t1) + (t.t3 - t.t4)) * 50
    let (parent, depth, root, off) : Nat × Nat × Word × Int := match s.timeParent with
      | some (k, r, d, _) => (k, d + 1, r, if k = link then ps else x.offsetPs)
      | none => (0x1F, 0, moduleId, 0)
    let jump := !x.locked && !x.stepped && 1000 ≤ off
    let s := if jump then { s with now := s.now + (off / 1000).toNat } else s
    let off := if jump then off % 1000 else off
    let good := decide (-2000 ≤ off ∧ off ≤ 2000)
    let since := if good then some (x.goodSince.getD s.now) else none
    let sync := match since with | some g => x.inSync || decide (g + 1000000 ≤ s.now) | none => false
    let rate : Int := if off = 0 then 0 else (if off < 0 then -1 else 1) * ((Config.freeNat s.free % 101 : Nat) : Int)
    let s := { s.fresh with link := { s.link with time :=
      { inSync := sync, parentLink := parent, depth := depth, offsetPs := off, root := root, goodSince := since, locked := x.locked || sync,
        stepped := x.stepped || jump, ratePpm := rate } } }
    let s := s.sendFlit link { bareFlit 5 with vals := [root.toNat, depth, unsignedOf 64 t.t3, unsignedOf 64 t.t4, s.now * 10 % 2 ^ 64] }
    if x.inSync && !sync then
      s.post { cls := 0x06, cause := 0x07, unit := unitCode .hub, detail := BitVec.ofNat 64 (unsignedOf 64 off) } []
    else s)

/-! ### Epoch holds (R354) -/

/-- NEWER_EPOCH_HOLD_EXPIRY (R354): what was held for 10 ms is discarded and counted. -/
def execNewerEpochHoldExpiry (part : Nat) (s : State) : Res :=
  let old (t : Nat) : Bool := t + 10000000 ≤ s.now
  let m := s.member part
  .next (if !s.live then s else
    (s.updMember part (fun m => { m with held := m.held.filter (fun x => !old x.2.2), heldReports := m.heldReports.filter (fun x => !old x.2.2.2.2.2) })).xuCount
      part 3 ((m.held.filter (fun x => old x.2.2)).length + (m.heldReports.filter (fun x => old x.2.2.2.2.2)).length))

end Sys2Proof.Machine
end

