-- ==== Sys2Proof/Machine/Rows.lean ====
section
/-! DEFINITION. Tables and row records (R168 to R172, R180, R197): finding a table and a row, reading
and writing records, their exact values. -/

namespace Sys2Proof.Machine

/-- The layout of a record: format and slot counts (R170); a T2 shadow record has none (R197). -/
structure RecLay where
  fmt : Nat
  esc : Nat
  prom : Nat
  deriving DecidableEq, Repr

/-- The layout of a table's records. -/
def Table.lay (t : Table) : RecLay := ⟨t.fmt, t.escSlots, t.promSlots⟩
/-- The layout of a table's shadow records. -/
def shadowLay : RecLay := ⟨3, 0, 0⟩
/-- The layout of an object's records. -/
def Obj.lay (o : Obj) (t : Table) : RecLay := if o.kind = 3 then shadowLay else t.lay
/-- The offset of the escape slots. -/
def Table.escOff (t : Table) (l : RecLay) : Nat := 8 * ceilDiv (t.blocks * 4 * eltBits l.fmt + 2 * t.blocks + 2 * t.outliers.length) 8
/-- The size of a record. -/
def Table.sizeOf (t : Table) (l : RecLay) : Nat := recordBytes t.blocks (eltBits l.fmt) t.outliers.length l.esc l.prom

/-- The padded row width. -/
def Table.padded (t : Table) : Nat := 32 * t.blocks

/-- The table a partition names: its own, or for a serve partition its source's (R190, R420). -/
def State.findTable (s : State) (n t : Nat) : Option (Nat × Table) :=
  match (s.part n).tables.find t with
  | some x => some (n, x)
  | none => if (s.part n).cfg.serve then ((s.part (s.part n).cfg.src).tables.find t).map (fun x => ((s.part n).cfg.src, x)) else none

/-! ### Reading a record (R170, R171) -/

/-- The scale words of a record. -/
def Table.scales (t : Table) (l : RecLay) (d : List Byte) : List Nat :=
  (List.range t.blocks).map (fun b => leAt d (t.blocks * 4 * eltBits l.fmt + 2 * b) 2)

/-- The promotion slots in use: as many as scale words with promoted = 1 (R171). -/
def Table.proms (t : Table) (l : RecLay) (d : List Byte) : List (Nat × List Nat) :=
  let cnt := min l.prom ((t.scales l d).filter (fun w => bitAt w 2 && fld w 15 8 ≠ 0xFF)).length
  let off := t.escOff l + 8 * l.esc
  (List.range cnt).map (fun i =>
    (fld (leAt d (off + 40 * i) 8) 42 0, (List.range 32).map (fun j => leAt d (off + 40 * i + 8 + j) 1)))

/-- The codes that a block of a record reads by. -/
def Table.recCodes (t : Table) (l : RecLay) (d : List Byte) (base b : Nat) : List Nat :=
  let w := (t.scales l d).getD b 0
  if bitAt w 2 then (((t.proms l d).find? (fun p => p.1 = base + b)).map (·.2)).getD []
  else unpackCodes (eltBits l.fmt) (leAt d (b * 4 * eltBits l.fmt) (4 * eltBits l.fmt))

/-- The escape codes that a record holds, one escape slot each (R171). -/
def Table.escCount (t : Table) (l : RecLay) (d : List Byte) (base : Nat) : Nat :=
  ((List.range t.blocks).map (fun b =>
    let w := (t.scales l d).getD b 0
    if fld w 15 8 = 0xFF then 0
    else ((t.recCodes l d base b).filter (fun c => (codeVal (if bitAt w 2 then 5 else l.fmt) c).isNone)).length)).sum

/-- The escape slots in use: block, position, value. -/
def Table.escs (t : Table) (l : RecLay) (d : List Byte) (base : Nat) : List (Nat × Nat × Nat) :=
  (List.range (min l.esc (t.escCount l d base))).map (fun i =>
    let w := leAt d (t.escOff l + 8 * i) 8
    (fld w 58 16, fld w 63 59, fld w 15 0))

/-- Block `b` of a record. -/
def Table.recBlk (t : Table) (l : RecLay) (d : List Byte) (base b : Nat) : Blk :=
  let w := (t.scales l d).getD b 0
  { fmt := l.fmt, codes := unpackCodes (eltBits l.fmt) (leAt d (b * 4 * eltBits l.fmt) (4 * eltBits l.fmt)), scale := w,
    esc := ((t.escs l d base).filter (fun e => e.1 = base + b)).map (fun e => e.2),
    prom := if bitAt w 2 then ((t.proms l d).find? (fun p => p.1 = base + b)).map (·.2) else none }

/-- The outlier value of list position `j`. -/
def Table.recOutlier (t : Table) (l : RecLay) (d : List Byte) (j : Nat) : Val :=
  bf16 (leAt d (t.blocks * 4 * eltBits l.fmt + 2 * t.blocks + 2 * j) 2)

/-- A record's exact values, `padded` of them, and whether a block of it is blighted (R60 to R62, R80; every element of a
non-finite block is NaN, R59). -/
def Table.recVals (t : Table) (l : RecLay) (d : List Byte) (base : Nat) : List Val × Bool :=
  let bs := (List.range t.blocks).map (t.recBlk l d base)
  ((List.range t.padded).map (fun e =>
     match t.outliers.findIdx? (· = e), bs[e / 32]? with
     | some j, some b => if b.nonFinite then .nan else t.recOutlier l d j
     | none, some b => b.val (e % 32)
     | _, none => Val.zero),
   bs.any (·.blight))

/-- Whether a block of the record is inconsistent (R61). -/
def Table.recDamaged (t : Table) (l : RecLay) (d : List Byte) (base : Nat) : Bool :=
  (List.range t.blocks).any (fun b => (t.recBlk l d base b).damaged)

/-! ### Writing a record (R172) -/

/-- A record being written: bytes of codes, scales, slots so far, and what the quantiser counted. -/
structure RecOut where
  codes : List Byte := []
  scales : List Byte := []
  esc : List Byte := []
  prom : List Byte := []
  escN : Nat := 0
  promN : Nat := 0
  promoted : Nat := 0
  nonFin : Nat := 0
  clamped : Nat := 0
  sat : Nat := 0
  deriving DecidableEq, Repr

/-- Adding block `b` to a record (R172). -/
def Table.addBlk (t : Table) (l : RecLay) (base : Nat) (blight : Bool) (vals : List Val) (r : RecOut) (b : Nat) : RecOut :=
  let o := quantBlk l.fmt t.threshold (fld t.param.toNat 8 6) ((t.outliers.filter (fun c => c / 32 = b)).map (· % 32))
    (l.esc - r.escN) (l.prom - r.promN) blight ((vals.drop (32 * b)).take 32)
  let w := eltBits l.fmt
  { codes := r.codes ++ leBytes (4 * w) (packCodes w o.blk.codes), scales := r.scales ++ leBytes 2 o.blk.scale,
    esc := r.esc ++ (o.blk.esc.map (fun e => escBytes e.1 (base + b) e.2)).flatten,
    prom := r.prom ++ (match o.blk.prom with | some cs => promBytes (base + b) cs | none => []),
    escN := r.escN + o.blk.esc.length, promN := r.promN + (if o.blk.prom.isSome then 1 else 0),
    promoted := r.promoted + b2n o.promoted, nonFin := r.nonFin + b2n o.nonFinite, clamped := r.clamped + b2n o.clamped,
    sat := r.sat + o.saturated }

/-- The blocks of a row as the quantiser writes them. -/
def Table.quantRow (t : Table) (l : RecLay) (base : Nat) (blight : Bool) (vals : List Val) : RecOut :=
  (List.range t.blocks).foldl (t.addBlk l base blight vals) {}

/-- The bytes of a record (R170, R171). -/
def Table.recBytes (t : Table) (l : RecLay) (r : RecOut) (vals : List Val) : List Byte :=
  let head := r.codes ++ r.scales ++ ((t.outliers.map (fun c => leBytes 2 (encFp 7 (vals.getD c Val.zero)))).flatten)
  slice (slice head 0 (t.escOff l) ++ slice r.esc 0 (8 * l.esc) ++ slice r.prom 0 (40 * l.prom)) 0 (t.sizeOf l)

/-! ### Rows in memory -/

/-- A counter of an installed table rises (R217). -/
def State.countTable (s : State) (n t i k : Nat) : State :=
  s.updPart n (fun q => match q.tables.find t with
    | some x => { q with tables := q.tables.set t { x with counts := x.counts.set i (sat64 (x.counts.get 0 i + k)) } }
    | none => q)

/-- The row block of a row in its object (R225). -/
def Obj.rowBlock (o : Obj) (r : Nat) : Nat := (r - o.firstRow) / 32
/-- The block index of a row's first block, counted in its object (R170). -/
def Obj.blockBase (o : Obj) (t : Table) (r : Nat) : Nat := (r - o.firstRow) * t.blocks
/-- The device address of a row's record (R270). -/
def rowAddr (num : Nat) (o : Obj) (t : Table) (r : Nat) : Word :=
  BitVec.ofNat 64 ((3 + o.tier) * 2 ^ 60 + num * 2 ^ 40 + (r - o.firstRow) * o.recSize t)
/-- The device address of a row block's version word (R270). -/
def verAddr (num : Nat) (o : Obj) (b : Nat) : Word := BitVec.ofNat 64 ((3 + o.tier) * 2 ^ 60 + num * 2 ^ 40 + o.verOff + 8 * b)

/-- A row's record at its home, with the blight of its granules. -/
def State.homeRow (s : State) (n num : Nat) (o : Obj) (r : Nat) : List Byte × Bool := s.readKeys (rowKeys (s.part n) num o r)

/-- The shadow object of a table and its number, where it is enabled and installed (R197). -/
def Part.shadow (q : Part) (t : Table) : Option (Nat × Obj) :=
  if t.shadowOn then (q.objects.find t.shadowObj).bind (fun o => if o.kind = 3 then some (t.shadowObj, o) else none) else none


/-- The objects that hold a table's rows, in row order (R180, R261). -/
def Part.tableObjs (q : Part) (t : Nat) : List (Nat × Obj) :=
  (((q.tables.get {} t).objs.filterMap (fun i => (q.objects.find i).map (fun o => (i, o)))).foldl (fun acc x =>
    acc.takeWhile (fun y => y.2.firstRow ≤ x.2.firstRow) ++ [x] ++ acc.dropWhile (fun y => y.2.firstRow ≤ x.2.firstRow)) [])

/-- The row blocks of a run of rows: first row, row count, block index of each (R225). -/
def blocksOf (first cnt : Nat) : List (Nat × Nat × Nat) :=
  (List.range (ceilDiv cnt 32)).map (fun b => (first + 32 * b, min 32 (cnt - 32 * b), b))

/-- The row blocks of a table, object by object (R225). -/
def Part.tableBlocks (q : Part) (t : Nat) : List (Nat × Nat × Nat) :=
  ((q.tableObjs t).map (fun x => blocksOf x.2.firstRow x.2.rowCount)).flatten

/-- What an index names (R180, R185). -/
def classify (q : Part) (tn : Nat) (i32 : Bool) (raw : Nat) : FetchKind :=
  let i := signed (if i32 then 32 else 64) raw
  if i = -1 then .missing
  else if i < 0 || ((q.tables.get {} tn).rows : Int) ≤ i then .invalid
  else if (q.rowObj tn i.toNat).isSome then .row i.toNat else .unplaced

/-- The fallback row's record as a reader gets it: the installed copy (R176, R191). -/
def Table.fallbackRec (t : Table) : List Byte × Bool :=
  if t.fallbackBad then (List.replicate t.recSize 0, true) else (t.fallback, false)

end Sys2Proof.Machine
end

