-- ==== Sys2Proof/Machine/Digest.lean ====
section
/-! DEFINITION. Replica digests (R256, R257): the digest of a plan entry from the stored bytes of its
rows, the shard digest, recomputation. -/

namespace Sys2Proof.Machine

/-- The core whose scratchpad the plan's scratchpad addresses name: the lead context's (R228). -/
def State.leadCore (s : State) (n : Nat) : Nat := (s.leadOf n).core

/-- The escape entries of a row of a tensor in stored order (R78). -/
def rowEscs (l : List Byte) (d : TDesc) (r : Nat) : List Byte :=
  ((List.range d.escN).map (fun i =>
    let b := fld (leAt l (8 * i) 8) 58 16
    if r * d.blocks ≤ b && b < (r + 1) * d.blocks then slice l (8 * i) 8 else [])).flatten

/-- The promotion entries of a row of a tensor in stored order (R79). -/
def rowProms (l : List Byte) (d : TDesc) (r : Nat) : List Byte :=
  ((List.range d.promN).map (fun i =>
    let b := fld (leAt l (40 * i) 8) 42 0
    if r * d.blocks ≤ b && b < (r + 1) * d.blocks then slice l (40 * i) 40 else [])).flatten

/-- The bytes of an element of a wide tensor. -/
def wideBytes (kind : Nat) : Nat := if kind = 1 then 4 else if kind = 2 then 2 else 16

/-- The stored bytes of a row of a dense tensor (R256). -/
def State.denseRow (s : State) (n : Nat) (d : TDesc) (r : Nat) : List Byte :=
  let k := s.leadCore n
  if d.kind = 0 then
    let w := 4 * eltBits d.fmt
    (s.readDev n k (plus d.code (r * d.blocks * w)) (d.blocks * w)).1
      ++ (s.readDev n k (plus d.scale (2 * r * d.blocks)) (2 * d.blocks)).1
      ++ rowEscs (s.readDev n k d.esc (8 * d.escN)).1 d r ++ rowProms (s.readDev n k d.prom (40 * d.promN)).1 d r
      ++ (s.readDev n k (plus d.outl (2 * r * d.outCount)) (2 * d.outCount)).1
  else (s.readDev n k (plus d.code (r * d.len * wideBytes d.kind)) (d.len * wideBytes d.kind)).1

/-- The rows of a dense tensor's areas: base and bytes a row. -/
def TDesc.strips (d : TDesc) : List (Word × Nat) :=
  if d.kind = 0 then [(d.code, d.blocks * 4 * eltBits d.fmt), (d.scale, 2 * d.blocks), (d.outl, 2 * d.outCount)]
  else [(d.code, d.len * wideBytes d.kind)]

/-- The stored bytes of a row of a table. -/
def State.tableRow (s : State) (n t r : Nat) : List Byte :=
  match (s.part n).rowObj t r with
  | some (num, o) => (s.homeRow n num o r).1
  | none => []

/-- The bytes that H takes for one row of a plan entry: the weight's, then each moment's (R256). -/
def State.entryRow (s : State) (n : Nat) (e : PlanEntry) (r : Nat) : List Byte :=
  let k := s.leadCore n
  if e.dense then
    s.denseRow n (s.desc n k e.wDesc).1 r
      ++ (if 1 ≤ e.moments then s.denseRow n (s.desc n k e.mDesc1).1 r else [])
      ++ (if 2 ≤ e.moments then s.denseRow n (s.desc n k e.mDesc2).1 r else [])
  else
    s.tableRow n e.table r ++ (if 1 ≤ e.moments then s.tableRow n e.mTable1 r else [])
      ++ (if 2 ≤ e.moments then s.tableRow n e.mTable2 r else [])

/-- The row blocks of a plan entry: first row, row count and block index of each (R225, R256). -/
def State.entryBlocks (s : State) (n : Nat) (e : PlanEntry) : List (Nat × Nat × Nat) :=
  if e.dense then blocksOf 0 (s.desc n (s.leadCore n) e.wDesc).1.rows else (s.part n).tableBlocks e.table

/-- H of one row block (R256): SHA-256 read as a little-endian integer. -/
def State.hashBlock (s : State) (n : Nat) (e : PlanEntry) (b : Nat × Nat × Nat) : Nat :=
  leNat (sha256 (leBytes 8 e.tensor.toNat ++ leBytes 8 b.2.2
    ++ ((List.range b.2.1).map (fun i => s.entryRow n e (b.1 + i))).flatten))

/-- The digest of a plan entry (R256). -/
def State.entryDigest (s : State) (n i : Nat) : Nat :=
  match (s.part n).plan with
  | some pl =>
    let e := pl.entries.getD i {}
    (((s.entryBlocks n e).map (s.hashBlock n e)).sum) % 2 ^ 256
  | none => 0

/-- The plan entries that keep a digest. -/
def Part.digestEntries (q : Part) : List Nat :=
  match q.plan with
  | some pl => (List.range pl.entries.length).filter (fun i => (pl.entries.getD i {}).valid && (pl.entries.getD i {}).digest)
  | none => []

/-- The shard digest (R256). -/
def Part.shardDigest (q : Part) : Nat := ((q.digestEntries.map (fun i => q.digests.get 0 i)).sum) % 2 ^ 256

/-- After a commit, the digest of each covered entry that is not stale holds the new blocks (R257). -/
def State.redigest (s : State) (n : Nat) (l : List Nat) : State :=
  l.foldl (fun s i => if i ∈ (s.part n).stale then s
    else let d := s.entryDigest n i; s.updPart n (fun q => { q with digests := q.digests.set i d })) s

/-- The keys of the stored bytes that the digest of a plan entry takes (R256). -/
def State.digestKeys (s : State) (n : Nat) (e : PlanEntry) : List Nat :=
  let q := s.part n
  let k := s.leadCore n
  if e.dense then
    let ds := [e.wDesc] ++ ([e.mDesc1, e.mDesc2].take e.moments)
    (ds.map (fun a =>
      let d := (s.desc n k a).1
      (d.strips.map (fun y => s.keysOf n k y.1 (d.rows * y.2))).flatten
        ++ (if d.kind = 0 then s.keysOf n k d.esc (8 * d.escN) ++ s.keysOf n k d.prom (40 * d.promN) else []))).flatten
  else
    (([e.table] ++ ([e.mTable1, e.mTable2].take e.moments)).map (fun t =>
      ((q.tableObjs t).map (fun x => ((List.range x.2.rowCount).map (fun r => rowKeys q x.1 x.2 (x.2.firstRow + r))).flatten)).flatten)).flatten

/-- DIGEST_RECOMPUTE (R257, R272): a stale entry is recomputed, its reads served in the scrub class. -/
def execDigestRecompute (part entry : Nat) (s : State) : Res :=
  .next (if s.live && entry ∈ (s.part part).stale then
      let d := s.entryDigest part entry
      (s.served (s.digestKeys part ((((s.part part).plan.map (·.entries)).getD []).getD entry {})) 3).updPart part (fun q => { q with digests := q.digests.set entry d, stale := q.stale.filter (· ≠ entry) })
    else s)

end Sys2Proof.Machine
end

