-- ==== Sys2Proof/Machine/Txn.lean ====
section
/-! DEFINITION. Transactions, the journal and recovery (R239 to R255): TXB, TXC and TXA, the records of
R244 on their dies, the durable point with its guards, retirement, recovery. -/

namespace Sys2Proof.Machine

/-! ### Home dies, version words, records -/

/-- The home die of a key (R178, R239). -/
def keyDie (k : Nat) : Nat :=
  match keyRegion k with
  | 0 => coreDie (k / 2 ^ 20)
  | 1 => (k - 2 ^ 60) / sliceBytes / 150
  | 4 => (k - 4 * 2 ^ 60) / 2 ^ 36 / 2
  | 5 => (k - 5 * 2 ^ 60) / 2 ^ 39 % 8
  | _ => 0

/-- The state in which a transaction's addresses are read: a re-salt writes a group's rows to where they lie
once the cursor is past the group (R211, R212). -/
def State.txView (s : State) (t : Tx) : State :=
  match t.origin with
  | .resalt table group => s.updPart t.part (fun q => { q with tables := q.tables.upd {} table (fun x => { x with cursor := max x.cursor (group + 1) }) })
  | _ => s

/-- Runs of consecutive numbers in an ascending list: start and length of each. -/
def runsOf : List Nat → List (Nat × Nat)
  | [] => []
  | i :: t => match runsOf t with
    | (j, l) :: r => if j = i + 1 then (i, l + 1) :: r else (i, 1) :: (j, l) :: r
    | [] => [(i, 1)]

/-- The part of an entry whose home die is `d`, as entries of their own (R239). -/
def State.entryOn (s : State) (n d : Nat) (e : JEntry) : List JEntry :=
  let ks := s.keysOf n e.core e.addr e.data.length
  (runsOf ((List.range ks.length).filter (fun i => keyDie (ks.getD i 0) = d))).map
    (fun r => { e with addr := plus e.addr r.1, data := (e.data.drop r.1).take r.2 })

/-- The participants of a transaction, ascending (R239). -/
def State.txDies (s : State) (t : Tx) : List Nat :=
  let ds := (t.entries.map (fun e => (s.keysOf t.part e.core e.addr e.data.length).map keyDie)).flatten
  (List.range 8).filter (· ∈ ds)

/-- The rows that a run of bytes of a table object lies in: number, object, first and last row. -/
def State.rowsAt (s : State) (n : Nat) (a : Word) (len : Nat) : List (Nat × Obj × Nat × Nat) :=
  (s.objsAt n a len).filterMap (fun num =>
    ((s.part n).objects.find num).bind (fun o =>
      let rs := max 1 (o.recSize ((s.part n).tables.get {} o.table))
      let x := (s.linear n a).2
      let lo := if spaceOf a = 1 then x - o.base else x
      let hi := if spaceOf a = 1 then x + len - o.base else x + len
      if o.kind ≠ 1 || hi ≤ lo || o.rowCount * rs ≤ lo then none
      else some (num, o, o.firstRow + lo / rs, o.firstRow + min (o.rowCount - 1) ((hi - 1) / rs))))

/-- The version words of the dense plan entries' row blocks that a run of bytes lies in (R229, R238). -/
def State.denseVersions (s : State) (n : Nat) (a : Word) (len : Nat) : List Word :=
  match (s.part n).plan with
  | none => []
  | some pl => (pl.entries.map (fun e =>
      if !e.valid || !e.dense || e.verAddr = 0 then []
      else
        let k := s.leadCore n
        (([e.wDesc] ++ ([e.mDesc1, e.mDesc2].take e.moments)).map (fun x =>
          let d := (s.desc n k x).1
          (d.strips.map (fun y =>
            let lo := (s.linear n a).2 - (s.linear n y.1).2
            let hi := min (d.rows * y.2) ((s.linear n a).2 + len - (s.linear n y.1).2)
            if y.2 = 0 || !s.sharePlace n a len y.1 (d.rows * y.2) then []
            else (List.range ((hi - 1) / y.2 / 32 - lo / y.2 / 32 + 1)).map (fun i =>
              plus e.verAddr (8 * (lo / y.2 / 32 + i))))).flatten)).flatten)).flatten

/-- The version words of the row blocks that entries write: of tables, and of the plan's dense entries (R238). -/
def State.verWords (s : State) (n : Nat) (l : List JEntry) : List Word :=
  ((l.map (fun e =>
    if e.kind ≠ 0 then [] else
      ((s.rowsAt n e.addr e.data.length).map (fun x =>
        (List.range (x.2.1.rowBlock x.2.2.2 - x.2.1.rowBlock x.2.2.1 + 1)).map
          (fun i => verAddr x.1 x.2.1 (x.2.1.rowBlock x.2.2.1 + i)))).flatten
      ++ s.denseVersions n e.addr e.data.length)).flatten).dedup

/-- A version word after a commit of a step (R238). -/
def State.nextVersion (s : State) (n : Nat) (step a : Word) : Word :=
  BitVec.ofNat 64 (step.toNat % 2 ^ 24 * 2 ^ 40 + (leNat (s.readDev n (s.leadCore n) a 8).1 + 1) % 2 ^ 40)

/-- The commit count of a version word. -/
def State.commitCount (s : State) (n : Nat) (a : Word) : Nat := leNat (s.readDev n (s.leadCore n) a 8).1 % 2 ^ 40

/-- The entries in record order: home writes and releases, then the version words, each risen by one
(R238, R239). A re-salt writes no new values and leaves the words (R211); an import writes the words of its stream (R261,
R262, log entry 62). -/
def State.finalEntries (s : State) (t : Tx) : List JEntry :=
  let body := t.entries.filter (fun e => e.kind ≠ 1)
  let vers := t.entries.filter (fun e => e.kind = 1)
  let own := vers.map (·.addr)
  let up (a : Word) : JEntry := { addr := a, data := leBytes 8 (s.nextVersion t.part t.step a).toNat, kind := 1, core := s.leadCore t.part }
  match t.origin with
  | .resalt _ _ => body ++ own.map up
  | .imported => body ++ vers
  | _ => body ++ ((s.verWords t.part body).filter (· ∉ own) ++ own).map up

/-! ### The bytes of a record (R244, R245) -/

/-- The codes of a record's state byte (R244). -/
def JState.code : JState → Nat
  | .writing => 0x00 | .prepared => 0x01 | .durable => 0x03 | .applied => 0x07 | .free => 0xFF

/-- An entry as its record holds it: header and padded data (R245). -/
def JEntry.bytes (e : JEntry) : List Byte :=
  leBytes 8 e.addr.toNat ++ leBytes 4 e.data.length ++ leBytes 2 e.kind ++ leBytes 2 0 ++ slice e.data 0 (roundUp 16 e.data.length)

/-- The entries of a record one behind the other. -/
def entryBytes (l : List JEntry) : List Byte := (l.map JEntry.bytes).flatten

/-- The length of a redo record, header included (R244, R245). -/
def recordLen (l : List JEntry) : Nat := roundUp 64 (64 + (l.map (fun e => 16 + roundUp 16 e.data.length)).sum)

/-- The 64-byte header of a record (R244). -/
def JRec.head (r : JRec) : List Byte :=
  [BitVec.ofNat 8 r.type, BitVec.ofNat 8 r.state.code, BitVec.ofNat 8 (r.coord % 8), BitVec.ofNat 8 ((r.mask.map (2 ^ ·)).sum)]
    ++ leBytes 4 (r.len / 64) ++ leBytes 8 r.tag.toNat ++ leBytes 8 r.step.toNat ++ leBytes 8 r.seq ++ leBytes 4 r.entries.length
    ++ leBytes 4 r.crc.toNat ++ leBytes 24 0

/-- A record as it lies in its ring (R244). -/
def JRec.bytes (r : JRec) : List Byte := r.head ++ slice (entryBytes r.entries) 0 (r.len - 64)

/-- A record with some entries and the CRC over them (R244). -/
def JRec.withEntries (r : JRec) (l : List JEntry) : JRec := { r with entries := l, crc := crc32 (entryBytes l) }

/-- Whether the CRC in a record's header is that of the entries behind it (R244, R248). -/
def JRec.crcOk (r : JRec) : Bool := leAt r.bytes 0x24 4 = (crc32 (slice r.bytes 64 (entryBytes r.entries).length)).toNat

/-- The tag word of a transaction, in order class 3 (R30, R244). -/
def Tx.tag (t : Tx) : Word :=
  BitVec.ofNat 64 (t.part * 2 ^ 61 + t.epoch.toNat * 2 ^ 49 + t.step.toNat % 2 ^ 16 * 2 ^ 33 + t.txid.toNat * 2 ^ 17
    + b2n (t.entries.any (·.blight)) * 2 ^ 10 + b2n (t.entries.any (·.subst)) * 2 ^ 9 + OrderClass.transaction.code * 2 ^ 6)

/-- The records of a transaction: a redo record on each participant, a commit record on the coordinator
when there are several (R239, R244). -/
def State.records (s : State) (t : Tx) : List JRec :=
  let v := s.txView t
  let l := v.finalEntries t
  let ds := v.txDies { t with entries := l }
  let base : JRec := { die := t.coord, tx := t.num, part := t.part, type := 3, coord := t.coord, mask := ds, step := t.step, tag := t.tag,
                       cluster := t.cluster, len := 64 }
  ds.map (fun d =>
    let es := (l.map (v.entryOn t.part d)).flatten
    { base with
      die := d
      type := (match t.origin with | .sweep _ _ => 1 | _ => 2)
      len := recordLen es }.withEntries es)
    ++ (if 1 < ds.length then [base] else [])

/-- A transaction enters its prepare phase: its records wait for room in the rings (R239, R243). -/
def State.prepareTx (s : State) (t : Tx) : State :=
  let t := { t with phase := .preparing, prepared := [] }
  { s with tx := { s.tx with txs := s.tx.txs.filter (fun x => x.num ≠ t.num) ++ [t], waiting := s.tx.waiting ++ s.records t } }

/-- A transaction id that no open transaction of the partition has, from a free start (R154). -/
def State.pickTxid (s : State) (n : Nat) : BitVec 16 :=
  let used := (s.tx.txs.filter (fun t => t.part = n)).map (·.txid)
  let start := Config.freeNat s.free
  (((List.range 65536).map (fun i => BitVec.ofNat 16 (start + i))).find? (fun x => x ≠ 0 && x ∉ used)).getD 1

/-- A transaction that a unit of the part opens, with its writes at hand. -/
def State.openTx (s : State) (n coord cluster : Nat) (step : Word) (o : TxOrigin) (l : List JEntry) (checks : List (Word × Nat)) : State :=
  let t : Tx := { num := s.tx.nextTx, part := n, coord := coord, step := step, txid := s.pickTxid n,
                  epoch := (s.cluster cluster).epoch, origin := o, entries := l, checks := checks, cluster := cluster }
  (({ s with tx := { s.tx with nextTx := s.tx.nextTx + 1 } } : State).prepareTx t).fresh

/-! ### TXB, TXC, TXA -/

/-- TXB (R154, R251): sd takes the id, as does the tag state. -/
def execTxb (p : At) (f : LayA) (s : State) : Res :=
  let n := s.partNum p.core
  issue s p { s := [f.sd] } {}
    (firstFault [must (f.sa = 0 && f.zero = 0) 0x03, must (!(s.part n).cfg.serve) 0x06, must (s.ctx p).tx.isNone 0x09])
    (fun t =>
      let id := s.pickTxid n
      let x : Tx := { num := s.tx.nextTx, part := n, coord := coreDie p.core, txid := id, epoch := (s.cluster (coreCluster p.core)).epoch,
                      origin := .context p, cluster := coreCluster p.core, step := fullStep (s.part n).lastStarted (s.ctx p).step }
      (({ t with tx := { t.tx with txs := t.tx.txs ++ [x], nextTx := t.tx.nextTx + 1 } } : State).updCtx p
        (fun c => ({ c with tx := some x.num, txid := id }).setS f.sd (id.setWidth 64))).fresh)

/-- The abort code of a transaction of a context, the lowest that applies (R252 to R254). -/
def State.txCode (s : State) (t : Tx) : Option Nat :=
  if (s.grans t.part t.entries).any (· ∈ t.others) then some 1
  else if t.overSize then some 2
  else if (s.part t.part).started && stepEarlier (t.step.setWidth 16) ((s.part t.part).lastStarted.setWidth 16) then some 3
  else if (s.cluster t.cluster).epoch ≠ t.epoch then some 4
  else if t.badRedo then some 5
  else none

/-- The transaction of a context ends with an outcome in sd (R154, R254); aborts are counted (R264). -/
def State.endTx (s : State) (p : At) (sd : BitVec 5) (num code : Nat) : State :=
  let s := (s.dropTx num).updCtx p (fun c => ({ c with tx := none, txid := 0 }).setS sd (BitVec.ofNat 64 code))
  if code = 0 then s else s.updSw (coreCluster p.core) (fun c => { c with txAborts := sat64 (c.txAborts + 1) })

/-- Whether moves of a context's transaction have not joined its write set yet. -/
def Ctx.txMoves (c : Ctx) : Bool := c.tx.isSome && c.moves.any (fun m => m.tx.isSome && m.tx = c.tx)

/-- TXC (R239, R254): the transaction is prepared, the context held until its outcome. -/
def execTxc (p : At) (f : LayA) (s : State) : Res :=
  if s.canIssue p && (s.ctx p).txMoves then .next (s.holdAt p (s.ctx p).pc .operand)
  else
    issue s p { s := [f.sd] } {} (firstFault [must (f.sa = 0 && f.zero = 0) 0x03, must (s.ctx p).tx.isSome 0x09])
      (fun t =>
        match (s.ctx p).tx.bind s.txn with
        | none => t
        | some x =>
          let x := { x with step := fullStep (s.part x.part).lastStarted (s.ctx p).step }
          match s.txCode x with
          | some c => t.endTx p f.sd x.num c
          | none => (t.prepareTx x).holdAt p (s.ctx p).pc (.commit x.num f.sd))

/-- TXA (R255). -/
def execTxa (p : At) (f : LayA) (s : State) : Res :=
  issue s p {} {} (firstFault [must (f.sd = 0 && f.sa = 0 && f.zero = 0) 0x03, must (s.ctx p).tx.isSome 0x09]) (fun t => t.abortTx p)

/-! ### The journal ring (R243) -/

/-- A ring holds 256 MiB, one partition at most half of it. -/
def ringBytes : Nat := 2 ^ 28

/-- Where a die's next record goes, counted from the start of time. -/
def State.ringHead (s : State) (d : Nat) : Nat := s.tx.heads.get 0 d
/-- The oldest record of a die's ring that is not a pad. -/
def State.ringTail (s : State) (d : Nat) : Nat :=
  ((s.tx.journal.find? (fun r => r.die = d && r.type ≠ 4)).map (·.off)).getD (s.ringHead d)
/-- The pad that a record needs so as not to cross the ring's end. -/
def State.padFor (s : State) (d len : Nat) : Nat :=
  let x := s.ringHead d % ringBytes
  if ringBytes < x + len then ringBytes - x else 0
/-- Whether a waiting record finds room. -/
def State.hasRoom (s : State) (r : JRec) : Bool :=
  s.ringHead r.die + s.padFor r.die r.len + r.len - s.ringTail r.die ≤ ringBytes
    && ((s.tx.journal.filter (fun x => x.die = r.die && x.part = r.part && x.type ≠ 4)).map (·.len)).sum + r.len ≤ 2 ^ 27

/-- Pads with no record before them are free (R243). -/
def dropPads (die : Nat) : List JRec → List JRec
  | [] => []
  | r :: t => if r.die = die then (if r.type = 4 then dropPads die t else r :: t) else r :: dropPads die t

/-- Puts a record into its die's ring, behind a pad where it would cross the end. -/
def State.placeRec (s : State) (r : JRec) : State :=
  let pad := s.padFor r.die r.len
  let h := s.ringHead r.die
  let seq := ((s.tx.seqs.find? (fun x => x.1 = r.part && x.2.1 = r.die)).map (·.2.2)).getD 0
  let pads : List JRec := if pad = 0 then [] else [{ die := r.die, tx := r.tx, part := r.part, type := 4, off := h, len := pad, coord := r.coord, state := .durable }]
  { s with tx := { s.tx with
    journal := s.tx.journal ++ pads ++ [{ r with state := .writing, off := h + pad, seq := seq }]
    freed := s.tx.freed.filter (fun x => !(x.die = r.die && x.off + ringBytes < h + pad + r.len))
    heads := s.tx.heads.set r.die (h + pad + r.len)
    seqs := s.tx.seqs.filter (fun x => !(x.1 = r.part && x.2.1 = r.die)) ++ [(r.part, r.die, seq + 1)] } }

/-- JOURNAL_RECORD_PLACE (R243): the first waiting record of a die that finds room, a partition's in order. -/
def execJournalRecordPlace (die : Nat) (s : State) : Res :=
  let mine := s.tx.waiting.filter (fun r => r.die = die)
  let pick := mine.find? (fun r =>
    ((mine.find? (fun x => x.part = r.part)).map (fun x => (x.tx, x.type)) = some (r.tx, r.type)) && s.hasRoom r)
  .next (match pick with
    | some r => if !s.live then s else
        ({ s with tx := { s.tx with waiting := dropFirst (fun x => x.die = die && x.tx = r.tx && x.type = r.type) s.tx.waiting } } : State).placeRec r
    | none => s)

/-! ### Phases (R239) -/

/-- Changing the records of a transaction. -/
def State.updRecs (s : State) (num : Nat) (f : JRec → JRec) : State :=
  { s with tx := { s.tx with journal := s.tx.journal.map (fun r => if r.tx = num && r.type ≠ 4 then f r else r) } }

/-- TX_PREPARED (R239): a participant's record is written with state prepared and reported. -/
def execTxPrepared (tx die : Nat) (bad : Bool) (s : State) : Res :=
  .next (if s.live && s.tx.journal.any (fun r => r.tx = tx && r.die = die && r.type ≤ 2 && r.state = .writing) then
      (s.updRecs tx (fun r => if r.die = die && r.type ≤ 2 then { r with state := .prepared } else r)).updTxn tx
        (fun t => { t with prepared := addOnce t.prepared die, badRedo := t.badRedo || bad })
    else s)

/-- Whether every record of a transaction is where its durable point needs it: redo records prepared, the
commit record placed. -/
def State.allPrepared (s : State) (t : Tx) : Bool :=
  t.phase = .preparing && s.tx.waiting.all (fun r => r.tx ≠ t.num)
    && s.tx.journal.all (fun r => r.tx ≠ t.num || r.type = 3 || r.type = 4 || r.state = .prepared)

/-- Whether a transaction is a re-salt's, a sweep's, a context's. -/
def TxOrigin.isResalt : TxOrigin → Bool | .resalt _ _ => true | _ => false
def TxOrigin.isSweep : TxOrigin → Bool | .sweep _ _ => true | _ => false
def TxOrigin.ofContext : TxOrigin → Bool | .context _ => true | _ => false

/-- The tag step that a transaction has, or will have at its TXC where a context still adds to it (R254). -/
def State.txStep (s : State) (t : Tx) : BitVec 16 :=
  match t.phase, t.origin with
  | .opened, .context p => (s.ctx p).step
  | _, _ => t.step.setWidth 16

/-- Whether a context's transaction is bound to abort as earlier than the last started sweep (R254). -/
def State.txStale (s : State) (t : Tx) : Bool :=
  t.origin.ofContext && (s.part t.part).started && stepEarlier (s.txStep t) ((s.part t.part).lastStarted.setWidth 16)

/-- Whether a partition has sweep transactions to come of a step earlier than a tag's: its sweep runs, is due, or has STEPBs
on its way to its boundary (R218, R220, R242). -/
def State.sweepBefore (s : State) (n : Nat) (t : BitVec 16) : Bool :=
  let q := s.part n
  q.replay.isNone && ((match q.sweep with | some w => stepEarlier (w.step.setWidth 16) t && !w.digestDue | none => false)
    || q.sweepDue.any (fun x => stepEarlier x t) || q.stepbs.any (fun x => stepEarlier x.2 t))

/-- Whether the durable point must wait: for an applied transaction with a granule in common (R241); for every transaction
of an earlier step of the partition, a sweep's row blocks not opened yet among them (R242). A re-salt yields to every sweep
commit, and none waits for it (R211). -/
def State.txMustWait (s : State) (t : Tx) : Bool :=
  let g := (s.txView t).grans t.part t.entries
  let st := t.step.setWidth 16
  s.tx.txs.any (fun x => x.num ≠ t.num &&
    ((x.phase = .durable && (s.grans x.part x.entries).any (· ∈ g))
      || (x.part = t.part && t.origin.isResalt && x.origin.isSweep)
      || (x.part = t.part && !x.origin.isResalt && (x.phase = .preparing || x.phase = .opened) && !s.txStale x && stepEarlier (s.txStep x) st)))
    || (t.origin.ofContext && s.sweepBefore t.part st)

/-- The tables whose rows entries write. -/
def State.tablesOf (s : State) (n : Nat) (l : List JEntry) : List Nat :=
  ((l.map (fun e => (s.rowsAt n e.addr e.data.length).map (fun x => x.2.1.table))).flatten).dedup

/-- Entries reach their homes in record order (R239), with the marks they carry (R37, R475). -/
def State.writeEntries (s : State) (n : Nat) (l : List JEntry) : State :=
  l.foldl (fun s e =>
    let ks := s.keysOf n e.core e.addr e.data.length
    (s.writeKeys ks e.data e.blight).markSubst ks e.subst) s

/-- What an entry writes of an object is written to its mirrors identically (R405). -/
def State.writeMirrors (s : State) (n : Nat) (e : JEntry) : State :=
  (s.objsAt n e.addr e.data.length).foldl (fun s num =>
    match (s.part n).objects.find num with
    | none => s
    | some o =>
      (List.range 8).foldl (fun s m =>
        if !((s.part m).cfg.serve && (s.part m).cfg.src = n) then s
        else ((s.part m).objects.filter (fun x => x.2.mirrorOf = some num && x.2.copied)).foldl (fun s x =>
          let off := (s.linear n e.addr).2
          let base := if spaceOf e.addr = 1 || o.tier = 0 then o.base else 0
          let ws := (List.range e.data.length).filterMap (fun i =>
            if off + i < base then none else (objKey (s.part m) x.1 x.2 (off + i - base)).map (fun k => (k, e.data.getD i 0)))
          s.writeKeys (ws.map (·.1)) (ws.map (·.2)) e.blight) s) s) s

/-- A transaction's writes are visible: mirrors hold them (R405), cached copies follow (R203, R207), digests (R257; after an import
the entries it touched are stale, R262), and the others that write a granule of it conflict (R253). -/
def State.applyTx (s : State) (t : Tx) (l : List JEntry) : State :=
  let s : State := (s.txView t).writeEntries t.part l
  let ks := (l.map (fun e => s.keysOf t.part e.core e.addr e.data.length)).flatten
  let s : State := (s.served ks (if t.origin = .imported then 2 else s.classOf t.part)).notePools ks
  let s : State := l.foldl (fun s e => s.writeMirrors t.part e) s
  let g := s.grans t.part t.entries
  let s : State := { s with tx := { s.tx with txs := s.tx.txs.map (fun (x : Tx) => if x.num ≠ t.num && (x.phase = TxPhase.opened || x.phase = TxPhase.preparing) then { x with others := (x.others ++ g).dedup } else x) } }
  let s := (s.tablesOf t.part l).foldl (fun s tn => s.refreshCopies t.part tn ks) s
  let cover := ((l.map (fun e => s.coverOf t.part e.addr e.data.length)).flatten).dedup
  if t.origin = .imported then s.updPart t.part (fun q => { q with stale := cover.foldl insertNat q.stale }) else s.redigest t.part cover

/-- What a committed row block counts and reports (R217, R227, R234, R264). -/
def State.sweepCounts (s : State) (t : Tx) (e : Nat) : State :=
  let table := match (s.part t.part).plan with | some pl => (pl.entries.getD e {}).table | none => 0
  let s := s.updSw t.cluster (fun c => { c with
    commits := sat64 (c.commits + 1)
    elements := sat64 (c.elements + t.elems)
    guarded := sat64 (c.guarded + b2n t.guarded)
    blighted := sat64 (c.blighted + t.skipped.length) })
  let s := t.clamps.foldl (fun s x => s.countTable t.part x.1 11 x.2) s
  t.skipped.foldl (fun s r => s.post { cls := 0x02, cause := 0x07, unit := unitCode .swath, loc := BitVec.ofNat 32 t.cluster,
                                       addr := BitVec.ofNat 64 r, tbl := BitVec.ofNat 32 table } [t.part]) s

/-- What the durable point means to who opened the transaction. -/
def State.committed (s : State) (t : Tx) : State :=
  match t.origin with
  | .sweep e b => (s.updPart t.part (fun q => { q with sweep := q.sweep.map (fun w => { w with committed := w.committed ++ [(e, b)] }) })).sweepCounts t e
  | .permute coll first count => { s with link := { s.link with colls := s.link.colls.map (fun c =>
      if c.num = coll then { c with committed := c.committed + (if (first, count) ∈ c.sentLocal then count else 0) } else c) } }
  | _ => s

/-- A transaction that cannot commit: a context's ends with its code, a unit's is dropped and its work may
be done again. -/
def State.failTx (s : State) (t : Tx) (code : Nat) : State :=
  match t.origin with
  | .context p =>
    let sd := match (s.ctx p).stalledOn with | some (.commit _ sd) => sd | _ => 0
    (s.endTx p sd t.num code).goOn p
  | .sweep e b => (s.dropTx t.num).updPart t.part (fun q => { q with sweep := q.sweep.map (fun w => { w with opened := w.opened.filter (· ≠ (e, b)) }) })
  | .permute coll first count => { s.dropTx t.num with link := { s.link with colls := s.link.colls.map (fun (c : Coll) =>
      if c.num = coll then { c with sentLocal := c.sentLocal.filter (· ≠ (first, count)) } else c) } }
  | .imported => (s.dropTx t.num).prepareTx { t with badRedo := false }
  | _ => s.dropTx t.num

/-- The durable mark, and the writes with it (R239, R240): no read falls between the two. -/
def State.makeDurable (s : State) (t : Tx) : State :=
  let v := s.txView t
  let l := v.finalEntries t
  let s := (s.gateWaited t.num).updRecs t.num (fun r =>
    { r with state := .durable }.withEntries (if r.type = 3 then [] else (l.map (v.entryOn t.part r.die)).flatten))
  (((s.updTxn t.num (fun x => { x with phase := .durable, gateSince := none })).applyTx t l).committed t)

/-- The keys that a transaction writes at their homes, with the bytes. -/
def State.txCells (s : State) (t : Tx) : List (Nat × Byte) :=
  let v := s.txView t
  ((v.finalEntries t).map (fun e => List.zip (v.keysOf t.part e.core e.addr e.data.length) e.data)).flatten

/-- Whether the fallow pools hold what a transaction writes (R288). -/
def State.txFits (s : State) (t : Tx) : Bool := s.fallowFits ((s.txCells t).map (·.1)) ((s.txCells t).map (·.2))

/-- TX_DURABLE_POINT (R239, R241, R242, R513). -/
def execTxDurablePoint (tx : Nat) (s : State) : Res :=
  .next (match s.txn tx with
    | none => s
    | some t =>
      if !s.live || t.part ∈ s.tx.recovering || !s.allPrepared t || s.txMustWait t then s
      else if t.badRedo && (match t.origin with | .context _ => false | _ => true) then s.failTx t 5
      else if t.checks.any (fun c => s.commitCount t.part c.1 ≠ c.2) then s.failTx t 1
      else match (match t.origin with | .context _ => s.txCode t | _ => none) with
        | some c => s.failTx t c
        | none =>
          if !s.txFits t then s
          else if !s.gateOpen then s.updTxn tx (fun x => { x with gateSince := some (x.gateSince.getD s.now) })
          else s.makeDurable t)

/-- A transaction's records are freed (R239). -/
def State.freeRecs (s : State) (num : Nat) : State :=
  let dies := ((s.tx.journal.filter (fun r => r.tx = num)).map (·.die)).dedup
  let s := s.updRecs num (fun r => { r with state := .applied })
  let l := s.tx.journal.filter (fun r => !(r.tx = num && r.type ≠ 4))
  { s with tx := { s.tx with
    journal := dies.foldl (fun l d => dropPads d l) l
    freed := s.tx.freed ++ (s.tx.journal.filter (fun r => r.tx = num && r.type ≤ 2)).map (fun r => { r with state := .free }) } }

/-- An import goes on with the transaction after the last one, or completes (R262, R442). -/
def State.importNext (s : State) (n : Nat) : State :=
  match (s.part n).importing with
  | none => s
  | some x =>
    let c := (s.part n).cfg.clusters.headD 0
    match x.batches with
    | [] => (s.updPart n (fun q => { q with importing := none })).complete x.cmd 0 0 (BitVec.ofNat 64 x.sections)
    | b :: r => (s.updPart n (fun q => { q with importing := some { x with batches := r } })).openTx n (clusterDie c) c (s.part n).lastStarted .imported b []

/-- An applied transaction is done: a context's TXC returns 0x00 (R254). -/
def State.retireTx (s : State) (t : Tx) : State :=
  match t.origin with
  | .context p =>
    let sd := match (s.ctx p).stalledOn with | some (.commit _ sd) => sd | _ => 0
    (s.endTx p sd t.num 0).goOn p
  | .imported => (s.dropTx t.num).importNext t.part
  | _ => s.dropTx t.num

/-- TX_RETIRE (R239): participants free their records, then the coordinator its commit record. -/
def execTxRetire (tx : Nat) (s : State) : Res :=
  .next (match s.txn tx with
    | some t => if s.live && t.phase = .durable then (s.freeRecs tx).retireTx t else s
    | none => s)

/-! ### Recovery (R247 to R250) -/

/-- The key of a journal ring byte. -/
def journalKey (d off : Nat) : Nat := 3 * 2 ^ 60 + d * 2 ^ 28 + off % ringBytes

/-- Whether a record can be read correctly: no uncorrectable error was met in it, none of its granules is poisoned. -/
def State.readable (s : State) (found : List RecRead) (r : JRec) : Bool :=
  found.all (fun x => !(x.die = r.die && x.seq = r.seq && !x.crcFails))
    && s.poison.all (fun g => !(journalKey r.die 0 ≤ g && g < journalKey r.die 0 + ringBytes
      && (g - journalKey r.die 0 + ringBytes - r.off % ringBytes) % ringBytes < r.len))

/-- Whether a record's CRC holds as recovery reads it (R248). -/
def JRec.passes (r : JRec) (found : List RecRead) : Bool := r.crcOk && found.all (fun x => !(x.die = r.die && x.seq = r.seq && x.crcFails))

/-- Every row block that a record targets becomes blighted (R249, R474). -/
def State.blightTargets (s : State) (n : Nat) (l : List JEntry) : State :=
  let rowKeysOf : List Nat := (l.map (fun e =>
    match s.rowsAt n e.addr e.data.length with
    | [] => s.keysOf n e.core e.addr e.data.length
    | xs => (xs.map (fun x =>
        (List.range ((x.2.2.2 - x.2.1.firstRow) / 32 * 32 + 32 - (x.2.2.1 - x.2.1.firstRow) / 32 * 32)).map (fun i =>
          let r := x.2.1.firstRow + (x.2.2.1 - x.2.1.firstRow) / 32 * 32 + i
          if r < x.2.1.firstRow + x.2.1.rowCount then rowKeys (s.part n) x.1 x.2.1 r else []))).flatten.flatten)).flatten
  { s with poison := (rowKeysOf.map granule).dedup.foldl insertNat s.poison }

/-- A record is replayed: absolute values, its mirrors and copies with it (R248, R405). -/
def State.replayRec (s : State) (r : JRec) : State :=
  let ks := (r.entries.map (fun e => s.keysOf r.part e.core e.addr e.data.length)).flatten
  let s : State := r.entries.foldl (fun s e => s.writeMirrors r.part e) (s.writeEntries r.part r.entries)
  let s := s.updSw r.cluster (fun c => { c with replayed := sat64 (c.replayed + 1) })
  (s.tablesOf r.part r.entries).foldl (fun s tn => s.refreshCopies r.part tn ks) s

/-- A durable record that cannot be read correctly: its targets become blighted, record 0x02.0x05 (R249). -/
def State.lostRec (s : State) (r : JRec) : State :=
  (s.blightTargets r.part r.entries).post
    { cls := 0x02, cause := 0x05, unit := unitCode .turf, loc := BitVec.ofNat 32 r.die, tag := r.tag,
      addr := BitVec.ofNat 64 (r.die * 2 ^ 28 + r.off % ringBytes) } [r.part]

/-- One record of the partition's journal on a die, in sequence order (R248, R249). -/
def State.recoverRec (found : List RecRead) (s : State) (r : JRec) : State :=
  let commit := s.tx.journal.any (fun x => x.tx = r.tx && x.type = 3 && x.state = .durable && x.passes found)
  let discard : State := s.updSw r.cluster (fun c => { c with discarded := sat64 (c.discarded + 1) })
  if !s.readable found r then (if r.type ≤ 2 && r.state = .durable then s.lostRec r else discard)
  else if r.state = .writing || r.state = .free || !r.passes found then discard
  else if 3 ≤ r.type || r.state = .applied then s
  else if r.state = .durable || (1 < r.mask.length && commit) then s.replayRec r
  else discard

/-- What becomes of a partition's transactions: a durable one is done; a context's that lives on is prepared
again; a sweep's is run again (R250). -/
def State.recoverTx (s : State) (t : Tx) : State :=
  if t.phase = .opened then s
  else if t.phase = .durable then s.retireTx t
  else match t.origin with
    | .context _ => (s.dropTx t.num).prepareTx t
    | .imported => (s.dropTx t.num).prepareTx t
    | _ => s.failTx t 1

/-- The state of a partition's swath units when none of them recovers (R263). -/
def State.swNow (s : State) (n : Nat) : SwState :=
  let q := s.part n
  match q.sweep with
  | some w => if w.digestDue then .digesting else .sweeping
  | none => if q.exports.any (fun x => q.started && x.step = q.lastCompleted) then .exporting else .idle

/-- RECOVERY (R247, R248): the die stewards recover a partition's journals; `found` tells which records they could not read
cleanly. -/
def execRecovery (x : RecoverIn) (s : State) : Res :=
  let part := x.part
  .next (if !s.live || part ∉ s.tx.recovering then s else
    let recs := ((List.range 8).map (fun d => s.tx.journal.filter (fun r => r.die = d && r.part = part))).flatten
    let s := recs.foldl (State.recoverRec x.found) s
    let s := { s with tx := { s.tx with
      journal := (List.range 8).foldl (fun l d => dropPads d l) (s.tx.journal.filter (fun r => r.part ≠ part))
      freed := s.tx.freed ++ (recs.filter (fun (r : JRec) => r.type ≤ 2 && r.state = JState.durable)).map (fun (r : JRec) => { r with state := JState.free })
      waiting := s.tx.waiting.filter (fun r => r.part ≠ part)
      recovering := s.tx.recovering.filter (· ≠ part) } }
    let s := (s.tx.txs.filter (fun t => t.part = part)).foldl State.recoverTx s
    (s.part part).cfg.clusters.foldl (fun s c => if (s.cluster c).sw = .recovering then s.putSw c (s.swNow part) else s) s)

end Sys2Proof.Machine
end

