-- ==== Sys2Proof/Machine/RowEngine.lean ====
section
/-! DEFINITION. The row engines (chapter "Embedding tables, gathers and the rick cache"): gathers with
their fetches, pooling and status, the rick cache and its sketch, windrow replicas, the pressure monitor,
re-salting, table counters, row gradients (R216, R223 to R226). -/

namespace Sys2Proof.Machine

/-! ### Command blocks -/

/-- The gather command block that 64 bytes give (R181, R182). -/
def gatherOf (l : List Byte) : GatherCmd :=
  let w := leAt l 0 8
  let c := leAt l 0x3C 4
  { table := fld w 63 52, pooling := fld w 51 49, idx32 := bitAt w 48, outFmt := fld w 47 42, bag := fld w 41 32,
    empty := bitAt w 31, marks := bitAt w 30, idxAddr := addrAt l 8, offAddr := addrAt l 0x10, wAddr := addrAt l 0x18,
    outAddr := addrAt l 0x20, stAddr := addrAt l 0x28, count := leAt l 0x30 4, bags := leAt l 0x34 4,
    deadline := leAt l 0x38 4, ck := BitVec.ofNat 2 c, ct := BitVec.ofNat 17 (fld c 18 2) }

/-- Whether a completion word of a command block is well formed (R181). -/
def ckWordOk (w : Nat) : Bool :=
  fld w 31 19 = 0 && fld w 1 0 ≠ 0 && ctShapeOk (BitVec.ofNat 2 w) (BitVec.ofNat 17 (fld w 18 2))

/-- The bytes of an output element (R186). -/
def eltSize (fmt : Nat) : Nat := if fmt = 0x10 then 2 else if fmt = 0x20 then 16 else 4

/-- Whether a gather's or a row-gradient command's block is well formed (R181 to R183, R216). R181 says 0 of the offsets
address of fixed bags and of the weights address of an unweighted pooling, and R183 names neither: the model rejects the
second and ignores the first (DESIGN CHOICE, log entry 61). -/
def gatherOk (l : List Byte) (grad : Bool) : Bool :=
  let g := gatherOf l
  fld (leAt l 0 8) 29 0 = 0 && g.pooling ≤ 4 && ckWordOk (leAt l 0x3C 4)
    && (g.outFmt = 0x11 || g.outFmt = 0x10 || (!grad && g.outFmt = 0x20 && (g.pooling = 2 || g.pooling = 4))
        || (!grad && g.outFmt = 0 && g.pooling = 0))
    && (if g.bag = 0 then g.offAddr ≠ 0 else g.bag * g.bags = g.count)
    && (if g.pooling = 4 || (grad && g.pooling = 1) then g.wAddr ≠ 0 else g.pooling = 1 || g.wAddr = 0)

/-- How many output rows a gather has (R186). -/
def GatherCmd.outRows (g : GatherCmd) : Nat := if g.pooling = 0 then g.count else g.bags
/-- The bytes of an output row. -/
def GatherCmd.rowBytes (g : GatherCmd) (t : Table) : Nat := if g.outFmt = 0 then t.recSize else t.width * eltSize g.outFmt

/-- The fault of a list or array of a command block: a forbidden space or bytes out of bounds (R183). -/
def State.spanFault (s : State) (n : Nat) (k : Access) (a : Word) (len : Nat) : Option (BitVec 8) :=
  if len = 0 then must (spaceOf a ∈ k.spaces) 0x06 else s.accessFault n k a len 1

/-- The checks of a gather or row-gradient block at an address (R183, R404): the block's contents where it can be read, then
addresses (R132). -/
def gatherFault (s : State) (p : At) (a : Word) (grad : Bool) : Option (BitVec 8) :=
  let n := s.partNum p.core
  let l := (s.readDev n p.core a 64).1
  let g := gatherOf l
  let h := s.accessFault n .block a 64 32
  firstFault [must (h.isSome || (gatherOk l grad && (s.findTable n g.table).isSome)) 0x05,
    addressFault [must (!(grad && (s.part n).cfg.serve)) 0x06, h,
      match (if h.isSome then none else s.findTable n g.table) with
      | none => none
      | some (_, t) => firstFault [
          s.spanFault n .load g.idxAddr ((if g.idx32 then 4 else 8) * g.count),
          if g.bag = 0 then s.spanFault n .load g.offAddr (4 * (g.bags + 1)) else none,
          if g.pooling = 4 then s.spanFault n .load g.wAddr (4 * g.count) else none,
          if g.pooling = 1 && g.wAddr ≠ 0 then s.spanFault n .store g.wAddr (2 * t.width * g.bags) else none,
          s.spanFault n .store g.outAddr (g.outRows * g.rowBytes t),
          s.spanFault n .block g.stAddr (64 + if g.marks then g.bags else 0),
          must (s.ctOwned n g.ck g.ct) 0x06]]]

/-- The room in a cluster's row engine (R155; the depth is the part's, log entry 7). -/
def State.rowRoom (s : State) (p : At) : Room :=
  { full := Config.rowQueueExtra + 1 ≤ (s.row.jobs.filter (fun j => coreCluster j.p.core = coreCluster p.core)).length, freezes := true }

/-! ### Starting a gather or a row-gradient command -/

/-- Elements of `size` bytes from an address, and their blight. -/
def State.readList (s : State) (n core : Nat) (a : Word) (size cnt : Nat) : List Nat × Bool :=
  let (l, b) := s.readDev n core a (size * cnt)
  ((List.range cnt).map (fun i => leAt l (size * i) size), b)

/-- Whether bag offsets keep R184. -/
def offsetsOk (l : List Nat) (count : Nat) : Bool :=
  l.headD 0 = 0 && l.getLast? = some count
    && (List.range (l.length - 1)).all (fun i => l.getD i 0 ≤ l.getD (i + 1) 0 && l.getD (i + 1) 0 - l.getD i 0 ≤ 65535)

/-- The fetch of an index: the fallback row is at hand, a row is to be fetched (R185). -/
def Part.fetchOf (q : Part) (tn : Nat) (i32 : Bool) (raw : Nat) : Fetch :=
  match classify q tn i32 raw with
  | .row r => { kind := .row r }
  | k => { kind := k, bytes := some (q.tables.get {} tn).fallbackRec.1, blight := (q.tables.get {} tn).fallbackRec.2, outcome := .delivered }

/-- The job that a block starts, its lists read at issue (log entry 22). -/
def State.rowJob (s : State) (p : At) (a : Word) (grad : Bool) : RowJob :=
  let n := s.partNum p.core
  let g := gatherOf (s.readDev n p.core a 64).1
  let (own, t) := (s.findTable n g.table).getD (n, {})
  let (idx, b0) := s.readList n p.core g.idxAddr (if g.idx32 then 4 else 8) g.count
  let (offs, b1) := if g.bag = 0 then s.readList n p.core g.offAddr 4 (g.bags + 1) else ((List.range (g.bags + 1)).map (fun i => i * g.bag), false)
  let (wts, b2) := if g.pooling = 4 then s.readList n p.core g.wAddr 4 g.count
    else if grad && g.pooling = 1 then s.readList n p.core g.wAddr 2 (t.width * g.bags) else ([], false)
  let bad := g.bag = 0 && !offsetsOk offs g.count
  { num := s.row.nextJob, p := p, part := n, grad := grad, cmd := g, issuedAt := s.now, step := (s.ctx p).step,
    tag := s.tagOf p g.outFmt OrderClass.gather.code false false, offs := offs, wts := wts,
    inBlight := b0 || b1 || b2, rejected := bad,
    fetches := if bad then [] else (List.range g.count).map (fun i => (i, (s.part own).fetchOf g.table g.idx32 (idx.getD i 0))) }

/-- The table counters that a job's indices raise (R217). -/
def State.countKinds (s : State) (own t : Nat) (fs : Tab Fetch) : State :=
  let cnt (f : FetchKind → Bool) : Nat := (fs.filter (fun x => f x.2.kind)).length
  (((s.countTable own t 0 (cnt (fun k => match k with | .row _ => true | _ => false))).countTable own t 5 (cnt (· = .invalid))).countTable own t 6
    (cnt (· = .unplaced))).countTable own t 7 (cnt (· = .missing))

/-- A job enters its cluster's row engine. -/
def State.submitRow (s t : State) (p : At) (a : Word) (grad : Bool) : State :=
  let j := s.rowJob p a grad
  let own := ((s.findTable j.part j.cmd.table).map (·.1)).getD j.part
  let t := ({ t with row := { t.row with jobs := t.row.jobs ++ [j], nextJob := t.row.nextJob + 1 } } : State).active ⟨.rowEngine, coreCluster p.core⟩
  if grad then t else t.countKinds own j.cmd.table j.fetches

/-- RGATH (R181). -/
def execRgath (p : At) (f : LayA) (s : State) : Res :=
  let a := s.getS p f.sa
  issue s p { s := [f.sa] } (s.rowRoom p) (firstFault [must (f.sd = 0 && f.zero = 0) 0x03, gatherFault s p a false])
    (fun t => s.submitRow t p a false)

/-- RGRAD (R216). -/
def execRgrad (p : At) (f : LayA) (s : State) : Res :=
  let a := s.getS p f.sa
  issue s p { s := [f.sa] } (s.rowRoom p) (firstFault [must (f.sd = 0 && f.zero = 0) 0x03, gatherFault s p a true])
    (fun t => s.submitRow t p a true)

/-! ### Sources of a row (R177 to R180) -/

/-- Where a row of a table lies, as the partition that has the table sees it: the object that holds its
current bytes (a mirror being copied is its source's, R406), its number and its owner. -/
def State.rowAt (s : State) (own t r : Nat) : Option (Nat × Nat × Obj) :=
  ((s.part own).rowObj t r).bind (fun x =>
    match x.2.mirrorOf with
    | some src => if x.2.copied then some (own, x) else ((s.part (s.part own).cfg.src).objects.find src).map (fun o => ((s.part own).cfg.src, src, o))
    | none => some (own, x))

/-- The keys of a row's master record. -/
def State.masterKeys (s : State) (own t r : Nat) : List Nat :=
  match s.rowAt own t r with
  | some (w, num, o) => rowKeys (s.part w) num o r
  | none => []

/-- The home die of a row (R178). -/
def State.homeDieOf (s : State) (own t r : Nat) : Nat := keyDie ((s.masterKeys own t r).headD 0)

/-- The channel a key lies on: tier 1 and a near stack, tier 2 and a fallow channel. -/
def keyChannel (k : Nat) : Nat × Nat :=
  match keyRegion k with
  | 4 => (1, (k - 4 * 2 ^ 60) / 2 ^ 36)
  | 5 => (2, (k - 5 * 2 ^ 60) / 2 ^ 39)
  | _ => (0, 0)

/-- Whether a channel is in service. -/
def State.chanUp (s : State) (c : Nat × Nat) : Bool :=
  if c.1 = 1 then !(s.near c.2).outOfService else if c.1 = 2 then !(s.chan c.2).outOfService else true

/-! ### The count sketch and the rick cache (R198 to R202) -/

/-- The word that keys the sketch and the sets: table in [51:40], row below. -/
def rowWord (t r : Nat) : Word := BitVec.ofNat 64 (t * 2 ^ 40) ^^^ BitVec.ofNat 64 r

/-- The keys of a row's four sketch counters on a die (R198). -/
def sketchKeys (die t r : Nat) : List Nat :=
  (List.range 4).map (fun i =>
    die * 2 ^ 22 + i * 2 ^ 20 + ((mix64 (rowWord t r ^^^ (BitVec.ofNat 64 (i + 1) * 0x5851F42D4C957F2D#64))) >>> 44).toNat)

/-- The estimate of a row on a die (R198). -/
def State.estimate (s : State) (die t r : Nat) : Nat := ((sketchKeys die t r).map (fun k => s.row.sketch.get 0 k)).foldl min 65535

/-- One sketch increment for a row (R198); the die counts it for R199. -/
def State.sketchInc (s : State) (die t r : Nat) : State :=
  { s with row := { s.row with
    sketch := (sketchKeys die t r).foldl (fun m k => m.set k (min 65535 (m.get 0 k + 1))) s.row.sketch
    sketchIncs := s.row.sketchIncs.set die (s.row.sketchIncs.get 0 die + 1) } }

/-- The sets of a table's share on a die: the share less the pinned fallback row, in ways of one record
(R176, R200, log entry 23). -/
def Table.sets (t : Table) : Nat := if t.cacheOn then (t.cacheShare * 2 ^ 20 - t.recSize) / t.recSize / 8 else 0

/-- The set of a row among `n` (R200). -/
def setOf (t r n : Nat) : Nat := (mix64 (rowWord t r ^^^ 0xA5A5#64)).toNat % (max 1 n)

/-- The ways in use of a set. -/
def waysOf (l : List Way) (die part t set : Nat) : List Way := l.filter (fun w => w.die = die && w.part = part && w.table = t && w.set = set)

/-- The first element with the least measure. -/
def leastBy {α : Type} (f : α → Nat) : List α → Option α
  | [] => none
  | a :: t => match leastBy f t with
    | none => some a
    | some b => if f a ≤ f b then some a else some b

/-- The lowest empty way of a set. -/
def emptyWay (l : List Way) : Option Nat := (List.range 8).find? (fun i => l.all (fun w => w.way ≠ i))

/-- A list of ways with one way's holder replaced. -/
def putWay (l : List Way) (w : Way) : List Way :=
  l.filter (fun x => !(x.die = w.die && x.part = w.part && x.table = w.table && x.set = w.set && x.way = w.way)) ++ [w]

/-- The ways of a set in ascending order. -/
def inOrder (l : List Way) : List Way := ((List.range 8).map (fun i => l.filter (fun w => w.way = i))).flatten

/-- The commit count of the version word of a row's block (R172, R205). -/
def State.rowVer (s : State) (own t r : Nat) : Nat :=
  match s.rowAt own t r with
  | some (w, num, o) => s.commitCount w (verAddr num o (o.rowBlock r))
  | none => 0

/-- The fill that follows a miss in standard order mode (R200). -/
def State.fillRick (s : State) (own t r : Nat) (bytes : List Byte) : State :=
  let tb := (s.part own).tables.get {} t
  let die := s.homeDieOf own t r
  let set := setOf t r tb.sets
  let ws := inOrder (waysOf s.row.rick die own t set)
  let est := s.estimate die t r
  let w (i : Nat) : Way := { die := die, part := own, table := t, set := set, way := i, row := r, bytes := bytes, count := min 255 est,
                             ver := s.rowVer own t r }
  if tb.sets = 0 || (s.part own).cfg.strict || ws.any (fun x => x.row = r) then s
  else match emptyWay ws with
    | some i => { s with row := { s.row with rick := putWay s.row.rick (w i) } }
    | none => match leastBy (fun (x : Way) => x.count) ws with
      | some v => if s.estimate die t v.row < est then { s with row := { s.row with rick := putWay s.row.rick (w v.way) } } else s
      | none => s

/-- The dies that take a replica of a row whose estimate reaches the threshold (R204). -/
def replicaDies (home copies : Nat) : List Nat := (List.range copies).map (fun i => (home + i) % 8)

/-- The near stack of a replica on a die (R204). -/
def replicaStack (c : Nat × Nat) (home d : Nat) : Nat := if d = home && c.1 = 1 then 2 * d + 1 - c.2 % 2 else 2 * d + c.2 % 2

/-- The sets of a windrow object's share on a die (R206): the slots of its near stacks there together, which R206 does not
say (DESIGN CHOICE, log entry 61). -/
def windSets (o : Obj) (t : Table) (die : Nat) : Nat :=
  let m := maskBits o.mask
  o.size / (max 1 m.length) * (m.filter (fun c => c / 2 = die)).length / t.recSize / 8

/-- Changing one fetch of a job. -/
def State.updFetch (s : State) (job i : Nat) (f : Fetch → Fetch) : State :=
  { s with row := { s.row with jobs := s.row.jobs.map (fun j =>
      if j.num = job then { j with fetches := j.fetches.map (fun x => if x.1 = i then (x.1, f x.2) else x) } else j) } }

/-- The job of a number. -/
def State.job (s : State) (num : Nat) : Option RowJob := s.row.jobs.find? (fun j => j.num = num)

/-- A job's table, as it was when the command issued, and its owner (R176). -/
def State.jobTable (s : State) (j : RowJob) : Option (Nat × Table) := (s.findTable j.part j.cmd.table).map (fun x => (x.1, j.old.getD x.2))

/-- The state with the descriptors under which a fetch goes on (R176). -/
def State.fetchView (s : State) (own tn : Nat) (f : Fetch) : State :=
  match f.old with
  | none => s
  | some o => s.updPart own (fun q =>
      let t := q.tables.get {} tn
      { q with
        objects := o.objs
        tables := q.tables.set tn (if o.follow then { o.table with salt := t.salt, newSalt := t.newSalt, cursor := t.cursor, resalting := t.resalting }
          else o.table) })

/-- The table that a fetch reads by. -/
def State.fetchTable (s : State) (own tn : Nat) (f : Fetch) : Table := ((s.fetchView own tn f).part own).tables.get {} tn

/-- The row fetch of a job that is still to deliver and can go on: the job, the fetch, the table's owner. -/
def State.fetchAt (s : State) (job i : Nat) : Option (RowJob × Fetch × Nat × Nat) :=
  match s.job job with
  | none => none
  | some j => match j.fetches.find i, s.findTable j.part j.cmd.table with
    | some f, some (own, _) => match f.kind with
      | .row r => if s.live && f.outcome = .pending && f.bytes.isNone && own ∉ s.tx.recovering then some (j, f, own, r) else none
      | _ => none
    | _, _ => none

/-! ### The queues of a row engine and the turns of a channel (R214, R215) -/

/-- The queues of a row engine: each die's rick cache, its own die's windrow slots, each near and each fallow channel;
turf, which no queue of R214 names, apart. -/
inductive FetchQueue where
  | turf
  | rick (die : Nat)
  | windrow
  | channel (tier ch : Nat)
  deriving DecidableEq, Repr

/-- The replica on a row engine's die that a fetch would read, if there is one. -/
def State.replicaFor (s : State) (j : RowJob) (f : Fetch) (own r : Nat) : Option Way :=
  if f.source = 1 && f.old.isNone then
    s.row.windrow.find? (fun w => w.die = coreDie j.p.core && w.part = own && w.table = j.cmd.table && w.row = r)
  else none

/-- The queue in which a fetch waits for its next source (R179, R214). -/
def State.queueOf (s : State) (j : RowJob) (f : Fetch) (own r : Nat) : FetchQueue :=
  let v := s.fetchView own j.cmd.table f
  match v.rowAt own j.cmd.table r with
  | none => .turf
  | some (w, num, o) =>
    let k := (rowKeys (v.part w) num o r).headD 0
    if o.tier = 0 then .turf
    else if f.source = 0 then .rick (keyDie k)
    else if (s.replicaFor j f own r).isSome then .windrow
    else .channel (keyChannel k).1 (keyChannel k).2

/-- The fetches that wait in the queues of a cluster's row engine, in order: job, index, queue. -/
def State.waitingFetches (s : State) (cl : Nat) : List (Nat × Nat × FetchQueue) :=
  ((s.row.jobs.filter (fun j => coreCluster j.p.core = cl)).map (fun j =>
    j.fetches.filterMap (fun x => (s.fetchAt j.num x.1).map (fun y => (j.num, x.1, s.queueOf y.1 y.2.1 y.2.2.1 y.2.2.2))))).flatten

/-- Whether a fetch stands first in its queue: each queue is served in order, and a queue that is full holds up no other
(R214). -/
def State.isHead (s : State) (cl job i : Nat) (q : FetchQueue) : Bool :=
  match (s.waitingFetches cl).find? (fun x => x.2.2 = q) with
  | some x => x.1 = job && x.2.1 = i
  | none => true

/-- Whether it is a cluster's turn at a channel: of the row engines that queue there none stands between it and the one
served last (R215). -/
def State.hasTurn (s : State) (cl tier ch : Nat) : Bool :=
  let after (c : Nat) : Nat := (c + 80 - 1 - s.row.turns.get 79 (tier * 64 + ch) % 80) % 80
  (List.range 80).all (fun c => after cl ≤ after c || (s.waitingFetches c).all (fun x => x.2.2 ≠ .channel tier ch))

/-- Whether a fetch is served next by the source whose queue it waits in (R214, R215). -/
def State.servesNext (s : State) (j : RowJob) (f : Fetch) (i own r : Nat) : Bool :=
  let cl := coreCluster j.p.core
  let q := s.queueOf j f own r
  s.isHead cl j.num i q && (match q with | .channel t c => s.hasTurn cl t c | _ => true)

/-- A channel has served a cluster's row engine (R215). -/
def State.tookTurn (s : State) (cl : Nat) (q : FetchQueue) : State :=
  match q with
  | .channel t c => { s with row := { s.row with turns := s.row.turns.set (t * 64 + c) cl } }
  | _ => s

/-- RICK_CACHE_FETCH (R198, R200, R204): a fetch reaches the cache of the row's home die. -/
def execRickCacheFetch (job i : Nat) (bad : Bool) (s : State) : Res :=
  .next (match s.fetchAt job i with
    | none => s
    | some (j, f, own, r) =>
      let t := j.cmd.table
      let tb := (s.part own).tables.get {} t
      let ks := s.masterKeys own t r
      if f.source ≠ 0 || ks = [] || keyRegion (ks.headD 0) < 4 || !s.servesNext j f i own r then s
      else
        let die := keyDie (ks.headD 0)
        let before := s.estimate die t r
        let s := s.sketchInc die t r
        let hot := tb.hot ≠ 0 && !(s.part own).cfg.strict && before < tb.hot && tb.hot ≤ s.estimate die t r
        let s := if hot then { s with row := { s.row with copies := s.row.copies ++ (replicaDies die tb.copies).map (fun d => ⟨d, own, t, r⟩) } } else s
        match s.row.rick.find? (fun w => w.die = die && w.part = own && w.table = t && w.row = r) with
        | some w =>
          let s := { s with row := { s.row with rick := s.row.rick.map (fun x => if x = w then { x with count := min 255 (x.count + 1) } else x) } }
          if bad || w.blight then s.updFetch job i (fun f => { f with source := 1 })
          else (s.updFetch job i (fun f => { f with bytes := some w.bytes })).countTable own t 1 1
        | none => s.updFetch job i (fun f => { f with source := 1, missed := true }))

/-- A granule found uncorrectable by a fetch: poisoned, record 0x02.0x01 (R470, R474). -/
def State.fetchBad (s : State) (j : RowJob) (k : Nat) (a : Word) : State :=
  if granule k ∈ s.poison then s
  else (s.lose k).post
    { cls := 0x02, cause := 0x01, unit := unitCode .rowEngine, loc := BitVec.ofNat 32 (coreCluster j.p.core),
      tag := j.tag ||| 0x400, addr := a } [j.part]

/-- The pressure monitor counts a fetch at a row's home channel (R208). -/
def State.countPressure (s : State) (c : Nat × Nat) (own t : Nat) : State :=
  let m := s.row.monitor
  let key := c.1 * 64 + c.2
  let old := ((m.tables.find? (fun x => x.1 = key && x.2.1 = own && x.2.2.1 = t)).map (·.2.2.2)).getD 0
  { s with row := { s.row with monitor := { m with
    near := if c.1 = 1 then m.near.set c.2 (m.near.get 0 c.2 + 1) else m.near
    fallow := if c.1 = 2 then m.fallow.set c.2 (m.fallow.get 0 c.2 + 1) else m.fallow
    tables := m.tables.filter (fun x => !(x.1 = key && x.2.1 = own && x.2.2.1 = t)) ++ [(key, own, t, old + 1)] } } }

/-- A fetch reads its row at its home (R177, R179). A row that an install has left in no object reads the fallback row
(R176, R180). -/
def State.fetchHome (s : State) (j : RowJob) (f : Fetch) (i own r : Nat) (bad : Bool) : State :=
  let t := j.cmd.table
  let v := s.fetchView own t f
  match v.rowAt own t r with
  | none =>
    match ((v.part own).fetchOf t false r).bytes with
    | some l => s.updFetch j.num i (fun f => { f with kind := ((v.part own).fetchOf t false r).kind, bytes := some l, blight := ((v.part own).fetchOf t false r).blight })
    | none => s.updFetch j.num i (fun f => { f with source := 3 })
  | some (w, num, o) =>
    let ks := rowKeys (v.part w) num o r
    let c := keyChannel (ks.headD 0)
    let s := if c.1 = 0 then s else (s.countPressure c own t).countTable own t (if c.1 = 1 then 3 else 4) 1
    let s := if bad then s.fetchBad j (ks.headD 0) (rowAddr num o ((v.part w).tables.get {} o.table) r) else s
    let s := s.served ks (s.classOf j.part)
    let (l, b) := s.readKeys ks
    if b || !s.chanUp c then s.updFetch j.num i (fun f => { f with source := 3 })
    else
      let fill := c.1 ≠ 0 && f.missed && f.old.isNone
      let s := s.updFetch j.num i (fun f => { f with bytes := some l })
      if fill then s.fillRick own t r l else s

/-- ROW_FETCH (R179): turf directly; else, the cache behind it, a replica on the engine's die, else the home. -/
def execRowFetch (job i : Nat) (bad : Bool) (s : State) : Res :=
  .next (match s.fetchAt job i with
    | none => s
    | some (j, f, own, r) =>
      let t := j.cmd.table
      let turf := match (s.fetchView own t f).rowAt own t r with | some (_, _, o) => o.tier = 0 | none => true
      if 3 ≤ f.source || (f.source = 0 && !turf) || !s.servesNext j f i own r || (s.masterKeys own t r).any s.copying then s
      else
        match s.replicaFor j f own r with
        | some w =>
          if bad || w.blight then s.updFetch job i (fun f => { f with source := 2 })
          else
            let s := (s.updFetch job i (fun f => { f with bytes := some w.bytes })).countTable own t 2 1
            if f.missed then s.fillRick own t r w.bytes else s
        | none => (s.tookTurn (coreCluster j.p.core) (s.queueOf j f own r)).fetchHome j f i own r bad)

/-- SKETCH_DECAY (R199). -/
def execSketchDecay (die : Nat) (s : State) : Res :=
  .next (if s.live && 2 ^ 24 ≤ s.row.sketchIncs.get 0 die then
      { s with row := { s.row with
        sketch := s.row.sketch.map (fun x => if x.1 / 2 ^ 22 = die then (x.1, x.2 / 2) else x)
        sketchIncs := s.row.sketchIncs.set die (s.row.sketchIncs.get 0 die - 2 ^ 24)
        rick := s.row.rick.map (fun w => if w.die = die then { w with count := w.count / 2 } else w) } }
    else s)

/-- WINDROW_COPY (R205, R206): the nth scheduled replica is copied from its master, with its row block's version, in one
step. Of several slots whose rows have the lowest estimate the lowest-numbered goes, which R206 does not say (DESIGN CHOICE,
log entry 61). -/
def execWindrowCopy (n : Nat) (s : State) : Res :=
  .next (match s.row.copies[n]? with
    | none => s
    | some c =>
      let q := s.part c.part
      let tb := q.tables.get {} c.table
      let ks := s.masterKeys c.part c.table c.row
      let (l, b) := s.readKeys ks
      let home := keyDie (ks.headD 0)
      let wo := q.objects.get {} tb.windrowObj
      let k := windSets wo tb c.die
      let set := setOf c.table c.row k
      let ws := inOrder (waysOf s.row.windrow c.die c.part c.table set)
      let est (r : Nat) : Nat := s.estimate (s.homeDieOf c.part c.table r) c.table r
      let s' := { s with row := { s.row with copies := dropAt s.row.copies n } }
      let way (i : Nat) : Way := { die := c.die, part := c.part, table := c.table, set := set, way := i, row := c.row, bytes := l,
                                   count := replicaStack (keyChannel (ks.headD 0)) home c.die, ver := s.rowVer c.part c.table c.row }
      let put (i : Nat) : State :=
        ({ s' with row := { s'.row with windrow := putWay s'.row.windrow (way i) } } : State).countTable c.part c.table 12 1
      if !s.live || c.part ∈ s.tx.recovering then s
      else if b || ks = [] || k = 0 || ws.any (fun w => w.row = c.row) then s'
      else match emptyWay ws with
        | some i => put i
        | none => match leastBy (fun (w : Way) => est w.row) ws with
          | some v => if est v.row < est c.row then put v.way else s'
          | none => s')

/-! ### Ends of fetches (R191, R194) -/

/-- GATHER_SEGMENT_DONE (R191, R193): a fetch delivers its row, or with no source left the fallback row with
blight. -/
def execGatherSegmentDone (job i : Nat) (s : State) : Res :=
  .next (match s.job job with
    | none => s
    | some j => match j.fetches.find i, s.findTable j.part j.cmd.table with
      | some f, some (own, _) =>
        if !s.live || f.outcome ≠ .pending then s
        else if f.bytes.isSome then s.updFetch job i (fun f => { f with outcome := .delivered })
        else if f.source < 3 then s
        else
          let s := s.updFetch job i (fun f => { f with outcome := .failed, bytes := some (s.fetchTable own j.cmd.table f).fallbackRec.1, blight := true })
          (s.countTable own j.cmd.table 10 1).post
            { cls := 0x02, cause := 0x04, unit := unitCode .rowEngine, loc := BitVec.ofNat 32 (coreCluster j.p.core),
              tag := j.tag ||| 0x400, addr := BitVec.ofNat 64 (match f.kind with | .row r => r | _ => 0),
              tbl := BitVec.ofNat 32 j.cmd.table } [j.part]
      | _, _ => s)

/-- The substitute of an undelivered fetch (R194): the row's shadow record, else the fallback row. -/
def State.substitute (s : State) (own tn : Nat) (f : Fetch) : Fetch :=
  let q := (s.fetchView own tn f).part own
  let t := q.tables.get {} tn
  let sh : Option (List Byte) := match f.kind with
    | .row r => (q.shadow t).bind (fun x =>
        if x.2.firstRow ≤ r && r < x.2.firstRow + x.2.rowCount then
          let ks := rowKeys q x.1 x.2 r
          if (s.readKeys ks).2 || !s.chanUp (keyChannel (ks.headD 0)) then none else some (s.readKeys ks).1
        else none)
    | _ => none
  match sh with
  | some l => { f with bytes := some l, outcome := .substShadow, blight := false }
  | none => { f with bytes := some t.fallbackRec.1, outcome := .substFallback, blight := t.fallbackRec.2 }

/-- GATHER_DEADLINE (R194, R196). -/
def execGatherDeadline (job : Nat) (s : State) : Res :=
  .next (match s.job job with
    | none => s
    | some j => match s.findTable j.part j.cmd.table with
      | none => s
      | some (own, _) =>
        if !s.live || j.grad || j.cmd.deadline = 0 || (s.part j.part).cfg.strict || s.now < j.issuedAt + j.cmd.deadline then s
        else
          let fs := j.fetches.map (fun x => if x.2.outcome = .pending then (x.1, s.substitute own j.cmd.table x.2) else x)
          let late := (j.fetches.filter (fun x => x.2.outcome = .pending)).map (·.1)
          let cnt (o : FetchEnd) : Nat := (fs.filter (fun x => x.1 ∈ late && x.2.outcome = o)).length
          (({ s with row := { s.row with jobs := s.row.jobs.map (fun x => if x.num = job then { x with fetches := fs } else x) } } : State).countTable
            own j.cmd.table 8 (cnt .substShadow)).countTable own j.cmd.table 9 (cnt .substFallback))

/-! ### Pooling (R186 to R189) -/

/-- One index's row as pooling sees it: its exact values, its marks, whether it is the fallback row. -/
structure Pooled where
  vals : List Val
  blight : Bool
  subst : Bool
  fallback : Bool

/-- The values of a fetch (R60, R185, R191, R194). -/
def State.pooled (s : State) (own tn : Nat) (f : Fetch) : Pooled :=
  let q := (s.fetchView own tn f).part own
  let t := q.tables.get {} tn
  let l := f.bytes.getD []
  let base := match f.kind with
    | .row r => match q.rowObj tn r with | some (_, o) => o.blockBase t r | none => 0
    | _ => 0
  let own_ := match f.kind with | .row _ => f.outcome = .delivered | _ => false
  let (vs, b) := if f.outcome = .substShadow then t.recVals shadowLay l base else t.recVals t.lay l (if own_ then base else 0)
  { vals := vs.take t.width, blight := b || f.blight, subst := f.outcome = .substShadow || f.outcome = .substFallback,
    fallback := !own_ && f.outcome ≠ .substShadow }

/-- An output element of a format from a partial sum (R89, R186). -/
def outSum (fmt : Nat) (x : Partial × Int) (count : Nat) : List Byte :=
  if fmt = 0x20 then leBytes 16 (encW96 x.1 x.2).toNat else leBytes (eltSize fmt) (finalFp (if fmt = 0x10 then 7 else 23) x.1 x.2 count)

/-- One exact value in an output format. -/
def outVal (fmt : Nat) (v : Val) : List Byte :=
  if fmt = 0x20 then outSum fmt (sumMeasured [v]) 1 else leBytes (eltSize fmt) (encFp (if fmt = 0x10 then 7 else 23) v)

/-- One output element of a bag (R186, R187). -/
def poolElem (g : GatherCmd) (rows : List (List Val)) (wts : List Nat) (fb : List Val) (e : Nat) : List Byte :=
  let col := rows.map (fun r => r.getD e Val.zero)
  if col = [] then outVal g.outFmt (if g.empty then fb.getD e Val.zero else Val.zero)
  else match g.pooling with
    | 1 => outVal g.outFmt (maxOf false col)
    | 2 => outSum g.outFmt (sumMeasured col) 1
    | 3 => outSum g.outFmt (sumMeasured col) col.length
    | 4 => outSum g.outFmt (sumMeasured (List.zipWith (fun w v => mulVal (fp32 w) v) wts col)) 1
    | _ => outVal g.outFmt (col.headD Val.zero)

/-- The winning position of R188: the first NaN, else the first that no other exceeds. -/
def winner (col : List Val) : Nat :=
  if col = [] then 0xFFFF
  else match col.findIdx? (fun v => v = .nan) with
    | some i => i
    | none => (col.findIdx? (fun v => col.all (fun w => !ltVal v w))).getD 0

/-- A job's bags: first index and count of each. -/
def RowJob.bagsOf (j : RowJob) : List (Nat × Nat) :=
  (List.range j.cmd.bags).map (fun b => (j.offs.getD b 0, j.offs.getD (b + 1) 0 - j.offs.getD b 0))

/-- The index counts that a status record holds (R192), in its order from 0x08. -/
def RowJob.statusCounts (j : RowJob) : List Nat :=
  let cnt (f : Fetch → Bool) : Nat := (j.fetches.filter (fun x => f x.2)).length
  [j.fetches.length, cnt (fun f => f.kind = .invalid || f.kind = .unplaced), cnt (fun f => f.kind = .missing),
    cnt (fun f => f.outcome = .substShadow), cnt (fun f => f.outcome = .substFallback), cnt (fun f => f.outcome = .failed),
    if j.rejected then 0 else (j.bagsOf.filter (fun b => b.2 = 0)).length]

/-- The 64 bytes of a status record (R192). -/
def RowJob.statusBytes (j : RowJob) (blight subst : Bool) : List Byte :=
  let failed := j.fetches.any (fun x => x.2.outcome = .failed)
  [if j.rejected then 0x02 else if failed then 0x01 else 0x00, BitVec.ofNat 8 (2 * b2n blight + b2n subst)] ++ leBytes 6 0
    ++ (j.statusCounts.map (leBytes 8)).flatten

/-- An output row with its marks, and whether the fallback row was used. -/
structure OutRow where
  bytes : List Byte
  blight : Bool
  subst : Bool
  fallback : Bool
  args : List Nat := []

/-- The output rows of a gather (R186 to R189). A raw record (format 0x00) of a row that a T2 shadow record substitutes is
not in the table's format and no rule states its bytes: they are free values (log entry 61). -/
def State.gatherRows (s : State) (own : Nat) (t : Table) (j : RowJob) : List OutRow :=
  let g := j.cmd
  let ps := j.fetches.map (fun x => s.pooled own g.table x.2)
  let (fb, fbBad) := t.recVals t.lay t.fallbackRec.1 0
  let pick (first cnt : Nat) : List Pooled := (ps.drop first).take cnt
  let row (l : List Pooled) (first : Nat) : OutRow :=
    let vs := l.map (·.vals)
    { bytes := ((List.range t.width).map (poolElem g vs ((j.wts.drop first).take l.length) fb)).flatten
      blight := j.inBlight || l.any (·.blight) || (l.isEmpty && g.empty && (fbBad || t.fallbackBad))
      subst := l.any (·.subst)
      fallback := l.any (·.fallback) || (l.isEmpty && g.empty)
      args := if g.pooling = 1 then (List.range t.width).map (fun e => winner (vs.map (fun r => r.getD e Val.zero))) else [] }
  if g.pooling = 0 then
    (List.range g.count).map (fun i =>
      let o := row (pick i 1) i
      if g.outFmt ≠ 0 then o
      else
        let f := (j.fetches.find i).getD { kind := .missing }
        { o with bytes := if f.outcome = .substShadow then (List.range t.recSize).map (fun x => BitVec.ofNat 8 (Config.freeNat (s.free + i * t.recSize + x)))
                          else slice (f.bytes.getD []) 0 t.recSize })
  else j.bagsOf.map (fun b => row (pick b.1 b.2) b.1)

/-- The mark byte of a bag (R192); `emptyUsed` for an empty bag that yields the fallback row, `fbBad` where that row is
blighted. -/
def bagMark (rows : List Pooled) (emptyUsed fbBad inBlight : Bool) : Byte :=
  BitVec.ofNat 8 (b2n (rows.any (·.subst)) + 2 * b2n (inBlight || rows.any (·.blight) || (emptyUsed && fbBad))
    + 4 * b2n (emptyUsed || rows.any (·.fallback)))

/-- Writing the outputs of a gather (R186, R188, R189). -/
def State.writeOutputs (s : State) (j : RowJob) (t : Table) (rows : List OutRow) : State :=
  let g := j.cmd
  let rb := g.rowBytes t
  let s := (List.range rows.length).foldl (fun s i =>
    match rows[i]? with
    | some o => s.writeMarked j.part j.p.core (plus g.outAddr (i * rb)) o.bytes o.blight o.subst
    | none => s) s
  if g.pooling = 1 && g.wAddr ≠ 0 then
    (List.range rows.length).foldl (fun s i =>
      match rows[i]? with
      | some o => s.writeMarked j.part j.p.core (plus g.wAddr (2 * i * t.width)) ((o.args.map (leBytes 2)).flatten) o.blight o.subst
      | none => s) s
  else s

/-- The record that a fetch delivered: its layout, the block base of its entries, its device address (R170, R191, R194). -/
def State.recordOf (s : State) (own tn : Nat) (f : Fetch) : RecLay × Nat × Word :=
  let q := (s.fetchView own tn f).part own
  let t := q.tables.get {} tn
  match f.kind, f.outcome with
  | .row r, .delivered => match q.rowObj tn r with
    | some (num, o) => (t.lay, o.blockBase t r, rowAddr num o t r)
    | none => (t.lay, 0, t.fallbackAddr)
  | .row r, .substShadow => match q.shadow t with
    | some (num, o) => (shadowLay, 0, rowAddr num o t r)
    | none => (shadowLay, 0, t.fallbackAddr)
  | _, _ => (t.lay, 0, t.fallbackAddr)

/-- Inconsistent blocks among the records that a gather read, its rows, T2 shadow records and fallback rows, are reported by
the reader (R61, R470). -/
def State.reportRows (s : State) (own : Nat) (j : RowJob) : State :=
  j.fetches.foldl (fun s x =>
    let t := s.fetchTable own j.cmd.table x.2
    let (lay, base, a) := s.recordOf own j.cmd.table x.2
    if t.recDamaged lay (x.2.bytes.getD []) base then
      s.post { cls := 0x02, cause := 0x03, unit := unitCode .rowEngine, loc := BitVec.ofNat 32 (coreCluster j.p.core),
               tag := j.tag ||| 0x400, addr := a, tbl := BitVec.ofNat 32 j.cmd.table } [j.part]
    else s) s

/-- A job leaves its row engine: status record, completion action, room for the cluster's cores (R152, R155, R192). -/
def State.finishJob (s : State) (j : RowJob) (blight subst : Bool) (marks : List Byte) : State :=
  let s := { s with row := { s.row with jobs := s.row.jobs.filter (fun x => x.num ≠ j.num) } }
  let s := s.writeDev j.part j.p.core j.cmd.stAddr (j.statusBytes blight subst ++ marks) false
  let s := ((s.flushMerges j.part).updCtx j.p (fun c => c.mark blight subst)).action j.part j.tag j.cmd.ck j.cmd.ct
  ((List.range 15).foldl (fun s i => s.unstall (coreCluster j.p.core * 15 + i)) s).active ⟨.rowEngine, coreCluster j.p.core⟩

/-- Whether a row-gradient command met blight: in its lists or in a gradient row. -/
def RowJob.gradBlight (j : RowJob) : Bool := j.inBlight || j.gradBad ≠ []

/-- The mark bytes of a row-gradient command with marks = 1, which R216 gives the gather's layout without saying what its
marks tell: blight of a bag whose gradient rows were blighted, and whether the bag has an index that R185 or R180 divert
(DESIGN CHOICE, log entry 29). -/
def RowJob.gradMarks (j : RowJob) : List Byte :=
  if j.cmd.marks then
    (List.range j.bagsOf.length).map (fun i =>
      let b := j.bagsOf.getD i (0, 0)
      BitVec.ofNat 8 (2 * b2n (j.inBlight || i ∈ j.gradBad)
        + 4 * b2n (((j.fetches.drop b.1).take b.2).any (fun x => x.2.kind = .missing || x.2.kind = .invalid || x.2.kind = .unplaced))))
  else []

/-- GATHER_COMPLETE (R192): every fetch has ended (or every contribution has been taken): outputs, status,
completion action. A gather that ends with status 0x02 writes no mark bytes, of which R192 does not speak (DESIGN CHOICE, log
entry 61). -/
def execGatherComplete (job : Nat) (s : State) : Res :=
  .next (match s.job job with
    | none => s
    | some j => match s.jobTable j with
      | none => s
      | some (own, t) =>
        if !s.live then s
        else if j.rejected then s.finishJob j false false []
        else if j.grad then (if j.cmd.count ≤ j.next then s.finishJob j j.gradBlight false j.gradMarks else s)
        else if j.fetches.any (fun x => x.2.outcome = .pending) then s
        else
          let rows := s.gatherRows own t j
          let ps := j.fetches.map (fun x => s.pooled own j.cmd.table x.2)
          let marks := if j.cmd.marks then j.bagsOf.map (fun b => bagMark ((ps.drop b.1).take b.2) (b.2 = 0 && j.cmd.empty)
            ((t.recVals t.lay t.fallbackRec.1 0).2 || t.fallbackBad) j.inBlight) else []
          let s := ((s.reportRows own j).writeOutputs j t rows)
          let s := if j.cmd.outFmt = 0 then { s with free := s.free + j.cmd.count * t.recSize } else s
          s.finishJob j (rows.any (·.blight)) (rows.any (·.subst)) marks)

/-! ### RPREL (R201, R202) -/

/-- The tag word of what a row engine does for a context's command (R31, R37). -/
def State.unitTag (s : State) (p : At) : Word := s.tagOf p 0 OrderClass.gather.code false false

/-- Loading one row into its home die's cache (R201, R202). -/
def State.preload (s : State) (own t r : Nat) : State :=
  let tb := (s.part own).tables.get {} t
  let ks := s.masterKeys own t r
  let (l, b) := s.readKeys ks
  let die := keyDie (ks.headD 0)
  let set := setOf t r tb.sets
  let ws := inOrder (waysOf s.row.rick die own t set)
  let way (i : Nat) : Way := 
    { die := die, part := own, table := t, set := set, way := i, row := r, bytes := l, count := min 255 (s.estimate die t r)
      ver := s.rowVer own t r }
  let put (s : State) (i : Nat) : State := { s with row := { s.row with rick := putWay s.row.rick (way i) } }
  if b || ks = [] || keyRegion (ks.headD 0) < 4 || tb.sets = 0 || ws.any (fun w => w.row = r) then s
  else match emptyWay ws with
    | some i => put s i
    | none =>
      if (s.part own).cfg.strict then
        let rot := (s.part own).rotation
        let mine (x : Nat × Nat × Nat × Nat) : Bool := x.1 = die && x.2.1 = t && x.2.2.1 = set
        let i := ((rot.find? mine).map (·.2.2.2)).getD 0
        put (s.updPart own (fun q => { q with rotation := q.rotation.filter (fun x => !mine x) ++ [(die, t, set, (i + 1) % 8)] })) i
      else match leastBy (fun (w : Way) => w.count) ws with
        | some v => put s v.way
        | none => s

/-- RPREL (R201): a malformed block faults with 0x05; indices that R185 or R180 divert are skipped. -/
def execRprel (p : At) (f : LayA) (s : State) : Res :=
  let n := s.partNum p.core
  let a := s.getS p f.sa
  let l := (s.readDev n p.core a 32).1
  let w := leAt l 0 8
  let t := fld w 63 52
  let size := if bitAt w 48 then 4 else 8
  let cnt := leAt l 0x10 4
  let cw := leAt l 0x14 4
  let (ck, ct) : BitVec 2 × BitVec 17 := (BitVec.ofNat 2 cw, BitVec.ofNat 17 (fld cw 18 2))
  issue s p { s := [f.sa] } (s.rowRoom p)
    (firstFault [must (f.sd = 0 && f.zero = 0) 0x03, s.accessFault n .block a 32 32,
      must (fld w 51 49 = 0 && fld w 47 0 = 0 && ckWordOk cw && leAt l 0x18 8 = 0 && (s.findTable n t).isSome) 0x05,
      firstFault [s.spanFault n .load (addrAt l 8) (size * cnt), must (s.ctOwned n ck ct) 0x06]])
    (fun u =>
      let own := ((s.findTable n t).map (·.1)).getD n
      let idx := (s.readList n p.core (addrAt l 8) size cnt).1
      (idx.foldl (fun u raw => match classify (s.part own) t (bitAt w 48) raw with | .row r => u.preload own t r | _ => u) u).action n (s.unitTag p) ck ct)

/-! ### RSTAT and RSALT (R210, R217) -/

/-- The layout that RSTAT and RSALT share: table, second word, address, completion (R210). -/
structure SaltBlock where
  table : Nat
  clear : Bool
  word : Word
  addr : Word
  ck : BitVec 2
  ct : BitVec 17

/-- The block that 32 bytes give. -/
def saltBlock (l : List Byte) : SaltBlock :=
  let c := leAt l 0x18 4
  { table := fld (leAt l 0 8) 63 52, clear := bitAt (leAt l 0 8) 48, word := addrAt l 8, addr := addrAt l 0x10,
    ck := BitVec.ofNat 2 c, ct := BitVec.ofNat 17 (fld c 18 2) }

/-- Whether such a block is well formed; [48] of the control word is RSTAT's. -/
def saltBlockOk (l : List Byte) (clear : Bool) : Bool :=
  fld (leAt l 0 8) 51 49 = 0 && (clear || !bitAt (leAt l 0 8) 48) && fld (leAt l 0 8) 47 0 = 0 && ckWordOk (leAt l 0x18 4) && leAt l 0x1C 4 = 0

/-- The checks of such a block, whose address takes `len` bytes of scratchpad; `banned` where the command is an address fault
in this partition (R404). -/
def saltFault (s : State) (p : At) (a : Word) (clear banned : Bool) (len : Nat) : Option (BitVec 8) :=
  let n := s.partNum p.core
  let l := (s.readDev n p.core a 32).1
  let b := saltBlock l
  let h := s.accessFault n .block a 32 32
  firstFault [must (h.isSome || (saltBlockOk l clear && (s.findTable n b.table).isSome)) 0x05,
    addressFault [must (!banned) 0x06, h, if h.isSome then none else s.spanFault n .block b.addr len,
      must (h.isSome || s.ctOwned n b.ck b.ct) 0x06]]

/-- The 128-byte counter record of a table (R217). -/
def Table.statBytes (t : Table) : List Byte :=
  ((List.range 15).map (fun i => leBytes 8 (t.counts.get 0 i))).flatten ++ leBytes 8 (if t.resalting then t.cursor else 2 ^ 64 - 1)

/-- RSTAT (R217). -/
def execRstat (p : At) (f : LayA) (s : State) : Res :=
  let n := s.partNum p.core
  let a := s.getS p f.sa
  let b := saltBlock (s.readDev n p.core a 32).1
  issue s p { s := [f.sa] } (s.rowRoom p) (firstFault [must (f.sd = 0 && f.zero = 0) 0x03, saltFault s p a true false 128])
    (fun u => match s.findTable n b.table with
      | none => u
      | some (own, t) =>
        let u := u.writeDev n p.core b.addr t.statBytes false
        let u := if b.clear then u.updPart own (fun q => { q with tables := q.tables.upd {} b.table (fun x => { x with counts := [] }) }) else u
        u.action n (s.unitTag p) b.ck b.ct)

/-- RSALT (R210): starts a re-salt, or is rejected in its status byte. -/
def execRsalt (p : At) (f : LayA) (s : State) : Res :=
  let n := s.partNum p.core
  let a := s.getS p f.sa
  let b := saltBlock (s.readDev n p.core a 32).1
  issue s p { s := [f.sa] } (s.rowRoom p)
    (firstFault [must (f.sd = 0 && f.zero = 0) 0x03, saltFault s p a false (s.part n).cfg.serve 1])
    (fun u =>
      let t := (s.part n).tables.get {} b.table
      if t.resalting then (u.writeDev n p.core b.addr [0x03] false).action n (s.unitTag p) b.ck b.ct
      else if (s.part n).salted t = [] then (u.writeDev n p.core b.addr [0x04] false).action n (s.unitTag p) b.ck b.ct
      else
        let u := u.updPart n (fun q => { q with tables := q.tables.upd {} b.table (fun x => { x with newSalt := b.word, cursor := 0, resalting := true }) })
        { u with row := { u.row with resalts := u.row.resalts ++ [{ part := n, table := b.table, p := p, status := some b.addr, ck := b.ck, ct := b.ct, tag := s.unitTag p }] } })

/-- The object and the group within it that a cursor stands at (R211). -/
def groupAt : List (Nat × Obj) → Nat → Option (Nat × Obj × Nat)
  | [], _ => none
  | x :: l, c => if c < x.2.groups then some (x.1, x.2, c) else groupAt l (c - x.2.groups)

/-- The rows of a group. -/
def groupRows (o : Obj) (g : Nat) : List Nat := (List.range (min o.width (o.rowCount - g * o.width))).map (fun i => o.firstRow + g * o.width + i)

/-- The writes of a group's migration: each row's record as it lies now. -/
def State.groupEntries (s : State) (n num : Nat) (o : Obj) (g : Nat) : List JEntry :=
  let t := (s.part n).tables.get {} o.table
  (groupRows o g).map (fun r =>
    let (l, b) := s.homeRow n num o r
    { addr := rowAddr num o t r, data := l, blight := b })

/-- The version words a group's migration depends on, with their commit counts (R211). -/
def State.groupChecks (s : State) (n : Nat) (o : Obj) (g : Nat) : List (Word × Nat) :=
  (((groupRows o g).filterMap (fun r => ((s.part n).rowObj o.table r).map (fun x => verAddr x.1 x.2 (x.2.rowBlock r)))).dedup).map
    (fun a => (a, s.commitCount n a))

/-- RESALT_GROUP_MIGRATE (R211): the group at the cursor is moved under a transaction; behind the last one the
new salt holds. -/
def execResaltGroupMigrate (part table : Nat) (s : State) : Res :=
  let q := s.part part
  let t := q.tables.get {} table
  .next (match s.row.resalts.find? (fun x => x.part = part && x.table = table) with
    | none => s
    | some r =>
      if !s.live || !t.resalting || part ∈ s.tx.recovering then s
      else if s.tx.txs.any (fun x => x.part = part && x.origin = .resalt table t.cursor) then s
      else match groupAt (q.salted t) t.cursor with
        | some (num, o, g) =>
          (s.served (((groupRows o g).map (rowKeys q num o)).flatten) 1).openTx part (coreDie r.p.core) (coreCluster r.p.core) (q.lastStarted) (.resalt table t.cursor) (s.groupEntries part num o g) (s.groupChecks part o g)
        | none =>
          let s := s.updPart part (fun q => { q with tables := q.tables.upd {} table (fun x => { x with salt := x.newSalt, newSalt := 0, cursor := 0, resalting := false }) })
          let s := { s with row := { s.row with resalts := s.row.resalts.filter (fun x => !(x.part = part && x.table = table)) } }
          ((match r.status with | some a => s.writeDev part r.p.core a [0x00] false | none => s).action part r.tag r.ck r.ct))

/-! ### The pressure monitor (R208, R209) -/

/-- The three tables with the most fetches on a channel: partition and number. -/
def topTables (l : List (Nat × Nat × Nat × Nat)) (key : Nat) : List (Nat × Nat) :=
  let xs := l.filter (fun x => x.1 = key)
  let sorted := xs.mergeSort (fun a b => b.2.2.2 < a.2.2.2 || (a.2.2.2 = b.2.2.2 && (a.2.1, a.2.2.1) = min (a.2.1, a.2.2.1) (b.2.1, b.2.2.1)))
  (sorted.take 3).map (fun x => (x.2.1, x.2.2.1))

/-- The verdict on one tier of an interval (R209): the new run, whether posted, and the event's channel and
imbalance × 256 where one is posted. -/
def tierRun (m : Tab Nat) (n run : Nat) (posted : Bool) : Nat × Bool × Option (Nat × Nat) :=
  let l := (List.range n).map (fun i => m.get 0 i)
  let total := l.sum
  let big := l.foldl max 0
  if total < 10 ^ 6 || big * n ≤ 4 * total then (0, false, none)
  else
    let ch := (l.findIdx? (· = big)).getD 0
    if 100 ≤ run + 1 && !posted then (run + 1, true, some (ch, big * n * 256 / total)) else (run + 1, posted, none)

/-- A pressure event is posted to the partitions of the tables it names, which count it (R209, R217, R471). -/
def State.pressure (s : State) (tier ch imb : Nat) (top : List (Nat × Nat)) : State :=
  let tn (i : Nat) : Nat := ((top[i]?).map (·.2)).getD 0
  let s := top.foldl (fun s x => s.countTable x.1 x.2 14 1) s
  s.post { cls := 0x06, cause := 0x01, unit := unitCode (if tier = 0 then .near else .fallow), loc := BitVec.ofNat 32 ch,
           detail := BitVec.ofNat 64 (tier * 2 ^ 62 + ch * 2 ^ 56 + imb % 65536 * 2 ^ 40 + tn 0 * 2 ^ 24 + tn 1 * 2 ^ 12 + tn 2) } ((top.map (·.1)).dedup)

/-- PRESSURE_INTERVAL (R208, R209): a 100 ms interval ends. -/
def execPressureInterval (s : State) : Res :=
  let m := s.row.monitor
  .next (if !s.live || s.now < m.since + 100000000 then s else
    let (nr, np, ne) := tierRun m.near 16 m.nearRun m.nearPosted
    let (fr, fp, fe) := tierRun m.fallow 32 m.fallowRun m.fallowPosted
    let s := { s with row := { s.row with monitor := { since := m.since + 100000000, nearRun := nr, fallowRun := fr, nearPosted := np, fallowPosted := fp } } }
    let s := match ne with | some (c, i) => s.pressure 0 c i (topTables m.tables (64 + c)) | none => s
    match fe with | some (c, i) => s.pressure 1 c i (topTables m.tables (128 + c)) | none => s)

/-! ### Row gradients (R216, R223 to R226) -/

/-- The plan entry of a table. -/
def Part.entryOf (q : Part) (t : Nat) : Option PlanEntry :=
  q.plan.bind (fun pl => pl.entries.find? (fun e => e.valid && !e.dense && e.table = t))

/-- A row-gradient accumulator (R223): anchor, slots per die, the address of the area on each die. -/
structure RowAcc where
  full : Bool
  anchor : BitVec 10
  slots : Nat
  terms : Nat
  touched : Nat
  areas : List Word

/-- The accumulator descriptor at an address. -/
def State.rowAcc (s : State) (n : Nat) (a : Word) : RowAcc :=
  let k := s.leadCore n
  let l := (s.readDev n k a 64).1
  let w := leAt l 0 8
  let m := (s.readDev n k (addrAt l 0x38) 64).1
  { full := bitAt w 63, anchor := BitVec.ofNat 10 (fld w 62 53), slots := fld w 31 0, terms := leAt l 8 8, touched := leAt l 0x10 8,
    areas := (List.range 8).map (fun i => addrAt m (8 * i)) }

/-- The bytes of a slot (R224). -/
def Table.slotBytes (t : Table) : Nat := 16 + 16 * t.padded

/-- Writing the fields that the part maintains in an accumulator descriptor. -/
def State.putRowAcc (s : State) (n : Nat) (a : Word) (x : RowAcc) : State :=
  let k := s.leadCore n
  let (l, b) := s.readDev n k a 64
  let w := leAt l 0 8 % 2 ^ 63 + b2n x.full * 2 ^ 63
  s.writeKeys (s.keysOf n k a 24) (leBytes 8 w ++ leBytes 8 x.terms ++ leBytes 8 x.touched) b

/-- The die on which a row block's slots lie and its block is swept (R225). -/
def State.sweepDie (s : State) (n b : Nat) : Nat :=
  let ds := (List.range 8).filter (· ∈ s.diesOf n)
  ds.getD (b % max 1 ds.length) 0
/-- The cluster whose swath unit sweeps a row block (R225). -/
def State.sweepCluster (s : State) (n b : Nat) : Nat :=
  let ds := (List.range 8).filter (· ∈ s.diesOf n)
  let cs := (s.part n).cfg.clusters.filter (fun c => clusterDie c = s.sweepDie n b)
  cs.getD (b / max 1 ds.length % max 1 cs.length) 0

/-- The address of a slot. -/
def RowAcc.slotAddr (x : RowAcc) (t : Table) (d i : Nat) : Word := plus (x.areas.getD d 0) (i * t.slotBytes)

/-- The directory entry of a slot: row and occupied (R224). -/
def State.slotDir (s : State) (n : Nat) (a : Word) : Nat × Bool :=
  let w := leNat (s.readDev n 0 a 16).1
  (fld w 39 0, bitAt w 63)

/-- The slot of a row on a die by open addressing: the row's own, else the first free one; none when full
(R224, log entry 24). -/
def State.findSlot (s : State) (n : Nat) (x : RowAcc) (t : Table) (tn d r : Nat) : Option (Nat × Bool) :=
  let start := (mix64 (rowWord tn r)).toNat % max 1 x.slots
  ((List.range x.slots).map (fun i => (start + i) % max 1 x.slots)).findSome? (fun i =>
    let (row, occ) := s.slotDir n (x.slotAddr t d i)
    if !occ then some (i, false) else if row = r then some (i, true) else none)

/-- Adding an exact rational term under a declared window (R86, R87, R90, R216). -/
def addRat (E : Int) (a : Partial) (t : Val) (d : Nat) : Partial :=
  match t with
  | .fin s m e =>
    if m ≠ 0 && E + 1 ≤ log2q m d + e then a.over else addW96 a { units := gridUnits E s m d e }
  | t => { a with special := combine a.special (specialOf t) }

/-- The bag of an index. -/
def RowJob.bagOf (j : RowJob) (i : Nat) : Nat := (j.bagsOf.findIdx? (fun b => b.1 ≤ i && i < b.1 + b.2)).getD 0

/-- The terms of a contribution: for each element none or a value with a divisor (R216). -/
def State.gradTerms (s : State) (j : RowJob) (t : Table) (i : Nat) : List (Option (Val × Nat)) × Bool :=
  let g := j.cmd
  let b := j.bagOf i
  let sz := eltSize g.outFmt
  let (l, bl) := s.readDev j.part j.p.core (plus g.outAddr ((if g.pooling = 0 then i else b) * t.width * sz)) (t.width * sz)
  let gv (e : Nat) : Val := if g.outFmt = 0x10 then bf16 (leAt l (2 * e) 2) else fp32 (leAt l (4 * e) 4)
  let pos := i - (j.offs.getD b 0)
  ((List.range t.width).map (fun e =>
    match g.pooling with
    | 1 => if j.wts.getD (b * t.width + e) 0xFFFF = pos then some (gv e, 1) else none
    | 3 => some (gv e, j.offs.getD (b + 1) 0 - j.offs.getD b 0)
    | 4 => some (mulVal (fp32 (j.wts.getD i 0)) (gv e), 1)
    | _ => some (gv e, 1)), bl || j.inBlight)

/-- A slot's elements with a contribution added. -/
def addToSlot (a : BitVec 10) (old : List Byte) (terms : List (Option (Val × Nat))) : List Byte :=
  ((List.range terms.length).map (fun e =>
    let p := onGrid a (w96At (slice old (16 * e) 16))
    let q := match terms.getD e none with
      | some (v, d) => addRat (anchorE a) p v d
      | none => p
    leBytes 16 (encW96 q (anchorE a)).toNat)).flatten

/-- Every element of every occupied slot gets overflow (R87). -/
def State.overflowSlots (s : State) (n : Nat) (x : RowAcc) (t : Table) : State :=
  ((List.range 8).filter (fun d => x.areas.getD d 0 ≠ 0)).foldl (fun s d =>
    (List.range x.slots).foldl (fun s i =>
      let a := x.slotAddr t d i
      if (s.slotDir n a).2 then
        let (l, b) := s.readDev n 0 (plus a 16) (16 * t.padded)
        s.writeKeys (s.keysOf n 0 (plus a 16) (16 * t.padded))
          ((List.range t.padded).map (fun e => leBytes 16 (BitVec.toNat (w96At (slice l (16 * e) 16) ||| (1#128 <<< 108))))).flatten b
      else s) s) s

/-- A contribution to row `r` enters the table's accumulator, or finds it full (R226). -/
def State.contribute (s : State) (j : RowJob) (t : Table) (e : PlanEntry) (o : Obj) (r i : Nat) : State :=
  let n := j.part
  let x := s.rowAcc n e.accAddr
  let d := s.sweepDie n (o.rowBlock r)
  match s.findSlot n x t j.cmd.table d r with
  | none => s.putRowAcc n e.accAddr { x with full := true }
  | some (k, occ) =>
    let a := x.slotAddr t d k
    let (terms, bl) := s.gradTerms j t i
    let old := if occ then s.readDev n 0 (plus a 16) (16 * t.padded) else (List.replicate (16 * t.padded) 0, false)
    let new := addToSlot x.anchor old.1 (terms ++ List.replicate (t.padded - t.width) none)
    let s := (s.writeKeys (s.keysOf n 0 a 16) (leBytes 16 (r + 2 ^ 63)) false).writeKeys (s.keysOf n 0 (plus a 16) (16 * t.padded)) new (old.2 || bl)
    let (cnt, past) := addTerms x.terms 1
    let s := s.putRowAcc n e.accAddr { x with terms := cnt, touched := if occ then x.touched else x.touched + 1 }
    if past then s.overflowSlots n x t else s

/-- GRADIENT_CONTRIBUTION (R216, R219, R226): the next contribution of a row-gradient command. With max pooling an index
that wins no element makes none. -/
def execGradientContribution (job : Nat) (s : State) : Res :=
  .next (match s.job job with
    | none => s
    | some j =>
      let q := s.part j.part
      let t := q.tables.get {} j.cmd.table
      if !s.live || !j.grad || j.cmd.count ≤ j.next || j.rejected then s
      else
        let s' := { s with row := { s.row with jobs := s.row.jobs.map (fun (x : RowJob) => if x.num = job then { x with next := x.next + 1 } else x) } }
        let (terms, bl) := s.gradTerms j t j.next
        match (j.fetches.find j.next).map (fun (f : Fetch) => f.kind) with
        | some (FetchKind.row r) => match q.rowObj j.cmd.table r, q.entryOf j.cmd.table with
          | some (_, o), some e =>
            let s' := { s' with row := { s'.row with jobs := s'.row.jobs.map (fun (x : RowJob) => if x.num = job then { x with gradBad := if bl then insertNat x.gradBad (x.bagOf j.next) else x.gradBad } else x) } }
            if terms.all (·.isNone) then s'
            else if s.late j.part j.step then s'.countLate (coreCluster j.p.core) j.part j.tag
            else s'.contribute j t e o r j.next
          | _, _ => s'.countTable j.part j.cmd.table 13 1
        | _ => s'.countTable j.part j.cmd.table 13 1)

end Sys2Proof.Machine
end

