-- ==== Sys2Proof/Machine/Collective.lean ====
section
/-! DEFINITION. Collectives of the exchange units (R359 to R370): submission, phases, ring steps on carried sums
(R362), direct transfers, the in-place permute (R368), aborts, the status record and the lag report; quarantine. -/

namespace Sys2Proof.Machine

/-! ### The command block (R359, R360) -/

/-- A collective command block. -/
def collOf (l : List Byte) : CollCmd :=
  let w := leAt l 0 8
  let b := leAt l 0x38 4
  let k := leAt l 0x3C 4
  { kind := fld w 63 60, op := fld w 59 58, group := fld w 57 50, rings := fld w 49 47 + 1, inFmt := fld w 46 41, outFmt := fld w 40 35,
    histBase := BitVec.ofNat 8 (fld w 34 27), inPlace := bitAt w 26, inAddr := addrAt l 8, outAddr := addrAt l 0x10, cntAddr := addrAt l 0x18,
    elems := leAt l 0x20 8, stAddr := addrAt l 0x28, statAddr := addrAt l 0x30, buffers := fld b 7 0, bufSize := fld b 23 8,
    shards := fld b 31 24, ck := BitVec.ofNat 2 k, ct := BitVec.ofNat 17 (fld k 18 2) }

/-- The bytes of an element that a collective moves: narrow codes move as the bytes that hold them. -/
def collSize (fmt : Nat) : Nat := if fmt = 0x10 then 2 else if fmt = 0x11 then 4 else if fmt = 0x20 then 16 else 1
/-- The elements of that size that `n` elements of a format take. -/
def collUnits (fmt n : Nat) : Nat := if 1 ≤ fmt && fmt ≤ 5 then ceilDiv (n * eltBits fmt) 8 else n
/-- The elements of a format that such units hold. -/
def collElems (fmt n : Nat) : Nat := if 1 ≤ fmt && fmt ≤ 5 then n * 8 / eltBits fmt else n

/-- Whether a block keeps R359 and R360 beside its group and its addresses. -/
def collShape (l : List Byte) (g : CollCmd) : Bool :=
  let wide (f : Nat) : Bool := f = 0x10 || f = 0x11 || f = 0x20
  g.kind ≤ 4 && fld (leAt l 0 8) 25 0 = 0 && fld (leAt l 0x3C 4) 31 19 = 0
    && (if g.kind ≤ 1 then g.op ≠ 3 && wide g.inFmt && wide g.outFmt && (g.outFmt ≠ 0x20 || g.op = 0)
        else g.op = 0 && fmtKnown g.inFmt && g.outFmt = g.inFmt)
    && (!g.inPlace || (g.kind = 4 && g.inAddr = g.outAddr))
    && (g.kind = 3 || (if g.kind = 4 then fld g.cntAddr.toNat 63 32 = 0 else g.cntAddr = 0))
    && 2 ≤ g.buffers && g.buffers ≤ 16 && 1 ≤ g.bufSize && g.bufSize ≤ 256 && 1 ≤ g.shards && g.ck ≠ 0 && ctShapeOk g.ck g.ct

/-- The members of a collective's group. -/
def State.groupOf (s : State) (n g : Nat) : List Nat := (s.member n).image.groups.getD g []
/-- The members of a collective's group, this member's place among them. -/
def State.collGroup (s : State) (c : Coll) : List Nat := s.groupOf c.part c.cmd.group
def State.collPos (s : State) (c : Coll) : Nat := (s.collGroup c).findIdx (· = (s.member c.part).image.own)
/-- The destination and the source member of a permute (R359). -/
def CollCmd.dest (g : CollCmd) : Nat := fld g.cntAddr.toNat 31 16
def CollCmd.source (g : CollCmd) : Nat := fld g.cntAddr.toNat 15 0

/-- The units that one member contributes. -/
def CollCmd.units (g : CollCmd) : Nat := collUnits g.inFmt g.elems

/-- The counts that this member sends to each member of the group (kind 3). -/
def State.sendCounts (s : State) (n core : Nat) (g : CollCmd) (m : Nat) : List Nat := (s.readList n core g.cntAddr 8 m).1.map (collUnits g.inFmt)

/-- The bytes of the output as far as the command block tells them. -/
def CollCmd.outBytes (g : CollCmd) (m : Nat) : Nat :=
  collSize g.outFmt * (if g.kind = 1 then ceilDiv g.units m else if g.kind = 2 then g.units * m else if g.kind = 3 then 0 else g.units)

/-- The checks of XCOLL (R132, R137, R155, R360). -/
def collFault (s : State) (p : At) (a : Word) : Option (BitVec 8) :=
  let n := s.partNum p.core
  let l := (s.readDev n p.core a 64).1
  let g := collOf l
  let grp := s.groupOf n g.group
  let own := (s.member n).image.own
  let inLen := if g.kind = 3 then (s.sendCounts n p.core g grp.length).sum else if g.kind ≤ 1 then g.units * g.shards else g.units
  firstFault [s.accessFault n .block a 64 32, must (collShape l g) 0x05,
    must ((s.member n).installed && own ∈ grp && (g.kind ≠ 4 || (g.dest ∈ grp && g.source ∈ grp))) 0x05,
    if g.kind = 3 then s.spanFault n .load g.cntAddr (8 * grp.length) else none,
    s.spanFault n .area g.inAddr (inLen * collSize g.inFmt),
    s.spanFault n .area g.outAddr (g.outBytes grp.length),
    must (spaceOf g.stAddr ≤ 1) 0x06, s.spanFault n .store g.stAddr (g.buffers * g.bufSize * 65536),
    s.spanFault n .block g.statAddr 640, must (s.serveWriteOk n g.outAddr) 0x06, must (s.ctOwned n g.ck g.ct) 0x06]

/-- The room in a die's exchange unit (R155; the depth is the part's, log entry 7). -/
def State.collRoom (s : State) (p : At) : Room :=
  { full := Config.exchangeQueueExtra + 1 ≤ (s.link.colls.filter (fun c => coreDie c.p.core = coreDie p.core)).length, freezes := true }

/-- Changing a collective. -/
def State.updColl (s : State) (num : Nat) (f : Coll → Coll) : State :=
  { s with link := { s.link with colls := s.link.colls.map (fun c => if c.num = num then f c else c) } }

/-! ### Completion (R365, R366, R369, R370) -/

/-- The value of an element of a wide format. -/
def wideVal (fmt w : Nat) : Val := if fmt = 0x10 then bf16 w else if fmt = 0x11 then fp32 w else w96 w

/-- The statistics record over a collective's results (R94). R94 gives no values to the codes of narrow or untyped elements
that a collective moves without scales: the record over those counts no elements (DESIGN CHOICE, log entry 59). -/
def Coll.stats (c : Coll) : Stats :=
  if 0x10 ≤ c.cmd.outFmt then
    statsOf c.cmd.histBase (c.got.map (fun x => wideVal c.cmd.outFmt x.2))
      [0, 0, 0, if c.cmd.outFmt = 0x20 then (c.got.filter (fun x => bitAt x.2 108)).length else 0, 0]
  else statsOf c.cmd.histBase [] [0, 0, 0, 0, 0]

/-- The status record (R369). -/
def State.collRecord (s : State) (c : Coll) (status : BitVec 8) (stalled : BitVec 32) : List Byte :=
  [status, BitVec.ofNat 8 (2 * b2n c.blight + b2n c.subst)] ++ leBytes 2 0 ++ leBytes 4 stalled.toNat
    ++ leBytes 8 (collElems c.cmd.outFmt (if c.cmd.inPlace then c.committed else c.got.length)) ++ leBytes 8 c.under ++ leBytes 8 c.ringSteps
    ++ leBytes 8 c.startedAt ++ leBytes 8 s.now ++ leBytes 16 0 ++ c.stats.bytes

/-- The last 256 lateness records of an exchange unit stay (R370). -/
def keepLag (l : List LagRec) (x : LagRec) : List LagRec :=
  let same := l.filter (fun y => y.die = x.die)
  (l.filter (fun y => y.die ≠ x.die)) ++ same.drop (same.length - 255) ++ [x]

/-- A collective ends with a status: record, counters, completion action (R369, R376). -/
def State.endColl (s : State) (c : Coll) (status : BitVec 8) (stalled : BitVec 32) : State :=
  let s := s.writeDev c.part c.p.core c.cmd.statAddr (s.collRecord c status stalled) false
  let s := (s.xuCount c.part (if status = 0 then 0 else 1) 1).flushMerges c.part
  let s := { s with link := { s.link with
    colls := s.link.colls.filter (fun (x : Coll) => x.num ≠ c.num)
    lag := keepLag s.link.lag { die := coreDie c.p.core, part := c.part, late := c.late } } }
  ((s.action c.part c.tag c.cmd.ck c.cmd.ct).unstall c.p.core).active ⟨.exchange, coreDie c.p.core⟩

/-- Every collective of a partition ends with a status (R357, R369). -/
def State.endColls (s : State) (n : Nat) (status : BitVec 8) : State :=
  (s.link.colls.filter (fun c => c.part = n)).foldl (fun s c => s.endColl c status 0xFFFFFFFF) s

/-- An abort reaches a partition: the collective that it names ends with the same status and stalled member (R365). -/
def State.abortColl (s : State) (n : Nat) (f : Flit) : State :=
  match s.collOf n f with
  | some c => s.endColl c 0x01 (BitVec.ofNat 32 f.first)
  | none => s

/-- The abort of a collective to member `i` of its group: a type 4 flit, or straight to the collective of another partition on this
    module (R365, R338). -/
def State.sendAbort (s : State) (c : Coll) (stalled i : Nat) : State :=
  let m := s.member c.part
  let f : Flit := { bareFlit 4 with epoch := m.image.epoch, dst := i, src := m.image.own, step := c.step, part := c.part, coll := BitVec.ofNat 10 c.no, first := stalled }
  match m.image.sibling c.part i with
  | some p => s.abortColl p { f with part := p }
  | none => s.routeFlit c.part f

/-- Abort flits to every other member of the group (R365); a quarantined partition sends none (R357). -/
def State.sendAborts (s : State) (c : Coll) (stalled : Nat) : State :=
  let m := s.member c.part
  if m.quarantined then s
  else ((s.collGroup c).filter (· ≠ m.image.own)).foldl (fun s i => s.sendAbort c stalled i) s

/-- XCOLL (R155, R359): the block is read at issue; in quarantine it completes at once with status 0x03 (R357). -/
def execXcoll (p : At) (f : LayA) (s : State) : Res :=
  let a := s.getS p f.sa
  let n := s.partNum p.core
  let g := collOf (s.readDev n p.core a 64).1
  issue s p { s := [f.sa] } (s.collRoom p) (firstFault [must (f.sd = 0 && f.zero = 0) 0x03, collFault s p a])
    (fun t =>
      let step := (s.ctx p).step
      let no := ((s.link.collNums.find? (fun x => x.1 = n && x.2.1 = g.group && x.2.2.1 = step)).map (·.2.2.2)).getD 0
      let c : Coll := { num := s.link.nextColl, no := no, part := n, p := p, tag := s.tagOf p g.outFmt OrderClass.exchange.code false false, step := step, cmd := g, startedAt := s.now, readyAt := s.now, stepMs := (s.member n).ringStepMs }
      let mine (x : InFlit) : Bool := x.flit.part = n && x.flit.step = step && x.flit.coll.toNat = no % 1024 && x.flit.src ∈ s.groupOf n g.group
      let c := { c with inbox := s.link.early.filter mine }
      let t := { t with link := { t.link with
        colls := t.link.colls ++ [c]
        nextColl := t.link.nextColl + 1
        collNums := t.link.collNums.filter (fun (x : Nat × Nat × BitVec 16 × Nat) => !(x.1 = n && x.2.1 = g.group && x.2.2.1 = step)) ++ [(n, g.group, step, no + 1)]
        early := t.link.early.filter (fun x => !mine x) } }
      let t := t.active ⟨.exchange, coreDie p.core⟩
      if (s.member n).quarantined then t.endColl c 0x03 0xFFFFFFFF else t)

/-- The report of XLAG (R370): the time, the number of collectives and the lateness seen, then the members by their totals. -/
def State.lagReport (s : State) (p : At) : List Byte :=
  let rs := s.link.lag.filter (fun x => x.die = coreDie p.core && x.part = s.partNum p.core)
  let ms := ((rs.map (fun r => r.late.map (·.1))).flatten).dedup
  let of (m : Nat) : List Nat := rs.map (fun r => ((r.late.filter (fun x => x.1 = m)).map (·.2)).sum)
  let total (m : Nat) : Nat := (of m).sum
  let sorted := ms.foldl (fun acc m => acc.takeWhile (fun y => total m ≤ total y) ++ [m] ++ acc.dropWhile (fun y => total m ≤ total y)) []
  let late := sorted.filter (fun m => total m ≠ 0)
  let entry (i : Nat) : List Byte := match late[i]? with
    | some m => leBytes 2 m ++ leBytes 2 ((of m).filter (· ≠ 0)).length ++ leBytes 4 ((of m).foldl max 0) ++ leBytes 8 (total m)
    | none => leBytes 2 0xFFFF ++ leBytes 14 0
  leBytes 8 s.now ++ leBytes 8 rs.length ++ leBytes 8 ((ms.map total).sum) ++ leBytes 40 0 ++ ((List.range 28).map entry).flatten

/-- XLAG (R370). -/
def execXlag (p : At) (f : LayA) (s : State) : Res :=
  let n := s.partNum p.core
  let a := s.getS p f.sa
  issue s p { s := [f.sa] } {} (firstFault [must (f.sd = 0 && f.zero = 0) 0x03, s.accessFault n .block a 512 1])
    (fun t => t.writeDev n p.core a (s.lagReport p) false)

/-! ### Who adds and who passes on what (R362, R363) -/

/-- The elements that one member of a ring owns. -/
def State.chunkLen (s : State) (c : Coll) : Nat :=
  max 1 (if c.cmd.kind = 2 then c.cmd.units else ceilDiv c.cmd.units (s.collGroup c).length)
/-- The elements of the whole result. -/
def State.totalUnits (s : State) (c : Coll) : Nat := if c.cmd.kind = 2 then c.cmd.units * (s.collGroup c).length else c.cmd.units
/-- The place of the member that owns an element. -/
def State.ownerOf (s : State) (c : Coll) (e : Nat) : Nat := min ((s.collGroup c).length - 1) (e / s.chunkLen c)

/-- The size of ring `k` of a group of `m`: rings of up to 64 consecutive members (R363). -/
def ringSize (m k : Nat) : Nat := min 64 (m - 64 * k)
/-- The number of such rings. -/
def ringCount (m : Nat) : Nat := ceilDiv m 64
/-- The member of ring `k` that stands for the elements of owner `o`: the one that holds the owner's place in its
ring. -/
def standIn (m o k : Nat) : Nat := 64 * k + o % 64 % (max 1 (ringSize m k))
/-- The next member of a place's first-level ring. -/
def ringNext (m i : Nat) : Nat := let k := i / 64; 64 * k + (i % 64 + 1) % (max 1 (ringSize m k))

/-- How many partial sums a member receives for an element of owner `o`, and to whom it passes its own (R363): round
its ring to the stand-in, then from ring to ring to the owner. -/
def reduceHop (m o i : Nat) : Nat × Option Nat :=
  let k := i / 64
  let a := standIn m o k
  let ring := ringSize m k
  if i ≠ a then ((if ringNext m a = i then 0 else 1), some (ringNext m i))
  else
    let r := ringCount m
    let up := if r ≤ 1 || (o / 64 + 1) % r = k then 0 else 1
    ((if 1 < ring then 1 else 0) + up, if k = o / 64 then none else some (standIn m o ((k + 1) % r)))

/-- To whom a member passes an element's final value (R362, R363). -/
def gatherHops (m o i : Nat) : List Nat :=
  let k := i / 64
  let a := standIn m o k
  let r := ringCount m
  (if i = a && 1 < r && (k + 1) % r ≠ o / 64 then [standIn m o ((k + 1) % r)] else [])
    ++ (if 1 < ringSize m k && ringNext m i ≠ a then [ringNext m i] else [])

/-! ### Contributions and carried sums (R362) -/

/-- No finite non-zero term (R85). -/
def noExp : Int := -1048576

/-- The values of this member's local shards for an element, and whether their bytes are blighted. -/
def State.localVals (s : State) (c : Coll) (e : Nat) : List Nat × Bool :=
  let sz := collSize c.cmd.inFmt
  let rs := (List.range c.cmd.shards).map (fun j => s.readDev c.part c.p.core (plus c.cmd.inAddr ((j * c.cmd.units + e) * sz)) sz)
  (rs.map (fun r => leNat r.1), rs.any (·.2))

/-- The measured exponent of an element over this member's contributions (R361 phase B). -/
def State.localExp (s : State) (c : Coll) (e : Nat) : Int :=
  (measure ((s.localVals c e).1.map (wideVal c.cmd.inFmt))).getD noExp

/-- A value as a result holds it in its wide format: FP32 and bfloat16 canonically, with NaN canonical and subnormals zero
(R63); a W96 NaN by its special code. -/
def canonBits (fmt a : Nat) : Nat :=
  if fmt = 0x10 then encFp 7 (bf16 a) else if fmt = 0x11 then encFp 23 (fp32 a)
  else match w96 a with
    | .nan => 3 * 2 ^ 106
    | _ => a

/-- Whether a value in a wide format is a zero with its sign bit set. -/
def negZero (fmt a : Nat) : Bool :=
  match wideVal fmt a with
  | .fin true 0 _ => true
  | _ => false

/-- The larger of two values in their format: a NaN gives the canonical NaN, and max(+0, −0) is +0 in either operand order
(R63, R93). -/
def maxBits (fmt a b : Nat) : Nat :=
  let x := canonBits fmt a
  let y := canonBits fmt b
  match wideVal fmt x, wideVal fmt y with
  | .nan, _ => x
  | _, .nan => y
  | u, v => if ltVal u v || (!ltVal v u && negZero fmt x) then y else x

/-- This member's contribution to an element on the agreed grid, as a partial; for max the bits of the largest. -/
def State.localPart (s : State) (c : Coll) (e : Nat) : Partial :=
  let l := (s.localVals c e).1
  if c.cmd.op = 2 then { units := ((l.tail.foldl (maxBits c.cmd.inFmt) (canonBits c.cmd.inFmt (l.headD 0)) : Nat) : Int) }
  else
    let x := c.exps.getD e noExp
    let p := sumOn (max x (-511)) false (l.map (wideVal c.cmd.inFmt))
    if 512 < x then { p with overflow := true, units := 0 } else p

/-- Two partial sums (R84); for max the larger. -/
def CollCmd.join (g : CollCmd) (a b : Partial) : Partial :=
  if g.op = 2 then { units := ((maxBits g.inFmt a.units.toNat b.units.toNat : Nat) : Int) }
  else { units := a.units + b.units, special := combine a.special b.special, overflow := a.overflow || b.overflow }

/-- c of R362. -/
def Coll.sumBytes (c : Coll) : Nat := if c.cmd.op = 2 then collSize c.cmd.inFmt else ceilDiv (66 + Nat.clog 2 (max 1 c.totalShards)) 8

/-- A carried sum (R362): the three reserved codes are NaN, −∞ and +∞. -/
def Coll.carry (c : Coll) (p : Partial) : Nat :=
  let w := 8 * c.sumBytes
  if c.cmd.op = 2 then p.units.toNat
  else if p.overflow || p.special = 3 then 2 ^ (w - 1)
  else if p.special = 2 then 2 ^ (w - 1) + 1
  else if p.special = 1 then 2 ^ (w - 1) - 1
  else unsignedOf w p.units

/-- The partial that a carried sum is. -/
def Coll.uncarry (c : Coll) (v : Nat) : Partial :=
  let w := 8 * c.sumBytes
  if c.cmd.op = 2 then { units := ((v : Nat) : Int) }
  else if v = 2 ^ (w - 1) then { special := 3 }
  else if v = 2 ^ (w - 1) + 1 then { special := 2 }
  else if v + 1 = 2 ^ (w - 1) then { special := 1 }
  else { units := signed w v }

/-- The final scaling of an element in the output format (R89, R362). -/
def Coll.final (c : Coll) (e : Nat) (p : Partial) : Nat :=
  let x := max (c.exps.getD e noExp) (-511)
  let E := if c.exps.getD e noExp = noExp then 0 else min x 512
  if c.cmd.op = 2 then
    if c.cmd.outFmt = c.cmd.inFmt then p.units.toNat
    else encFp (if c.cmd.outFmt = 0x10 then 7 else 23) (wideVal c.cmd.inFmt p.units.toNat)
  else if c.cmd.outFmt = 0x20 then (encW96 p E).toNat
  else finalFp (if c.cmd.outFmt = 0x10 then 7 else 23) p E (if c.cmd.op = 1 then max 1 c.totalShards else 1)

/-- The terms of this member that round to zero below the window (R88). -/
def State.underCount (s : State) (c : Coll) (e : Nat) : Nat :=
  if c.cmd.op = 2 then 0
  else
    let x := max (c.exps.getD e noExp) (-511)
    (((s.localVals c e).1.map (wideVal c.cmd.inFmt)).filter (fun v => v.isFin && v.mag.1 ≠ 0 && unitsOn x v = 0)).length

/-! ### Pieces on the wire (R338, R364) -/

/-- Flits of at most `k` values from a run of values. -/
def chop (k : Nat) : Nat → Nat → List Nat → List (Nat × List Nat)
  | 0, _, _ => []
  | n + 1, first, l => if l = [] then [] else (first, l.take k) :: chop k n (first + k) (l.drop k)

/-- Values of some elements leave for the member at a place of the group, in flits that no element straddles. -/
def State.sendVals (s : State) (c : Coll) (peer size fmt : Nat) (blight : Bool) (l : List (Nat × Nat)) : State :=
  let m := s.member c.part
  if m.quarantined then s
  else
    let es := l.map (·.1)
    let val (e : Nat) : Nat := ((l.find? (fun x => x.1 = e)).map (·.2)).getD 0
    let runs := (runsOf es).map (fun r => chop (max 1 (232 / size)) r.2 r.1 ((List.range r.2).map (fun i => val (r.1 + i))))
    runs.flatten.foldl (fun s x => s.routeFlit c.part
      { epoch := m.image.epoch, dst := (s.collGroup c).getD peer 0, src := m.image.own, srcId := moduleId, step := c.step, seq := 0, ack := 0,
        type := 1, part := c.part, fmt := BitVec.ofNat 6 fmt, blight := blight, subst := c.subst, cls := 2, coll := BitVec.ofNat 10 c.no,
        status := 0, credits := [], first := x.1, vals := x.2, size := size }) s

/-- Whether bytes belong to an accumulator that the partition's sweep plan consumes (R222). -/
def State.accPlace (s : State) (n : Nat) (a : Word) (len : Nat) : Bool :=
  match (s.part n).plan with
  | none => false
  | some pl => pl.entries.any (fun e =>
      let d := (s.desc n (s.leadCore n) e.accAddr).1
      e.valid && e.dense && s.sharePlace n a len d.code (d.rows * d.len * 16))

/-- Output bytes of an element, where the output has room for them. A result that reaches an accumulator after its step's
sweep has started is discarded; the collective counts once (R219). -/
def State.putOut (s : State) (c : Coll) (i v : Nat) (blight : Bool) : State :=
  let sz := collSize c.cmd.outFmt
  let a := plus c.cmd.outAddr (i * sz)
  let now := (s.link.colls.find? (fun x => x.num = c.num)).getD c
  if !s.within c.part a sz then s
  else if s.late c.part c.step && s.accPlace c.part a sz then
    (if now.lateAcc then s else (s.countLate (coreCluster c.p.core) c.part c.tag).updColl c.num (fun x => { x with lateAcc := true }))
  else s.writeMarked c.part c.p.core a (leBytes sz v) blight now.subst

/-- A final value is here: it is written and remembered. -/
def State.finish (s : State) (c : Coll) (e v : Nat) (blight : Bool) : State :=
  let i := if c.cmd.kind = 1 then e - s.collPos c * s.chunkLen c else e
  let s := if c.cmd.inPlace then s else s.putOut c i v blight
  s.updColl c.num (fun c => { c with got := c.got.set e v })

/-- An element's sum is ready at this member: it goes on, or is final here (R362). -/
def State.summed (s : State) (c : Coll) (e : Nat) (p : Partial) (blight : Bool) : State :=
  match (reduceHop (s.collGroup c).length (s.ownerOf c e) (s.collPos c)).2 with
  | some i => s.sendVals c i c.sumBytes c.cmd.inFmt blight [(e, c.carry p)]
  | none => s.finish c e (c.final e p) blight

/-- The first ring step of phase C: elements whose sum begins at this member (R362). -/
def State.startReduce (s : State) (c : Coll) : State :=
  let M := (s.collGroup c).length
  let i := s.collPos c
  let firsts := (List.range c.cmd.units).filter (fun e => (reduceHop M (s.ownerOf c e) i).1 = 0)
  let blight := firsts.any (fun e => (s.localVals c e).2)
  let outs := firsts.filter (fun e => (reduceHop M (s.ownerOf c e) i).2.isSome)
  let nexts := (outs.filterMap (fun e => (reduceHop M (s.ownerOf c e) i).2)).dedup
  let s := nexts.foldl (fun s d => s.sendVals c d c.sumBytes c.cmd.inFmt blight
    ((outs.filter (fun e => (reduceHop M (s.ownerOf c e) i).2 = some d)).map (fun e => (e, c.carry (s.localPart c e))))) s
  (firsts.filter (fun e => (reduceHop M (s.ownerOf c e) i).2.isNone)).foldl (fun s e => s.finish c e (c.final e (s.localPart c e)) (s.localVals c e).2) s

/-- Final values that this member holds go on round the rings (R362). -/
def State.spreadVals (s : State) (c : Coll) (blight : Bool) (l : List (Nat × Nat)) : State :=
  let M := (s.collGroup c).length
  let i := s.collPos c
  let tos := ((l.map (fun x => gatherHops M (s.ownerOf c x.1) i)).flatten).dedup
  tos.foldl (fun s d => s.sendVals c d (collSize c.cmd.outFmt) c.cmd.outFmt blight (l.filter (fun x => d ∈ gatherHops M (s.ownerOf c x.1) i))) s

/-- Phase D starts: an all-gather's own contribution is its part of the result. -/
def State.startGather (s : State) (c : Coll) : State :=
  if c.cmd.kind = 2 then
    let i := s.collPos c
    let vs := (List.range c.cmd.units).map (fun e => (i * c.cmd.units + e, s.readDev c.part c.p.core (plus c.cmd.inAddr (e * collSize c.cmd.inFmt)) (collSize c.cmd.inFmt)))
    let blight := vs.any (fun x => x.2.2)
    let s := vs.foldl (fun s x => s.finish c x.1 (leNat x.2.1) x.2.2) s
    (s.updColl c.num (fun c => { c with blight := c.blight || blight })).spreadVals c blight (vs.map (fun x => (x.1, leNat x.2.1)))
  else s.spreadVals c c.blight c.got

/-- The place in the output of the elements that a source sends (kinds 3 and 4). -/
def Coll.baseFrom (c : Coll) (pos : Nat) : Nat := if c.cmd.kind = 3 then (c.counts.take pos).sum else 0
/-- The elements that a source sends here. -/
def State.countFrom (s : State) (c : Coll) (pos : Nat) : Nat :=
  if c.cmd.kind = 3 then c.counts.getD pos 0
  else if (s.collGroup c).getD pos 0 = c.cmd.source then c.counts.getD 0 0 else 0

/-- Phase E starts: each destination gets its data over its route (R361). -/
def State.startDirect (s : State) (c : Coll) : State :=
  let grp := s.collGroup c
  let me := s.collPos c
  let sz := collSize c.cmd.inFmt
  let cs := if c.cmd.kind = 3 then s.sendCounts c.part c.p.core c.cmd grp.length
    else grp.map (fun m => if m = c.cmd.dest then c.cmd.units else 0)
  (List.range grp.length).foldl (fun s j =>
    let off := if c.cmd.kind = 3 then (cs.take j).sum else 0
    let n := cs.getD j 0
    let (l, b) := s.readDev c.part c.p.core (plus c.cmd.inAddr (off * sz)) (n * sz)
    let vs := (List.range n).map (fun i => (i, leAt l (i * sz) sz))
    if j = me then vs.foldl (fun s x => s.finish c (c.baseFrom me + x.1) x.2 b) s
    else s.sendVals c j sz c.cmd.inFmt b vs) s

/-! ### Phases (R361) -/

/-- Whether what this member contributes is in any part derived from substituted rows (R37). -/
def State.inputSubst (s : State) (c : Coll) : Bool :=
  let n := if c.cmd.kind ≤ 1 then c.cmd.units * c.cmd.shards
    else if c.cmd.kind = 3 then (s.sendCounts c.part c.p.core c.cmd (s.collGroup c).length).sum else c.cmd.units
  s.substAt (s.keysOf c.part c.p.core c.cmd.inAddr (n * collSize c.cmd.inFmt))

/-- A collective that is ready for its next ring step: the time and the bound that holds for the step (R365, R374). -/
def State.stepFrom (s : State) (c : Coll) : Coll := { c with readyAt := s.now, stepMs := (s.member c.part).ringStepMs }

/-- COLLECTIVE_PHASE_START (R361): the phase before has completed on every member of the group; `r` is what it
brought from the other members. -/
def execCollectivePhaseStart (coll : Nat) (r : PhaseInput) (s : State) : Res :=
  .next (match s.link.colls.find? (fun c => c.num = coll) with
    | none => s
    | some c =>
      let M := (s.collGroup c).length
      let go (s : State) (f : Coll → Coll) : State := s.updColl coll (fun c => s.stepFrom (f c))
      let enter (s : State) (f : Coll → Coll) (k : State → Coll → State) : State := k (go s f) (s.stepFrom (f c))
      if !s.live then s
      else match c.phase with
        | .submitted => go s (fun c => { c with phase := .counts, subst := c.subst || s.inputSubst c })
        | .counts =>
          let counts := if c.cmd.kind = 3 then updAt (fun _ => (s.sendCounts c.part c.p.core c.cmd M).getD (s.collPos c) 0) (r.counts.map (collUnits c.cmd.inFmt)) (s.collPos c)
            else if c.cmd.source = (s.member c.part).image.own then [c.cmd.units] else r.counts.map (collUnits c.cmd.inFmt)
          let f (c : Coll) : Coll := { c with totalShards := c.cmd.shards + r.shards, counts := counts }
          if c.cmd.kind ≤ 1 then go s (fun c => { f c with phase := .exponents })
          else if c.cmd.kind = 2 then enter s (fun c => { f c with phase := .gather }) State.startGather
          else enter s (fun c => { f c with phase := .direct }) State.startDirect
        | .exponents =>
          let es := (List.range c.cmd.units).map (fun e => max (s.localExp c e) (r.exponents.getD e noExp))
          let c1 : Coll := { c with exps := es }
          let under := ((List.range c.cmd.units).map (s.underCount c1)).sum
          let bl := (List.range c.cmd.units).any (fun e => (s.localVals c e).2)
          (enter s (fun c => { c with phase := .reduce, exps := es, under := under, blight := c.blight || bl, ringSteps := c.ringSteps + 2 * (M - 1) }) State.startReduce).xuCount c.part 5 under
        | .reduce => if c.cmd.kind = 0 then enter s (fun c => { c with phase := .gather }) State.startGather else s
        | _ => s)

/-- The lateness of the source of a step's last piece (R367). -/
def addLate (l : List (Nat × Nat)) (m t : Nat) : List (Nat × Nat) :=
  if l.any (fun x => x.1 = m) then l.map (fun x => if x.1 = m then (m, x.2 + t) else x) else l ++ [(m, t)]

/-- Whether a flit ends a chunk, or a source's transfer. -/
def State.endsStep (s : State) (c : Coll) (pos : Nat) (f : Flit) : Bool :=
  let e := f.first + f.vals.length
  if c.phase = .direct then e = s.countFrom c pos else e % s.chunkLen c = 0 || e = s.totalUnits c

/-- One value of a flit in phase C, from another ring or from this member's own (R363): added, and passed on or finished when
nothing more is awaited (R362). -/
def State.addCarried (s : State) (num : Nat) (across : Bool) (e v : Nat) (blight : Bool) : State :=
  match s.link.colls.find? (fun c => c.num = num) with
  | none => s
  | some c =>
    let p := match c.sums.find e with | some q => c.cmd.join q (c.uncarry v) | none => c.uncarry v
    let j := c.joined.get 0 e + 1
    let s := s.updColl num (fun c => { c with sums := c.sums.set e p, joined := c.joined.set e j, crossed := if across then c.crossed.set e 1 else c.crossed })
    if j < (reduceHop (s.collGroup c).length (s.ownerOf c e) (s.collPos c)).1 then s
    else s.summed c e (c.cmd.join p (s.localPart c e)) (blight || (s.localVals c e).2)

/-- COLLECTIVE_PIECE_RECEIVE (R362 to R364): the next flit of a collective is taken: added, forwarded, delivered. -/
def execCollectivePieceReceive (coll : Nat) (s : State) : Res :=
  .next (match s.link.colls.find? (fun c => c.num = coll) with
    | none => s
    | some c =>
      match c.inbox with
      | [] => s
      | { came := t, tag := _, flit := f } :: rest =>
        if !s.live || !(c.phase = .reduce || c.phase = .gather || c.phase = .direct) then s
        else
          let pos := (s.collGroup c).findIdx (· = f.src)
          let done := s.endsStep c pos f
          let s := s.updColl coll (fun c => { c with
            inbox := rest
            blight := c.blight || f.blight
            subst := c.subst || f.subst
            ringSteps := c.ringSteps + b2n (done && c.phase ≠ .direct)
            late := if done then addLate c.late f.src (t - c.readyAt) else c.late
            readyAt := if done then s.now else c.readyAt
            stepMs := if done then (s.member c.part).ringStepMs else c.stepMs })
          let ix := List.zip ((List.range f.vals.length).map (f.first + ·)) f.vals
          match c.phase with
          | .reduce => ix.foldl (fun s x => s.addCarried coll (pos / 64 ≠ s.collPos c / 64) x.1 x.2 f.blight) s
          | .gather => (ix.foldl (fun s x => s.finish c x.1 x.2 f.blight) s).spreadVals c f.blight ix
          | _ => (ix.filter (fun x => x.1 < s.countFrom c pos)).foldl (fun s x => s.finish c (c.baseFrom pos + x.1) x.2 f.blight) s)

/-- The elements a collective is to receive or form here. -/
def State.awaited (s : State) (c : Coll) : List Nat :=
  if c.cmd.kind = 1 then (List.range c.cmd.units).filter (fun e => s.ownerOf c e = s.collPos c)
  else if c.cmd.kind ≤ 2 then List.range (s.totalUnits c)
  else if c.cmd.kind = 3 then List.range c.counts.sum
  else List.range (c.counts.getD 0 0)

/-- Whether every output of a collective is here. -/
def State.collDone (s : State) (c : Coll) : Bool :=
  (if c.cmd.kind = 1 then c.phase = .reduce else if c.cmd.kind = 0 || c.cmd.kind = 2 then c.phase = .gather else c.phase = .direct)
    && (s.awaited c).all (fun e => (c.got.find e).isSome) && (!c.cmd.inPlace || c.counts.getD 0 0 ≤ c.committed)

/-- COLLECTIVE_COMPLETE (R369). -/
def execCollectiveComplete (coll : Nat) (s : State) : Res :=
  .next (match s.link.colls.find? (fun c => c.num = coll) with
    | some c => if s.live && s.collDone c then s.endColl c 0x00 0xFFFFFFFF else s
    | none => s)

/-! ### The in-place permute (R368) -/

/-- Where the pieces already in commit end. -/
def piecesEnd : Nat → Nat → List (Nat × Nat) → Nat
  | 0, x, _ => x
  | n + 1, x, l => match l.find? (fun p => p.1 = x) with
    | some p => if p.2 = 0 then x else piecesEnd n (x + p.2) l
    | none => x

/-- PERMUTE_PIECE_COMMIT (R252, R364, R368): the next piece, one staging buffer, commits under a transaction of its
own. That its receiver has reported its own commit is the occasion of this command. -/
def execPermutePieceCommit (coll : Nat) (s : State) : Res :=
  .next (match s.link.colls.find? (fun c => c.num = coll) with
    | none => s
    | some c =>
      let sz := collSize c.cmd.outFmt
      let start := piecesEnd (c.sentLocal.length + 1) 0 c.sentLocal
      let left := c.counts.getD 0 0 - start
      let n := min left (min (65536 * c.cmd.bufSize / 232 * (232 / sz)) (2 ^ 26 / sz))
      let vals := (List.range n).map (fun i => c.got.find (start + i))
      if !s.live || !c.cmd.inPlace || c.phase ≠ .direct || n = 0 || vals.any (·.isNone) then s
      else
        let data := (vals.map (fun v => leBytes sz (v.getD 0))).flatten
        let s := s.updColl coll (fun c => { c with sentLocal := c.sentLocal ++ [(start, n)] })
        s.openTx c.part (coreDie c.p.core) (coreCluster c.p.core) (fullStep (s.part c.part).lastStarted c.step) (.permute coll start n)
          [{ addr := plus c.cmd.outAddr (start * sz), data := data, blight := c.blight, subst := c.subst, core := c.p.core }] [])

/-! ### Aborts (R365, R357) -/

/-- The place before a member's in its first-level ring of a group of `m`, and that of its stand-in's predecessor in the
second-level ring of owner `o` (R363). -/
def ringBefore (m i : Nat) : Nat := let k := i / 64; let ring := max 1 (ringSize m k); 64 * k + (i % 64 + ring - 1) % ring
def upBefore (m o i : Nat) : Nat := let r := max 1 (ringCount m); standIn m o ((i / 64 + r - 1) % r)

/-- The place that a ring step waits for: the predecessor in the ring whose value is wanting, of its own ring where both are
(R363, R365). -/
def State.stepBefore (s : State) (c : Coll) : Nat :=
  let m := (s.collGroup c).length
  let i := s.collPos c
  let k := i / 64
  let atHead (o : Nat) : Bool := i = standIn m o k
  let e := (List.range (s.totalUnits c)).find? (fun e =>
    if c.phase = .reduce then decide (c.joined.get 0 e < (reduceHop m (s.ownerOf c e) i).1) else c.phase = .gather && (c.got.find e).isNone)
  match e with
  | none => ringBefore m i
  | some e =>
    let o := s.ownerOf c e
    let across : Bool :=
      if c.phase = .reduce then atHead o && (c.crossed.find e).isNone && !(1 < ringSize m k && c.joined.get 0 e = 0)
      else atHead o && 1 < ringCount m && k ≠ o / 64
    if across then upBefore m o i else ringBefore m i

/-- The predecessor that a ring step or a transfer waits for, as a member index. -/
def State.awaitedFrom (s : State) (c : Coll) : Nat :=
  let grp := s.collGroup c
  if c.phase = .direct then
    (grp.find? (fun x =>
      let pos := grp.findIdx (· = x)
      (List.range (s.countFrom c pos)).any (fun k => (c.got.find (c.baseFrom pos + k)).isNone))).getD 0
  else grp.getD (s.stepBefore c) 0

/-- RING_STEP_WATCHDOG (R365): the predecessor's chunk has not arrived within the bound. -/
def execRingStepWatchdog (coll : Nat) (s : State) : Res :=
  .next (match s.link.colls.find? (fun c => c.num = coll) with
    | none => s
    | some c =>
      let waits := (c.phase = .exponents || c.phase = .reduce || c.phase = .gather || c.phase = .direct) && !(s.awaited c).all (fun e => (c.got.find e).isSome)
      if !s.live || !waits || s.now < c.readyAt + 1000000 * c.stepMs then s
      else
        let m := s.awaitedFrom c
        let s := s.sendAborts c m
        (s.endColl c 0x01 (BitVec.ofNat 32 m)).suspect c.part m 2 0)

/-- A flit of a partition's job for this member is judged by its epoch (R354): data, or an abort; one for another member goes
on. -/
def State.jobFlit (s : State) (k n : Nat) (f : Flit) : State :=
  let m := s.member n
  if m.installed && f.dst ≠ m.image.own then (if f.dst < m.image.members.length then s.routeFlit n f else s)
  else if f.type ≠ 4 then s.dataFlit k n f
  else match epochCmp f.epoch m.image.epoch with
    | 0 => s.abortColl n f
    | 1 => s.updMember n (fun m => { m with held := m.held ++ [(f, k, s.now)] })
    | _ => s.stale n f.src (some f.srcId) k

/-- ABORT_FLIT_RECEIVE (R354, R365): an abort flit that a link has accepted for this member. -/
def execAbortFlitReceive (link : Nat) (f : Flit) (s : State) : Res :=
  let m := s.member f.part
  .next (if !s.live || f.type ≠ 4 || (m.installed && f.dst ≠ m.image.own) then s else s.jobFlit link f.part f)

/-- Flits of a partition's job that wait for a down link go by the new route, where a membership gives them one (R343). -/
def State.reroute (s : State) (n : Nat) : State :=
  (List.range 24).foldl (fun s k =>
    if (s.lnk k).st = .up then s
    else
      let moves (x : Nat × Flit) : Bool := x.1 = n && (let r := (s.member n).image.routes.getD x.2.dst 0xFF; r ≠ k && r < 24)
      let l := (s.lnk k).queued.filter moves
      l.foldl (fun s x => s.routeFlit n x.2) (s.updLnk k (fun y => { y with queued := y.queued.filter (fun x => !moves x) }))) s

/-- A membership takes effect (R353, R354, R358): collectives in progress end with status 0x02, quarantine ends where
its epoch reaches the fencing epoch, flits and line reports held for it are judged again, flits that wait for a down link
take their new routes. -/
def State.putImage (s : State) (n : Nat) (img : MemImage) : State :=
  let old := s.member n
  let s := if old.installed then s.endColls n 0x02 else s
  let s := s.updMember n (fun m => { m with
    image := img
    installed := true
    quarantined := m.quarantined && 2 ^ 31 ≤ (img.epoch - m.fenceEpoch).toNat
    pending := none
    pendCmd := none
    held := m.held.filter (fun x => epochCmp x.1.epoch img.epoch = 1)
    heldReports := m.heldReports.filter (fun x => epochCmp x.2.2.1 img.epoch = 1) })
  let s := (old.held.filter (fun x => epochCmp x.1.epoch img.epoch ≠ 1)).foldl (fun s x => s.jobFlit x.2.1 n x.1) s
  let s := (old.heldReports.filter (fun x => epochCmp x.2.2.1 img.epoch ≠ 1)).foldl (fun s x =>
    if x.2.2.1 = img.epoch then
      (s.updLine x.1 (fun l => { l with reports := (l.reports.filter (fun r => !(r.1 = x.2.1 && r.2.1 = x.2.2.2.1))) ++ [(x.2.1, x.2.2.2.1, x.2.2.2.2.1)] })).settleLine x.1
    else s.stale n x.2.1 none (img.routes.getD x.2.1 0xFF)) s
  let s := s.reroute n
  match old.pendCmd with
  | some c => s.complete c 0 0 0
  | none => s

/-- FENCED_REPLY_RECEIVE (R357): a newer epoch puts the partition in quarantine. -/
def execFencedReplyReceive (part : Nat) (epoch : BitVec 32) (s : State) : Res :=
  let m := s.member part
  .next (if !s.live || !m.installed || epochCmp epoch m.image.epoch ≠ 1 then s
    else
      let s := s.updMember part (fun m => { m with quarantined := true, fenceEpoch := epoch })
      let s := s.post { cls := 0x06, cause := 0x08, unit := unitCode .exchange, detail := epoch.setWidth 64 } [part]
      s.endColls part 0x03)

end Sys2Proof.Machine
end

