-- ==== Sys2Proof/Machine/System.lean ====
section
/-! DEFINITION. Classes 0xE and 0xF (R145): tag and mode instructions, control of contexts (R160, R161),
EPOST, IFENCE, ILL. -/

namespace Sys2Proof.Machine

/-! ### CO_CTXn_STATE (R122, R123) -/

/-- The state codes of R123. -/
def stateCode : CtxState → Nat
  | .idle => 0
  | .ready => 1
  | .stalled => 2
  | .waiting => 3
  | .faulted => 4

/-- wait_kind and wait_target of R122. -/
def waitName : Option Wait → Nat × Nat
  | some { cond := .flag id _, .. } => (1, id)
  | some { cond := .below id _, .. } => (2, id)
  | some { cond := .atLeast id _, .. } => (2, id)
  | some { cond := .release l _, .. } => (3, l)
  | none => (0, 0)

/-- The CO_CTXn_STATE word of a context (R122). -/
def Ctx.stateWord (c : Ctx) : Nat :=
  stateCode c.state * 2 ^ 29 + b2n c.watchdog * 2 ^ 28 + (waitName c.wait).1 * 2 ^ 25 + (waitName c.wait).2

/-! ### Tag and mode -/

/-- TSTEP (R145). -/
def execTstep (p : At) (f : LayA) (s : State) : Res :=
  issue s p { s := [f.sa] } {} (must (f.sd = 0 && f.zero = 0) 0x03)
    (fun t => t.updCtx p (fun c => { c with step := (s.getS p f.sa).setWidth 16 }))

/-- TGET (R145): the tag state in [63:17]. -/
def execTget (p : At) (f : LayA) (s : State) : Res :=
  issue s p { s := [f.sd] } {} (must (f.sa = 0 && f.zero = 0) 0x03) (fun t => t.setS p f.sd (s.tagOf p 0 0 false false))

/-- TSTAT (R135, R145): the sticky pair, then cleared. -/
def execTstat (p : At) (f : LayA) (s : State) : Res :=
  let c := s.ctx p
  issue s p { s := [f.sd] } {} (must (f.sa = 0 && f.zero = 0) 0x03)
    (fun t => t.updCtx p (fun x => { x with stickyBlight := false, stickySubst := false }.setS f.sd
      (BitVec.ofNat 64 (2 * b2n c.stickyBlight + b2n c.stickySubst))))

/-- Whether a cluster holds a staged prepare (R324). -/
def State.preparePending (s : State) (c : Nat) : Bool :=
  s.parts.any (fun x => match x.2.change with
    | some h => h.phase ≠ .committed && Participant.cluster c ∈ h.staged
    | none => false)

/-- MEPOCH (R145): the applied mode epoch, prepare pending in [12]. -/
def execMepoch (p : At) (f : LayA) (s : State) : Res :=
  let c := coreCluster p.core
  issue s p { s := [f.sd] } {} (must (f.sa = 0 && f.zero = 0) 0x03)
    (fun t => t.setS p f.sd (BitVec.ofNat 64 ((s.cluster c).epoch.toNat + b2n (s.preparePending c) * 4096)))

/-! ### Control -/

/-- The zero-marked fields of layout Z that NOP, HALT and IFENCE leave unused. -/
def bareZ (f : LayZ) : Option (BitVec 8) :=
  must (f.sd = 0 && f.sa = 0 && f.sb = 0 && f.sf = 0 && f.zero = 0 && f.ctx = 0) 0x03

/-- NOP (R145). -/
def execNop (p : At) (f : LayZ) (s : State) : Res := issue s p {} {} (bareZ f) (fun t => t)

/-- HALT (R145, R161). -/
def execHalt (p : At) (f : LayZ) (s : State) : Res := issue s p {} {} (bareZ f) (fun t => t.idleCtx p)

/-- IFENCE (R164): prefetched instructions are discarded; none are held (log entry 14). -/
def execIfence (p : At) (f : LayZ) (s : State) : Res := issue s p {} {} (bareZ f) (fun t => t)

/-- ILL (R159): always illegal. -/
def execIll (p : At) (s : State) : Res := issue s p {} {} (some 0x02) (fun t => t)

/-- EPOST (R145, R470): a software record that carries sa. -/
def execEpost (p : At) (f : LayZ) (s : State) : Res :=
  issue s p { s := [f.sa] } {} (must (f.sd = 0 && f.sb = 0 && f.sf = 0 && f.zero = 0 && f.ctx = 0) 0x03)
    (fun t => t.post { cls := 0x0A, cause := 0x01, unit := unitCode .software, loc := BitVec.ofNat 32 p.core,
                       tag := s.tagOf p 0 0 false false, detail := s.getS p f.sa } (s.partOf p.core).toList)

/-- Making a context idle (R161): at once where it waits or has faulted, else after its issued instructions
retire. A release that it still held has not issued and is given up (R311). -/
def State.stopCtx (s : State) (p : At) : State :=
  let c := s.ctx p
  match c.state with
  | .idle => s
  | .waiting => (s.forgetWait p).idleCtx p
  | .faulted => s.idleCtx p
  | _ =>
    if !s.unretired p then s.idleCtx p
    else (s.abortTx p).updCtx p (fun c => { c with state := .stalled, stalledOn := some .stopping })

/-- Starting an idle or faulted context (R161, R158). -/
def State.startCtx (s : State) (p : At) (pc : Word) (flag : Option (BitVec 17)) (by_ : Controller) : State :=
  s.updCtx p (fun c => { c with
    state := .ready
    pc := pc
    faultFlag := flag
    faultCause := 0
    faultPc := 0
    controller := some by_
    wait := none
    stalledOn := none })

/-- Whether a context may start or stop another (R160). -/
def State.controls (s : State) (p t : At) : Bool :=
  let lead := s.leadOf (s.partNum p.core)
  if t = lead then p = lead
  else p = lead || (s.ctx t).controller = some (.ctx p)

/-- The context that CSTART, CSTOP and CSTATE name. -/
def targetZ (s : State) (p : At) (f : LayZ) : At := ⟨(s.getS p f.sa).toNat, f.ctx.toNat⟩

/-- The fault flag that sf gives (R161). -/
def flagOf (w : Word) : Option (BitVec 17) := if w.getLsbD 63 then some (w.setWidth 17) else none

/-- Whether the fault flag that sf names, if any, is one of the partition's (R308). -/
def State.flagOwned (s : State) (n : Nat) (w : Word) : Bool :=
  match flagOf w with
  | some id => s.flagPart id.toNat = some n
  | none => true

/-- CSTART (R161): results 3, 2, 1 in that order. A fault flag that is reserved or another partition's is an address fault
(R308). -/
def execCstart (p : At) (f : LayZ) (s : State) : Res :=
  let t := targetZ s p f
  issue s p { s := [f.sd, f.sa, f.sb, f.sf] } {}
    (firstFault [must (f.zero = 0) 0x03, must (s.flagOwned (s.partNum p.core) (s.getS p f.sf)) 0x06])
    (fun u =>
      if !s.inPart (s.partNum p.core) t.core then u.setS p f.sd 3
      else if !s.controls p t then u.setS p f.sd 2
      else if (s.ctx t).state ≠ .idle && (s.ctx t).state ≠ .faulted then u.setS p f.sd 1
      else (u.startCtx t (s.getS p f.sb) (flagOf (s.getS p f.sf)) (.ctx p)).setS p f.sd 0)

/-- CSTOP (R161). -/
def execCstop (p : At) (f : LayZ) (s : State) : Res :=
  let t := targetZ s p f
  issue s p { s := [f.sd, f.sa] } {} (must (f.sb = 0 && f.sf = 0 && f.zero = 0) 0x03)
    (fun u =>
      if !s.inPart (s.partNum p.core) t.core then u.setS p f.sd 3
      else if !s.controls p t then u.setS p f.sd 2
      else (u.setS p f.sd 0).stopCtx t)

/-- CSTATE (R122, R145). For a core outside the partition the spec states no value: a free one (log entry 25). -/
def execCstate (p : At) (f : LayZ) (s : State) : Res :=
  let t := targetZ s p f
  issue s p { s := [f.sd, f.sa] } {} (must (f.sb = 0 && f.sf = 0 && f.zero = 0) 0x03)
    (fun u =>
      if s.inPart (s.partNum p.core) t.core then u.setS p f.sd (BitVec.ofNat 64 (u.ctx t).stateWord)
      else (u.setS p f.sd (Config.freeWord u.free)).fresh)

end Sys2Proof.Machine
end

