-- ==== Sys2Proof/Machine/Serve.lean ====
section
/-! DEFINITION. The serve partition (R403 to R432): intake, slots, replies, the deadline backstop, the hold
bound; addressing of datagrams (R455). -/

namespace Sys2Proof.Machine

/-! ### Datagrams (R450, R451, R455) -/

/-- A network port. -/
def State.nport (s : State) (p : Nat) : NPort := s.net.ports.get {} p

/-- Whether a datagram is addressed to a port: its own IP address, VLAN and UDP port (R450, R451). -/
def State.addressed (s : State) (port : Nat) (d : Datagram) (udp : Nat) : Bool :=
  let x := s.nport port
  let ip (w : Word) (n : Nat) : List Byte := (leBytes n w.toNat).reverse
  x.up && d.ownPort.toNat = udp && d.vlan.toNat = fld x.udp.toNat 43 32
    && (if d.ipv = 4 then x.ip4 ≠ 0 && d.ownIp = ip (x.ip4 &&& 0xFFFFFFFF) 4
        else !(x.ip6hi = 0 && x.ip6lo = 0) && d.ownIp = ip x.ip6hi 8 ++ ip x.ip6lo 8)

/-- The 64-byte return route of a datagram (R455). -/
def routeOf (port : Nat) (d : Datagram) : List Byte :=
  slice ([BitVec.ofNat 8 port, BitVec.ofNat 8 d.ipv] ++ leBytes 2 d.vlan.toNat ++ leBytes 2 d.clientPort.toNat ++ leBytes 2 d.ownPort.toNat
    ++ slice d.clientIp 0 16 ++ slice d.ownIp 0 16 ++ slice d.mac 0 6) 0 64

/-! ### Serve partitions -/

/-- The ring's slots (R429). -/
def Serve.slotCount (v : Serve) : Nat := fld v.ring.toNat 59 48
/-- The request and the reply pair (R430). -/
def Serve.requestPair (v : Serve) : Nat := fld v.links.toNat 57 41
def Serve.replyPair (v : Serve) : Nat := fld v.links.toNat 40 24

/-- A serve counter (R432). -/
def State.serveCount (s : State) (n i k : Nat) : State := s.updServe n (fun v => { v with cnt := updAt (fun x => sat64 (x + k)) v.cnt i })

/-- Bytes written by the part into a serve partition's turf slices. -/
def State.putServe (s : State) (n : Nat) (a : Word) (l : List Byte) : State := s.writeKeys (s.keysOf n 0 a l.length) l false

/-- The step of the source's last completed sweep (R421). -/
def State.snapshotStep (s : State) (n : Nat) : Word := (s.part (s.part n).cfg.src).lastCompleted

/-- A reply as sent (R414): header and payload. -/
def State.replyBytes (s : State) (status flags : Nat) (id step : Word) (payload : List Byte) : List Byte :=
  leBytes 4 0x534C5250 ++ [1, BitVec.ofNat 8 status, BitVec.ofNat 8 flags, 0] ++ leBytes 8 id.toNat ++ leBytes 8 step.toNat
    ++ leBytes 8 s.now ++ leBytes 4 payload.length ++ leBytes 28 0 ++ payload

/-- A rejection (R413, R415): status 0x03 or 0x04, no payload. -/
def State.rejectServe (s : State) (n port status : Nat) (id : Word) (route : List Byte) : State :=
  (s.serveCount n 4 1).send (.datagram port route (s.replyBytes status 0 id 0 []))

/-- The fallback payload (R431) and its blight. -/
def State.fallbackPayload (s : State) (n : Nat) : List Byte × Bool :=
  let a := (s.serve n).fallback
  if spaceOf a ≠ 1 then ([], false)
  else
    let (l, b0) := s.readDev n 0 a 4
    let (p, b1) := s.readDev n 0 (plus a 4) (min (leNat l) 8896)
    (p, b0 || b1)

/-- Whether the source's sweep holds new placements back (R422). -/
def State.holdingBack (s : State) (n : Nat) : Bool :=
  (s.serve n).held && (s.net.holdPoint.find (s.part n).cfg.src).isSome

/-- Whether a request can be placed now (R411, R422). -/
def State.canPlace (s : State) (n : Nat) : Bool :=
  let v := s.serve n
  let x := s.pair v.requestPair
  v.slots.length < v.slotCount && pairDiff x < v.slotCount && !s.holdingBack n

/-- The placement of a request (R409 to R411): slot contents, arrival list, produced counter. -/
def State.place (s : State) (n : Nat) (bytes route : List Byte) (port arrived deadline : Nat) : State :=
  let v := s.serve n
  let i := ((List.range v.slotCount).find? (fun i => v.slots.all (fun x => x.index ≠ i))).getD 0
  let S := s.snapshotStep n
  let id := addrAt bytes 8
  let slot : Slot := { index := i, seq := v.nextSeq, id := id, deadline := deadline, step := S, route := route, port := port, held := v.held }
  let P := (s.pair v.requestPair).1
  let base := fld v.ring.toNat 35 0
  let list := BitVec.ofNat 64 (2 ^ 60 + base / 2 ^ 25 * 2 ^ 25 + (fld v.links.toNat 23 0 + 4 * (P % max 1 v.slotCount)))
  let s := s.putServe n (s.slotAt n i 0x80) bytes
  let s := s.putServe n (s.slotAt n i 0) ([0x01, BitVec.ofNat 8 (b2n v.held)] ++ leBytes 6 0 ++ leBytes 8 v.nextSeq ++ leBytes 8 arrived
    ++ leBytes 8 deadline ++ leBytes 8 S.toNat ++ leBytes 8 id.toNat ++ leBytes 4 bytes.length ++ leBytes 12 0 ++ slice route 0 64)
  let s := s.putServe n list (leBytes 4 i)
  ((s.updServe n (fun v => { v with slots := v.slots ++ [slot], nextSeq := v.nextSeq + 1 })).serveCount n 0 1).addPair v.requestPair 1 false

/-- Queued requests are placed in order as far as they can be (R413, R422); at most `k` of them. -/
def State.placeQueued (s : State) (n : Nat) : Nat → State
  | 0 => s
  | k + 1 =>
    match (s.serve n).queue with
    | [] => s
    | q :: rest =>
      if s.canPlace n then
        State.placeQueued ((s.updServe n (fun v => { v with queue := rest })).place n q.bytes q.route q.port q.arrived q.deadline) n k
      else s

/-- Whether a request's header keeps R407. -/
def requestOk (l : List Byte) : Bool :=
  l.length = 64 + leAt l 0x14 4 && leAt l 0 4 = 0x534C5251 && leAt l 4 1 = 1 && fld (leAt l 5 1) 7 3 = 0 && leAt l 6 2 = 0
    && 10000 ≤ leAt l 0x10 4 && leAt l 0x10 4 ≤ 10000000 && leAt l 0x14 4 ≤ 8896 && zeroAt l 0x18 40

/-- SERVE_REQUEST (R407, R408, R411, R413, R455). -/
def execServeRequest (port : Nat) (d : Datagram) (s : State) : Res :=
  let l := d.payload
  let n := fld (leAt l 5 1) 2 0
  let route := routeOf port d
  .next (if !s.live || !s.addressed port d (fld (s.nport port).udp.toNat 31 16) then s
    else if d.fragmented then { s with net := { s.net with fragDropped := s.net.fragDropped + 1 } }
    else if !requestOk l || !((s.part n).cfg.enable && (s.part n).cfg.serve && (s.serve n).intake) then s.rejectServe n port 0x03 (addrAt l 8) route
    else
      let dl := s.now + leAt l 0x10 4
      if n ∈ s.tx.recovering then s.rejectServe n port 0x04 (addrAt l 8) route
      else if (s.serve n).queue = [] && s.canPlace n then s.place n l route port s.now dl
      else if (s.serve n).queue.length < 4096 then
        s.updServe n (fun v => { v with queue := v.queue ++ [{ bytes := l, arrived := s.now, deadline := dl, route := route, port := port }] })
      else s.rejectServe n port 0x04 (addrAt l 8) route)

/-- The state byte of a slot (R410). -/
def State.slotState (s : State) (n i : Nat) : Nat := leNat (s.readDev n 0 (s.slotAt n i 0) 1).1

/-- A slot is free: its state byte is 0x00, and a queued request may take it. -/
def State.freeSlot (s : State) (n i : Nat) : State :=
  (s.putServe n (s.slotAt n i 0) [0x00]).updServe n (fun v => { v with slots := v.slots.filter (fun x => x.index ≠ i) })

/-- The flags of a reply (R414). -/
def replyFlags (x : Slot) (subst blight late : Bool) : Nat :=
  b2n subst + 2 * b2n blight + 4 * b2n x.held + 8 * b2n x.lost + 16 * b2n late

/-- A posted slot's reply is sent, the slot set free, the reply pair's consumed counter raised (R412, R415,
R417 to R419). -/
def State.sendReply (s : State) (n : Nat) (x : Slot) : State :=
  let v := s.serve n
  if x.expired then (s.serveCount n 5 1).freeSlot n x.index
  else
    let (h, b0) := s.readDev n 0 (s.slotAt n x.index 0x2420) 4
    let (p, b1) := s.readDev n 0 (s.slotAt n x.index 0x2440) (min (leNat h) 8896)
    let late := decide (x.deadline < s.now)
    let s := s.flushMerges n
    let l := s.replyBytes (b2n x.subst) (replyFlags x x.subst (x.blight || b0 || b1) late) x.id x.step p
    let s := s.putServe n (s.slotAt n x.index 0x2400) (l.take 64)
    let s := (s.send (.datagram x.port x.route l)).serveCount n (if x.subst then 2 else 1) 1
    let s := if late && (s.part n).cfg.strict then s.serveCount n 5 1 else s
    (s.freeSlot n x.index).addPair v.replyPair 1 true

/-- An add to a serve partition's reply pair: every slot in state 0x02 is sent, then queued requests may be
placed (R412). -/
def State.serveReplies (s : State) (n : Nat) : State :=
  let s := (s.serve n).slots.foldl (fun s x => if s.slotState n x.index = 2 then s.sendReply n x else s) s
  s.placeQueued n 4096

/-- An add to a counter pair as the serve partitions see it: on a reply pair replies are sent (R412), on a
request pair room may have come (R411). -/
def State.serveHook (s : State) (id : Nat) (consumed : Bool) : State :=
  (List.range 8).foldl (fun s n =>
    let v := s.serve n
    if !((s.part n).cfg.enable && (s.part n).cfg.serve) then s
    else if v.replyPair = id && !consumed then s.serveReplies n
    else if v.requestPair = id && consumed then s.placeQueued n 4096
    else s) s

/-- The fallback reply of a request (R415, R416, R419). -/
def State.sendFallback (s : State) (n status : Nat) (x : Slot) : State :=
  let (p, b) := s.fallbackPayload n
  let s := s.flushMerges n
  (s.send (.datagram x.port x.route (s.replyBytes status (replyFlags x true b (x.deadline < s.now)) x.id x.step p))).serveCount n 3 1

/-- A queued request as the backstop answers it. -/
def State.queuedSlot (s : State) (n : Nat) (q : Queued) : Slot :=
  { index := 0, seq := 0, id := addrAt q.bytes 8, deadline := q.deadline, step := s.snapshotStep n, route := q.route, port := q.port, held := (s.serve n).held }

/-- SERVE_BACKSTOP (R416, R418): the nth placed or queued request comes to its deadline time less the guard. -/
def execServeBackstop (part n : Nat) (queued : Bool) (s : State) : Res :=
  let v := s.serve part
  .next (if !s.live || (s.part part).cfg.strict then s
    else if queued then
      match v.queue[n]? with
      | some q => if q.deadline ≤ s.now + v.guardNs then
          (s.updServe part (fun v => { v with queue := dropAt v.queue n })).sendFallback part 0x02 (s.queuedSlot part q) else s
      | none => s
    else match v.slots[n]? with
      | some x =>
        if x.deadline ≤ s.now + v.guardNs && !x.expired && s.slotState part x.index = 1 then
          let s := s.sendFallback part 0x02 x
          (s.putServe part (s.slotAt part x.index 0) [0x03]).updServe part (fun v => { v with slots := updAt (fun x => { x with expired := true }) v.slots n })
        else s
      | none => s)

/-- Whether a request still waits for its reply. -/
def Slot.unanswered (x : Slot) : Bool := !x.expired

/-- SERVE_HOLD_BOUND_EXPIRY (R422): the hold bound has elapsed; unreplied requests are marked hold lost. -/
def execServeHoldBoundExpiry (part : Nat) (s : State) : Res :=
  let v := s.serve part
  .next (match s.net.holdPoint.find (s.part part).cfg.src with
    | some t =>
      if !s.live || !v.held || !(s.part part).cfg.serve || s.now < t + 1000 * v.holdUs then s
      else
        let mine := v.slots.filter (fun x => x.unanswered && !x.lost)
        let s := mine.foldl (fun s x => s.putServe part (s.slotAt part x.index 1) [BitVec.ofNat 8 (b2n x.held + 2)]) s
        (s.updServe part (fun v => { v with slots := v.slots.map (fun x => if x.unanswered then { x with lost := true } else x) })).serveCount part 6 mine.length
    | none => s)

/-! ### What holds a source's sweep back (R422) -/

/-- The held serve partitions of a source. -/
def State.heldServes (s : State) (n : Nat) : List Nat :=
  (List.range 8).filter (fun m => (s.part m).cfg.enable && (s.part m).cfg.serve && (s.part m).cfg.src = n && (s.serve m).held)

/-- Whether every request placed before the hold point has been answered or has lost its hold. -/
def State.holdsMet (s : State) (n : Nat) : Bool :=
  (s.heldServes n).all (fun m => (s.serve m).slots.all (fun x => x.lost || !x.unanswered))

/-- The hold point of a source's sweep (R422). -/
def State.setHoldPoint (s : State) (n : Nat) : State :=
  if s.heldServes n = [] || (s.net.holdPoint.find n).isSome then s
  else { s with net := { s.net with holdPoint := s.net.holdPoint.set n s.now } }

/-- The source's sweep starts: the time it waited is counted (R432). -/
def State.countHold (s : State) (n : Nat) : State :=
  match s.net.holdPoint.find n with
  | some t => (s.heldServes n).foldl (fun s m => s.serveCount m 7 (s.now - t)) s
  | none => s

/-- The source's sweep has completed: queued requests are placed (R422). -/
def State.endHold (s : State) (n : Nat) : State :=
  let s := { s with net := { s.net with holdPoint := s.net.holdPoint.del n } }
  (List.range 8).foldl (fun s m => if (s.part m).cfg.serve && (s.part m).cfg.src = n then s.placeQueued m 4096 else s) s

/-- A partition reset of a serve partition: status 0x05 for every request without a reply, slots freed (R419). -/
def State.serveReset (s : State) (n : Nat) : State :=
  let v := s.serve n
  let s := v.slots.foldl (fun s x => (if x.unanswered then s.sendFallback n 0x05 x else s).freeSlot n x.index) s
  let s := v.queue.foldl (fun s q => s.sendFallback n 0x05 (s.queuedSlot n q)) s
  s.updServe n (fun v => { v with slots := [], queue := [], nextSeq := 0, cnt := [0, 0, 0, 0, 0, 0, 0, 0] })

end Sys2Proof.Machine
end

