-- ==== Sys2Proof/Machine/HostQueue.lean ====
section
/-! DEFINITION. Command queues (R436 to R441, R464, R465): submission, fetching, starting in queue order with a
reserved completion entry, indirect blocks, the header checks of R438; the commands NOP, HOST_WRITE, HOST_READ and
SIGNAL. -/

namespace Sys2Proof.Machine

/-- A function counter (R467). -/
def State.fnCount (s : State) (f : FuncRef) (i : Nat) : State := s.updFunc f (fun g => { g with cnt := updAt (fun n => sat64 (n + 1)) g.cnt i })
/-- The partition that a function is bound to (R434). -/
def State.boundPart (s : State) (f : FuncRef) : Option Nat := (List.range 8).find? (fun n => s.funcOf n = some f)

/-- A queue enters the error state (R436, R465, R470). -/
def State.queueError (s : State) (q : QRef) (cause : BitVec 8) : State :=
  (s.updQueue q (fun x => { x with state := .error, cause := cause })).post
    { cls := 0x05, cause := 0x04, unit := unitCode .hostPort, loc := BitVec.ofNat 32 q.q, detail := cause.setWidth 64 } (s.boundPart (qFunc q)).toList

/-- A write of HQ_QPq_SQ_TAIL (R436): the new tail, an entry number below the queue's size that does not pass the head. -/
def State.writeTail (s : State) (q : QRef) (value : Word) : State :=
  let x := s.queue q
  let size := 2 ^ x.sizeLog2
  let t := fld value.toNat 11 0
  let used := (x.tail + size - x.head) % size
  let adv := (t + size - x.tail) % size
  if !s.live || !x.enable || x.state ≠ .running then s
  else if size ≤ t || size ≤ used + adv then s.queueError q 0x01
  else s.updQueue q (fun x => { x with tail := t })

/-- SQ_TAIL_WRITE (R436). -/
def execSqTailWrite (q : QRef) (value : Word) (s : State) : Res := .next (s.writeTail q value)

/-- A write of HQ_QPq_CQ_HEAD (R437): entries up to the new head are free. -/
def State.writeHead (s : State) (q : QRef) (value : Word) : State :=
  let x := s.queue q
  let size := 2 ^ x.sizeLog2
  let adv := (fld value.toNat 11 0 + size - x.cqHead % size) % size
  if s.live && (x.enable || x.stopping) && x.cqHead + adv ≤ x.cqTail then s.updQueue q (fun x => { x with cqHead := x.cqHead + adv }) else s

/-- CQ_HEAD_WRITE (R437). -/
def execCqHeadWrite (q : QRef) (value : Word) (s : State) : Res := .next (s.writeHead q value)

/-- A write of HQ_QPq_CFG (R463, R464): while enable = 1 only one that clears enable is taken; what is written while the pair
stops takes effect once it is disabled. -/
def State.writeQueueCfg (s : State) (q : QRef) (v : BitVec 32) : State :=
  let x := s.queue q
  if x.enable && v.getLsbD 31 then s
  else if x.enable || x.stopping then s.updQueue q (fun x => ({ x with enable := false, stopping := true, nextCfg := v } : Queue).settle)
  else s.updQueue q (fun x => x.setCfg v)

/-- QUEUE_ENABLE (R464). -/
def execQueueEnable (q : QRef) (value : BitVec 32) (s : State) : Res := .next (if s.live && value.getLsbD 31 then s.writeQueueCfg q value else s)

/-- QUEUE_DISABLE (R464): fetching stops, started commands complete, then the pair is disabled. -/
def execQueueDisable (q : QRef) (value : BitVec 32) (s : State) : Res := .next (if s.live && !value.getLsbD 31 then s.writeQueueCfg q value else s)

/-- A read completion that nothing waits for: one of a read issued before a Function Level Reset is dropped and counted
(R448, R467). -/
def State.lateRead (s : State) (f : FuncRef) : State :=
  if 0 < (s.func f).late then (s.updFunc f (fun g => { g with late := g.late - 1 })).fnCount f 2 else s

/-- SQE_FETCH (R436, R447, R465): the next entry's read returns; at most 16 wait unstarted. -/
def execSqeFetch (q : QRef) (r : HostRead) (s : State) : Res :=
  let x := s.queue q
  .next (if !s.live then s
    else if x.reads (s.func (qFunc q)).busMaster = 0 then s.lateRead (qFunc q)
    else match r with
      | .data l => s.updQueue q (fun x => { x with
          fetched := x.fetched ++ [{ seq := x.fetchSeq, desc := slice l 0 512 }]
          fetchSeq := x.fetchSeq + 1
          readsOut := x.readsOut - 1
          head := (x.head + 1) % 2 ^ x.sizeLog2 })
      | .failed => (s.fnCount (qFunc q) 3).queueError q 0x02)

/-! ### Starting a command (R434, R437 to R439) -/

/-- A started command: descriptor, parameter block, number of the function's partition. -/
structure HostCmd where
  ref : CmdRef
  desc : List Byte
  block : List Byte
  deriving DecidableEq, Repr

/-- The opcode, the header flags and the arguments of a descriptor (R438). -/
def HostCmd.arg (c : HostCmd) (i : Nat) : Nat := leAt c.desc (0x20 + 8 * i) 8
def opcodeOf (d : List Byte) : Nat := leAt d 0 1
def descFlag (d : List Byte) (i : Nat) : Bool := bitAt (leAt d 1 1) i
/-- Whether a descriptor's command takes an indirect block. -/
def takesIndirect (d : List Byte) : Bool :=
  descFlag d 0 && (opcodeOf d ∈ [0x07, 0x08, 0x0A, 0x0B, 0x0C, 0x14] || (opcodeOf d = 0x04 && leAt d 0x20 8 = 2 ^ 64 - 1))
/-- Whether a descriptor keeps R438. -/
def headerOk (d : List Byte) : Bool :=
  opcodeOf d ≤ 0x17 && fld (leAt d 1 1) 7 3 = 0 && leAt d 2 2 ≤ 448 && zeroAt d 4 4 && zeroAt d 0x1C 4
    && (!takesIndirect d || (leAt d 0x10 8 % 8 = 0 && 1 ≤ leAt d 0x18 4 && leAt d 0x18 4 ≤ 2 ^ 20))

/-- The reference that a command's completion needs. -/
def refOf (q : QRef) (seq : Nat) (d : List Byte) : CmdRef := { q := q, seq := seq, id := addrAt d 8, intr := descFlag d 1 }

/-- Whether a queue may start its next command (R437, R439, R447); its partition accepts no work while recovery runs for it
(R247). -/
def State.mayStartCmd (s : State) (q : QRef) (d : List Byte) : Bool :=
  let x := s.queue q
  s.live && x.enable && (s.func (qFunc q)).busMaster && x.started.isNone && x.cqTail - x.cqHead + x.reserved < 2 ^ x.sizeLog2
    && (!descFlag d 2 || x.running = []) && (s.boundPart (qFunc q)).all (· ∉ s.tx.recovering)

/-- A rejection: status and detail, result 0. -/
def State.fail (s : State) (c : HostCmd) (status detail : Nat) : State := s.complete c.ref (BitVec.ofNat 16 status) (BitVec.ofNat 16 detail) 0
/-- Completion with status 0x00. -/
def State.done (s : State) (c : HostCmd) (result : Word) : State := s.complete c.ref 0 0 result

/-- Whether a function may submit an opcode: one bound to no enabled partition has only NOP (R434). -/
def State.mayCommand (s : State) (f : FuncRef) (op : Nat) : Bool := op = 0 || (s.boundPart f).isSome

/-- A command whose descriptor and block are at hand runs on the function's partition (R434). -/
def runCmd (s : State) (c : HostCmd) (k : State → Nat → HostCmd → State) : State :=
  if s.mayCommand (qFunc c.ref.q) (opcodeOf c.desc) then k s ((s.boundPart (qFunc c.ref.q)).getD 0) c else s.fail c 0x02 0

/-- The row of a host command: the oldest unstarted command of the queue starts where it is this row's; one with an
indirect block goes on when the block is here (INDIRECT_BLOCK_READ). The NOP row also completes reserved opcodes. -/
def hostRow (q : QRef) (op : Nat) (s : State) (k : State → Nat → HostCmd → State) : Res :=
  let x := s.queue q
  .next (match x.started with
    | some st =>
      match st.block with
      | some b => if s.live && opcodeOf st.desc = op then
          runCmd (s.updQueue q (fun x => { x with started := none })) { ref := refOf q st.seq st.desc, desc := st.desc, block := b } k
        else s
      | none => s
    | none =>
      match x.fetched with
      | [] => s
      | f :: rest =>
        if !((opcodeOf f.desc = op || (op = 0 && 0x18 ≤ opcodeOf f.desc)) && s.mayStartCmd q f.desc) then s
        else
          let s := (s.updQueue q (fun x => { x with fetched := rest, reserved := x.reserved + 1, running := x.running ++ [f.seq] })).fnCount (qFunc q) 0
          let c : HostCmd := { ref := refOf q f.seq f.desc, desc := f.desc, block := slice f.desc 0x40 (leAt f.desc 2 2) }
          if !s.mayCommand (qFunc q) (opcodeOf f.desc) then s.fail c 0x02 0
          else if !headerOk f.desc then s.fail c 0x01 0
          else if takesIndirect f.desc then s.updQueue q (fun x => { x with started := some { seq := f.seq, desc := f.desc } })
          else runCmd s c k)

/-- INDIRECT_BLOCK_READ (R439, R448): the block of the started command, or its failure. -/
def execIndirectBlockRead (q : QRef) (r : HostRead) (s : State) : Res :=
  .next (match (s.queue q).started with
    | some { seq := n, desc := d, block := none } =>
      if !s.live then s
      else match r with
        | .data l => s.updQueue q (fun x => { x with started := some { seq := n, desc := d, block := some (slice l 0 (leAt d 0x18 4)) } })
        | .failed => ((s.updQueue q (fun x => { x with started := none })).fnCount (qFunc q) 3).complete (refOf q n d) 0x04 0 0
    | _ =>
      s.lateRead (qFunc q))

/-! ### NOP, host write, host read, signal (R442) -/

/-- HOST_NOP (R442). -/
def execHostNop (q : QRef) (s : State) : Res := hostRow q 0x00 s (fun s _ c => if (List.range 4).all (fun i => c.arg i = 0) then s.done c 0 else s.fail c 0x01 0)

/-- A completion action in an argument: ck [1:0], ct [18:2]. -/
def argCk (a : Nat) : BitVec 2 := BitVec.ofNat 2 a
def argCt (a : Nat) : BitVec 17 := BitVec.ofNat 17 (fld a 18 2)

/-- The tag word of a host command's effects: its partition at the step of the last started sweep (R37). -/
def State.hostTag (s : State) (n : Nat) : Word := s.partTag n ((s.part n).lastStarted.setWidth 16) .sync

/-- HOST_WRITE (R442): scratchpad addresses are the lead context's core's. -/
def execHostWrite (q : QRef) (s : State) : Res :=
  hostRow q 0x01 s (fun s n c =>
    let a := BitVec.ofNat 64 (c.arg 0)
    let w := c.arg 1
    let l := c.block
    if descFlag c.desc 0 || 2 ^ 19 ≤ w || !ctShapeOk (argCk w) (argCt w) || c.arg 2 ≠ 0 || c.arg 3 ≠ 0 then s.fail c 0x01 0
    else if spaceOf a ∉ [0, 1, 3] || (l ≠ [] && !s.within n a l.length) || !s.serveWriteOk n a || !s.ctOwned n (argCk w) (argCt w) then s.fail c 0x03 0
    else ((s.writeDev n (s.leadCore n) a l false).action n (s.hostTag n) (argCk w) (argCt w)).done c 0)

/-- HOST_READ (R442). -/
def execHostRead (q : QRef) (s : State) : Res :=
  hostRow q 0x02 s (fun s n c =>
    let a := BitVec.ofNat 64 (c.arg 0)
    let len := c.arg 2
    if len = 0 || 448 < len || c.arg 3 ≠ 0 then s.fail c 0x01 0
    else if spaceOf a ∉ [0, 1, 2, 3] || !s.within n a len then s.fail c 0x03 0
    else ((s.emit (qFunc q) (.hostData (qFunc q) (BitVec.ofNat 64 (c.arg 1)) (s.readDev n (s.leadCore n) a len).1)).done c 0))

/-- SIGNAL (R442). -/
def execSignal (q : QRef) (s : State) : Res :=
  hostRow q 0x03 s (fun s n c =>
    let w := c.arg 0
    if 2 ^ 19 ≤ w || argCk w = 0 || !ctShapeOk (argCk w) (argCt w) || c.arg 1 ≠ 0 || c.arg 2 ≠ 0 || c.arg 3 ≠ 0 then s.fail c 0x01 0
    else if !s.ctOwned n (argCk w) (argCt w) then s.fail c 0x03 0
    else (s.action n (s.hostTag n) (argCk w) (argCt w)).done c 0)

end Sys2Proof.Machine
end

