-- ==== Sys2Proof/Machine/Stream.lean ====
section
/-! DEFINITION. Record streams (R456 to R462): fragments, publication, credit; the operations of the sync stores
(R306, R313 to R315), whose adds streams and serve partitions watch. -/

namespace Sys2Proof.Machine

/-- The key of a stream in the tables of the network ports. -/
def streamKey (n k : Nat) : Nat := n * 4096 + k
/-- An open stream. -/
def State.stream (s : State) (n k : Nat) : Option Stream := s.net.streams.find (streamKey n k)
/-- Changing an open stream. -/
def State.updStream (s : State) (n k : Nat) (f : Stream → Stream) : State :=
  match s.stream n k with
  | some x => { s with net := { s.net with streams := s.net.streams.set (streamKey n k) (f x) } }
  | none => s
/-- A stream counter of a partition (R467). -/
def State.streamCount (s : State) (n i : Nat) : State :=
  { s with net := { s.net with streamCnt := s.net.streamCnt.upd [0, 0, 0, 0, 0, 0, 0] n (fun l => updAt (fun x => sat64 (x + 1)) l i) } }

/-- Bytes of a stream's ring (R442, R456): position counted from the stream's first byte. -/
def State.putRing (s : State) (n : Nat) (x : Stream) (pos : Nat) (l : List Byte) : State :=
  s.writeKeys ((List.range l.length).map (fun i =>
    stagingKey x.die ((s.part n).stageBase * 2 ^ 20 + x.offset + (pos + i) % max 1 x.size))) l false

/-- The length of a record's entry (R458). -/
def entryLen (length : Nat) : Nat := roundUp 64 (64 + length)
/-- Where an entry starts: past a pad where it would cross the ring's end (R458). -/
def Stream.entryAt (x : Stream) (length : Nat) : Nat :=
  let room := x.size - x.wpos % max 1 x.size
  if room < entryLen length then x.wpos + room else x.wpos
/-- The credit of a stream: bytes consumed plus the ring size (R459). -/
def State.credit (s : State) (x : Stream) : Nat := 64 * (s.pair x.pair).2 + x.size

/-- A staging header (R458). -/
def stagingHead (kind : Byte) (tear : Bool) (units k : Nat) (r : PartialRec) : List Byte :=
  [kind, BitVec.ofNat 8 (b2n tear)] ++ leBytes 2 0 ++ leBytes 4 units ++ leBytes 4 k ++ leBytes 4 r.length ++ leBytes 8 r.seq
    ++ leBytes 8 r.first ++ leBytes 8 r.last ++ leBytes 24 0

/-- Publication of a whole record (R459): the pad before it, its header, the produced counter. -/
def State.publish (s : State) (n k : Nat) (x : Stream) (r : PartialRec) : State :=
  let s := if r.pad = 0 then s
    else s.putRing n x (r.at_ - r.pad) (stagingHead 0x02 false (r.pad / 64) k { r with seq := 0, length := 0, first := 0, last := 0 })
  let s := (s.putRing n x r.at_ (stagingHead 0x01 r.tear (entryLen r.length / 64) k r)).flushMerges n
  (s.streamCount n 0).sendSync
    { src := .unit n, die := fld x.pair 16 14, act := .produce x.pair ((r.pad + entryLen r.length) / 64),
      tag := s.partTag n ((s.part n).lastStarted.setWidth 16) .sync }

/-- Publishes the whole records that wait, while the hold-up gate is open (R459, R513). -/
def State.publishAll (s : State) (n k : Nat) : State :=
  match s.stream n k with
  | none => s
  | some x => if s.gateOpen then x.publishing.foldl (fun s r => s.publish n k x r) (s.updStream n k (fun x => { x with publishing := [] })) else s

/-- A credit datagram (R457, R459) to the sender that the stream's last fragment came from. -/
def State.sendCredit (s : State) (n k : Nat) : State :=
  match s.stream n k with
  | none => s
  | some x =>
    if x.route = [] || !s.gateOpen then s
    else
      let l := leBytes 4 0x534C5253 ++ [1, 1, BitVec.ofNat 8 n, 0] ++ leBytes 4 k ++ leBytes 20 0 ++ leBytes 8 (s.credit x) ++ leBytes 24 0
      (s.send (.datagram x.port x.route l)).updStream n k (fun x => { x with credited := s.credit x, creditAt := s.now })

/-- An add to a consumed counter as the streams see it: credit that has grown by 1 MiB is sent (R459). -/
def State.streamHook (s : State) (id : Nat) : State :=
  (s.net.streams.filter (fun x => x.2.pair = id)).foldl (fun s x =>
    if x.2.credited + 2 ^ 20 ≤ s.credit x.2 then s.sendCredit (x.1 / 4096) (x.1 % 4096) else s) s

/-! ### Fragments (R457, R460, R461) -/

/-- A fragment's header. -/
structure Frag where
  stream : Nat
  len : Nat
  seq : Nat
  recLen : Nat
  off : Nat

def fragOf (l : List Byte) : Frag := { stream := leAt l 8 4, len := leAt l 0xC 4, seq := leAt l 0x10 8, recLen := leAt l 0x18 4, off := leAt l 0x1C 4 }

/-- Whether a datagram keeps R457 as a fragment. -/
def fragOk (l : List Byte) : Bool :=
  let f := fragOf l
  l.length = 64 + f.len && leAt l 0 4 = 0x534C5253 && leAt l 4 1 = 1 && leAt l 5 1 = 0 && leAt l 6 1 < 8 && leAt l 7 1 = 0
    && f.stream < 4096 && f.len ≤ 8896 && 1 ≤ f.recLen && f.recLen ≤ 2 ^ 24 && f.off + f.len ≤ f.recLen && zeroAt l 0x28 24

/-- A record is discarded and the stream torn (R460, R461). -/
def State.tearStream (s : State) (n k seq : Nat) : State :=
  s.updStream n k (fun x => { x with partialRec := none, torn := true, discarded := addOnce x.discarded seq, lastSeq := some (max seq (x.lastSeq.getD 0)) })

/-- The bytes of the partial record's next fragment are written; the last one makes the record whole (R459). -/
def State.takeFrag (s : State) (n k : Nat) (x : Stream) (r : PartialRec) (f : Frag) (data : List Byte) : State :=
  let s := s.putRing n x (r.at_ + 64 + f.off) data
  let r := { r with next := f.off + f.len, last := s.now }
  if r.next < r.length then s.updStream n k (fun x => { x with partialRec := some r })
  else
    let s := s.updStream n k (fun x => { x with
      partialRec := none
      publishing := x.publishing ++ [{ r with tear := x.torn }]
      torn := false
      lastSeq := some (max r.seq (x.lastSeq.getD 0))
      wpos := r.at_ + entryLen r.length })
    s.publishAll n k

/-- RECORD_FRAGMENT (R455, R457, R460). -/
def execRecordFragment (port : Nat) (d : Datagram) (s : State) : Res :=
  let l := d.payload
  let f := fragOf l
  let n := leAt l 6 1
  let k := f.stream
  .next (if !s.live || !s.addressed port d (fld (s.nport port).udp.toNat 15 0) then s
    else if d.fragmented then { s with net := { s.net with fragDropped := s.net.fragDropped + 1 } }
    else if !fragOk l then s
    else match s.stream n k with
      | none => s.streamCount n 6
      | some x =>
        let s := s.updStream n k (fun x => { x with port := port, route := routeOf port d })
        let data := l.drop 64
        let newer := match x.lastSeq with | some q => decide (q < f.seq) | none => true
        match x.partialRec with
        | some r =>
          if f.seq ∈ x.discarded then s.streamCount n 2
          else if f.seq = r.seq then
            if x.size < f.recLen + 64 then (s.tearStream n k r.seq).streamCount n 5
            else if f.recLen ≠ r.length then s
            else if f.off = r.next then s.takeFrag n k x r f data
            else if f.off < r.next then s.streamCount n 4
            else ((s.tearStream n k r.seq).streamCount n 3).streamCount n 1
          else if f.off ≠ 0 then s.streamCount n 3
          else if newer then ((s.tearStream n k r.seq).streamCount n 3).streamCount n 1
          else s.streamCount n 4
        | none =>
          if f.seq ∈ x.discarded then s.streamCount n 2
          else if f.off ≠ 0 then s.streamCount n 3
          else if !newer then s.streamCount n 4
          else
            let at_ := x.entryAt f.recLen
            if x.size < f.recLen + 64 || s.credit x < at_ + entryLen f.recLen then (s.tearStream n k f.seq).streamCount n 5
            else s.takeFrag n k x { seq := f.seq, length := f.recLen, next := 0, at_ := at_, first := s.now, last := s.now, pad := at_ - x.wpos } f data)

/-- PARTIAL_RECORD_TIMEOUT (R461): 50 ms without a fragment. -/
def execPartialRecordTimeout (part stream : Nat) (s : State) : Res :=
  .next (match (s.stream part stream).bind (·.partialRec) with
    | some r => if s.live && r.last + 50000000 ≤ s.now then (s.tearStream part stream r.seq).streamCount part 1 else s
    | none => s)

/-- CREDIT_TIMER (R459): at least every 10 µs. -/
def execCreditTimer (part stream : Nat) (s : State) : Res := .next (if s.live then s.sendCredit part stream else s)

/-! ### The stores (R306, R307, R313 to R315) -/

/-- What an operation does at its store. -/
def State.applySync (s : State) (op : SyncOp) : State :=
  match op.act with
  | .setFlag id => s.putFlag id true
  | .clearFlag id => s.putFlag id false
  | .produce id n => (s.addPair id n false).serveHook id false
  | .consume id n => ((s.addPair id n true).serveHook id true).streamHook id
  | .wait c => match op.src with
    | .ctx p => if s.condMet c then { s with sync := { s.sync with wakes := s.sync.wakes ++ [p] } }
        else { s with sync := { s.sync with waiters := s.sync.waiters ++ [{ p := p, cond := c }] } }
    | .unit _ => s
  | .read id consumed sr => match op.src with
    | .ctx p => ((s.setS p sr (BitVec.ofNat 64 (if consumed then (s.pair id).2 else (s.pair id).1))).afterRetire p).unstall p.core
    | .unit _ => s

/-- SYNC_STORE_OPERATION (R306, R307, R313): a die's store takes the nth operation on its way to it; those of one
context reach it in program order (R26). -/
def execSyncStoreOperation (die n : Nat) (s : State) : Res :=
  let mine := s.sync.inflight.filter (fun o => o.die = die)
  .next (match mine[n]? with
    | none => s
    | some op =>
      if !s.live || (mine.take n).any (fun o => o.src = op.src) then s
      else ({ s with sync := { s.sync with inflight := dropFirst (fun o => o.die = die && o.src = op.src) s.sync.inflight } } : State).applySync op)

end Sys2Proof.Machine
end

