-- ==== Sys2Proof/Machine/Sweep.lean ====
section
/-! DEFINITION. The update sweep (R218 to R237): step boundaries, update programs (R165, R166, R231,
R232), row blocks and their transactions, completion, the digest exchange (R258, R259), export and capture
streams (R260, R261, R395, R396). -/

namespace Sys2Proof.Machine

/-! ### Update programs (R165, R166, R231) -/

/-- The context on which a swath unit's lanes are run: the same meanings as a core's (R166). -/
def lane0 : At := ⟨0, 0⟩

/-- The scalar operations of the update subset by sub-operation (R165). -/
def updScalar (sub : Nat) (f : LayS) : Option (State → Res) :=
  match sub with
  | 0 => some (execAdd lane0 f)
  | 1 => some (execSub lane0 f)
  | 2 => some (execAnd lane0 f)
  | 3 => some (execOr lane0 f)
  | 4 => some (execXor lane0 f)
  | 5 => some (execShl lane0 f)
  | 6 => some (execShr lane0 f)
  | 7 => some (execSar lane0 f)
  | 8 => some (execMul lane0 f)
  | 9 => some (execMulhu lane0 f)
  | 10 => some (execMin lane0 f)
  | 11 => some (execMax lane0 f)
  | 12 => some (execMinu lane0 f)
  | 13 => some (execMaxu lane0 f)
  | 14 => some (execSlt lane0 f)
  | 15 => some (execSltu lane0 f)
  | _ => none

/-- The vector operations 0x2.0x0 by sub-operation (R165); group reductions skip the lanes from `live` on (R57). -/
def updLanes (live sub : Nat) (f : LayV) : Option (State → Res) :=
  match sub with
  | 0 => some (execVadd lane0 f)
  | 1 => some (execVsub lane0 f)
  | 2 => some (execVmul lane0 f)
  | 3 => some (execVfma lane0 f)
  | 4 => some (execVmin lane0 f)
  | 5 => some (execVmax lane0 f)
  | 6 => some (execVabs lane0 f)
  | 7 => some (execVneg lane0 f)
  | 8 => some (execVsel lane0 f)
  | 9 => some (execVclt lane0 f)
  | 10 => some (execVceq lane0 f)
  | 11 => some (groupMax live lane0 f)
  | 12 => some (groupSum live lane0 f)
  | _ => none

/-- The functions 0x2.0x2 by sub-operation (R165). -/
def updFuncs (sub : Nat) (f : LayV) : Option (State → Res) :=
  match sub with
  | 0 => some (execVexp2 lane0 f)
  | 1 => some (execVlog2 lane0 f)
  | 2 => some (execVrcp lane0 f)
  | 3 => some (execVrsqrt lane0 f)
  | 4 => some (execVsqrt lane0 f)
  | _ => none

/-- The instruction of the update subset that a word encodes (R129, R145, R165). -/
def updOp (live : Nat) (w : Word) : Option (State → Res) :=
  let sub := fld w.toNat 39 32
  match fld w.toNat 63 56 with
  | 0x00 => updScalar sub (layS w)
  | 0x01 => if sub = 0 then some (execLih lane0 (layS w)) else none
  | 0x20 => updLanes live sub (layV w)
  | 0x21 => if sub = 0 then some (execVcvt lane0 (layV w)) else none
  | 0x22 => updFuncs sub (layV w)
  | 0x28 => if sub = 0 then some (execVbcast lane0 (layV w)) else none
  | 0x29 => if sub = 0 then some (execVext lane0 (layV w)) else none
  | 0xF0 => some (execNop lane0 (layZ w))
  | _ => none

/-- The lanes of a swath unit before a program: its registers, everything else zero (R231). -/
def lanesStart (vs : List (Nat × List (BitVec 32))) (ss : List (Nat × Word)) : State :=
  ({} : State).updCtx lane0 (fun c => { c with
    state := .ready
    v := vs.map (fun x => (x.1, { lanes := x.2 }))
    s := ss })

/-- One instruction on the lanes. -/
def lanesStep (live : Nat) (s : State) (w : Word) : State :=
  match updOp live w with
  | some f => match f ((s.updCtx lane0 (fun c => { c with pc := 0 })).updCore 0 (fun k => { k with vecEnds := [] })) with
    | .next t => t
    | _ => s
  | none => s

/-- Whether a word is a legal instruction of the update subset (R165, R166). -/
def updLegal (w : Word) : Bool := (updOp 128 w).isSome && ((lanesStep 128 (lanesStart [] []) w).ctx lane0).state = .ready

/-- Running a program: every instruction once, in order (R165). -/
def runLanes (live : Nat) (prog : List Word) (s : State) : State := prog.foldl (lanesStep live) s

/-! ### One row under the program (R231, R232) -/

/-- A row's inputs: old values, moments (per element or per block), gradient elements each with its window (R65), blight. -/
structure RowIn where
  old : List Val
  moms : List (List Val)
  grad : List (Partial × Int)
  blight : Bool

/-- 32-bit words as lanes, zero beyond. -/
def padLanes (l : List Nat) : List (BitVec 32) := mkLanes (fun i => BitVec.ofNat 32 (l.getD i 0))

/-- The new weight and moments of one run of 128 elements of a row of `W` elements padded to `P` (R57, R231, R232). -/
def updChunk (e : PlanEntry) (prog : List Word) (step : Word) (r P W : Nat) (x : RowIn) (base : Nat) : List (List Nat) :=
  let n := min 128 (P - base)
  let cut (l : List Val) : List Nat := ((l.drop base).take n).map (encFp 23)
  let mom (l : List Val) : List Nat := if e.perBlock then (List.range n).map (fun i => encFp 23 (l.getD ((base + i) / 32) Val.zero)) else cut l
  let k := rngKey e.seed step e.tensor
  let rnd : List Nat := (List.range n).map (fun i =>
    encFp 23 (.fin false ((rngWord k (BitVec.ofNat 64 (r * P + base + i))).toNat >>> 40) (-24)))
  let g : List Nat := (List.range n).map (fun i => let g := x.grad.getD (base + i) ({}, 0); finalFp 23 g.1 g.2 1)
  let vs := [(0, padLanes (cut x.old)), (1, padLanes (mom (x.moms.getD 0 []))), (2, padLanes (mom (x.moms.getD 1 []))), (3, padLanes g), (4, padLanes rnd)]
  let ss := ((List.range 8).map (fun i => (i + 1, (e.consts.getD i 0).setWidth 64))) ++ [(9, step), (10, e.seed), (11, e.tensor)]
  let c := (runLanes (W - base) prog (lanesStart vs ss)).ctx lane0
  (List.range 3).map (fun v => (List.range n).map (fun i => ((c.getV (BitVec.ofNat 4 v)).lane i).toNat))

/-- The new weight and moments of a row: exact values. -/
def updRow (e : PlanEntry) (prog : List Word) (step : Word) (r P W : Nat) (x : RowIn) : List (List Val) :=
  let cs := (List.range (ceilDiv P 128)).map (fun k => updChunk e prog step r P W x (128 * k))
  (List.range 3).map (fun v =>
    let l := ((cs.map (fun c => c.getD v [])).flatten).map fp32
    if v ≠ 0 && e.perBlock then (List.range (ceilDiv P 32)).map (fun j => l.getD (32 * j) Val.zero) else l)

/-! ### Table entries (R223 to R227, R233, R236) -/

/-- The program of a plan entry. -/
def Part.progOf (q : Part) (e : PlanEntry) : List Word := q.slots.get [] e.slot

/-- What a row block writes and counts; `stats` holds the records of the new weights (0) and moments (R94), `damaged` the
places and tables of inconsistent blocks that it read (R61). -/
structure BlockOut where
  entries : List JEntry := []
  elems : Nat := 0
  guarded : Bool := false
  skipped : List Nat := []
  clamps : Tab Nat := []
  stats : List (Nat × List Byte) := []
  damaged : List (Word × Nat) := []

/-- The slots on a die that hold rows: slot and row. -/
def State.heldSlots (s : State) (n : Nat) (x : RowAcc) (t : Table) (d : Nat) : List (Nat × Nat) :=
  if x.areas.getD d 0 = 0 then [] else
    (List.range x.slots).filterMap (fun i => let (r, occ) := s.slotDir n (x.slotAddr t d i); if occ then some (i, r) else none)

/-- A padded row whose positions beyond the width are zero. -/
def Table.padRow (t : Table) (l : List Val) : List Val := (List.range t.padded).map (fun i => if i < t.width then l.getD i Val.zero else Val.zero)

/-- Writing a row record: its entry and how many blocks were clamped (R172, R233). -/
def State.rowEntry (s : State) (n num : Nat) (o : Obj) (r : Nat) (vals : List Val) (blight : Bool) : JEntry × Nat × RecOut :=
  let t := (s.part n).tables.get {} o.table
  let lay := o.lay t
  let v := t.padRow vals
  let out := t.quantRow lay (o.blockBase t r) blight v
  ({ addr := rowAddr num o t r, data := t.recBytes lay out v, blight := blight }, out.clamped, out)

/-- The object of a moment table that holds a row. -/
def Part.momentRow (q : Part) (e : PlanEntry) (k r : Nat) : Option (Nat × Nat × Obj) :=
  let tn := if k = 0 then e.mTable1 else e.mTable2
  if k < e.moments then (q.rowObj tn r).map (fun x => (tn, x)) else none

/-- A moment's values for a row, its padding zero, and its blight; an unplaced moment row enters as +0. -/
def State.momentVals (s : State) (n : Nat) (e : PlanEntry) (k r : Nat) : List Val × Bool :=
  match (s.part n).momentRow e k r with
  | some (tn, num, o) =>
    let t := (s.part n).tables.get {} tn
    let (l, b) := s.homeRow n num o r
    let (v, b2) := t.recVals t.lay l (o.blockBase t r)
    (t.padRow v, b || b2)
  | none => ([], false)

/-- The inconsistent records that a row's weight and moments are read from: place and table (R61). -/
def State.damagedRows (s : State) (n : Nat) (e : PlanEntry) (r : Nat) : List (Word × Nat) :=
  let q := s.part n
  let rows := ((q.rowObj e.table r).map (fun x => (e.table, x))).toList ++ (List.range e.moments).filterMap (fun k => q.momentRow e k r)
  rows.filterMap (fun x =>
    let t := q.tables.get {} x.1
    if t.recDamaged t.lay (s.homeRow n x.2.1 x.2.2 r).1 (x.2.2.blockBase t r) then some (rowAddr x.2.1 x.2.2 t r, x.1) else none)

/-- The gradient elements of a slot and their blight. -/
def State.slotGrad (s : State) (n : Nat) (a : Word) (P : Nat) : List (Partial × Int) × Bool :=
  let (l, b) := s.readDev n 0 (plus a 16) (16 * P)
  ((List.range P).map (fun i => decW96 (w96At (slice l (16 * i) 16))), b)

/-- Whether a gradient stops its row block under guard = 1 (R234). -/
def badGrad (l : List (Partial × Int)) : Bool := l.any (fun p => p.1.overflow || p.1.special ≠ 0)

/-- The writes of one touched row: moments, weight, shadow; the order puts the weight's version word last. The blocks that
its shadow record clamps are counted with the row's (R172, R197). -/
def State.rowWrites (s : State) (n : Nat) (e : PlanEntry) (step : Word) (r : Nat) (a : Word) : BlockOut :=
  let q := s.part n
  let t := q.tables.get {} e.table
  match q.rowObj e.table r with
  | none => {}
  | some (num, o) =>
    let (l, b0) := s.homeRow n num o r
    if b0 then { skipped := [r] }
    else
      let (old, b1) := t.recVals t.lay l (o.blockBase t r)
      let ms := (List.range e.moments).map (fun k => s.momentVals n e k r)
      let (g, b2) := s.slotGrad n a t.padded
      let bl := b1 || ms.any (·.2) || b2
      let new := updRow e (q.progOf e) step r t.padded t.width { old := t.padRow old, moms := ms.map (·.1), grad := g, blight := bl }
      let mom := (List.range e.moments).filterMap (fun k => (q.momentRow e k r).map (fun y => (y.1, s.rowEntry n y.2.1 y.2.2 r (new.getD (k + 1) []) bl)))
      let (we, wc, wo) := s.rowEntry n num o r (new.getD 0 []) bl
      let sh := match q.shadow t with
        | some (sn, so) => if so.firstRow ≤ r && r < so.firstRow + so.rowCount then [s.rowEntry n sn so r (new.getD 0 []) bl] else []
        | none => []
      { entries := mom.map (·.2.1) ++ [we] ++ sh.map (·.1), elems := t.width,
        clamps := (mom.map (fun y => (y.1, y.2.2.1))) ++ [(e.table, wc)] ++ sh.map (fun y => (e.table, y.2.1)),
        stats := if !bitAt t.param.toNat 36 then [] else
          [(0, (statsOf (BitVec.ofNat 8 (fld t.param.toNat 25 18)) ((t.padRow (new.getD 0 [])).take t.width)
            [wo.escN, wo.promoted, wo.nonFin, 0, wo.sat]).bytes)],
        damaged := s.damagedRows n e r }

/-- Joining what rows write. -/
def BlockOut.join (a b : BlockOut) : BlockOut :=
  { entries := a.entries ++ b.entries, elems := a.elems + b.elems, guarded := a.guarded || b.guarded, skipped := a.skipped ++ b.skipped,
    clamps := a.clamps ++ b.clamps, damaged := a.damaged ++ b.damaged,
    stats := b.stats.foldl (fun l x =>
      match l.find? (fun y => y.1 = x.1) with
      | some y => (l.filter (fun y => y.1 ≠ x.1)) ++ [(x.1, ((Stats.ofBytes y.2).merge (Stats.ofBytes x.2)).bytes)]
      | none => l ++ [x]) a.stats }

/-- Entries in the order that puts every moment record before any weight record. -/
def State.momentsFirst (s : State) (n : Nat) (e : PlanEntry) (l : List JEntry) : List JEntry :=
  let isW (x : JEntry) : Bool := e.table ∈ s.tablesOf n [x]
  l.filter (fun x => !isW x) ++ l.filter isW

/-- The touched rows of a row block with their slots, ascending by row (R225, R236). -/
def State.touchedRows (s : State) (n : Nat) (e : PlanEntry) (b : Nat × Nat × Nat) : List (Nat × Word) :=
  let t := (s.part n).tables.get {} e.table
  let x := s.rowAcc n e.accAddr
  let d := s.sweepDie n b.2.2
  let held := s.heldSlots n x t d
  (List.range b.2.1).filterMap (fun i => (held.find? (fun h => h.2 = b.1 + i)).map (fun h => (b.1 + i, x.slotAddr t d h.1)))

/-- What the row block of a table entry writes (R227, R234, R237). -/
def State.tableBlock (s : State) (n : Nat) (e : PlanEntry) (step : Word) (b : Nat × Nat × Nat) : BlockOut :=
  let x := s.rowAcc n e.accAddr
  let rows := s.touchedRows n e b
  let rel : List JEntry := rows.map (fun r => { addr := r.2, data := List.replicate 16 0, kind := 2 })
  let P := ((s.part n).tables.get {} e.table).padded
  let live := rows.filter (fun r => match (s.part n).rowObj e.table r.1 with | some (num, o) => !(s.homeRow n num o r.1).2 | none => false)
  let out : BlockOut :=
    if e.guard && live.any (fun r => badGrad (s.slotGrad n r.2 P).1) then { guarded := true, skipped := (rows.filter (fun r => r ∉ live)).map (·.1) }
    else (rows.map (fun r => s.rowWrites n e step r.1 r.2)).foldl BlockOut.join {}
  { out with entries := s.momentsFirst n e out.entries ++ rel }

/-! ### Dense entries (R222, R233, R234) -/

/-- The values of a row of a dense tensor and their blight. -/
def State.denseVals (s : State) (n : Nat) (d : TDesc) (r : Nat) : List Val × Bool :=
  let k := s.leadCore n
  if d.kind = 0 then
    let bs := (List.range d.blocks).map (fun j => s.blockVals n k d (r * d.blocks + j))
    ((bs.map (·.1)).flatten, bs.any (·.2))
  else
    let w := wideBytes d.kind
    let (l, b) := s.readDev n k (plus d.code (r * d.len * w)) (d.len * w)
    ((List.range d.len).map (fun i => if d.kind = 1 then fp32 (leAt l (4 * i) 4) else bf16 (leAt l (2 * i) 2)), b)

/-- The quantised blocks of a dense row. -/
def denseOuts (d : TDesc) (blight : Bool) (vals : List Val) : List QOut :=
  (List.range d.blocks).map (fun j => quantBlk d.fmt d.theta d.shift (d.outlIn j) 2 1 blight ((vals.drop (32 * j)).take 32))

/-- The side entries of a tensor with those of blocks [lo, hi) replaced (R78, R79). -/
def spliceSide (size hi_ : Nat) (l : List Byte) (cnt lo hi : Nat) (new : List Byte) : List Byte :=
  let idx (i : Nat) : Nat := fld (leAt l (size * i) 8) hi_ (hi_ - 42)
  let take (f : Nat → Bool) : List Byte := (((List.range cnt).filter (fun i => f (idx i))).map (fun i => slice l (size * i) size)).flatten
  take (· < lo) ++ new ++ take (hi ≤ ·)

/-- The writes that replace rows of a dense tensor, narrow or wide (R139, R233). -/
def State.denseWrites (s : State) (n : Nat) (d : TDesc) (first : Nat) (rows : List (List Val)) (blight : Bool) : List JEntry :=
  let k := s.leadCore n
  let ent (a : Word) (l : List Byte) : List JEntry := if l = [] then [] else [{ addr := a, data := l, blight := blight, core := k }]
  if d.kind = 0 then
    let w := eltBits d.fmt
    let outs := (rows.map (denseOuts d blight)).flatten
    let lo := first * d.blocks
    let hi := lo + outs.length
    let qo (i : Nat) : QOut := outs.getD i ⟨⟨0, [], 0, [], none⟩, false, false, false, 0⟩
    let esc := ((List.range outs.length).map (fun i => ((qo i).blk.esc.map (fun e => escBytes e.1 (lo + i) e.2)).flatten)).flatten
    let prom := ((List.range outs.length).map (fun i => match (qo i).blk.prom with | some cs => promBytes (lo + i) cs | none => [])).flatten
    let newEsc := spliceSide 8 58 (s.readDev n k d.esc (8 * d.escN)).1 d.escN lo hi esc
    let newProm := spliceSide 40 42 (s.readDev n k d.prom (40 * d.promN)).1 d.promN lo hi prom
    let outl := ((List.range rows.length).map (fun i => (d.outliers.map (fun c => leBytes 2 (encFp 7 ((rows.getD i []).getD c Val.zero)))).flatten)).flatten
    ent (plus d.code (lo * 4 * w)) ((outs.map (fun o => leBytes (4 * w) (packCodes w o.blk.codes))).flatten)
      ++ ent (plus d.scale (2 * lo)) ((outs.map (fun o => leBytes 2 o.blk.scale)).flatten)
      ++ ent d.esc newEsc ++ ent d.prom newProm ++ ent (plus d.outl (2 * first * d.outCount)) outl
      ++ [{ addr := plus d.at_ 0x68, data := leBytes 8 (newEsc.length / 8) ++ leBytes 8 (newProm.length / 40), core := k }]
  else
    ent (plus d.code (first * d.len * wideBytes d.kind))
      ((rows.map (fun r => ((List.range d.len).map (fun i => leBytes (wideBytes d.kind) (encFp (if d.kind = 1 then 23 else 7) (r.getD i Val.zero)))).flatten)).flatten)

/-- The dense accumulator's elements of a row and their blight (R65, R222). -/
def State.accRow (s : State) (n : Nat) (d : TDesc) (r : Nat) : List (Partial × Int) × Bool :=
  let (l, b) := s.readDev n (s.leadCore n) (d.elemAt r 0) (16 * d.len)
  ((List.range d.len).map (fun i => decW96 (w96At (slice l (16 * i) 16))), b)

/-- The statistics record over the new values of some rows of a dense tensor (R94, R95). -/
def denseStats (d : TDesc) (blight : Bool) (rows : List (List Val)) : List Byte :=
  let outs := if d.kind = 0 then (rows.map (denseOuts d blight)).flatten else []
  (statsOf d.hist (rows.flatten) [(outs.map (fun o => o.blk.esc.length)).sum, (outs.filter (·.promoted)).length,
    (outs.filter (·.nonFinite)).length, 0, (outs.map (·.saturated)).sum]).bytes

/-- The inconsistent blocks of some rows of a dense tensor (R61). -/
def State.damagedDense (s : State) (n : Nat) (d : TDesc) (rows : List Nat) : List (Word × Nat) :=
  if d.kind ≠ 0 then []
  else (rows.map (fun r => (List.range d.blocks).filterMap (fun j =>
    let i := r * d.blocks + j
    if (s.block n (s.leadCore n) d i).1.damaged then some (plus d.code (i * 4 * eltBits d.fmt), 0) else none))).flatten

/-- What the row block of a dense entry writes (R222, R234, R237). -/
def State.denseBlock (s : State) (n : Nat) (e : PlanEntry) (step : Word) (b : Nat × Nat × Nat) : BlockOut :=
  let k := s.leadCore n
  let (w, bw) := s.desc n k e.wDesc
  let (acc, _) := s.desc n k e.accAddr
  let ms := ([e.mDesc1, e.mDesc2].take e.moments).map (fun a => s.desc n k a)
  let rows := (List.range b.2.1).map (fun i => b.1 + i)
  let ins : List RowIn := rows.map (fun r =>
    let (o, b0) := s.denseVals n w r
    let mv := ms.map (fun m => s.denseVals n m.1 r)
    let (g, b1) := s.accRow n acc r
    { old := o, moms := mv.map (·.1), grad := g, blight := bw || b0 || mv.any (·.2) || b1 })
  let zero : List Byte := leBytes 16 (encW96 {} (anchorE acc.anchor)).toNat
  let clear : List JEntry := rows.map (fun r => { addr := acc.elemAt r 0, data := (List.replicate acc.len zero).flatten, kind := 2, core := k })
    ++ [{ addr := plus e.accAddr 0x48, data := leBytes 8 0, kind := 2, core := k }]
  if e.guard && ins.any (fun x => badGrad x.grad) then { entries := clear, guarded := true }
  else
    let new := (List.range rows.length).map (fun i => updRow e ((s.part n).progOf e) step (rows.getD i 0) w.len w.len (ins.getD i ⟨[], [], [], false⟩))
    let bl := ins.any (·.blight)
    let col (v : Nat) : List (List Val) := new.map (fun x => x.getD v [])
    let mw := ((List.range ms.length).map (fun i => match ms[i]? with | some (m, _) => s.denseWrites n m b.1 (col (i + 1)) bl | none => [])).flatten
    let ver : List JEntry := if e.verAddr = 0 then [] else [{ addr := plus e.verAddr (8 * b.2.2), data := leBytes 8 0, kind := 1, core := k }]
    let ds := w :: ms.map (·.1)
    { entries := mw ++ s.denseWrites n w b.1 (col 0) bl ++ clear ++ ver, elems := rows.length * w.len,
      stats := (List.range ds.length).filterMap (fun i => (ds[i]?).bind (fun d => if d.stats then some (i, denseStats d bl (col i)) else none)),
      damaged := (ds.map (fun d => s.damagedDense n d rows)).flatten }

/-! ### Starting a sweep (R218, R220, R226, R328, R422) -/

/-- Whether a partition has a context that is not idle. -/
def State.busyPart (s : State) (n : Nat) : Bool := (s.ctxsOf n).any (fun p => (s.ctx p).state ≠ .idle)

/-- Whether every context of a partition that is not idle or faulted has reached the boundary of a step (R218). -/
def State.boundary (s : State) (n : Nat) (step : BitVec 16) : Bool :=
  let bs := (s.part n).stepbs.filter (fun x => x.2 = step)
  bs ≠ [] && (s.ctxsOf n).all (fun p => (s.ctx p).state = .idle || (s.ctx p).state = .faulted || bs.any (fun x => x.1 = p))

/-- The last STEPB of a step has retired: the sweep is due, a held mode change goes on (R328), the hold point
of serve partitions falls here (R422), an accepted membership takes effect (R353), as does a written wait budget
(R389). -/
def State.atBoundary (s : State) (n : Nat) (step : BitVec 16) : State :=
  let s := s.updPart n (fun q => { q with
    sweepDue := addOnce q.sweepDue step
    sweep := q.sweep.map (fun w => { w with suspended := false })
    budget := q.budgetWritten
    change := q.change.map (fun h => if h.hold then { h with hold := false, arrived := true } else h) })
  let s := match (s.member n).pending with
    | some img => s.putImage n img
    | none => s
  s.setHoldPoint n

/-- STEPB (R218, R404). -/
def execStepb (p : At) (f : LayA) (s : State) : Res :=
  let n := s.partNum p.core
  issue s p {} {} (firstFault [must (f.sd = 0 && f.sa = 0 && f.zero = 0) 0x03, must (!(s.part n).cfg.serve) 0x06])
    (fun t =>
      let st := (s.ctx p).step
      let t := t.updPart n (fun q => { q with stepbs := addOnce q.stepbs (p, st) })
      if t.boundary n st then t.atBoundary n st else t)

/-- The earliest of some steps (R36). -/
def earliest : List (BitVec 16) → Option (BitVec 16)
  | [] => none
  | a :: t => match earliest t with
    | none => some a
    | some b => if stepEarlier b a then some b else some a

/-- The step whose sweep comes next: the earliest due one, or one at its boundary now; in replay mode the replayed
step alone (R395). -/
def State.nextSweep (s : State) (n : Nat) : Option (BitVec 16) :=
  let q := s.part n
  let l := q.sweepDue ++ ((q.stepbs.map (·.2)).filter (s.boundary n))
  earliest (match q.replay with | some r => l.filter (· = r.step.setWidth 16) | none => l)

/-- Whether a partition may start a sweep now: none runs, no recovery, no mode change that waits for this
boundary (R328), no export of the completed step (R260), no import (R262), in replay mode only the replayed step (R395). -/
def State.mayStart (s : State) (n : Nat) (step : Word) : Bool :=
  let q := s.part n
  q.cfg.enable && !q.cfg.serve && q.sweep.isNone && n ∉ s.tx.recovering
    && (match q.change with | some h => !h.arrived | none => true)
    && q.exports.all (fun x => !(q.started && x.step = q.lastCompleted)) && q.importing.isNone
    && (match q.replay with | some r => step = r.step && !r.swept | none => true)

/-- A table whose accumulator is full is skipped: emptied, counted, reported (R226). -/
def State.skipFull (s : State) (n : Nat) (e : PlanEntry) (tag : Word) : State :=
  let t := (s.part n).tables.get {} e.table
  let x := s.rowAcc n e.accAddr
  let c := (s.part n).cfg.clusters.headD 0
  if !e.valid || e.dense || !x.full then s
  else
    let s := (s.updSw c (fun k => { k with skipped := sat64 (k.skipped + 1) })).discard ⟨.swath, c⟩ 0x05 tag e.table [n]
    if (s.part n).replay.isSome then s
    else
      let s := (List.range 8).foldl (fun s d => (s.heldSlots n x t d).foldl (fun s h =>
        s.writeKeys (s.keysOf n 0 (x.slotAddr t d h.1) 16) (List.replicate 16 0) false) s) s
      s.putRowAcc n e.accAddr { x with full := false, terms := 0, touched := 0 }

/-- SWEEP_START (R218, R220, R226, R422). -/
def execSweepStart (part : Nat) (s : State) : Res :=
  .next (match s.nextSweep part with
    | none => s
    | some st =>
      let q := s.part part
      let step := fullStep (if q.started then q.lastStarted else 0) st
      let s := s.setHoldPoint part
      if !s.live || !s.mayStart part step || !s.holdsMet part then s
      else
        let s := s.countHold part
        let s := s.updPart part (fun q => { q with
          sweep := some { step := step }
          started := true
          lastStarted := step
          sweepDue := q.sweepDue.filter (· ≠ st)
          stepbs := q.stepbs.filter (fun x => x.2 ≠ st) })
        let s := q.cfg.clusters.foldl (fun s c => (s.putSw c .sweeping).updCluster c (fun x => { x with swStep := st })) s
        match q.plan with
        | some pl => pl.entries.foldl (fun s e => s.skipFull part e (BitVec.ofNat 64 (part * 2 ^ 61 + st.toNat * 2 ^ 33 + 3 * 2 ^ 6))) s
        | none => s)

/-! ### Row blocks (R236, R237) -/

/-- Whether a row block has anything to sweep: any dense block, a table's touched one; a skipped table none. -/
def State.blockDue (s : State) (n : Nat) (e : PlanEntry) (b : Nat × Nat × Nat) : Bool :=
  e.valid && (e.dense || (!(s.rowAcc n e.accAddr).full && s.touchedRows n e b ≠ []))

/-- Statistics of a row block, kept until the sweep completes (R229). -/
def Sweep.keepStats (w : Sweep) (e b : Nat) (l : List (Nat × List Byte)) : Sweep :=
  { w with stats := w.stats.filter (fun x => !(x.entry = e && x.block = b)) ++ l.map (fun x => ⟨e, x.1, b, x.2⟩) }

/-- The records of the inconsistent blocks that a row block has read (R61, R470). -/
def State.reportSwept (s : State) (n c : Nat) (step : Word) (l : List (Word × Nat)) : State :=
  l.foldl (fun s x => s.post { cls := 0x02, cause := 0x03, unit := unitCode .swath, loc := BitVec.ofNat 32 c,
                               tag := s.partTag n (step.setWidth 16) .transaction ||| 0x400, addr := x.1, tbl := BitVec.ofNat 32 x.2 } [n]) s

/-- The keys of the home bytes that a row block's entries replace: what the block was read from. -/
def State.entryKeys (s : State) (n : Nat) (l : List JEntry) : List Nat :=
  (l.map (fun x => if x.kind = 0 then s.keysOf n x.core x.addr x.data.length else [])).flatten

/-- SWEEP_ROW_BLOCK (R231 to R238): its reads are served in the training class (R272); the program runs over a row block and its transaction is opened; in replay
mode the block is captured instead (R395). Blocks of one narrow dense tensor follow one another, since they
share its side areas (log entry 26). -/
def execSweepRowBlock (part entry block : Nat) (s : State) : Res :=
  let q := s.part part
  let e := ((q.plan.map (·.entries)).getD []).getD entry {}
  .next (match q.sweep, (s.entryBlocks part e)[block]? with
    | some w, some b =>
      if !s.live || w.suspended || part ∈ s.tx.recovering || (entry, block) ∈ w.opened || !s.blockDue part e b
          || (e.dense && w.opened.any (fun x => x.1 = entry && x ∉ w.committed)) then s
      else
        let out := if e.dense then s.denseBlock part e w.step b else s.tableBlock part e w.step b
        let c := s.sweepCluster part b.2.2
        let mark (s : State) (f : Sweep → Sweep) : State :=
          s.updPart part (fun q => { q with sweep := q.sweep.map (fun w => f { w.keepStats entry block out.stats with opened := w.opened ++ [(entry, block)] }) })
        let s := (s.served (s.entryKeys part out.entries) 1).reportSwept part c w.step out.damaged
        if q.replay.isSome then
          let t : Tx := { num := 0, part := part, coord := clusterDie c, step := w.step, origin := .sweep entry block, entries := out.entries.filter (fun x => x.kind ≠ 2) }
          mark s (fun w => { w with committed := w.committed ++ [(entry, block)], captured := w.captured ++ [(entry, block, s.finalEntries t)] })
        else
          let s := (mark s id).openTx part (clusterDie c) c w.step (.sweep entry block) out.entries []
          { s with tx := { s.tx with txs := s.tx.txs.map (fun (t : Tx) => if t.num + 1 = s.tx.nextTx then
              { t with elems := out.elems, guarded := out.guarded, skipped := out.skipped, clamps := out.clamps } else t) } }
    | _, _ => s)

/-! ### Export and capture streams (R261, R396) -/

/-- Which row blocks a section holds: all, or those a replay swept, each behind its index (R396). -/
structure StreamSel where
  all : Bool
  blocks : List (Nat × Nat)

/-- The row blocks of an entry that a stream holds: place in the entry's list and the block. -/
def State.streamBlocks (s : State) (n i : Nat) (e : PlanEntry) (sel : StreamSel) : List (Nat × (Nat × Nat × Nat)) :=
  let bs := s.entryBlocks n e
  ((List.range bs.length).filter (fun k => sel.all || (i, k) ∈ sel.blocks)).map (fun k => (k, bs.getD k (0, 0, 0)))

/-- A section header (R261). -/
def sectionHead (kind : Nat) (tensor : Word) (table rows : Nat) (word : Nat) (outl : Nat) : List Byte :=
  [BitVec.ofNat 8 kind] ++ leBytes 7 0 ++ leBytes 8 tensor.toNat ++ leBytes 2 table ++ leBytes 6 0 ++ leBytes 8 rows ++ leBytes 8 word
    ++ leBytes 2 outl ++ leBytes 22 0

/-- The layout word of a table (R174). -/
def Table.layoutWord (t : Table) : Nat := t.width * 2 ^ 31 + t.fmt * 2 ^ 25 + t.escSlots * 2 ^ 16 + t.promSlots * 2 ^ 8

/-- A table section: kind, table, the blocks it holds; a whole section those of its own table (R261). -/
def State.tableSection (s : State) (n i : Nat) (e : PlanEntry) (kind tn : Nat) (sel : StreamSel) : List Byte :=
  let q := s.part n
  let t := q.tables.get {} tn
  let own := q.tableBlocks tn
  let bs := if sel.all then (List.range own.length).map (fun k => (k, own.getD k (0, 0, 0))) else s.streamBlocks n i e sel
  sectionHead kind e.tensor tn t.rows t.layoutWord t.outliers.length ++ (t.outliers.map (leBytes 4)).flatten
    ++ (bs.map (fun b => (if sel.all then [] else leBytes 8 b.2.2.2) ++ ((List.range b.2.2.1).map (fun r => s.tableRow n tn (b.2.1 + r))).flatten)).flatten
    ++ (bs.map (fun b => match q.rowObj tn b.2.1 with | some (num, o) => (s.readDev n 0 (verAddr num o b.2.2.2) 8).1 | none => leBytes 8 0)).flatten

/-- A dense section: areas in the order of R261, or the blocks' own bytes. -/
def State.denseSection (s : State) (n i : Nat) (e : PlanEntry) (kind : Nat) (a : Word) (sel : StreamSel) : List Byte :=
  let k := s.leadCore n
  let d := (s.desc n k a).1
  let bs := s.streamBlocks n i e sel
  let rd (a : Word) (len : Nat) : List Byte := (s.readDev n k a len).1
  sectionHead kind e.tensor 0 d.rows (leAt (rd (plus a 0x40) 8) 0 8) d.outliers.length ++ (d.outliers.map (leBytes 4)).flatten
    ++ (if sel.all then
          (if d.kind = 0 then rd d.code (d.rows * d.blocks * 4 * eltBits d.fmt) ++ rd d.scale (2 * d.rows * d.blocks) ++ rd d.esc (8 * d.escN)
            ++ rd d.prom (40 * d.promN) ++ rd d.outl (2 * d.rows * d.outCount)
          else rd d.code (d.rows * d.len * wideBytes d.kind))
        else (bs.map (fun b => leBytes 8 b.2.2.2 ++ ((List.range b.2.2.1).map (fun r => s.denseRow n d (b.2.1 + r))).flatten)).flatten)
    ++ (if e.verAddr = 0 then [] else (bs.map (fun b => rd (plus e.verAddr (8 * b.2.2.2)) 8)).flatten)

/-- The sections of a plan entry: the weights', then each moment's. -/
def State.entrySections (s : State) (n i : Nat) (e : PlanEntry) (sel : StreamSel) : List (List Byte) :=
  if !e.valid || (!sel.all && sel.blocks.all (fun x => x.1 ≠ i)) then []
  else if e.dense then
    [s.denseSection n i e 2 e.wDesc sel] ++ (([e.mDesc1, e.mDesc2].take e.moments).map (fun a => s.denseSection n i e 3 a sel))
  else [s.tableSection n i e 0 e.table sel] ++ (([e.mTable1, e.mTable2].take e.moments).map (fun t => s.tableSection n i e 1 t sel))

/-- A whole stream (R261). -/
def State.streamOf (s : State) (n magic : Nat) (step : Word) (digest : Nat) (sel : StreamSel) : List Byte :=
  match (s.part n).plan with
  | some pl =>
    let secs := ((List.range pl.entries.length).map (fun i => s.entrySections n i (pl.entries.getD i {}) sel)).flatten
    leBytes 4 magic ++ leBytes 2 1 ++ leBytes 2 0 ++ leBytes 8 step.toNat ++ leBytes 8 pl.shard.toNat ++ leBytes 4 secs.length ++ leBytes 32 digest
      ++ leBytes 4 0 ++ secs.flatten
  | none => leBytes 4 magic ++ leBytes 2 1 ++ leBytes 2 0 ++ leBytes 8 step.toNat ++ leBytes 8 0 ++ leBytes 4 0 ++ leBytes 32 digest ++ leBytes 4 0

/-! ### Completion (R221, R258, R396) -/

/-- Whether every row block of a sweep has committed and every accumulator it consumes is empty (R221). -/
def State.sweepDone (s : State) (n : Nat) (w : Sweep) : Bool :=
  match (s.part n).plan with
  | none => true
  | some pl => w.opened.all (· ∈ w.committed) && (List.range pl.entries.length).all (fun i =>
      let e := pl.entries.getD i {}
      let bs := s.entryBlocks n e
      (List.range bs.length).all (fun b => (i, b) ∈ w.committed || !s.blockDue n e (bs.getD b (0, 0, 0))))

/-- The emptied accumulators' counts return to zero (R87, R221, R223). -/
def State.emptyAccs (s : State) (n : Nat) : State :=
  match (s.part n).plan with
  | some pl => pl.entries.foldl (fun s e => if e.valid && !e.dense then s.putRowAcc n e.accAddr { s.rowAcc n e.accAddr with terms := 0, touched := 0 } else s) s
  | none => s

/-- Where a statistics record of a plan entry goes: the new weights' where the plan names a place (R229), a dense moment's
where its descriptor does (R139). The spec gives the moments of a table no place, and none is written. -/
def State.statPlace (s : State) (n : Nat) (e : PlanEntry) (which : Nat) : Option Word :=
  if which = 0 then (if e.statAddr = 0 then none else some e.statAddr)
  else if e.dense then ([e.mDesc1, e.mDesc2][which - 1]?).map (fun a => (s.desc n (s.leadCore n) a).1.statAddr) else none

/-- The statistics records that a sweep's quantisers gathered (R94, R229): this sweep's row blocks alone. Where a sweep updates
no row block of an entry the record stays as it was (DESIGN CHOICE, log entry 59). -/
def State.writeStats (s : State) (n : Nat) (w : Sweep) : State :=
  match (s.part n).plan with
  | some pl => (List.range pl.entries.length).foldl (fun s i =>
      (List.range 3).foldl (fun s k =>
        match s.statPlace n (pl.entries.getD i {}) k, w.stats.filter (fun x => x.entry = i && x.which = k) with
        | some a, x :: r => s.writeDev n (s.leadCore n) a ((r.foldl (fun a y => a.merge (Stats.ofBytes y.bytes)) (Stats.ofBytes x.bytes)).bytes) false
        | _, _ => s) s) s
  | none => s

/-- Every cluster's swath unit of a partition in a state. -/
def State.allSw (s : State) (n : Nat) (x : SwState) : State := (s.part n).cfg.clusters.foldl (fun s c => s.putSw c x) s

/-- The swath units of a partition show what it does, where they do not recover (R263). -/
def State.settleSw (s : State) (n : Nat) : State := if n ∈ s.tx.recovering then s else s.allSw n (s.swNow n)

/-- A sweep plan is in force: its digests start anew, and every digest-enabled entry is stale (R257). -/
def State.takePlan (s : State) (n : Nat) (pl : Plan) : State :=
  s.updPart n (fun q => { q with
    plan := some pl
    nextPlan := none
    digests := []
    stale := (List.range pl.entries.length).filter (fun i => (pl.entries.getD i {}).valid && (pl.entries.getD i {}).digest) })

/-- A plan that was installed while a sweep ran is in force from that sweep's end on (R221). -/
def State.planTurn (s : State) (n : Nat) : State := match (s.part n).nextPlan with | some pl => s.takePlan n pl | none => s

/-- The sweep's end: completion action, the next one may start (R152, R221, R422). -/
def State.endSweep (s : State) (n : Nat) (w : Sweep) : State :=
  let q := s.part n
  let s := (s.updPart n (fun q => { q with sweep := none, lastCompleted := if q.replay.isSome then q.lastCompleted else w.step })).settleSw n
  let s := s.flushMerges n
  let s := match q.plan with | some pl => s.action n (s.partTag n (w.step.setWidth 16) .transaction) pl.ck pl.ct | none => s
  (s.planTurn n).endHold n

/-- What a finished capture of a replay reports (R396): completion with its image, or refusal where the image did not fit. -/
def State.captureDone (s : State) (n : Nat) (r : Replay) (fits : Bool) : State :=
  let s := match r.cmd with
    | some c => if fits then s.complete c 0x00 0 0 else (s.complete c 0x05 ((Config.freeWord s.free).setWidth 16) 0).fresh
    | none => s
  s.updPart n (fun q => if fits then { q with replay := some { r with swept := true, cmd := none } }
    else { q with replay := none, started := r.heldAny, lastStarted := r.heldStarted })

/-- The capture of a replay is written to its object; one that does not fit ends the replay (R396). -/
def State.writeCapture (s : State) (n : Nat) (w : Sweep) (r : Replay) : State :=
  let v := (w.captured.map (fun c => c.2.2)).foldl (fun s l => s.writeEntries n l) s
  let dig := (((s.part n).digestEntries.map (fun i => v.entryDigest n i)).sum) % 2 ^ 256
  let l := v.streamOf n 0x534C4752 w.step dig { all := false, blocks := w.captured.map (fun c => (c.1, c.2.1)) }
  match (s.part n).objects.find r.object with
  | none => s
  | some o =>
    let a : Word := BitVec.ofNat 64 ((3 + o.tier) * 2 ^ 60 + r.object * 2 ^ 40)
    (s.writeDev n 0 a (l.take o.size) false).captureDone n r (decide (l.length ≤ o.size))

/-- The members of a partition's replica group (R228, R352). -/
def State.replicas (s : State) (n : Nat) : List Nat := match (s.part n).plan with | some pl => s.groupOf n pl.group | none => []

/-- Whether a shard takes part in the comparison: no entry of it is stale (R258), and the partition sends data (R357). -/
def State.digestReady (s : State) (n : Nat) : Bool := (s.part n).stale = [] && !(s.member n).quarantined

/-- The own shard digest goes to every other member of the replica group (R258); a quarantined partition sends none (R357). -/
def State.sendDigest (s : State) (n : Nat) (w : Sweep) : State :=
  let m := s.member n
  if m.quarantined then s
  else ((s.replicas n).filter (· ≠ m.image.own)).foldl (fun s i =>
    s.send (.digest n i w.step { member := m.image.own, ready := s.digestReady n, digest := (s.part n).shardDigest }
      (s.partTag n (w.step.setWidth 16) .exchange))) s

/-- SWEEP_COMPLETE (R221, R258). -/
def execSweepComplete (part : Nat) (s : State) : Res :=
  let q := s.part part
  .next (match q.sweep with
    | none => s
    | some w =>
      if !s.live || w.suspended || w.digestDue || part ∈ s.tx.recovering || !s.sweepDone part w then s
      else
        let s := s.writeStats part w
        match q.replay with
        | some r => (s.endSweep part w).writeCapture part w r
        | none =>
          let s := s.emptyAccs part
          let N := (q.plan.map (·.period)).getD 0
          if N ≠ 0 && w.step.toNat % N = 0 then
            ((s.allSw part .digesting).updPart part (fun q => { q with sweep := some { w with digestDue := true }, lastCompleted := w.step })).sendDigest part w
          else s.endSweep part w)

/-- The digest most members hold, ties going to the one of the lowest member (R258). -/
def majority (l : List (Nat × Nat)) : Option Nat :=
  let score (x : Nat × Nat) : Nat := (l.filter (fun y => y.2 = x.2)).length
  (l.foldl (fun (b : Option (Nat × Nat)) x =>
    match b with
    | none => some x
    | some y => if score y < score x || (score y = score x && x.1 < y.1) then some x else some y) none).map (·.2)

/-- DIGEST_EXCHANGE (R258, R259): the digests that the other members of the replica group presented. A quarantined partition,
whose data never leaves the module, takes no part and reports not ready (DESIGN CHOICE, log entry 63). -/
def execDigestExchange (part : Nat) (others : List PeerDigest) (s : State) : Res :=
  let q := s.part part
  .next (match q.sweep, q.plan with
    | some w, some pl =>
      if !s.live || !w.digestDue || part ∈ s.tx.recovering then s
      else
        let own := q.shardDigest
        let ready := s.digestReady part
        let me := (s.member part).image.own
        let held := (others.filter (fun o => o.ready && o.member ∈ s.replicas part && o.member ≠ me)).map (fun o => (o.member, o.digest)) ++ (if ready then [(me, own)] else [])
        let agreed := majority held = some own
        let status : Byte := if !ready then 0x02 else if agreed then 0x00 else 0x01
        let s := if ready then
            (q.cfg.clusters.foldl (fun s c => s.updCluster c (fun x => { x with divergent := !agreed })) s).updPart part
              (fun q => { q with divergent := !agreed, lastDigestOk := agreed })
          else s.updPart part (fun q => { q with lastDigestOk := false })
        let s := if ready && !agreed then
            s.post { cls := 0x06, cause := 0x02, unit := unitCode .exchange, loc := BitVec.ofNat 32 (clusterDie (q.cfg.clusters.headD 0)),
                     addr := w.step, detail := BitVec.ofNat 64 own } [part]
          else s
        let s := s.writeDev part (s.leadCore part) pl.report (leBytes 8 w.step.toNat ++ leBytes 32 own ++ [status] ++ leBytes 23 0) false
        s.endSweep part w
    | _, _ => s)

end Sys2Proof.Machine
end

