-- ==== Sys2Proof/Machine/Install.lean ====
section
/-! DEFINITION. Host commands that load programs (R162, R163), launch and stop, install and remove tables, objects,
plans, mirrors and memberships (R176, R230, R271, R353, R405, R406, R443), register regions, open connections and
streams (R442, R452, R453, R517), and start topology searches (R348). -/

namespace Sys2Proof.Machine

/-! ### Placement of objects (R270, R271, R286) -/

/-- A run of bytes of a channel, or of all turf. -/
structure Run where
  chan : Nat
  start : Nat
  len : Nat
  deriving DecidableEq, Repr

/-- The runs of an area of `x` bytes interleaved over channels in stripes of `unit` bytes (R270, R286). -/
def stripeRuns (chans : List Nat) (unit base x : Nat) : List Run :=
  let n := max 1 chans.length
  (List.range chans.length).map (fun i => ⟨chans.getD i 0, base, x / (unit * n) * unit + min unit (x % (unit * n) - i * unit)⟩)

/-- The bytes that an object takes, as runs of its channels (R270, R286): in turf its bytes from its base; rows hold G slots on
each channel, a version area lies behind them. An object whose rows have no record size yet, since their table is not
installed, takes none (log entry 45). -/
def Obj.runs (o : Obj) (t : Table) : List Run :=
  let unit := if o.tier = 1 then 4096 else 2048
  let chans := if o.tier = 1 then maskBits o.mask else List.range 32
  let rs := o.recSize t
  let rows := o.base + o.groups * rs
  if o.tier = 0 then [⟨0, o.base, o.size⟩]
  else if !o.hasRows then stripeRuns chans unit o.base o.size
  else if rs = 0 then []
  else chans.map (fun c => ⟨c, o.base, o.groups * rs⟩) ++ (if o.kind = 1 then stripeRuns chans unit (roundUp unit rows) (o.size - o.verOff) else [])

/-- The capacity of a channel of a tier, or of all turf slices. -/
def tierCap (tier : Nat) : Nat := if tier = 0 then 1200 * sliceBytes else if tier = 1 then 48 * 2 ^ 30 else 2 ^ 39

/-- Whether two runs share a byte. -/
def Run.meets (a b : Run) : Bool := a.chan = b.chan && a.start < b.start + b.len && b.start < a.start + a.len

/-- Whether two objects share bytes of a tier. -/
def objsOverlap (a : Obj) (ta : Table) (b : Obj) (tb : Table) : Bool :=
  a.tier = b.tier && (a.runs ta).any (fun x => (b.runs tb).any x.meets)

/-- Whether an object runs beyond its tier's capacity on some channel or slice (R271). -/
def Obj.beyond (o : Obj) (t : Table) : Bool := tierCap o.tier ≤ o.base || (o.runs t).any (fun x => tierCap o.tier < x.start + x.len)

/-- The dies on which replicas of a table's rows can be placed (R204). -/
def Part.replicaDiesOf (q : Part) (t : Table) : List Nat :=
  let homes := ((t.objs.filterMap (fun n => q.objects.find n)).map (fun o =>
    if o.tier = 1 then (maskBits o.mask).map (· / 2) else if o.tier = 2 then List.range 8 else [])).flatten.dedup
  ((homes.map (fun h => replicaDies h t.copies)).flatten).dedup

/-- Whether a table's windrow object has the near channels that R204 needs. -/
def Part.windOk (q : Part) (t : Table) : Bool :=
  t.hot = 0 || t.copies = 0 ||
    (let m := maskBits (q.objects.get {} t.windrowObj).mask
     (q.replicaDiesOf t).all (fun d => 2 * d ∈ m && 2 * d + 1 ∈ m))

/-- The cache shares of a partition's tables on one die, in MiB (R176). -/
def Part.shares (q : Part) : Nat := (q.tables.map (fun x => if x.2.cacheOn then x.2.cacheShare else 0)).sum

/-- Whether an object's size and version area hold its rows (R270). -/
def Obj.sizeOk (o : Obj) (t : Table) : Bool :=
  if o.kind = 1 then o.rowCount * t.recSize ≤ o.verOff && o.verOff + 8 * ceilDiv o.rowCount 32 ≤ o.size
  else if o.kind = 3 then o.rowCount * t.shadowSize ≤ o.size
  else true

/-- Whether the row ranges of two objects share a row. -/
def rowsOverlap (a b : Obj) : Bool := a.firstRow < b.firstRow + b.rowCount && b.firstRow < a.firstRow + a.rowCount

/-! ### Tables (R173, R174, R176) -/

/-- A table descriptor with the lists that it names. -/
def State.tableOf (s : State) (n : Nat) (l : List Byte) : Table :=
  let w := leAt l 8 8
  let sh := leAt l 0x30 8
  let wr := leAt l 0x38 8
  let ca := leAt l 0x40 8
  let pw := leAt l 0x48 8
  let k := s.leadCore n
  let cnt := leAt l 0x68 4
  let t : Table :=
    { rows := fld (leAt l 0 8) 39 0, width := fld w 43 31, fmt := fld w 30 25, escSlots := fld w 24 16, promSlots := fld w 15 8,
      salt := addrAt l 0x10, newSalt := addrAt l 0x18, cursor := leAt l 0x20 8, fallbackAddr := addrAt l 0x28,
      shadowOn := bitAt sh 63, shadowObj := fld sh 19 0, hot := fld wr 63 48, copies := fld wr 47 44, windrowObj := fld wr 19 0,
      cacheOn := bitAt ca 63, cacheShare := fld ca 25 16, param := addrAt l 0x48, threshold := leAt l 0x50 2,
      outliers := listOf (s.readDev n k (addrAt l 0x58) (4 * min 256 (fld pw 17 9))).1 (fld pw 17 9),
      objs := listOf (s.readDev n k (addrAt l 0x60) (4 * min 65536 cnt)).1 (min 65536 cnt) }
  let (fb, bad) := s.readDev n k t.fallbackAddr t.recSize
  { t with fallback := fb, fallbackBad := bad }

/-- Whether a table descriptor's reserved fields are zero and its codes are in range (R173, R174, R142, R80). -/
def tableClean (l : List Byte) (t : Table) : Bool :=
  let w := leAt l 8 8
  let pw := leAt l 0x48 8
  l.length = 128 && fld (leAt l 0 8) 63 40 = 0 && fld w 63 44 = 0 && fld w 7 0 = 0 && fld (leAt l 0x30 8) 62 20 = 0
    && fld (leAt l 0x38 8) 43 20 = 0 && t.copies ≤ 8 && fld (leAt l 0x40 8) 62 26 = 0 && fld (leAt l 0x40 8) 15 0 = 0 && t.cacheShare ≤ 504
    && fld pw 63 37 = 0 && fld pw 5 0 = t.fmt && 1 ≤ t.fmt && t.fmt ≤ 5 && zeroAt l 0x52 6 && zeroAt l 0x6C 20
    && 1 ≤ leAt l 0x68 4 && leAt l 0x68 4 ≤ 65536 && fld pw 17 9 ≤ 256 && outliersOk t.outliers t.padded

/-- The table that an object of a partition names. -/
def State.objTable (s : State) (n : Nat) (o : Obj) : Table := ((s.findTable n o.table).map (·.2)).getD {}

/-- Whether an object, under number `num` of partition `n`, shares bytes with another that is installed (R271). -/
def State.overlaps (s : State) (n num : Nat) (o : Obj) (t : Table) : Bool :=
  (List.range 8).any (fun m => (s.part m).objects.any (fun x => !(m = n && x.1 = num) && objsOverlap x.2 (s.objTable m x.2) o t))

/-- The installed objects that hold rows of a table, or its shadow's. -/
def Part.rowObjs (q : Part) (num : Nat) (t : Table) : List (Nat × Obj) :=
  q.objects.filter (fun x => x.2.table = num && ((x.2.kind = 1 && x.1 ∈ t.objs) || (x.2.kind = 3 && t.shadowOn && x.1 = t.shadowObj)))

/-- Whether a key lies in one of some runs of the fallow channels. -/
def inRuns (rs : List Run) (k : Nat) : Bool :=
  keyRegion k = 5 && rs.any (fun r => r.chan = (k - 5 * 2 ^ 60) / 2 ^ 39 && r.start ≤ k % 2 ^ 39 && k % 2 ^ 39 < r.start + r.len)

/-- Runs of the fallow channels read as zero and take no chunks; a bale that they share with other bytes is packed again
(R284, R286, R288). -/
def State.zeroRuns (s : State) (rs : List Run) : State :=
  let mem := s.mem.filter (fun c => !inRuns rs c.1)
  let whole (g : Nat) : Bool := inRuns rs g && inRuns rs (g + 63)
  let hit (b : Nat) : Bool := rs.any (fun r => r.chan = baleChan b && r.start < b % 2 ^ 28 * 2048 + 2048 && b % 2 ^ 28 * 2048 < r.start + r.len)
  { s with mem := mem
           poison := s.poison.filter (fun g => !whole g)
           substd := s.substd.filter (fun g => !whole g)
           tiers := { s.tiers with dir := ((s.tiers.dir.map (·.1)).filter hit).foldl (rebale (poolChunks s.ident.variant) mem) s.tiers.dir } }

/-- The runs of an object that lies in the fallow tier. -/
def Obj.fallowRuns (o : Obj) (t : Table) : List Run := if o.tier = 2 then o.runs t else []

/-- The first condition of R577 that a table breaks; 0 where it is accepted. Those of R271 that need the record size are
made again with it. -/
def State.tableCode (s : State) (n num : Nat) (l : List Byte) (t : Table) : Nat :=
  let q := { s.part n with tables := (s.part n).tables.set num t }
  let v := s.updPart n (fun _ => q)
  let xs := q.rowObjs num t
  let os := (xs.filter (fun x => x.2.kind = 1)).map (·.2)
  if !tableClean l t then 1
  else if t.width < 16 || 4096 < t.width || 2 * t.blocks < t.escSlots || t.blocks < t.promSlots || !xs.all (fun x => x.2.sizeOk t) then 2
  else if !decide (os.Pairwise (fun a b => rowsOverlap a b = false)) then 3
  else if !q.windOk t then 5
  else if q.rickActive < q.shares then 6
  else if xs.any (fun x => x.2.beyond t) then 7
  else if xs.any (fun x => v.overlaps n x.1 x.2 t) then 8
  else 0

/-- Copies of a table's rows are gone: the next fetches read under the new descriptor (R176), and a preload that finds no
empty way starts at way 0 again (R202). -/
def State.dropCopies (s : State) (n t : Nat) : State :=
  let s := s.updPart n (fun q => { q with rotation := q.rotation.filter (fun x => x.2.1 ≠ t) })
  { s with row := { s.row with rick := s.row.rick.filter (fun w => !(w.part = n && w.table = t)),
                               windrow := s.row.windrow.filter (fun w => !(w.part = n && w.table = t)) } }

/-- An install replaces descriptors: the fetches of the tables concerned that have started finish under the previous ones,
and a gather keeps the layout of its issue for its outputs (R176). -/
def State.keepOld (s : State) (n : Nat) (hit : Nat → Table → Bool) (follow : Table → Bool) : State :=
  { s with row := { s.row with jobs := s.row.jobs.map (fun (j : RowJob) =>
      match s.findTable j.part j.cmd.table with
      | some (own, t) =>
        if (j.part = n || own = n) && hit j.cmd.table t then
          { j with
            old := some (j.old.getD t)
            fetches := j.fetches.map (fun x => (x.1,
              if (x.2.source = 0 && x.2.bytes.isNone) || x.2.old.isSome then x.2
              else { x.2 with old := some { table := t, objs := (s.part own).objects, follow := follow t } })) }
        else j
      | none => j) } }

/-- A table descriptor in the place of another: a running re-salt's cursor and new salt are the part's (R173, R211). -/
def Table.replacing (t old : Table) : Table :=
  { t with
    resalting := old.resalting
    newSalt := if old.resalting then old.newSalt else t.newSalt
    cursor := if old.resalting then old.cursor else 0 }

/-- Whether the lists and the fallback row that a table descriptor names can be reached (R441). -/
def State.tableReach (s : State) (n : Nat) (l : List Byte) (t : Table) : Bool :=
  spaceOf t.fallbackAddr = 3 && s.within n t.fallbackAddr (max 1 t.recSize)
    && (65536 < leAt l 0x68 4 || t.objs = [] || s.within n (addrAt l 0x60) (4 * t.objs.length))
    && (fld (leAt l 0x48 8) 17 9 = 0 || s.within n (addrAt l 0x58) (4 * fld (leAt l 0x48 8) 17 9))

/-- INSTALL_TABLE (R176, R217, R442). -/
def execInstallTable (q : QRef) (s : State) : Res :=
  hostRow q 0x07 s (fun s n c =>
    let num := c.arg 0
    let l := c.block
    if 4096 ≤ num || c.arg 1 ≠ 0 || c.arg 2 ≠ 0 || c.arg 3 ≠ 0 || l.length < 128 then s.fail c 0x01 0
    else
      let t := s.tableOf n (l.take 128)
      if !s.tableReach n l t then s.fail c 0x03 0
      else match s.tableCode n num (l.take 128) t with
        | 0 =>
          let s := s.keepOld n (fun k _ => k = num) (fun old => old.salt = t.salt || old.resalting)
          let first := ((s.part n).tables.find num).isNone
          let fresh := if first then (((s.part n).rowObjs num t).filter (fun x => x.2.oldRec = 0)).map (fun x => x.2.fallowRuns t) else []
          let s := if fresh.flatten = [] then s else s.zeroRuns fresh.flatten
          ((s.updPart n (fun q => { q with tables := q.tables.set num (t.replacing (q.tables.get {} num)) })).dropCopies n num).done c 0
        | k => s.fail c 0x05 k)

/-! ### Objects (R175, R176, R271) and mirrors (R405, R406) -/

/-- An object descriptor. -/
def objOf (l : List Byte) : Obj :=
  let w := leAt l 0 8
  { tier := fld w 62 61, kind := fld w 60 57, table := fld w 43 32, mask := BitVec.ofNat 16 w, firstRow := leAt l 8 8, rowCount := leAt l 0x10 8,
    size := leAt l 0x18 8, verOff := leAt l 0x20 8, base := leAt l 0x28 8 }

/-- Whether every byte of a turf object lies in slices of a partition (R271). -/
def State.slicesOk (s : State) (n : Nat) (o : Obj) : Bool :=
  let a := o.base / sliceBytes
  let b := (o.base + max 1 o.size - 1) / sliceBytes
  (List.range (b - a + 1)).all (fun i => s.inPart n (a + i))

/-- The first condition of R577 that an object breaks; 0 where it is accepted. -/
def State.objCode (s : State) (n num : Nat) (l : List Byte) (o : Obj) : Nat :=
  let w := leAt l 0 8
  let t := s.objTable n o
  let q := { s.part n with objects := (s.part n).objects.set num o }
  if !bitAt w 63 || o.tier = 3 || 3 < o.kind || fld w 56 44 ≠ 0 || fld w 31 16 ≠ 0 || !zeroAt l 0x30 16 then 1
  else if !o.sizeOk t then 2
  else if o.kind = 1 && (s.part n).objects.any (fun x => x.1 ≠ num && x.2.kind = 1 && x.2.table = o.table && x.2.mirrorOf.isNone && rowsOverlap x.2 o) then 3
  else if o.tier = 1 && o.mask = 0 then 4
  else if !q.tables.all (fun x => !(num ∈ x.2.objs || x.2.windrowObj = num) || q.windOk x.2) then 5
  else if o.beyond t then 7
  else if s.overlaps n num o t then 8
  else if o.tier = 0 && !s.slicesOk n o then 9
  else 0

/-- An object takes a number's place: what the number's old object held in the fallow tier is free, and the new one's bytes there
read as zero (R286, R288). -/
def State.placeObj (s : State) (n num : Nat) (o : Obj) : State :=
  let old := match (s.part n).objects.find num with | some x => x.fallowRuns (s.objTable n x) | none => []
  let rs := old ++ o.fallowRuns (s.objTable n o)
  (if rs = [] then s else s.zeroRuns rs).updPart n (fun q => { q with objects := q.objects.set num o })

/-- INSTALL_OBJECT (R176, R271). -/
def execInstallObject (q : QRef) (s : State) : Res :=
  hostRow q 0x08 s (fun s n c =>
    let num := c.arg 0
    let l := c.block
    if 2 ^ 20 ≤ num || c.arg 1 ≠ 0 || c.arg 2 ≠ 0 || c.arg 3 ≠ 0 || l.length < 64 then s.fail c 0x01 0
    else
      let o := objOf l
      match s.objCode n num (l.take 64) o with
      | 0 =>
        let s := (s.keepOld n (fun _ t => num ∈ t.objs || num = t.shadowObj) (fun _ => true)).placeObj n num o
        (if o.hasRows then s.dropCopies n o.table else s).done c 0
      | k => s.fail c 0x05 k)

/-- INSTALL_MIRROR (R405, R406). -/
def execInstallMirror (q : QRef) (s : State) : Res :=
  hostRow q 0x0B s (fun s n c =>
    let num := c.arg 0
    let src := c.arg 1
    let l := c.block
    if 2 ^ 20 ≤ num || 2 ^ 20 ≤ src || c.arg 2 ≠ 0 || c.arg 3 ≠ 0 || l.length < 64 then s.fail c 0x01 0
    else
      let o := objOf l
      let cfg := (s.part n).cfg
      match s.objCode n num (l.take 64) o with
      | 0 =>
        if 64 ≤ ((s.part n).objects.filter (fun x => x.2.mirrorOf.isSome)).length then s.fail c 0x05 0x0A
        else if o.tier ≠ 0 || !s.slicesOk n o then s.fail c 0x05 0x0B
        else match (if cfg.serve then (s.part cfg.src).objects.find src else none) with
          | some x =>
            if x.size ≠ o.size || x.kind ≠ o.kind then s.fail c 0x05 0x0C
            else (s.placeObj n num { o with mirrorOf := some src, copied := false }).done c 0
          | none => s.fail c 0x05 0x0C
      | k => s.fail c 0x05 k)

/-- MIRROR_COPY (R406): the background copy of a mirror; from now on the source's transactions write both. -/
def execMirrorCopy (part obj : Nat) (s : State) : Res :=
  let m := (s.part part).cfg.src
  .next (match (s.part part).objects.find obj with
    | some o =>
      match o.mirrorOf.bind (fun src => ((s.part m).objects.find src).map (fun x => (src, x))) with
      | some (src, x) =>
        if !s.live || o.copied || m ∈ s.tx.recovering then s
        else
          let ps := (List.range o.size).filterMap (fun i => (objKey (s.part m) src x i).bind (fun a => (objKey (s.part part) obj o i).map (fun b => (a, b))))
          let (l, _) := s.readKeys (ps.map (·.1))
          let good := ps.filter (fun p => granule p.1 ∉ s.poison)
          let bad := ps.filter (fun p => granule p.1 ∈ s.poison)
          let s := (s.served (ps.map (·.1)) 0).writeKeys (ps.map (·.2)) l false
          let s : State := { s with poison := (bad.map (fun p => granule p.2)).foldl insertNat (s.poison.filter (fun g => good.all (fun p => granule p.2 ≠ g))) }
          s.updPart part (fun q => { q with objects := q.objects.set obj { o with copied := true } })
      | none => s
    | none => s)

/-! ### Remove (R443) -/

/-- Whether an address names an object. -/
def namesObj (a : Word) (num : Nat) : Bool := 3 ≤ spaceOf a && spaceOf a ≤ 5 && fld a.toNat 59 40 = num

/-- The areas of a dense tensor with their lengths (R77, R139). -/
def TDesc.areasLen (d : TDesc) : List (Word × Nat) :=
  if d.kind = 0 then
    [(d.code, d.rows * d.blocks * 4 * eltBits d.fmt), (d.scale, 2 * d.rows * d.blocks), (d.esc, 16 * d.rows * d.blocks), (d.prom, 40 * d.rows * d.blocks),
      (d.outl, 2 * d.rows * d.outCount)]
  else [(d.code, d.rows * d.len * wideBytes d.kind)]

/-- The tensor descriptors of a dense entry: weight, moments, accumulator (R229). -/
def PlanEntry.denseDescs (e : PlanEntry) : List Word := if e.dense then [e.wDesc] ++ [e.mDesc1, e.mDesc2].take e.moments ++ [e.accAddr] else []

/-- Whether a table, the plan, a mirror or a region still names an object; a stream names none (R442, R443). -/
def State.objNamed (s : State) (n num : Nat) : Bool :=
  let q := s.part n
  q.tables.any (fun x => num ∈ x.2.objs || (x.2.shadowOn && x.2.shadowObj = num) || (x.2.hot ≠ 0 && x.2.copies ≠ 0 && x.2.windrowObj = num)
      || namesObj x.2.fallbackAddr num)
    || (q.plan.toList ++ q.nextPlan.toList).any (fun pl => pl.entries.any (fun e => e.valid && ([e.wDesc, e.mDesc1, e.mDesc2, e.accAddr, e.verAddr, e.statAddr].any (fun a => namesObj a num)
              || (e.denseDescs.any (fun a => (s.desc n (s.leadCore n) a).1.areasLen.any (fun x => namesObj x.1 num)))))
            || pl.cover.any (fun x => namesObj x.2.1 num))
    || (List.range 8).any (fun m => (s.part m).cfg.src = n && (s.part m).objects.any (fun x => x.2.mirrorOf = some num))
    || s.net.regions.any (fun x => x.1 / 2 ^ 32 = n && x.2.object = num)

/-- Whether the plan names a table. -/
def Part.tableNamed (q : Part) (t : Nat) : Bool :=
  (q.plan.toList ++ q.nextPlan.toList).any (fun pl =>
    pl.entries.any (fun e => e.valid && !e.dense && (e.table = t || (1 ≤ e.moments && e.mTable1 = t) || (2 ≤ e.moments && e.mTable2 = t))))

/-- REMOVE (R443). -/
def execRemove (q : QRef) (s : State) : Res :=
  hostRow q 0x09 s (fun s n c =>
    let a := c.arg 0
    let isT := bitAt a 63
    let num := if isT then fld a 11 0 else fld a 19 0
    let r : Removal := { isTable := isT, num := num, cmd := c.ref }
    if (if isT then fld a 62 12 else fld a 62 20) ≠ 0 || c.arg 1 ≠ 0 || c.arg 2 ≠ 0 || c.arg 3 ≠ 0 then s.fail c 0x01 0
    else if (if isT then ((s.part n).tables.find num).isNone else ((s.part n).objects.find num).isNone) then s.fail c 0x03 0
    else if (if isT then (s.part n).tableNamed num else s.objNamed n num) then s.fail c 0x05 0x0001
    else s.updPart n (fun q => { q with removing := q.removing ++ [r] }))

/-- Whether a fetch, a sweep or a transaction still holds what a remove takes away (R443). -/
def State.removalHeld (s : State) (n : Nat) (r : Removal) : Bool :=
  let users := (List.range 8).filter (fun m => m = n || ((s.part m).cfg.serve && (s.part m).cfg.src = n))
  (s.part n).sweep.isSome
    || s.row.jobs.any (fun j => j.part ∈ users && (if r.isTable then j.cmd.table = r.num else true))
    || s.tx.txs.any (fun t => t.part = n && t.entries.any (fun e => !r.isTable && r.num ∈ s.objsAt n e.addr e.data.length))

/-- REMOVE_TAKE_EFFECT (R288, R443, R523): the first remove of a partition that nothing holds any more; a fallow object's
chunks are free. -/
def execRemoveTakeEffect (part : Nat) (s : State) : Res :=
  .next (match (s.part part).removing.find? (fun r => !s.removalHeld part r) with
    | some r =>
      if !s.live then s
      else
        let s := match (if r.isTable then none else (s.part part).objects.find r.num) with
          | some o => if o.tier = 2 then s.zeroRuns (o.runs (s.objTable part o)) else s
          | none => s
        let s := s.updPart part (fun q => { q with
          removing := q.removing.filter (· ≠ r)
          tables := if r.isTable then q.tables.del r.num else q.tables
          objects := if r.isTable then
              q.objects.map (fun x => (x.1, if x.2.hasRows && x.2.table = r.num then { x.2 with oldRec := x.2.recSize (q.tables.get {} r.num) } else x.2))
            else q.objects.del r.num
          keepValid := if !r.isTable && q.keepObj = r.num then false else q.keepValid })
        let s := if r.isTable then { s with row := { s.row with resalts := s.row.resalts.filter (fun x => !(x.part = part && x.table = r.num)) } } else s
        (if r.isTable then s.dropCopies part r.num else s).complete r.cmd 0 0 0
    | none => s)

/-! ### The sweep plan (R228 to R230) -/

/-- A plan entry from its 128 bytes. -/
def planEntryOf (l : List Byte) : PlanEntry :=
  let w := leAt l 0 8
  let m := leAt l 8 8
  { valid := bitAt w 63, dense := bitAt w 62, block := bitAt w 61, moments := fld w 60 59, guard := bitAt w 58, digest := bitAt w 57,
    perBlock := fld w 56 55 = 1, table := fld w 43 32, slot := fld w 21 16, mTable1 := fld m 11 0, mTable2 := fld m 27 16, wDesc := addrAt l 0x10,
    mDesc1 := addrAt l 0x18, mDesc2 := addrAt l 0x20, accAddr := addrAt l 0x28, seed := addrAt l 0x30, tensor := addrAt l 0x38,
    consts := (List.range 8).map (fun i => BitVec.ofNat 32 (leAt l (0x40 + 4 * i) 4)), verAddr := addrAt l 0x60, statAddr := addrAt l 0x68 }

/-- Whether an entry's reserved fields and codes keep R229. -/
def planEntryClean (l : List Byte) : Bool :=
  let w := leAt l 0 8
  let m := leAt l 8 8
  fld w 60 59 ≤ 2 && fld w 56 55 ≤ 1 && fld w 54 44 = 0 && fld w 31 22 = 0 && fld w 15 0 = 0 && fld m 15 12 = 0 && fld m 63 28 = 0 && zeroAt l 0x70 16

/-- The rows, the width and the width per row of moments, of the weight and the moments of an entry. -/
def State.entryShape (s : State) (n : Nat) (e : PlanEntry) : (Nat × Nat) × List (Nat × Nat) :=
  let k := s.leadCore n
  let ofT (t : Nat) : Nat × Nat := let x := (s.part n).tables.get {} t; (x.rows, x.width)
  let ofD (a : Word) : Nat × Nat := let d := (s.desc n k a).1; (d.rows, d.len)
  if e.dense then (ofD e.wDesc, ([e.mDesc1, e.mDesc2].take e.moments).map ofD) else (ofT e.table, ([e.mTable1, e.mTable2].take e.moments).map ofT)

/-- The width of an entry's accumulator (R223, R222). -/
def State.accWidth (s : State) (n : Nat) (e : PlanEntry) : Nat :=
  let k := s.leadCore n
  if e.dense then (s.desc n k e.accAddr).1.len
  else ((s.part n).tables.get {} (fld (leNat (s.readDev n k e.accAddr 8).1) 43 32)).padded

/-- Whether what an entry names is legal: tensor descriptors, of which the accumulator's alone is of kind 3; an accumulator
descriptor with reserved fields zero (R140, R142, R222, R223). -/
def State.entryLegal (s : State) (n : Nat) (e : PlanEntry) : Bool :=
  let k := s.leadCore n
  if e.dense then
    ([e.wDesc] ++ [e.mDesc1, e.mDesc2].take e.moments).all (fun a => (s.desc n k a).1.legal && (s.desc n k a).1.kind ≠ 3)
      && (s.desc n k e.accAddr).1.legal && (s.desc n k e.accAddr).1.kind = 3
  else
    let l := (s.readDev n k e.accAddr 64).1
    fld (leAt l 0 8) 52 44 = 0 && zeroAt l 0x18 32

/-- Whether the descriptors that an entry names can be reached (R441). -/
def State.entryReach (s : State) (n : Nat) (e : PlanEntry) : Bool :=
  if e.dense then e.denseDescs.all (fun a => s.within n a 128) else s.within n e.accAddr 64

/-- The first condition of R230 that a plan breaks, numbered from 1; 0 where it is accepted. -/
def State.planCode (s : State) (n : Nat) (l : List Byte) (es : List PlanEntry) : Nat :=
  let v := es.filter (·.valid)
  let shape (e : PlanEntry) := s.entryShape n e
  let weight (e : PlanEntry) : Bool × Nat × Word := (e.dense, if e.dense then 0 else e.table, if e.dense then e.wDesc else 0)
  if fld (leAt l 4 4) 31 19 ≠ 0 || fld (leAt l 4 4) 1 0 = 0 || !zeroAt l 0x20 32
      || !(List.range es.length).all (fun i => planEntryClean (slice l (64 + 128 * i) 128)) || v.any (fun e => !s.entryLegal n e) then 1
  else if v.any (fun e => ((s.part n).slots.find e.slot).isNone) then 2
  else if v.any (fun e => (shape e).2.any (fun m => m.1 ≠ (shape e).1.1)) then 3
  else if v.any (fun e => !e.perBlock && (shape e).2.any (fun m => m.2 ≠ (shape e).1.2)) then 4
  else if v.any (fun e => e.perBlock && (shape e).2.any (fun m => m.2 < ceilDiv (shape e).1.2 32)) then 5
  else if v.any (fun e => e.perBlock && !e.block && e.moments ≠ 0) then 6
  else if !decide ((v.map weight).Nodup) then 7
  else if v.any (fun e => s.accWidth n e ≠ 32 * ceilDiv (shape e).1.2 32) then 8
  else 0

/-- INSTALL_SWEEP_PLAN (R228 to R230, R257): the plan holds for the next sweep that starts; one installed while a sweep runs
takes the place of that sweep's at its end (R221). -/
def execInstallSweepPlan (q : QRef) (s : State) : Res :=
  hostRow q 0x0A s (fun s n c =>
    let l := c.block
    let cnt := leAt l 0 4
    let ck := argCk (leAt l 4 4)
    let ct := argCt (leAt l 4 4)
    if c.arg 0 ≠ 0 || c.arg 1 ≠ 0 || c.arg 2 ≠ 0 || c.arg 3 ≠ 0 || 4096 < cnt || l.length < 64 + 128 * cnt || !ctShapeOk ck ct then s.fail c 0x01 0
    else
      let es := (List.range cnt).map (fun i => planEntryOf (slice l (64 + 128 * i) 128))
      let tables := ((es.filter (fun e => e.valid && !e.dense)).map (fun e => e.table :: ([e.mTable1, e.mTable2].take e.moments))).flatten
      if !s.ctOwned n ck ct || tables.any (fun t => ((s.part n).tables.find t).isNone) || spaceOf (addrAt l 0x10) ≠ 0
          || es.any (fun e => e.valid && !s.entryReach n e) then s.fail c 0x03 0
      else match s.planCode n l es with
        | 0 =>
          let k := s.leadCore n
          let cover := ((List.range cnt).map (fun i =>
            let e := es.getD i {}
            if e.valid && e.dense && e.digest then
              (([e.wDesc] ++ [e.mDesc1, e.mDesc2].take e.moments).map (fun a => ((s.desc n k a).1.areasLen).map (fun x => (i, x.1, x.2)))).flatten
            else [])).flatten
          let pl : Plan := { entries := es, ck := ck, ct := ct, period := leAt l 8 4, group := leAt l 0xC 4, report := addrAt l 0x10, shard := addrAt l 0x18, cover := cover }
          let s := if (s.part n).sweep.isSome then s.updPart n (fun q => { q with nextPlan := some pl }) else s.takePlan n pl
          ((s.part n).cfg.clusters.foldl (fun s c => s.updCluster c (fun x => { x with planValid := true })) s).done c 0
        | k => s.fail c 0x05 k)

/-! ### Programs (R162, R163, R442) -/

/-- The target cores of PROGRAM_LOAD, LAUNCH and STOP. -/
def targetCores (a : Nat) : List Nat := (List.range (fld a 26 16)).map (fld a 10 0 + ·)

/-- The result code of an image for a partition in R163's order, with the index of the first instruction outside the subset.
The dies that will run it are those of the target cores, and of an update program also the dies of the partition's swath
units (log entry 60). -/
def State.imageCode (s : State) (n : Nat) (l : List Byte) (cores : List Nat) (bad : Bool) : Nat × Nat :=
  let flags := leAt l 6 2
  let code := leAt l 8 4
  let data := leAt l 0xC 4
  let co := leAt l 0x10 4
  let d := leAt l 0x14 4
  let ents := (List.range 8).map (fun i => leAt l (0x18 + 4 * i) 4)
  let upd := bitAt flags 0
  let words := (List.range (code / 8)).map (fun i => addrAt l (64 + 8 * i))
  if leAt l 0 4 ≠ 0x50585231 || leAt l 4 2 ≠ 1 || 1 < flags || code % 8 ≠ 0 || l.length < 64 + code + data then (1, 0)
  else if (crc32 (slice l 64 (code + data))).toNat ≠ leAt l 0x3C 4 then (2, 0)
  else if (code ≠ 0 && 2 ^ 20 < co + code) || (data ≠ 0 && 2 ^ 20 < d + data) || (code ≠ 0 && data ≠ 0 && co < d + data && d < co + code)
      || ents.any (fun e => e ≠ 0xFFFFFFFF && (e % 8 ≠ 0 || e < co || co + code ≤ e)) then (3, 0)
  else if cores.any (fun k => (s.core k).ctxs.any (fun x => !(x.2.state = .idle || x.2.state = .faulted))) then (4, 0)
  else if (cores.map coreDie ++ (if upd then s.diesOf n else [])).any (fun d => Config.dieRevision d < leAt l 0x38 4) then (5, 0)
  else if upd && (64 < code / 8 || data ≠ 0) then (6, 0)
  else match (if upd then words.findIdx? (fun w => !updLegal w) else none) with
    | some i => (7, i)
    | none => if bad then (8, 0) else (0, 0)

/-- PROGRAM_LOAD (R162, R163, R166). -/
def execProgramLoad (q : QRef) (s : State) : Res :=
  hostRow q 0x04 s (fun s n c =>
    let a0 := c.arg 0
    let a1 := c.arg 1
    let inline := a0 = 2 ^ 64 - 1
    let cores := targetCores a1
    let obj := s.findObj n a0
    let src : Option (List Byte × Bool) := if inline then some (c.block, false)
      else obj.map (fun x => s.readDev n 0 (BitVec.ofNat 64 ((3 + (if ((s.part n).objects.find a0).any (fun o => o.mirrorOf.isSome) then 0 else x.2.tier)) * 2 ^ 60 + a0 * 2 ^ 40)) x.2.size)
    if fld a1 15 11 ≠ 0 || fld a1 31 27 ≠ 0 || fld a1 63 38 ≠ 0 || c.arg 2 ≠ 0 || c.arg 3 ≠ 0 || (!inline && 2 ^ 20 ≤ a0) then s.fail c 0x01 0
    else if !cores.all (s.inPart n) then s.fail c 0x03 0
    else match src with
      | none => s.fail c 0x05 0x0008
      | some (l, bad) =>
        match s.imageCode n l cores bad with
        | (0, _) =>
          let code := leAt l 8 4
          if bitAt (leAt l 6 2) 0 then
            (s.updPart n (fun q => { q with slots := q.slots.set (fld a1 37 32) ((List.range (code / 8)).map (fun i => addrAt l (64 + 8 * i))) })).done c 0
          else
            let put (s : State) (k off : Nat) (b : List Byte) : State := s.writeKeys ((List.range b.length).map (fun i => scratchKey k (off + i))) b false
            (cores.foldl (fun s k =>
              let s := put (put s k (leAt l 0x10 4) (slice l 64 code)) k (leAt l 0x14 4) (slice l (64 + code) (leAt l 0xC 4))
              s.updCore k (fun x => { x with
                entries := (List.range 8).map (fun i => leAt l (0x18 + 4 * i) 4)
                ctxs := x.ctxs.map (fun y => (y.1, { y.2 with state := .idle })) })) s).done c 0
        | (k, i) => s.complete c.ref 0x05 (BitVec.ofNat 16 k) (BitVec.ofNat 64 i))

/-- The argument checks of LAUNCH and STOP: status, or none. -/
def State.coresArg (s : State) (n : Nat) (c : HostCmd) : Option Nat :=
  let a1 := c.arg 1
  if c.arg 0 ≠ 0 || fld a1 15 11 ≠ 0 || fld a1 63 27 ≠ 0 || c.arg 2 ≠ 0 || c.arg 3 ≠ 0 then some 0x01
  else if !(targetCores a1).all (s.inPart n) then some 0x03
  else none

/-- LAUNCH (R160, R442): idle and faulted contexts start at the entry points of the core's image. -/
def execLaunch (q : QRef) (s : State) : Res :=
  hostRow q 0x05 s (fun s n c =>
    match s.coresArg n c with
    | some st => s.fail c st 0
    | none =>
      let ts := ((targetCores (c.arg 1)).map (fun k => (List.range 8).filterMap (fun i =>
        let e := (s.core k).entries.getD i 0xFFFFFFFF
        let x := (s.ctx ⟨k, i⟩).state
        if e ≠ 0xFFFFFFFF && (x = .idle || x = .faulted) then some ((⟨k, i⟩ : At), e) else none))).flatten
      (ts.foldl (fun s x => s.startCtx x.1 (BitVec.ofNat 64 x.2) none .lead) s).done c (BitVec.ofNat 64 ts.length))

/-- STOP (R161, R442). -/
def execStop (q : QRef) (s : State) : Res :=
  hostRow q 0x06 s (fun s n c =>
    match s.coresArg n c with
    | some st => s.fail c st 0
    | none =>
      let ts := ((targetCores (c.arg 1)).map (fun k => (List.range 8).map (fun i => (⟨k, i⟩ : At)))).flatten.filter (fun p => (s.ctx p).state ≠ .idle)
      (ts.foldl State.stopCtx s).done c (BitVec.ofNat 64 ts.length))

/-! ### Membership (R352, R353) and topology search (R348) -/

/-- A membership image from its bytes, with the order of its lists checked; none where the bytes end too soon. -/
def imageOf (l : List Byte) : Option (MemImage × Bool) :=
  let cnt := leAt l 4 4
  let gc := leAt l 0xC 2
  let gt := 64 + 16 * cnt
  let groups := (List.range gc).map (fun g => (leAt l (gt + 8 * g) 4, leAt l (gt + 8 * g + 4) 4))
  let lists := groups.map (fun g => (List.range g.1).map (fun i => leAt l (gt + 8 * gc + g.2 + 2 * i) 2))
  let gEnd := (groups.map (fun g => gt + 8 * gc + g.2 + 2 * g.1)).foldl max (gt + 8 * gc)
  let img : MemImage :=
    { epoch := BitVec.ofNat 32 (leAt l 0 4), own := leAt l 8 4,
      members := (List.range cnt).map (fun i => (addrAt l (64 + 16 * i), leAt l (64 + 16 * i + 8) 1)),
      groups := lists, routes := (List.range cnt).map (fun i => leAt l (gEnd + i) 1) }
  if l.length < gEnd + cnt || 16384 < cnt || 256 < gc then none
  else some (img, lists.all (fun g => decide (g.Pairwise (· < ·)) && g.all (· < cnt)))

/-- The first condition of R353 that an image breaks, numbered from 1; 0 where it is accepted. -/
def State.imageReject (s : State) (n : Nat) (img : MemImage) (ordered : Bool) : Nat :=
  let m := s.member n
  if m.installed && epochCmp img.epoch m.image.epoch ≠ 1 then 1
  else if !ordered then 2
  else if (List.range img.routes.length).any (fun i =>
      let r := img.routes.getD i 0xFF
      !(r = 0xFF && (img.members.getD i (0, 0)).1 = moduleId) && !(r < 24 && (s.lnk r).st = .up)) then 3
  else if img.members[img.own]? ≠ some (moduleId, n) then 4
  else 0

/-- INSTALL_MEMBERSHIP (R352, R353): at once where every context is idle, else at the next step boundary. -/
def execInstallMembership (q : QRef) (s : State) : Res :=
  hostRow q 0x0C s (fun s n c =>
    let a0 := c.arg 0
    let fromObj := bitAt a0 63
    let obj := (s.part n).objects.find (fld a0 19 0)
    let l := if fromObj then (match obj with | some o => (s.readDev n 0 (BitVec.ofNat 64 ((3 + o.tier) * 2 ^ 60 + fld a0 19 0 * 2 ^ 40)) o.size).1 | none => []) else c.block
    if (if fromObj then fld a0 62 20 ≠ 0 else a0 ≠ 0) || c.arg 1 ≠ 0 || c.arg 2 ≠ 0 || c.arg 3 ≠ 0 then s.fail c 0x01 0
    else if fromObj && obj.isNone then s.fail c 0x03 0
    else match imageOf l with
      | none => s.fail c 0x01 0
      | some (img, ordered) =>
        match s.imageReject n img ordered with
        | 0 =>
          let s := s.updMember n (fun m => { m with pending := some img, pendCmd := some c.ref })
          if s.busyPart n then s else s.putImage n img
        | k => s.fail c 0x05 k)

/-- TOPOLOGY_SEARCH (R348, R442, R466). -/
def execTopologySearch (q : QRef) (s : State) : Res :=
  hostRow q 0x0D s (fun s n c =>
    let num := c.arg 0
    let perm := bitAt ((s.host.ports.get {} q.port).perm.toNat) q.fn
    if 2 ^ 20 ≤ num || c.arg 1 ≠ 0 || c.arg 2 ≠ 0 || c.arg 3 ≠ 0 then s.fail c 0x01 0
    else if !perm then s.fail c 0x02 0
    else match (s.part n).objects.find num with
      | some o =>
        if o.tier ≠ 0 then s.fail c 0x03 0
        else
          let s := if s.link.search.own then (s.endSearch 0x05 ((Config.freeWord s.free).setWidth 16) false).fresh else s
          let s := { s with link := { s.link with search := { s.link.search with object := num, part := n, cmd := some c.ref } } }
          (s.beginSearch (s.link.search.highest + 1) 0).searchReady
      | none => s.fail c 0x03 0)

/-! ### Regions, connections, streams (R442, R452, R453, R456, R517) -/

/-- REGISTER_REGION (R452): the part names the region by an rkey of its own. -/
def execRegisterRegion (q : QRef) (s : State) : Res :=
  hostRow q 0x12 s (fun s n c =>
    if 2 ^ 20 ≤ c.arg 0 || 4 ≤ c.arg 1 || c.arg 2 ≠ 0 || c.arg 3 ≠ 0 then s.fail c 0x01 0
    else if ((s.part n).objects.find (c.arg 0)).isNone then s.fail c 0x03 0
    else if 1024 ≤ (s.net.regions.filter (fun x => x.1 / 2 ^ 32 = n)).length then s.fail c 0x08 0
    else
      let rkey := (Config.rkeyBase + s.net.nextRkey) % 2 ^ 32
      let r : Region := { object := c.arg 0, write := bitAt (c.arg 1) 0, read := bitAt (c.arg 1) 1 }
      ({ s with net := { s.net with nextRkey := s.net.nextRkey + 1, regions := s.net.regions.set (n * 2 ^ 32 + rkey) r } } : State).done c (BitVec.ofNat 64 rkey))

/-- DEREGISTER_REGION (R442). -/
def execDeregisterRegion (q : QRef) (s : State) : Res :=
  hostRow q 0x13 s (fun s n c =>
    let k := n * 2 ^ 32 + c.arg 0
    if 2 ^ 32 ≤ c.arg 0 || c.arg 1 ≠ 0 || c.arg 2 ≠ 0 || c.arg 3 ≠ 0 then s.fail c 0x01 0
    else if (s.net.regions.find k).isNone then s.fail c 0x03 0
    else ({ s with net := { s.net with regions := s.net.regions.del k } } : State).done c 0)

/-- CONNECT (R453): the part picks a free connection number, from a free start. -/
def execConnect (q : QRef) (s : State) : Res :=
  hostRow q 0x14 s (fun s n c =>
    let l := c.block
    let start := Config.freeNat s.free
    let pick := ((List.range 1024).map (fun i => (start + i) % 1024)).find? (fun i => (s.net.conns.find (n * 4096 + i)).isNone)
    if c.arg 0 ≠ 0 || c.arg 1 ≠ 0 || c.arg 2 ≠ 0 || c.arg 3 ≠ 0 || l.length < 64 || 8 ≤ leAt l 0 1 || !(leAt l 1 1 = 4 || leAt l 1 1 = 6)
        || !zeroAt l 2 2 || !zeroAt l 0x1F 1 || !zeroAt l 0x25 27 then s.fail c 0x01 0
    else match pick with
      | none => s.fail c 0x08 0
      | some i => ({ s.fresh with net := { s.net with conns := s.net.conns.set (n * 4096 + i) { params := l.take 64, since := s.now } } } : State).done c (BitVec.ofNat 64 i))

/-- DISCONNECT (R442). -/
def execDisconnect (q : QRef) (s : State) : Res :=
  hostRow q 0x15 s (fun s n c =>
    let k := n * 4096 + c.arg 0
    if 1024 ≤ c.arg 0 || c.arg 1 ≠ 0 || c.arg 2 ≠ 0 || c.arg 3 ≠ 0 then s.fail c 0x01 0
    else if (s.net.conns.find k).isNone then s.fail c 0x08 0
    else ({ s with net := { s.net with conns := s.net.conns.del k } } : State).done c 0)

/-- The records of a restored ring from one unit of its stream to another: header and bytes of each (R458). -/
def State.savedRecords (s : State) (n : Nat) (x : Stream) : Nat → Nat → Nat → List (List Byte × List Byte)
  | 0, _, _ => []
  | k + 1, u, stop =>
    let rd (pos len : Nat) : List Byte := (s.readKeys ((List.range len).map (fun i =>
      stagingKey x.die ((s.part n).stageBase * 2 ^ 20 + x.offset + (pos + i) % max 1 x.size)))).1
    if stop ≤ u then []
    else
      let h := rd (64 * u) 64
      let units := max 1 (leAt h 4 4)
      (if leAt h 0 1 = 1 then [(h, rd (64 * u + 64) (leAt h 0xC 4))] else []) ++ State.savedRecords s n x k (u + units) stop

/-- A stream opened at the ring of a restored one first publishes what had been published and not consumed (R517). -/
def State.republish (s : State) (n k : Nat) : State :=
  match s.stream n k, s.net.closed.find (streamKey n k) with
  | some x, some (old, c, p) =>
    if !(old.die = x.die && old.offset = x.offset && old.size = x.size) then s
    else
      let rs := s.savedRecords n old (p - c) c p
      let s := { s with net := { s.net with closed := s.net.closed.del (streamKey n k) } }
      rs.foldl (fun s r =>
        match s.stream n k with
        | none => s
        | some x =>
          let len := leAt r.1 0xC 4
          let at_ := x.entryAt len
          let rec_ : PartialRec := { seq := leAt r.1 0x10 8, length := len, next := len, at_ := at_, first := leAt r.1 0x18 8, last := leAt r.1 0x20 8,
                                     pad := at_ - x.wpos, tear := bitAt (leAt r.1 1 1) 0 }
          let s := s.putRing n x (at_ + 64) r.2
          (s.updStream n k (fun x => { x with publishing := x.publishing ++ [rec_], wpos := at_ + entryLen len, lastSeq := some rec_.seq })).publishAll n k) s
  | _, _ => s

/-- OPEN_STREAM (R442, R456, R517). -/
def execOpenStream (q : QRef) (s : State) : Res :=
  hostRow q 0x16 s (fun s n c =>
    let k := fld (c.arg 0) 11 0
    let off := c.arg 1
    let size := c.arg 2
    let pair := c.arg 3
    if 2 ^ 15 ≤ c.arg 0 || 2 ^ 17 ≤ pair || fld pair 13 12 ≠ 0 || size = 0 || size % 64 ≠ 0 || off % 64 ≠ 0 then s.fail c 0x01 0
    else if (s.part n).stageSize * 2 ^ 20 < off + size || s.pairPart pair ≠ some n then s.fail c 0x03 0
    else if (s.stream n k).isSome then s.fail c 0x08 0
    else
      let x : Stream := { die := fld (c.arg 0) 14 12, offset := off, size := size, pair := pair, wpos := 64 * (s.pair pair).1, creditAt := s.now }
      (({ s with net := { s.net with streams := s.net.streams.set (streamKey n k) x } } : State).republish n k).done c 0)

/-- CLOSE_STREAM (R442). -/
def execCloseStream (q : QRef) (s : State) : Res :=
  hostRow q 0x17 s (fun s n c =>
    let k := c.arg 0
    if 4096 ≤ k || c.arg 1 ≠ 0 || c.arg 2 ≠ 0 || c.arg 3 ≠ 0 then s.fail c 0x01 0
    else if (s.stream n k).isNone then s.fail c 0x08 0
    else ({ s with net := { s.net with streams := s.net.streams.del (streamKey n k) } } : State).done c 0)

end Sys2Proof.Machine
end

