-- ==== Sys2Proof/Machine/Counters.lean ====
section
/-! DEFINITION. Counters and holding registers (R124 to R128, R264, R305, R372, R376, R432, R467, R557 to R559) and the
counts of malformed accesses (R555). -/

namespace Sys2Proof.Machine

/-- The size of a block's space (R545). -/
def blockSize : Block → Nat
  | .hub => 0x10000
  | .mgt => 0x10000
  | .ns => 0x2000
  | .ft => 0x2000
  | .np => 0x4000
  | .hq _ => 0x10000
  | _ => 0x1000

/-- The block kind codes of R556. -/
def blockKind : Block → Nat
  | .hub => 1 | .mgt => 2 | .pwr => 3 | .ident => 4 | .ns => 5 | .ft => 6 | .pl => 7 | .xu => 8 | .np => 9 | .hqGlobal => 0xA
  | .hq _ => 0xB | .fd _ => 0xC | .cl _ => 0xD | .co _ => 0xE

/-- The instance field of BLK_ID (R555). -/
def blockInstance : Block → Nat
  | .hq f => f.port * 256 + f.fn
  | .fd d => d
  | .cl c => c
  | .co k => k
  | _ => 0

/-- Counter values at their offsets, from an offset on. -/
def countersAt (base : Nat) (l : List Nat) : List (Nat × Nat) := (List.range l.length).map (fun i => (base + 8 * i, l.getD i 0))

/-- The counters of a core in the order of R126. -/
def CoreCount.list (c : CoreCount) : List Nat :=
  [c.beats, c.issued, c.tileBeats, c.sideProducts, c.vecBeats, c.turfBytes, c.qstallBeats, c.desched, c.quiescentNs, c.eccCorr]
/-- The swath counters in the order of R264. -/
def SwCount.list (c : SwCount) : List Nat :=
  [c.elements, c.commits, c.late, c.skipped, c.blighted, c.guarded, c.replayed, c.discarded, c.txAborts, c.gateNs]

/-- The live counters of a block, by offset; none where the block has none. -/
def State.counters (s : State) : Block → List (Nat × Nat)
  | .co k => countersAt 0x100 (s.core k).cnt.list
  | .cl c => countersAt 0x410 (s.cluster c).cnt.list
  | .ns => ((List.range 16).map (fun i => countersAt (0x800 + 0x40 * i) ((s.near i).bytes ++ [(s.near i).shedWindows]))).flatten
  | .ft => ((List.range 32).map (fun i => countersAt (0x800 + 0x40 * i) ((s.chan i).bytes ++ [(s.chan i).shedWindows]))).flatten
  | .pl => ((List.range 24).map (fun k => countersAt (0x400 + 0x40 * k) (s.lnk k).cnt)).flatten
  | .xu => ((List.range 8).map (fun n => countersAt (0x200 + 0x40 * n) (s.member n).cnt)).flatten
  | .np => ((List.range 8).map (fun n => countersAt (0x2000 + 0x40 * n) (s.net.streamCnt.get [0, 0, 0, 0, 0, 0, 0] n)
      ++ countersAt (0x3400 + 0x40 * n) (s.serve n).cnt)).flatten
  | .hq f => countersAt 0x1000 (s.func f).cnt
  | _ => []

/-- Zero in place of each count. -/
def zeros (l : List Nat) : List Nat := l.map (fun _ => 0)

/-- A block's live counters are zero (R558). -/
def State.clearBlock (s : State) : Block → State
  | .co k => s.updCore k (fun c => { c with cnt := {} })
  | .cl c => s.updCluster c (fun x => { x with cnt := {} })
  | .ns => (List.range 16).foldl (fun s i => s.updNear i (fun m => { m with bytes := zeros m.bytes, shedWindows := 0 })) s
  | .ft => (List.range 32).foldl (fun s i => s.updChan i (fun m => { m with bytes := zeros m.bytes, shedWindows := 0 })) s
  | .pl => (List.range 24).foldl (fun s k => s.updLnk k (fun l => { l with cnt := zeros l.cnt })) s
  | .xu => (List.range 8).foldl (fun s n => s.updMember n (fun m => { m with cnt := zeros m.cnt })) s
  | .np =>
    let s := (List.range 8).foldl (fun s n => s.updServe n (fun v => { v with cnt := zeros v.cnt })) s
    { s with net := { s.net with streamCnt := [] } }
  | .hq f => s.updFunc f (fun g => { g with cnt := zeros g.cnt })
  | _ => s

/-- An accessor's holding registers of a block. -/
def State.holding (s : State) (who : Accessor) (b : Block) : Option Holding := s.regs.holds.find? (fun h => h.who = who && h.block = b)

/-- A snapshot of a block into an accessor's holding registers (R557). -/
def State.snapshot (s : State) (who : Accessor) (b : Block) : State :=
  let h : Holding := { who := who, block := b, time := s.now, values := s.counters b }
  { s with regs := { s.regs with holds := s.regs.holds.filter (fun h => !(h.who = who && h.block = b)) ++ [h] } }

/-- Whether an accessor's clear takes effect on a block (R559): the partition is the bound one where the accessor reaches
the block at all. -/
def mayClear (who : Accessor) (b : Block) : Bool :=
  match who, b with
  | .mgmt, _ => true
  | .host _, .co _ => true
  | .host _, .cl _ => true
  | .host f, .hq g => f = g
  | .host _, _ => false

/-- A write of CNT_CTRL that takes effect: the snapshot first, then the clear (R125, R559). -/
def State.cntCtrl (s : State) (who : Accessor) (b : Block) (v : Word) : State :=
  if s.counters b = [] then s
  else
    let s := if v.getLsbD 1 then s.snapshot who b else s
    if v.getLsbD 0 && mayClear who b then s.clearBlock b else s

/-- A write of CNT_CTRL: that of a moved core takes effect when the core resumes (R561). -/
def State.writeCnt (s : State) (who : Accessor) (b : Block) (v : Word) : State :=
  let moved : Bool := match b with
    | .co k => (s.core k).frozen = some .retire
    | _ => false
  if moved then { s with regs := { s.regs with deferred := s.regs.deferred ++ [(who, b, v)] } } else s.cntCtrl who b v

/-- Writes that waited for moved cores take effect (R561). -/
def State.runDeferred (s : State) : State :=
  let l := s.regs.deferred
  l.foldl (fun s x => s.cntCtrl x.1 x.2.1 x.2.2) { s with regs := { s.regs with deferred := [] } }

/-- A malformed access to a block is counted in its ACC_ERR (R546, R550, R551, R555). -/
def State.badAccess (s : State) (b : Block) (off : Nat) : State :=
  let l := s.regs.accErr
  let old := ((l.find? (fun (x : AccErr) => x.block = b)).map (·.count)).getD 0
  let x : AccErr := { block := b, count := min (old + 1) (2 ^ 32 - 1), offset := off % 2 ^ 24 }
  { s with regs := { s.regs with accErr := l.filter (fun x => x.block ≠ b) ++ [x] } }

/-- ACC_ERR as it reads, and cleared by the read (R555). -/
def State.takeAccErr (s : State) (b : Block) : State × Word :=
  match s.regs.accErr.find? (fun (x : AccErr) => x.block = b) with
  | some x => ({ s with regs := { s.regs with accErr := s.regs.accErr.filter (fun x => x.block ≠ b) } }, BitVec.ofNat 64 (x.count * 2 ^ 32 + x.offset))
  | none => (s, 0)

end Sys2Proof.Machine
end

