-- ==== Sys2Proof/Machine/Export.lean ====
section
/-! DEFINITION. Exports and checkpoints (R260, R261, R295, R442, R444), imports (R262), replay (R395 to R397). -/

namespace Sys2Proof.Machine

/-! ### Export -/

/-- EXPORT (R260, R442): the request is kept until the sweep of its step has completed. One of a step whose successor's sweep
has started can read its state no more (status 0x08, log entry 46). -/
def execExportCmd (q : QRef) (s : State) : Res :=
  hostRow q 0x0E s (fun s n c =>
    let a1 := c.arg 1
    let slot := bitAt a1 63
    let x : Export := { step := BitVec.ofNat 64 (c.arg 0), checkpoint := if slot then some (fld a1 3 0) else none, conn := fld a1 9 0,
                        remote := BitVec.ofNat 64 (c.arg 2), rkey := BitVec.ofNat 32 (c.arg 3), cmd := c.ref }
    let p := s.part n
    if (if slot then fld a1 62 4 ≠ 0 else fld a1 62 10 ≠ 0) || 2 ^ 32 ≤ c.arg 3 then s.fail c 0x01 0
    else if p.replay.isSome || (!slot && (s.net.conns.find (n * 4096 + fld a1 9 0)).isNone)
        || (p.started && x.step.toNat < p.lastStarted.toNat) then s.fail c 0x08 0
    else
      let s := s.updPart n (fun p => { p with exports := p.exports ++ [x] })
      if p.sweep.isNone then s.settleSw n else s)

/-- The bytes of the barrow store that a partition's checkpoints may take (R444). -/
def checkpointCap : Nat := 3800000000000

/-- The checkpoint bytes of a partition beside one slot. -/
def State.checkpointBytes (s : State) (n slot : Nat) : Nat :=
  ((s.net.ckpts.filter (fun x => x.1 / 16 = n && x.1 % 16 ≠ slot)).map (fun x => x.2.length)).sum

/-- The version words of the row blocks of a plan entry's tables or tensor. -/
def State.versionKeys (s : State) (n : Nat) (e : PlanEntry) : List Nat :=
  let q := s.part n
  let k := s.leadCore n
  if e.dense then (if e.verAddr = 0 then [] else s.keysOf n k e.verAddr (8 * ceilDiv (s.desc n k e.wDesc).1.rows 32))
  else (([e.table] ++ [e.mTable1, e.mTable2].take e.moments).map (fun t =>
    ((q.tableObjs t).map (fun x => s.keysOf n k (verAddr x.1 x.2 0) (8 * ceilDiv x.2.rowCount 32))).flatten)).flatten

/-- What an export or a checkpoint reads, rows and areas and version words, is served in the checkpoint class (R272, R296). -/
def State.checkpointReads (s : State) (n : Nat) : State :=
  (((s.part n).plan.map (·.entries)).getD []).foldl (fun s e => if e.valid then s.served (s.digestKeys n e ++ s.versionKeys n e) 2 else s) s

/-- EXPORT_RUN (R260, R261, R444): the stream of the committed state goes to a checkpoint slot, once the hold-up gate
is open (R296), or out over a connection. -/
def execExportRun (part : Nat) (s : State) : Res :=
  let p := s.part part
  .next (match p.exports.find? (fun x => p.started && x.step = p.lastCompleted) with
    | none => s
    | some x =>
      if !s.live || p.sweep.isSome || p.replay.isSome || part ∈ s.tx.recovering then s
      else
        let l := s.streamOf part 0x534C4758 x.step p.shardDigest { all := true, blocks := [] }
        let t := ((s.checkpointReads part).updPart part (fun p => { p with exports := p.exports.filter (· ≠ x) })).settleSw part
        match x.checkpoint with
        | some slot =>
          if checkpointCap < s.checkpointBytes part slot + l.length then t.complete x.cmd 0x07 0 0
          else if !s.gateOpen then s
          else ({ t with net := { t.net with ckpts := t.net.ckpts.set (part * 16 + slot) l } } : State).complete x.cmd 0 0 (BitVec.ofNat 64 l.length)
        | none =>
          if (s.net.conns.find (part * 4096 + x.conn)).isNone then t.complete x.cmd 0x08 0 0
          else (t.send (.rdmaWrite part x.conn x.remote x.rkey l)).complete x.cmd 0 0 (BitVec.ofNat 64 l.length))

/-! ### Import (R262) -/

/-- A section's header (R261). -/
structure Sect where
  kind : Nat
  tensor : Word
  table : Nat
  rows : Nat
  word : Nat
  outl : Nat
  deriving DecidableEq, Repr

def sectOf (l : List Byte) : Sect :=
  { kind := leAt l 0 1, tensor := addrAt l 8, table := leAt l 0x10 2, rows := leAt l 0x18 8, word := leAt l 0x20 8, outl := leAt l 0x28 2 }

/-- What one section does: the bytes it takes, and the writes it makes where it matches. -/
structure SectOut where
  len : Nat
  writes : Option (List JEntry)
  deriving DecidableEq, Repr

/-- A table section: a table of the same layout, outlier list and row count takes its records and version words: those of the
rows that its objects hold, in row order, as its own export writes them (R261, R262). -/
def State.importTable (s : State) (n : Nat) (h : Sect) (l : List Byte) : SectOut :=
  let q := s.part n
  let t := q.tables.get {} h.table
  let lay : Table := { width := fld h.word 43 31, fmt := fld h.word 30 25, escSlots := fld h.word 24 16, promSlots := fld h.word 15 8 }
  let rs := recordBytes lay.blocks (eltBits lay.fmt) h.outl lay.escSlots lay.promSlots
  let os := q.tableObjs h.table
  let placed := (os.map (fun x => x.2.rowCount)).sum
  let same := (q.tables.find h.table).isSome && h.word = t.layoutWord && h.rows = t.rows && h.outl = t.outliers.length
    && listOf (l.drop 64) h.outl = t.outliers
  let vers := if h.rows = t.rows then (os.map (fun x => ceilDiv x.2.rowCount 32)).sum else ceilDiv h.rows 32
  let off := 64 + 4 * h.outl
  let blocks := (os.map (fun x => (List.range (ceilDiv x.2.rowCount 32)).map (fun b => (x.1, x.2, b)))).flatten
  let rows := (os.map (fun x => (List.range x.2.rowCount).map (fun r => (x.1, x.2, x.2.firstRow + r)))).flatten
  let cnt := if same then placed else h.rows
  let len := off + rs * cnt + 8 * vers
  { len := len
    writes := if !same || l.length < len then none else some (
      (List.range rows.length).map (fun i =>
        let x := rows.getD i (0, {}, 0)
        { addr := rowAddr x.1 x.2.1 t x.2.2, data := slice l (off + rs * i) rs })
      ++ (List.range blocks.length).map (fun i =>
        let x := blocks.getD i (0, {}, 0)
        { addr := verAddr x.1 x.2.1 x.2.2, data := slice l (off + rs * cnt + 8 * i) 8, kind := 1 })) }

/-- The escape codes among packed codes of one block. -/
def escCodes (fmt : Nat) (codes : List Nat) : Nat := (codes.filter (fun c => (codeVal fmt c).isNone)).length

/-- The side entries that a narrow dense body holds: the promotions that its scale words name, and the first number of
escapes that agrees with the codes (R61, R78, R79). -/
def sideCounts (l : List Byte) (fmt blocks : Nat) : Nat × Nat :=
  let w := eltBits fmt
  let scales := (List.range blocks).map (fun b => leAt l (blocks * 4 * w + 2 * b) 2)
  let plain := ((List.range blocks).map (fun b =>
    let sw := scales.getD b 0
    if fld sw 15 8 = 0xFF || bitAt sw 2 then 0 else escCodes fmt (unpackCodes w (leAt l (b * 4 * w) (4 * w))))).sum
  let proms := (scales.filter (fun sw => fld sw 15 8 ≠ 0xFF && bitAt sw 2)).length
  let area := blocks * 4 * w + 2 * blocks
  let inProms (e : Nat) : Nat := ((List.range proms).map (fun i =>
    escCodes 5 ((List.range 32).map (fun j => leAt l (area + 8 * e + 40 * i + 8 + j) 1)))).sum
  (((List.range (2 * proms + 1)).find? (fun k => inProms (plain + k) = k)).elim plain (plain + ·), proms)

/-- A dense section, for the descriptor at `a` of a plan entry: areas, counts and version words (R261, R262). -/
def State.importDense (s : State) (n : Nat) (e : PlanEntry) (a : Word) (h : Sect) (l : List Byte) : SectOut :=
  let k := s.leadCore n
  let d := (s.desc n k a).1
  let kind := fld h.word 39 37
  let fmt := fld h.word 5 0
  let off := 64 + 4 * h.outl
  let body := l.drop off
  let bl := h.rows * d.blocks
  let (esc, prom) := if kind = 0 then sideCounts body fmt bl else (0, 0)
  let lens : List Nat := if kind = 0 then [bl * 4 * eltBits fmt, 2 * bl, 8 * esc, 40 * prom, 2 * h.rows * h.outl] else [h.rows * d.len * wideBytes kind]
  let vers := if e.verAddr = 0 then 0 else ceilDiv h.rows 32
  let areas := [d.code, d.scale, d.esc, d.prom, d.outl]
  let len := off + lens.sum + 8 * vers
  let same := kind = d.kind && fmt = d.fmt && h.rows = d.rows && h.outl = d.outCount && listOf (l.drop 64) h.outl = d.outliers
  let ent (a : Word) (x : List Byte) (kind : Nat) : List JEntry := if x = [] then [] else [{ addr := a, data := x, kind := kind, core := k }]
  { len := len
    writes := if !same || l.length < len then none else some (
      ((List.range lens.length).map (fun i => ent (areas.getD i 0) (slice body ((lens.take i).sum) (lens.getD i 0)) 0)).flatten
      ++ (if kind = 0 then ent (plus a 0x68) (leBytes 8 esc ++ leBytes 8 prom) 0 else [])
      ++ (if vers = 0 then [] else ent e.verAddr (slice body lens.sum (8 * vers)) 1)) }

/-- The descriptor that a dense section names: the plan entry of its tensor and the weights', or the next moment's,
of which `seen` have come. -/
def Part.sectDesc (q : Part) (h : Sect) (seen : Nat) : Option (PlanEntry × Word) :=
  match q.plan with
  | none => none
  | some pl => (pl.entries.find? (fun e => e.valid && e.dense && e.tensor = h.tensor)).bind (fun e =>
      if h.kind = 2 then some (e, e.wDesc) else ([e.mDesc1, e.mDesc2].take e.moments)[seen]?.map (fun a => (e, a)))

/-- An entry in pieces of at most 1 MiB. -/
def piecesOf (e : JEntry) : List JEntry :=
  (List.range (ceilDiv e.data.length (2 ^ 20))).map (fun i => { e with addr := plus e.addr (2 ^ 20 * i), data := (e.data.drop (2 ^ 20 * i)).take (2 ^ 20) })

/-- Runs of entries of at most 64 MiB of 64-byte granules each, in order (R252, R262). -/
def batchesOf (l : List JEntry) : List (List JEntry) :=
  let cost (x : List JEntry) : Nat := (x.map (fun e => e.data.length / 64 + 2)).sum
  ((l.map piecesOf).flatten).foldl (fun acc e =>
    match acc.getLast? with
    | some b => if cost b + (e.data.length / 64 + 2) ≤ 2 ^ 20 then acc.dropLast ++ [b ++ [e]] else acc ++ [[e]]
    | none => [[e]]) []

/-- The writes of the sections of a stream that match, in order, section by section. A section for which nothing is installed
tells its length by nothing, and ends the stream. -/
def State.importSects (s : State) (n : Nat) : Nat → List Byte → List Word → List (List JEntry)
  | 0, _, _ => []
  | k + 1, l, seen =>
    if l.length < 64 then []
    else
      let h := sectOf l
      let out : Option SectOut :=
        if h.kind ≤ 1 then some (s.importTable n h l)
        else ((s.part n).sectDesc h ((seen.filter (· = h.tensor)).length)).map (fun x => s.importDense n x.1 x.2 h l)
      let seen := if h.kind = 3 then h.tensor :: seen else seen
      match out with
      | none => []
      | some o => o.writes.toList ++ State.importSects s n k (l.drop o.len) seen

/-- Whether a partition stands at a step boundary without a sweep (R262). -/
def State.atRest (s : State) (n : Nat) : Bool :=
  let q := s.part n
  q.sweep.isNone && n ∉ s.tx.recovering && q.importing.isNone && (q.sweepDue ≠ [] || (s.ctxsOf n).all (fun p => (s.ctx p).state = .idle || (s.ctx p).state = .faulted))

/-- IMPORT (R262, R295, R442): waits for a step boundary without a sweep; the stream is read, and its sections are written by
explicit transactions of at most 64 MiB, one after the other (R239). The command completes with the last of them. -/
def execImportCmd (q : QRef) (s : State) : Res :=
  if (s.boundPart (qFunc q)).any (fun n => (s.part n).replay.isNone && !s.atRest n) then .next s
  else hostRow q 0x0F s (fun s n c =>
    let a0 := c.arg 0
    let slot := bitAt a0 63
    let obj := (s.part n).objects.find (fld a0 19 0)
    let l : List Byte := if slot then s.net.ckpts.get [] (n * 16 + fld a0 3 0)
      else match obj with
        | some o => (s.readDev n 0 (BitVec.ofNat 64 ((3 + o.tier) * 2 ^ 60 + fld a0 19 0 * 2 ^ 40)) o.size).1
        | none => []
    if (if slot then fld a0 62 4 ≠ 0 else fld a0 62 20 ≠ 0) || c.arg 1 ≠ 0 || c.arg 2 ≠ 0 || c.arg 3 ≠ 0 then s.fail c 0x01 0
    else if !slot && obj.isNone then s.fail c 0x03 0
    else if (s.part n).replay.isSome then s.fail c 0x08 0
    else if leAt l 0 4 ≠ 0x534C4758 || leAt l 4 2 ≠ 1 then s.done c 0
    else
      let sects := s.importSects n (leAt l 0x18 4) (l.drop 64) []
      (s.updPart n (fun q => { q with importing := some { cmd := c.ref, sections := sects.length, batches := (sects.map batchesOf).flatten } })).importNext n)

/-! ### Replay (R395 to R397) -/

/-- REPLAY_START (R395): replay mode for step s; the command completes when the capture is written (R396). -/
def execReplayStart (q : QRef) (s : State) : Res :=
  hostRow q 0x10 s (fun s n c =>
    let a1 := c.arg 1
    let p := s.part n
    let step : Word := BitVec.ofNat 64 (c.arg 0)
    if 2 ^ 20 ≤ a1 || c.arg 2 ≠ 0 || c.arg 3 ≠ 0 then s.fail c 0x01 0
    else match p.objects.find a1 with
      | none => s.fail c 0x03 0
      | some o =>
        if 2 ≤ o.tier then s.fail c 0x03 0
        else if p.replay.isSome || p.sweep.isSome then s.fail c 0x08 0
        else s.updPart n (fun p => { p with
          replay := some { step := step, object := a1, cmd := some c.ref, heldStarted := p.lastStarted, heldAny := p.started }
          started := true
          lastStarted := step - 1 }))

/-- Every accumulator of some plan entries is empty: slots and elements zero, counts zero (R87, R223). -/
def State.clearAccs (s : State) (n : Nat) (pick : Nat → Bool) : State :=
  match (s.part n).plan with
  | none => s
  | some pl => (List.range pl.entries.length).foldl (fun s i =>
      let e := pl.entries.getD i {}
      if !e.valid || !pick i then s
      else if e.dense then
        let k := s.leadCore n
        let d := (s.desc n k e.accAddr).1
        let zero : List Byte := leBytes 16 (encW96 {} (anchorE d.anchor)).toNat
        ((List.range d.rows).foldl (fun s r => s.writeDev n k (d.elemAt r 0) (List.replicate d.len zero).flatten false) s).writeDev n k (plus e.accAddr 0x48) (leBytes 8 0) false
      else
        let t := (s.part n).tables.get {} e.table
        let x := s.rowAcc n e.accAddr
        let s := (List.range 8).foldl (fun s d => (s.heldSlots n x t d).foldl (fun s h =>
          s.writeKeys (s.keysOf n 0 (x.slotAddr t d h.1) t.slotBytes) (List.replicate t.slotBytes 0) false) s) s
        s.putRowAcc n e.accAddr { x with full := false, terms := 0, touched := 0 }) s

/-- REPLAY_END (R397): the accumulators that the capture sweep read are cleared; the partition goes on at the step that
it held before. -/
def execReplayEnd (q : QRef) (s : State) : Res :=
  hostRow q 0x11 s (fun s n c =>
    if c.arg 0 ≠ 0 || c.arg 1 ≠ 0 || c.arg 2 ≠ 0 || c.arg 3 ≠ 0 then s.fail c 0x01 0
    else match (s.part n).replay with
      | none => s.fail c 0x08 0
      | some r =>
        let opened : List Nat := match (s.part n).sweep with | some w => w.opened.map (fun x => x.1) | none => []
        let s := s.clearAccs n (fun i => r.swept || i ∈ opened)
        let s := match r.cmd with
          | some x => (s.complete x 0x05 ((Config.freeWord s.free).setWidth 16) 0).fresh
          | none => s
        let s := s.updPart n (fun p => { p with
          replay := none
          sweep := none
          sweepDue := p.sweepDue.filter (· ≠ r.step.setWidth 16)
          stepbs := p.stepbs.filter (fun x => x.2 ≠ r.step.setWidth 16)
          started := r.heldAny
          lastStarted := r.heldStarted })
        ((s.settleSw n).planTurn n).done c 0)

end Sys2Proof.Machine
end

