-- ==== Sys2Proof/Machine/Interrupt.lean ====
section
/-! DEFINITION. Interrupts and Bus Master Enable (R446, R447). -/

namespace Sys2Proof.Machine

/-- MSIX_HOLDOFF_EXPIRY (R446): a pending vector's message may go now. -/
def execMsixHoldoffExpiry (f : FuncRef) (vector : Nat) (s : State) : Res := .next (if s.live then s.trySend f vector else s)

/-- MSIX_UNMASK (R446): a vector that stayed pending while masked may send. -/
def execMsixUnmask (f : FuncRef) (vector : Nat) (s : State) : Res :=
  .next ((s.updFunc f (fun g => { g with vectors := g.vectors.upd {} vector (fun x => { x with masked := false }) })).trySend f vector)

/-- BUS_MASTER_DISABLE (R447): from now on what the function would send is held; the reads that are out still return. -/
def execBusMasterDisable (f : FuncRef) (s : State) : Res :=
  .next (s.updFunc f (fun g => { g with
    busMaster := false
    queues := if g.busMaster then g.queues.map (fun x => (x.1, { x.2 with readsOut := x.2.reads true })) else g.queues }))

/-- BUS_MASTER_ENABLE (R447): the held writes leave in the order they were produced, then the messages of pending vectors. -/
def execBusMasterEnable (f : FuncRef) (s : State) : Res :=
  let g := s.func f
  .next (if g.busMaster then s
    else
      let t := g.held.foldl (fun s o => s.send o) (s.updFunc f (fun g => { g with busMaster := true, held := [] }))
      (g.vectors.map (·.1)).foldl (fun t v => t.trySend f v) t)

end Sys2Proof.Machine
end

