-- ==== Sys2Proof/Machine/Message.lean ====
section
/-! DEFINITION. Tagged messages at the units of the module (R29 to R36): acceptance by partition, the comparison of
mode epochs with holding and discarding, reserved format codes (R54). -/

namespace Sys2Proof.Machine

/-- The cluster whose steward settles a unit's partition, if the unit belongs to one. -/
def unitCluster (u : UnitRef) : Option Nat :=
  match u.kind with
  | .core => some (coreCluster u.index)
  | .turf => some (coreCluster u.index)
  | .cluster => some u.index
  | .rowEngine => some u.index
  | .swath => some u.index
  | _ => none

/-- The field die that a unit belongs to, if it lies on one. -/
def unitDie (u : UnitRef) : Option Nat :=
  match u.kind with
  | .near => some (u.index / 2)
  | .exchange => some u.index
  | .dieSteward => some u.index
  | _ => (unitCluster u).map clusterDie

/-- The partitions that a unit serves (R32). -/
def State.unitParts (s : State) (u : UnitRef) : List Nat :=
  match unitCluster u with
  | some c => (s.cluster c).part.toList
  | none => (List.range 8).filter (fun n => (s.part n).cfg.enable &&
      (match u.kind with
        | .near => (s.part n).objects.any (fun o => o.2.tier = 1 && o.2.mask.getLsbD u.index)
        | .fallow => (s.part n).objects.any (fun o => o.2.tier = 2)
        | _ => true))

/-- The partitions that a unit served under the settings of an epoch that is the previous one (R33, R326). -/
def State.prevUnitParts (s : State) (u : UnitRef) (e : BitVec 12) : List Nat :=
  match unitCluster u with
  | some c => if (s.cluster c).prevEpoch = e then (s.cluster c).prevPart.toList else []
  | none => (List.range 8).filter (fun n => (s.part n).prevCfg.enable)

/-- Whether a unit is a memory unit. -/
def isMemoryUnit (u : UnitRef) : Bool := u.kind = .turf || u.kind = .near || u.kind = .fallow

/-- Whether a message's address names an object of a serve partition's source. -/
def State.inSource (s : State) (n : Nat) (a : Word) : Bool :=
  3 ≤ spaceOf a && ((s.part (s.part n).cfg.src).objects.find (fld a.toNat 59 40)).isSome

/-- Whether a unit that serves some partitions accepts a message's partition (R32): for an enabled serve partition, a
memory unit takes reads of its source's objects, and of objects no writes at all (R404). -/
def State.acceptsWith (s : State) (parts : List Nat) (u : UnitRef) (m : Msg) : Bool :=
  let n := tagPart m.tag
  let c := (s.part n).cfg
  if isMemoryUnit u && c.enable && c.serve && 3 ≤ spaceOf m.addr then
    !m.write && (n ∈ parts || (s.inSource n m.addr && c.src ∈ parts))
  else n ∈ parts

/-- The participant of a mode change that applies a unit's settings: its cluster's steward, its die's, or the hub units
(R28, R324). -/
def unitParticipant (u : UnitRef) : Participant :=
  match unitCluster u, unitDie u with
  | some c, _ => .cluster c
  | none, some d => .die d
  | none, none => .hub

/-- The mode epoch that a unit has applied for a partition (R33, R326). A unit of a cluster holds its own partition's; for
any other partition whose message it takes, and outside clusters, the steward's last applied one counts. -/
def State.unitEpoch (s : State) (u : UnitRef) (n : Nat) : BitVec 12 :=
  let q := s.part n
  let w := match (unitCluster u).filter (fun c => (s.cluster c).part ≠ some n) with
    | some _ => Participant.hub
    | none => unitParticipant u
  match (unitCluster u).filter (fun c => (s.cluster c).part = some n) with
  | some c => (s.cluster c).epoch
  | none => match q.change with
    | some h => if h.phase = .committed && (w ∈ h.applied || w ∉ h.members) then q.epoch + 1 else q.epoch
    | none => q.epoch

/-- Whether a unit accepts a message (R32): under its applied settings, or, where the message bears the epoch before
them, under the previous ones (R33). -/
def State.accepts (s : State) (u : UnitRef) (m : Msg) : Bool :=
  let n := tagPart m.tag
  s.acceptsWith (s.unitParts u) u m
    || (tagEpoch m.tag = s.unitEpoch u n - 1 && s.acceptsWith (s.prevUnitParts u (tagEpoch m.tag)) u m)

/-- A unit's buffers. -/
def State.unitBuf (s : State) (u : UnitRef) : UnitBuf := ((s.units.find? (fun x => x.1 = u)).map (·.2)).getD {}
/-- Changing a unit's buffers. -/
def State.updUnit (s : State) (u : UnitRef) (f : UnitBuf → UnitBuf) : State :=
  { s with units := s.units.filter (fun x => x.1 ≠ u) ++ [(u, f (s.unitBuf u))] }

/-- A message is discarded and counted, with a record (R32, R33, R54). -/
def State.discardMsg (s : State) (u : UnitRef) (m : Msg) (cause : Nat) : State :=
  (s.updUnit u (fun b => { b with discards := sat64 (b.discards + 1) })).discard u cause m.tag 0 [tagPart m.tag]

/-- A message is processed under the settings of an epoch; a memory unit does the write that it carries. -/
def State.processMsg (s : State) (u : UnitRef) (m : Msg) (e : BitVec 12) : State :=
  let n := tagPart m.tag
  if !fmtKnown (tagFmt m.tag) && tagFmt m.tag ≠ 0 then s.discardMsg u m 0x03
  else
    let s := s.updUnit u (fun b => { b with processed := b.processed ++ [(m, e)] })
    if isMemoryUnit u && m.write && s.within n m.addr m.data.length then s.writeDev n u.index m.addr m.data (tagBlight m.tag) else s

/-- The verdicts of R33. -/
inductive Verdict where
  | current | newer | stale | previous
  deriving DecidableEq, Repr

/-- The comparison of R33: d = (tag epoch − applied epoch) mod 4,096. -/
def epochVerdict (tag applied : BitVec 12) : Verdict :=
  let d := (tag - applied).toNat
  if d = 0 then .current else if d ≤ 2047 then .newer else if d ≤ 4094 then .stale else .previous

/-- A message that a unit accepts (R33, R34): one behind a held message of its class waits too. -/
def State.judgeMsg (s : State) (u : UnitRef) (m : Msg) : State :=
  let e := s.unitEpoch u (tagPart m.tag)
  let hold (s : State) : State := s.updUnit u (fun b => { b with held := b.held ++ [m] })
  if tagClass m.tag = 5 then s.processMsg u m e
  else if (s.unitBuf u).held.any (fun x => tagClass x.tag = tagClass m.tag) then hold s
  else match epochVerdict (tagEpoch m.tag) e with
    | .current => s.processMsg u m e
    | .newer => hold s
    | .stale => s.discardMsg u m 0x02
    | .previous => s.processMsg u m (e - 1)

/-- MESSAGE_RECEIPT (R32 to R34, R54). -/
def execMessageReceipt (u : UnitRef) (m : Msg) (s : State) : Res :=
  .next (if !s.live then s
    else if !s.accepts u m then s.discardMsg u m 0x01
    else s.judgeMsg u m)

/-- After units have applied an epoch, what they held is judged again in order (R33). -/
def State.releaseHeld (s : State) : State :=
  s.units.foldl (fun s x =>
    if x.2.held = [] then s
    else x.2.held.foldl (fun s m => if s.accepts x.1 m then s.judgeMsg x.1 m else s.discardMsg x.1 m 0x01) (s.updUnit x.1 (fun b => { b with held := [] }))) s

end Sys2Proof.Machine
end

