-- ==== Sys2Proof/Machine/Reset.lean ====
section
/-! DEFINITION. Resets below the module's (R528 to R531, R534), with their drain and absorb rules; Function Level
Reset and its equivalents (R448, R449, R570); the links of host and network ports (R433, R451). -/

namespace Sys2Proof.Machine

/-! ### Absorbed traffic (R530) -/

/-- Absorbed messages are counted in a unit's discard counter and merged into a discard record (R530, R472); R470 names
no cause for them, so the cause is a free value. -/
def State.absorb (s : State) (u : UnitRef) (k : Nat) (n : Option Nat) : State :=
  if k = 0 then s
  else
    let cause := Config.freeNat s.free % 256
    let s := (s.fresh).updUnit u (fun b => { b with discards := sat64 (b.discards + k) })
    (List.range k).foldl (fun s _ => s.discard u cause 0 0 n.toList) s

/-- The held messages of a unit that are absorbed: all but those of classes 5 and 7. -/
def State.absorbHeld (s : State) (u : UnitRef) (n : Option Nat) : State :=
  let keep (m : Msg) : Bool := tagClass m.tag = 5 || tagClass m.tag = 7
  let gone := (s.unitBuf u).held.filter (fun m => !keep m)
  if gone = [] then s else (s.updUnit u (fun b => { b with held := b.held.filter keep })).absorb u gone.length n

/-! ### Draining and resetting a context (R529, R530) -/

/-- Whether a move can finish at once: its bytes are at hand or readable, and it does not end in the fallow tier. -/
def Move.drains (m : Move) : Bool :=
  !m.queued && spaceOf m.dst ≠ 5 && (match m.src with | some a => m.bytes.isSome || spaceOf a ≠ 5 | none => true)

/-- The writes and moves that a context has issued complete with their actions, in order (R530). A move to or from the
fallow tier goes on by its own events. -/
def State.drainCtx (s : State) (p : At) : State :=
  let c := s.ctx p
  let n := s.partNum p.core
  let nums := (c.stores.map (·.num) ++ c.moves.map (·.num)).foldl insertNat []
  nums.foldl (fun s k =>
    match c.stores.find? (fun w => w.num = k) with
    | some w => (s.writeMarked n p.core w.addr w.data w.blight w.subst).updCtx p (fun c => { c with stores := c.stores.filter (fun x => x.num ≠ k) })
    | none =>
      match c.moves.find? (fun m => m.num = k) with
      | none => s
      | some m =>
        if !m.drains then s
        else
          let (l, b, u) := s.moveBytes p m
          let s := match m.tx with
            | some num => s.txWrite num m.dst l b u
            | none => s.writeMarked n p.core m.dst l b u
          s.finishMove p { m with blight := b, subst := u }) s

/-- A context is reset (R529, R530): its writes drained, its transaction aborted, its waits and reads given up, its
registers, accumulators, arrival bits, sticky pair and tag state zero, the context idle. -/
def State.resetCtx (s : State) (p : At) : State :=
  let s := s.drainCtx p
  let s := ((s.ctx p).owed.foldl State.sendSync s).abortTx p
  let s := s.forgetWait p
  let c := s.ctx p
  let reads := s.sync.inflight.filter (fun o => o.src = .ctx p && (match o.act with | .read _ _ _ => true | _ => false))
  let s := { s with sync := { s.sync with inflight := s.sync.inflight.filter (· ∉ reads) } }
  let s := s.absorb ⟨.core, p.core⟩ (c.loads.length + reads.length) (s.partOf p.core)
  s.updCtx p (fun c => { c with
    state := .idle
    s := []
    v := []
    acc := []
    step := 0
    txid := 0
    stickyBlight := false
    stickySubst := false
    wait := none
    stalledOn := none
    owed := []
    arrivals := []
    loads := []
    tx := none })

/-- A core is reset (R528, R529): its contexts and engines; the scratchpad stays. -/
def State.resetCore (s : State) (k : Nat) : State :=
  let s := (List.range 8).foldl (fun s i => if ((s.core k).ctxs.find i).isSome then s.resetCtx ⟨k, i⟩ else s) s
  (s.updCore k (fun c => { c with tiles := [], vecEnds := [], frozen := if c.frozen = some .retire then c.frozen else none })).absorbHeld ⟨.core, k⟩ (s.partOf k)

/-- The row-engine commands of a cluster are absorbed with no completion action (R530); a re-salt that one of its
contexts started goes on without one. -/
def State.absorbRows (s : State) (c : Nat) : State :=
  let mine (p : At) : Bool := coreCluster p.core = c
  let gone := s.row.jobs.filter (fun j => mine j.p)
  let s := { s with row := { s.row with
    jobs := s.row.jobs.filter (fun j => !mine j.p)
    resalts := s.row.resalts.map (fun (r : Resalt) => if mine r.p then { r with ck := 0, ct := 0 } else r) } }
  s.absorb ⟨.rowEngine, c⟩ gone.length (s.cluster c).part

/-- A cluster's cores, row engine, swath unit and crossbar are reset (R528). -/
def State.resetCluster (s : State) (c : Nat) : State :=
  let s := (List.range 15).foldl (fun s i => s.resetCore (15 * c + i)) s
  let s := s.absorbRows c
  [UnitKind.cluster, .rowEngine, .swath].foldl (fun s k => s.absorbHeld ⟨k, c⟩ (s.cluster c).part) s

/-- The journals of a cluster's partition are recovered (R247); an interrupted sweep goes on after it (R250). -/
def State.needRecovery (s : State) (n : Nat) (c : Nat) : State :=
  ({ s with tx := { s.tx with recovering := addOnce s.tx.recovering n } } : State).putSw c .recovering

/-! ### A participant of a mode change applies (R326, R327, R329) -/

/-- The clusters that a partition loses, and those that it gains, by a mode change. -/
def PartCfg.held (c : PartCfg) : List Nat := if c.enable then c.clusters else []
def Change.leaving (h : Change) : List Nat := h.old.held.filter (· ∉ h.cfg.held)
def Change.joining (h : Change) : List Nat := h.cfg.held.filter (· ∉ h.old.held)

/-- Flags and counter pairs of a cluster's range are zero (R308, R310). -/
def State.zeroSync (s : State) (c : Nat) : State :=
  let flag (i : Nat) : Bool := fld i 16 14 * 10 + fld i 13 0 / 1536 = c && fld i 13 0 < 15360
  let pair (i : Nat) : Bool := fld i 16 14 * 10 + fld i 11 0 / 384 = c && fld i 11 0 < 3840
  { s with sync := { s.sync with flags := s.sync.flags.filter (fun i => !flag i), pairs := s.sync.pairs.filter (fun x => !pair x.1) } }

/-- A cluster takes the settings and the epoch of a commit, keeping those before (R33, R326). -/
def State.joinCluster (s : State) (n : Nat) (c : PartCfg) (plan : Bool) (e : BitVec 12) (k : Nat) : State :=
  s.updCluster k (fun x => { x with
    part := some n
    strict := c.strict
    epoch := e
    prevPart := x.part
    prevStrict := x.strict
    prevEpoch := e - 1
    planValid := plan
    divergent := (s.part n).divergent })

/-- A cluster leaves its partition: its work handled as in a cluster reset (R49), or done with by the partition reset
(R48); it keeps the settings of the epoch before (R33). -/
def State.leaveCluster (s : State) (k : Nat) (work : Bool) : State :=
  let s := if work then s.resetCluster k else s
  s.updCluster k (fun x => { vacant := x.vacant, cnt := x.cnt, prevPart := x.part, prevStrict := x.strict, prevEpoch := x.epoch })

/-- What one participant applies of a change that is committed (R326): the hub units the partition's settings, a die's
steward the flags and pairs of clusters that join (R310), a cluster's steward the cluster's. -/
def State.applyAt (s : State) (n : Nat) (h : Change) (u : Participant) : State :=
  match u with
  | .hub => s.updPart n (fun q => { q with
      cfg := h.cfg
      prevCfg := h.old
      budget := if s.coresOf n |>.any (fun k => (s.core k).ctxs.any (fun c => c.2.state ≠ .idle)) then q.budget else q.budgetWritten })
  | .die d => (h.joining.filter (fun c => clusterDie c = d)).foldl State.zeroSync s
  | .cluster c =>
    if c ∈ h.cfg.held then s.joinCluster n h.cfg (s.part n).plan.isSome ((s.part n).epoch + 1) c
    else s.leaveCluster c (h.cfg.enable || !h.old.enable)

/-- A participant applies once and arrives on the commit line (R327). -/
def State.participantApplies (s : State) (n : Nat) (u : Participant) : State :=
  match (s.part n).change with
  | some h =>
    ((s.applyAt n h u).updPart n (fun q => { q with change := q.change.map (fun x => { x with applied := addOnce x.applied u }) })).send
      (.control n u 4 (s.partTag n 0 .control))
  | none => s

/-- A participant is reset (R329): it loses what it has staged and does not arrive; after the prepare line has released
it takes the settings from the partition controller as it restarts. -/
def State.resetParticipant (s : State) (u : Participant) : State :=
  (List.range 8).foldl (fun s n =>
    match (s.part n).change with
    | some h =>
      if u ∉ h.members then s
      else if h.phase = .prepared then
        s.updPart n (fun q => { q with change := some { h with staged := h.staged.filter (· ≠ u), lost := addOnce h.lost u } })
      else if h.phase = .committed && u ∉ h.applied then s.participantApplies n u
      else s
    | none => s) s

/-! ### Partition reset (R310, R376, R419, R432, R462, R467, R529, R530, R534) -/

/-- A mode-change prepare is aborted at once; its apply reports 0x0A (R534). A retirement's change is prepared again, and
one that is aborting already has reported its result: neither is the apply that busy stands for (R45). -/
def State.abortChange (s : State) (n : Nat) : State :=
  match (s.part n).change with
  | none => s
  | some h =>
    if h.phase = .committed then s
    else if h.retire then
      s.updPart n (fun q => { q with change := some { h with phase := .waiting, members := [], staged := [], lost := [] } })
    else if h.phase = .aborting then s.updPart n (fun q => { q with change := none })
    else s.updPart n (fun q => { q with change := none, busy := false, result := 0x0A })

/-- The host commands of a partition that have started: exports, removals, a replay, a membership, a search, and those
that wait for their blocks. -/
def State.startedCmds (s : State) (n : Nat) : List CmdRef :=
  let q := s.part n
  let waiting : List CmdRef := match s.funcOf n with
    | some f => (s.func f).queues.filterMap (fun x => x.2.started.map (fun c => refOf ⟨f.port, f.fn, x.1⟩ c.seq c.desc))
    | none => []
  q.exports.map (·.cmd) ++ (q.importing.map (·.cmd)).toList ++ q.removing.map (·.cmd) ++ (q.replay.bind (·.cmd)).toList ++ (s.member n).pendCmd.toList
    ++ (if s.link.search.part = n then s.link.search.cmd.toList else []) ++ waiting

/-- Those commands end: with status 0x06, or silently under a Function Level Reset (R448, R530). -/
def State.endCmds (s : State) (n : Nat) (silent : Bool) : State :=
  let l := s.startedCmds n
  let s := (s.tx.txs.filter (fun t => t.part = n && t.origin = .imported && t.phase ≠ .durable)).foldl (fun s t => s.dropTx t.num) s
  let s := s.updPart n (fun q => { q with exports := [], importing := none, removing := [], replay := q.replay.map (fun r => { r with cmd := none }) })
  let s := s.updMember n (fun m => { m with pending := none, pendCmd := none })
  let s := if s.link.search.part = n then { s with link := { s.link with search := { s.link.search with cmd := none } } } else s
  let s := match s.funcOf n with
    | some f => s.updFunc f (fun g => { g with queues := g.queues.map (fun x => (x.1, { x.2 with started := none })) })
    | none => s
  if silent then s else l.foldl (fun s c => s.complete c 0x06 0 0) s

/-- Whether an operation on the sync stores is a partition's. -/
def State.ownSync (s : State) (n : Nat) (o : SyncOp) : Bool :=
  match o.src with
  | .ctx p => s.partOf p.core = some n
  | .unit m => m = n

/-- Flag, counter and line operations of a partition are drained, then its flags and pairs are zero and the open phases
of its lines closed without release (R310, R530). -/
def State.resetSync (s : State) (n : Nat) : State :=
  let mine := s.sync.inflight.filter (s.ownSync n)
  let s := mine.foldl State.applySync { s with sync := { s.sync with inflight := s.sync.inflight.filter (fun o => !s.ownSync n o) } }
  { s with sync := { s.sync with
    flags := s.sync.flags.filter (fun i => s.flagPart i ≠ some n)
    pairs := s.sync.pairs.filter (fun x => s.pairPart x.1 ≠ some n)
    waiters := s.sync.waiters.filter (fun (w : Waiter) => s.partOf w.p.core ≠ some n)
    wakes := s.sync.wakes.filter (fun p => s.partOf p.core ≠ some n)
    arrivals := s.sync.arrivals.filter (fun (a : Arrival) => a.line / 8 ≠ n)
    lines := s.sync.lines.map (fun x => if x.1 / 8 = n then (x.1, { x.2 with opened := false, expected := 0, arrived := 0, ownT := none, releaseAt := none }) else x) } }

/-- Collectives of a partition are aborted, this member named to the group (R530); data flits that wait, for a collective or a
newer epoch, are absorbed (R344). -/
def State.resetColls (s : State) (n : Nat) : State :=
  let own := (s.member n).image.own
  let mine := s.link.colls.filter (fun c => c.part = n)
  let absorbed := (s.link.early.filter (fun x => x.flit.part = n)).length + (mine.map (fun c => c.inbox.length)).sum
    + ((s.member n).held.filter (fun x => x.1.type = 1)).length
  let s := mine.foldl (fun s c => (s.sendAborts c own).endColl c 0x01 (BitVec.ofNat 32 own)) s
  let s := { s with link := { s.link with early := s.link.early.filter (fun x => x.flit.part ≠ n) } }
  s.updMember n (fun m => { m with cnt := [0, 0, 0, 0, absorbed, 0], held := [], heldReports := [] })

/-- Every stream of a partition is closed without publishing (R462). -/
def State.closeStreams (s : State) (n : Nat) : State :=
  { s with net := { s.net with streams := s.net.streams.filter (fun x => x.1 / 4096 ≠ n), streamCnt := s.net.streamCnt.del n } }

/-- The counters of a cluster and its cores are zero (R128, R264). -/
def State.clearCounts (s : State) (c : Nat) : State :=
  (List.range 15).foldl (fun s i => s.updCore (15 * c + i) (fun k => { k with cnt := {} })) (s.updCluster c (fun x => { x with cnt := {} }))

/-- Partition reset. -/
def State.resetPart (s : State) (n : Nat) (silent : Bool) : State :=
  let q := s.part n
  let s := (s.abortChange n).endCmds n silent
  let s := if q.cfg.serve then s.serveReset n else s
  let s := q.cfg.clusters.foldl State.resetCluster s
  let s := (s.resetColls n).resetSync n
  let s := s.closeStreams n
  let s := s.updPart n (fun q => { q with stepbs := [], sweep := q.sweep.map (fun w => { w with suspended := true }) })
  let s := q.cfg.clusters.foldl State.clearCounts s
  q.cfg.clusters.foldl (fun s c => s.needRecovery n c) s

/-! ### The commands of MGT_RESET (R528, R534, R544) -/

/-- A keep-alive with the compute-reset status on each link that is up. -/
def State.sendResetNotes (s : State) : State :=
  ((List.range 24).filter (fun k => (s.lnk k).st = .up)).foldl
    (fun s k => s.sendFlit k { bareFlit 0 with status := 1, first := k, vals := [(s.lnk k).lanes.toNat] }) s

/-- Every partition is reset, keeping nothing. -/
def State.resetParts (s : State) : State := (List.range 8).foldl (fun s n => s.resetPart n false) s

/-- Every counter block is cleared. -/
def State.clearAllCounts (s : State) : State := (List.range 80).foldl State.clearCounts s

/-- The rick cache, the sketch and what early flits left are dropped. -/
def State.clearRowLinks (s : State) : State :=
  { s with row := { s.row with rick := [], sketch := [], sketchIncs := [] }, link := { s.link with early := [], lag := [] } }

/-- A compute reset. -/
def State.resetCompute (s : State) : State :=
  let s := s.sendResetNotes.resetParts.clearAllCounts.clearRowLinks
  let us := (List.range 8).map Participant.die ++ (List.range 80).map Participant.cluster
  us.foldl State.resetParticipant s

/-- What a reset of a level does; module reset is a command of its own. -/
def State.runReset (s : State) (level target : Nat) : State :=
  match level with
  | 0 =>
    let t := s.resetCore target
    match s.partOf target with
    | some n => t.needRecovery n (coreCluster target)
    | none => t
  | 1 =>
    let t := (s.resetCluster target).resetParticipant (.cluster target)
    match (s.cluster target).part with
    | some n => t.needRecovery n target
    | none => t
  | 2 => s.resetPart target false
  | _ => s.resetCompute

/-- The numbers that a level's target takes. -/
def resetTargets (level : Nat) : Nat := if level = 0 then 1200 else if level = 1 then 80 else if level = 2 then 8 else 2048

/-- A reset that management requests (R544): rejected where the target is out of range, waiting while a firmware handover
runs (R534), else run at once. -/
def State.askReset (s : State) (level target : Nat) : State :=
  if s.boot.rstBusy then s
  else
    let s := { s with boot := { s.boot with rstLevel := BitVec.ofNat 3 level, rstTarget := target } }
    if resetTargets level ≤ target then { s with boot := { s.boot with rstResult := 2 } }
    else if s.errs.handover.isSome then { s with boot := { s.boot with rstBusy := true } }
    else { s.runReset level target with boot := { s.boot with rstResult := 1 } }

/-- A reset that waited for a firmware handover runs (R534). -/
def State.waitedReset (s : State) : State :=
  if s.boot.rstBusy then
    let b := s.boot
    { s.runReset b.rstLevel.toNat b.rstTarget with boot := { b with rstBusy := false, rstResult := 1 } }
  else s

/-- CORE_RESET (R528). -/
def execCoreReset (target : Nat) (s : State) : Res := .next (if s.live then s.askReset 0 target else s)
/-- CLUSTER_RESET (R528). -/
def execClusterReset (target : Nat) (s : State) : Res := .next (if s.live then s.askReset 1 target else s)
/-- PARTITION_RESET (R530). -/
def execPartitionReset (target : Nat) (s : State) : Res := .next (if s.live then s.askReset 2 target else s)
/-- COMPUTE_RESET (R528, R531). -/
def execComputeReset (s : State) : Res := .next (if s.live then s.askReset 3 0 else s)

/-! ### Function Level Reset (R448, R449) -/

/-- The functions that a reset of a function reaches: a physical function's with its virtual functions. -/
def resetFns (f : FuncRef) : List FuncRef := if f.fn = 0 then (List.range 17).map (fun i => ⟨f.port, i⟩) else [f]

/-- Function Level Reset (R448): the bound partitions are reset, the functions' queues disabled, what was held is
discarded. -/
def State.flr (s : State) (f : FuncRef) : State :=
  let fs := resetFns f
  let out (g : FuncRef) (x : Queue) : Nat := b2n (x.started.any (fun c => c.block.isNone)) + x.reads (s.func g).busMaster
  let lates := fs.map (fun g => (g, ((s.func g).queues.map (fun x => out g x.2)).sum))
  let parts := (List.range 8).filter (fun n => (s.funcOf n).any (· ∈ fs))
  let s := parts.foldl (fun s n => s.resetPart n true) s
  lates.foldl (fun s x => s.updFunc x.1 (fun g => { late := g.late + x.2 })) s

/-- FUNCTION_LEVEL_RESET (R448). -/
def execFunctionLevelReset (f : FuncRef) (s : State) : Res := .next (if s.live then s.flr f else s)
/-- HOT_RESET (R448). -/
def execHotReset (port : Nat) (s : State) : Res := .next (if s.live then s.flr ⟨port, 0⟩ else s)
/-- A host port's link goes down (R448, R570). -/
def State.hostDown (s : State) (port : Nat) : State :=
  let s := s.flr ⟨port, 0⟩
  { s with host := { s.host with ports := s.host.ports.upd {} port (fun p => { p with up := false, rate := 0, width := 0 }) } }
/-- HOST_LINK_DOWN (R448). -/
def execHostLinkDown (port : Nat) (s : State) : Res := .next (if s.live then s.hostDown port else s)
/-- HOST_PERST (R570). -/
def execHostPerst (port : Nat) (s : State) : Res := .next (if s.live then s.hostDown port else s)
/-- HOST_LINK_UP (R3, R433): the rate and width that training settled; a port has 8 lanes. -/
def execHostLinkUp (port rate width : Nat) (s : State) : Res :=
  .next (if s.live && width ≤ 8 then { s with host := { s.host with ports := s.host.ports.upd {} port (fun p => { p with up := true, rate := rate, width := width }) } } else s)

/-! ### Network links (R451) -/

/-- NETWORK_LINK_DOWN (R451). -/
def execNetworkLinkDown (port : Nat) (lanes : BitVec 8) (s : State) : Res :=
  .next (if s.live then { s with net := { s.net with ports := s.net.ports.upd {} port (fun p => { p with up := false, lanes := lanes }) } } else s)
/-- NETWORK_LINK_UP (R451). -/
def execNetworkLinkUp (port : Nat) (lanes : BitVec 8) (s : State) : Res :=
  .next (if s.live then { s with net := { s.net with ports := s.net.ports.upd {} port (fun p => { p with up := true, lanes := lanes }) } } else s)

end Sys2Proof.Machine
end

