-- ==== Sys2Proof/Machine/Retire.lean ====
section
/-! DEFINITION. Retirement of cores and clusters (R480 to R486, R497), the logic domains of field dies (R501), and
licence applies that wait (R541). -/

namespace Sys2Proof.Machine

/-! ### Logic domains (R501) -/

/-- Whether a die's logic domain must be on: a cluster of an enabled partition lies there, a prepare names one, or a
retirement copy runs there. -/
def State.needsDie (s : State) (d : Nat) : Bool :=
  let on (c : PartCfg) : Bool := c.enable && c.clusters.any (fun c => clusterDie c = d)
  s.parts.any (fun q => on q.2.cfg || (match q.2.change with | some h => h.phase ≠ .aborting && on h.cfg | none => false))
    || (match s.errs.retiring with
        | some r => (if r.kind = .core then coreDie r.number else clusterDie r.number) = d
        | none => false)

/-- A logic domain switches off: the die's cores and clusters hold reset values when it comes on again (R561); the
contexts of a vacant cluster stay faulted (R485). -/
def State.dieOff (s : State) (d : Nat) : State :=
  { s with
    power := { s.power with domains := s.power.domains.filter (· ≠ d) }
    cores := s.cores.filter (fun x => coreDie x.1 ≠ d || (s.cluster (coreCluster x.1)).vacant)
    clusters := s.clusters.map (fun x => if clusterDie x.1 = d then (x.1, { vacant := x.2.vacant }) else x) }

/-- After bring-up, logic domains follow what is needed (R501). -/
def State.fixDomains (s : State) : State :=
  if !s.up then s
  else (List.range 8).foldl (fun s d =>
    if s.needsDie d then { s with power := { s.power with domains := insertNat s.power.domains d } }
    else if d ∈ s.power.domains then s.dieOff d else s) s

/-! ### Starting a retirement (R480 to R482) -/

/-- The physical core that a logical core of a cluster is (R18). -/
def ClMap.core (m : ClMap) (c : Nat) : Nat := if c < m.unusedCore then c else c + 1

/-- The logical cores of a cluster that a core spare moves: those between the unused physical core and the failed one
(R481). -/
def ClMap.moved (m : ClMap) (c : Nat) : List Nat :=
  let p := m.core c
  (List.range 15).filter (fun i => if p < m.unusedCore then c ≤ i && i < m.unusedCore else m.unusedCore ≤ i && i ≤ c)

/-- The outcome of a retirement that MGT_RETIRE requested (R497). -/
def State.retireDone (s : State) (kind : RetireKind) (number choice : Nat) : State :=
  if s.errs.retireAsk = some (kind, number) then
    { s with errs := { s.errs with retireAsk := none, retireResult := BitVec.ofNat 5 choice } }
  else s

/-- The contexts of a core. -/
def coreCtxs (k : Nat) : List At := (List.range 8).map (fun x => ⟨k, x⟩)

/-- A vacant cluster whose contexts are all idle (R485): they are faulted with cause 0x08. -/
def State.idleVacant (s : State) (c : Nat) : State :=
  ((((List.range 15).map (fun i => coreCtxs (15 * c + i))).flatten).foldl (fun s p =>
    s.updCtx p (fun x => { x with state := .faulted, faultCause := 0x08 })) s).updCluster c (fun x => { x with vacant := true })

/-- The map loses a logical cluster, for a core's sake or its own: a member-loss event and its record (R19, R481, R485,
R492). -/
def State.loseCluster (s : State) (core : Bool) (c : Nat) (parts : List Nat) : State :=
  let d := clusterDie c
  let m := (s.die d).maps.get {} (c % 10)
  let s := s.updDie d (fun x => { x with
    maps := x.maps.set (c % 10) { m with valid := false }
    spareOk := x.spareOk.filter (· ≠ c % 10)
    coresRetired := if core then min 0xFF (x.coresRetired + 1) else x.coresRetired
    fenced := if m.valid then x.fenced ++ [(m.physical, 16)] else x.fenced })
  ({ s with errs := { s.errs with memberLosses := s.errs.memberLosses + 1 } } : State).post
    { cls := 0x07, cause := 0x03, unit := unitCode .dieSteward, loc := BitVec.ofNat 32 c } parts

/-- The map takes the unused core of a cluster for a core that failed (R481). -/
def State.useCore (s : State) (number : Nat) (parts : List Nat) : State :=
  let c := coreCluster number
  let d := clusterDie c
  let m := (s.die d).maps.get {} (c % 10)
  let p := m.core (number % 15)
  (s.updDie d (fun x => { x with
    maps := x.maps.set (c % 10) { m with unusedCore := p }
    spareOk := x.spareOk.filter (· ≠ c % 10)
    coresRetired := min 0xFF (x.coresRetired + 1)
    fenced := x.fenced ++ [(m.physical, p)] })).post
      { cls := 0x07, cause := 0x01, unit := unitCode .cluster, loc := BitVec.ofNat 32 number } parts

/-- The map takes the die's free cluster for a logical cluster, for a core's sake or its own (R481). What self-test found
of the spare's own unused core the spec does not tell: free values. -/
def State.useCluster (s : State) (core : Bool) (c : Nat) (parts : List Nat) : State :=
  let d := clusterDie c
  let m := (s.die d).maps.get {} (c % 10)
  let used := (s.die d).maps.map (fun x => x.2.physical)
  let spare := ((List.range 11).find? (· ∉ used)).getD 0
  let s := s.updDie d (fun x => { x with
    maps := x.maps.set (c % 10) { m with physical := spare, unusedCore := Config.freeNat s.free % 16 }
    spareOk := if Config.freeNat (s.free + 1) % 2 = 0 then addOnce x.spareOk (c % 10) else x.spareOk.filter (· ≠ c % 10)
    clustersFree := 0
    coresRetired := if core then min 0xFF (x.coresRetired + 1) else x.coresRetired
    fenced := x.fenced ++ [(m.physical, 16)] })
  ({ s with free := s.free + 2 } : State).post { cls := 0x07, cause := 0x02, unit := unitCode .dieSteward, loc := BitVec.ofNat 32 c } parts

/-- A unit that bring-up finds failed is retired (R481, R524, R533): nothing runs yet, so only the map moves. -/
def State.bringupRetire (s : State) (kind : RetireKind) (number : Nat) : State :=
  let c := if kind = .core then coreCluster number else number
  let die := s.die (clusterDie c)
  if !(die.maps.get {} (c % 10)).valid then s
  else if kind = .core && c % 10 ∈ die.spareOk then s.useCore number []
  else if die.clustersFree = 0 then (s.idleVacant c).loseCluster (kind = .core) c []
  else s.useCluster (kind = .core) c []

/-- A logical cluster becomes vacant, for a core's sake or its own (R485): its contexts are faulted with cause 0x08, its row-engine commands end, its
map entry is invalid. -/
def State.vacate (s : State) (core : Bool) (c : Nat) : State :=
  let part := (s.cluster c).part
  let s := ((List.range 15).map (fun i => coreCtxs (15 * c + i))).flatten.foldl (fun s p =>
    if (s.ctx p).state = .idle || (s.ctx p).state = .faulted then s.updCtx p (fun x => { x with state := .faulted, faultCause := 0x08 })
    else (s.forgetWait p).faultCtx p 0x08) s
  let s := ((s.updCluster c (fun x => { x with vacant := true })).absorbRows c).loseCluster core c part.toList
  match part with | some n => s.needRecovery n c | none => s

/-- Whether the event is one of a unit of this kind (R480). -/
def retireWhyOk (kind : RetireKind) : RetireWhy → Bool
  | .stateError _ => kind = .core
  | .registerError _ _ => kind = .core
  | .corrections _ => kind = .core
  | .scratchError _ => kind = .core
  | .request => true
  | .logicFault => kind = .cluster
  | .coreShareUsed => kind = .cluster

/-- A unit corrects errors (R472). -/
def State.countCorrected (s : State) (u : UnitRef) (k : Nat) : State :=
  let l := s.errs.corrected
  let old := ((l.find? (fun x => x.1 = u)).map (·.2)).getD 0
  { s with errs := { s.errs with corrected := l.filter (fun x => x.1 ≠ u) ++ [(u, old + k)] } }

/-- The corrections of a unit in this hour of R472. -/
def State.correctedOf (s : State) (u : UnitRef) : Nat := ((s.errs.corrected.find? (fun x => x.1 = u)).map (·.2)).getD 0

/-- A register word with an uncorrectable error: what it holds is a free value, and blight is set on the register, or for a
scalar register, which has no bit of its own, on the sticky pair (R102, R135). -/
def Ctx.spoil (c : Ctx) (free : Nat) : RegRef → Ctx
  | .scalar r => (c.setS r (Config.freeWord free)).mark true false
  | .vector r w =>
    let v := c.getV r
    c.setV r { v with lanes := mkLanes (fun i => if i / 2 = w % 64 then BitVec.ofNat 32 (Config.freeNat (free + i % 2)) else v.lane i)
                      blight := true }
  | .acc r w =>
    let a := c.getA r
    let k := w / 2 % 1024
    let old := a.elems.get 0 k
    let x := Config.freeWord free
    c.setA r { a with elems := a.elems.set k (if w % 2 = 0 then old.extractLsb' 64 64 ++ x else x ++ old.extractLsb' 0 64), blight := true }

/-- What a core's error does at once: the fault of a context whose state is lost, the record and the blight of a register
file or accumulator error, the counts of corrections, the poison of a scratchpad word (R102, R116, R126, R470, R474, R480,
R490). -/
def State.retireCause (s : State) (kind : RetireKind) (number : Nat) (why : RetireWhy) : State :=
  match kind, why with
  | .core, .stateError x =>
    (s.post { cls := 0x02, cause := 0x06, unit := 0x00, loc := BitVec.ofNat 32 number, detail := BitVec.ofNat 64 x } (s.partOf number).toList).faultCtx ⟨number, x⟩ 0x08
  | .core, .registerError x r =>
    ((({ s with free := s.free + 2 } : State).updCtx ⟨number, x⟩ (fun c => c.spoil s.free r)).post
      { cls := 0x02, cause := 0x06, unit := 0x00, loc := BitVec.ofNat 32 number, tag := s.tagOf ⟨number, x⟩ 0 0 true false,
        detail := BitVec.ofNat 64 x } (s.partOf number).toList)
  | .core, .corrections n =>
    (s.updCore number (fun c => { c with cnt := { c.cnt with eccCorr := sat64 (c.cnt.eccCorr + n) } })).countCorrected ⟨.core, number⟩ n
  | .core, .scratchError off =>
    let k := scratchKey number (off % 2 ^ 20)
    if granule k ∈ s.poison then s
    else (s.lose k).post { cls := 0x02, cause := 0x01, unit := 0x00, loc := BitVec.ofNat 32 number, addr := BitVec.ofNat 64 (off % 2 ^ 20) }
      (s.partOf number).toList
  | _, _ => s

/-- Whether the event, once its effect is done, retires the unit (R480): 64 corrections within the hour, an error of the
scratchpad never. -/
def State.retiresNow (s : State) (number : Nat) : RetireWhy → Bool
  | .corrections _ => 64 ≤ s.correctedOf ⟨.core, number⟩
  | .scratchError _ => false
  | _ => true

/-- Fencing (R481, R482): the first applicable choice, and the moved cores stop issuing; a cluster without a spare
becomes vacant. -/
def State.beginRetire (s : State) (kind : RetireKind) (number : Nat) : State :=
  let c := if kind = .core then coreCluster number else number
  let die := s.die (clusterDie c)
  let m := die.maps.get {} (c % 10)
  if !m.valid then s.retireDone kind number 3
  else
    let core := kind = .core && c % 10 ∈ die.spareOk
    if !core && die.clustersFree = 0 then (s.vacate (kind = .core) c).retireDone kind number 3
    else
      let cores := (if core then m.moved (number % 15) else List.range 15).map (15 * c + ·)
      let r : Retiring := { kind := kind, number := number, choice := if core then 1 else 2, part := (s.cluster c).part, cores := cores,
                            wasFrozen := cores.map (fun k => (k, (s.core k).frozen)) }
      let s := cores.foldl (fun s k => s.updCore k (fun x => { x with frozen := some .retire })) s
      ({ s with errs := { s.errs with retiring := some r } } : State).fixDomains

/-- Retirements that waited start, one after another (R490). -/
def State.nextRetire (s : State) : Nat → State
  | 0 => s
  | n + 1 =>
    if s.errs.retiring.isSome || s.errs.handover.isSome then s
    else match s.errs.retireQ with
      | [] => s
      | (k, i, _) :: rest => State.nextRetire (({ s with errs := { s.errs with retireQ := rest } } : State).beginRetire k i) n

/-- RETIREMENT (R480 to R482): fenced at once, or after the retirement or handover that runs (R490). The error of a unit
whose retirement is under way still has its effect. -/
def execRetirement (kind : RetireKind) (number : Nat) (why : RetireWhy) (s : State) : Res :=
  let known := s.errs.retireQ.any (fun x => x.1 = kind && x.2.1 = number)
    || (match s.errs.retiring with | some r => r.kind = kind && r.number = number | none => false)
  .next (if !s.live || !retireWhyOk kind why || (why = .request && s.errs.retireAsk ≠ some (kind, number)) then s
    else
      let s := s.retireCause kind number why
      if known || !s.retiresNow number why then s
      else ({ s with errs := { s.errs with retireQ := s.errs.retireQ ++ [(kind, number, why)] } } : State).nextRetire (s.errs.retireQ.length + 1))

/-- RETIRE_REQUEST (R497): management's write of MGT_RETIRE. -/
def State.writeRetire (s : State) (v : BitVec 32) : State :=
  let kind : RetireKind := if v.getLsbD 29 then .cluster else .core
  let number := fld v.toNat 10 0
  let go := v.getLsbD 31
  if go && s.errs.retireAsk.isSome then s
  else
    let s := { s with errs := { s.errs with retireKind := kind, retireNumber := number } }
    if !go then s
    else if (if kind = .core then 1200 else 80) ≤ number then { s with errs := { s.errs with retireResult := 4 } }
    else { s with errs := { s.errs with retireAsk := some (kind, number) } }

/-- RETIRE_REQUEST (R497). -/
def execRetireRequest (by_ : Accessor) (value : BitVec 32) (s : State) : Res :=
  .next (if s.live && by_ = .mgmt then s.writeRetire value else s)

/-! ### Draining, copying, resuming (R482 to R484) -/

/-- Whether what a core's contexts have issued is done. -/
def Core.drained (c : Core) : Bool := c.tiles = [] && c.ctxs.all (fun x => x.2.loads = [] && x.2.drained)

/-- RETIREMENT_DRAINED (R482). -/
def execRetirementDrained (s : State) : Res :=
  .next (match s.errs.retiring with
    | some r => if s.live && r.phase = .fenced && r.cores.all (fun k => (s.core k).drained) then
        { s with errs := { s.errs with retiring := some { r with phase := .drained } } } else s
    | none => s)

/-- The gathers of a cluster's row engine restart from their command blocks on the spare's; a row gradient goes on where
it stood, each contribution once (R484). -/
def State.restartRows (s : State) (c : Nat) : State :=
  { s with row := { s.row with jobs := s.row.jobs.map (fun (j : RowJob) =>
      if coreCluster j.p.core = c && !j.grad then 
        { j with old := none, fetches := j.fetches.map (fun x => match x.2.kind with | .row _ => (x.1, { kind := x.2.kind }) | _ => x) }
      else j) } }

/-- The new map takes effect and the moved contexts go on (R481 to R483). -/
def State.finishRetire (s : State) (r : Retiring) : State :=
  let c := if r.kind = .core then coreCluster r.number else r.number
  let s := r.wasFrozen.foldl (fun s x => s.updCore x.1 (fun k => { k with frozen := x.2 })) s
  let s := { s with errs := { s.errs with retiring := none } }
  let s :=
    if r.choice = 1 then s.useCore r.number r.part.toList
    else
      let s := (s.useCluster (r.kind = .core) c r.part.toList).restartRows c
      match r.part with | some n => s.needRecovery n c | none => s
  let s := s.runDeferred
  ((s.retireDone r.kind r.number r.choice).fixDomains).nextRetire (s.errs.retireQ.length + 1)

/-- RETIREMENT_COPIED (R482): the mode change that carries the new map starts; a cluster outside every partition resumes
at once. -/
def execRetirementCopied (s : State) : Res :=
  .next (match s.errs.retiring with
    | some r =>
      if !s.live || r.phase ≠ .drained then s
      else match r.part with
        | none => s.finishRetire r
        | some n =>
          let q := s.part n
          if q.change.isSome then s
          else ({ s with errs := { s.errs with retiring := some { r with phase := .copied } } } : State).updPart n
            (fun q => { q with change := some { retire := true, cfg := q.cfg, arrived := true } })
    | none => s)

/-! ### Licences (R539 to R541, R543) -/

/-- The result code of a licence (R543). -/
def State.licenceCode (s : State) (l : List Byte) : Nat :=
  let v := BitVec.ofNat 8 (leAt l 0x10 1)
  let old := s.ident.variant
  if leAt l 0 4 ≠ 0x534C474C || v = 0 || 3 < v.toNat || !zeroAt l 0x11 31 || !zeroAt l 0x90 112 then 2
  else if addrAt l 8 ≠ moduleId then 3
  else if !Config.verify Config.licenceKey (slice l 0 0x30) (slice l 0x30 96) then 4
  else if leAt l 4 4 ≤ s.ident.seq then 5
  else if (List.range 24).any (fun k => linksOf v ≤ k && (s.lnk k).st = .up) then 6
  else if v = 1 && s.parts.any (fun q => q.2.cfg.enable && q.2.cfg.serve) then 7
  else if poolChunks v < poolChunks old && (List.range 32).any (fun c => poolChunks v < (usedChunks s.tiers.dir c).length) then 8
  else 1

/-- Whether a licence apply must wait (R541): an apply or a handover is busy, or the hold-up gate is closed. -/
def State.licenceWaits (s : State) : Bool :=
  s.parts.any (fun q => q.2.busy) || s.tiers.memBusy || s.errs.handover.isSome || !s.gateOpen

/-- The bytes of ID_LIC_DATA. -/
def IdState.licence (i : IdState) : List Byte := (List.range 256).map (fun k => i.data.get 0 k)

/-- Link domains 19 and 20 of the licensed links (R52, R540). -/
def State.linkDomains (s : State) : State :=
  let n := linksOf s.ident.variant
  let ds := (if 0 < n then [19] else []) ++ (if 12 < n then [20] else [])
  { s with power := { s.power with domains := ds.foldl insertNat (s.power.domains.filter (fun d => d ≠ 19 && d ≠ 20)) } }

/-- Links that a licence enables train; the others are unlicensed (R334, R371, R541). -/
def State.licenseLinks (s : State) : State :=
  (List.range 24).foldl (fun s k => s.updLnk k (fun l =>
    if linksOf s.ident.variant ≤ k then { l with st := .unlicensed, lanes := 0, width := 0 }
    else if l.st = .off || l.st = .unlicensed then { l with st := .training } else l)) s

/-- A waiting licence apply runs once nothing holds it (R541). -/
def State.tryLicence (s : State) : State :=
  if !s.ident.busy || s.licenceWaits then s
  else
    let l := s.ident.licence
    let code := s.licenceCode l
    let s := { s with ident := { s.ident with busy := false, result := BitVec.ofNat 8 code } }
    if code ≠ 1 then s
    else
      let v := BitVec.ofNat 8 (leAt l 0x10 1)
      ({ s with ident := { s.ident with variant := v, seq := leAt l 4 4, stored := { seq := leAt l 4 4, variant := v, bytes := l } } } : State).linkDomains.licenseLinks

/-- LICENCE_APPLY (R541, R543). -/
def execLicenceApply (by_ : Accessor) (value : BitVec 32) (s : State) : Res :=
  .next (if s.live && by_ = .mgmt && value.getLsbD 31 && !s.ident.busy then
      ({ s with ident := { s.ident with busy := true } } : State).tryLicence
    else s)

end Sys2Proof.Machine
end

