-- ==== Sys2Proof/Machine/ModeChange.lean ====
section
/-! DEFINITION. Applies of partition configurations (R38 to R49) and mode changes: prepare, commit, abort, the hold for
a step boundary (R324 to R329). -/

namespace Sys2Proof.Machine

/-! ### Applies (R44 to R47) -/

/-- The configuration that the staging registers spell (R42, R43). -/
def Part.stagedCfg (q : Part) : PartCfg :=
  let v := q.stCfg.toNat
  let bits (m : BitVec 32) (n base : Nat) : List Nat := ((List.range n).filter (fun i => m.getLsbD i)).map (base + ·)
  { enable := bitAt v 31, serve := bitAt v 30, strict := bitAt v 29, src := fld v 26 24, port := fld v 21 20, fn := fld v 4 0,
    clusters := bits q.stMask0 32 0 ++ bits q.stMask1 32 32 ++ bits q.stMask2 16 64 }

/-- A write of MGT_PARTn_CTRL (R44, R45): capture, busy; ignored while busy. -/
def State.writeApply (s : State) (n : Nat) (v : BitVec 32) : State :=
  let q := s.part n
  if !v.getLsbD 31 || q.busy then s
  else { s.updPart n (fun q => { q with busy := true }) with applyQ := s.applyQ ++ [(n, q.stagedCfg, decide (65536 ≤ q.stMask2.toNat))] }

/-- APPLY_WRITE (R45). -/
def execApplyWrite (by_ : Accessor) (part : Nat) (value : BitVec 32) (s : State) : Res :=
  .next (if s.live && by_ = .mgmt && part < 8 then s.writeApply part value else s)

/-- Whether a partition has part of a turf object or mirror in the slices of a cluster (R49, R270). -/
def State.holdsTurf (s : State) (n c : Nat) : Bool :=
  (s.part n).objects.any (fun o => o.2.tier = 0 && o.2.base < (15 * c + 15) * sliceBytes && 15 * c * sliceBytes < o.2.base + o.2.size)

/-- The first failing check of an apply in code order (R46, R47), or 0x01; R49 exempts an apply with enable = 0 from
code 0x0B alone, and an empty mask is an error with enable = 1 alone. -/
def State.applyCode (s : State) (n : Nat) (c : PartCfg) (reserved : Bool) : BitVec 8 :=
  let q := (s.part n).cfg
  let others := (List.range 8).filter (fun m => m ≠ n && (s.part m).cfg.enable)
  let src := (s.part c.src).cfg
  if others.any (fun m => (s.part m).cfg.clusters.any (· ∈ c.clusters)) then 0x02
  else if others.any (fun m => (s.part m).cfg.port = c.port && (s.part m).cfg.fn = c.fn) then 0x03
  else if c.serve && (c.src = n || !src.enable || src.serve) then 0x04
  else if c.serve && !(s.ident.variant = 2 || s.ident.variant = 3) then 0x05
  else if 0x10 < c.fn || reserved || (c.enable && c.clusters = []) then 0x06
  else if q.enable && c.enable && c.serve ≠ q.serve then 0x07
  else if q.enable && !c.enable && !q.serve && others.any (fun m => (s.part m).cfg.serve && (s.part m).cfg.src = n) then 0x08
  else if c.clusters.any (fun k => (s.cluster k).vacant) then 0x09
  else if c.enable && ((q.enable && (q.clusters.filter (· ∉ c.clusters)).any (s.holdsTurf n))
      || (c.clusters.filter (fun k => !q.enable || k ∉ q.clusters)).any (fun k => (List.range 8).any (fun m => m ≠ n && s.holdsTurf m k))) then 0x0B
  else 0x01

/-- The result of an apply; busy clears (R44, R45). -/
def State.applyDone (s : State) (n : Nat) (code : BitVec 8) : State :=
  (s.updPart n (fun q => { q with busy := false, result := code })).tryLicence

/-- Whether an apply is held for a step boundary (R328): clusters or order mode of an enabled training partition change
while it has a context that is not idle. -/
def State.holdsApply (s : State) (n : Nat) (c : PartCfg) : Bool :=
  let q := s.part n
  q.cfg.enable && c.enable && !q.cfg.serve && (q.cfg.clusters ≠ c.clusters || q.cfg.strict ≠ c.strict) && s.busyPart n && q.stepHoldS ≠ 0

/-- APPLY_RUN (R45 to R47): one at a time, none during a firmware handover (R490). -/
def execApplyRun (s : State) : Res :=
  .next (match s.applyQ with
    | [] => s
    | (n, c, reserved) :: rest =>
      if !s.live || !s.up || s.errs.handover.isSome || s.parts.any (fun q => q.2.change.isSome && (!(q.2.change.any (·.retire)) || q.1 = n)) then s
      else
        let s := { s with applyQ := rest }
        match s.applyCode n c reserved with
        | 0x01 =>
          let hold := s.holdsApply n c
          s.updPart n (fun q => { q with change := some { cfg := c, hold := hold, arrived := !hold } })
        | code => s.applyDone n code)

/-! ### Prepare (R324, R325, R328) -/

/-- The participants of a mode change: the hub units, and the die and cluster stewards of the old and the new
clusters. -/
def participants (a b : PartCfg) : List Participant :=
  let cs := ((if a.enable then a.clusters else []) ++ (if b.enable then b.clusters else [])).foldl insertNat []
  [Participant.hub] ++ ((cs.map clusterDie).dedup).map Participant.die ++ cs.map Participant.cluster

/-- The control messages of a mode change (R28): prepare 0, arrival on the prepare line 1, abort 2, release of the
prepare line 3, arrival on the commit line 4, release of the commit line 5. Each bears a tag word of order class 5. -/
def State.control (s : State) (n : Nat) (u : Participant) (what : Nat) : State := s.send (.control n u what (s.partTag n 0 .control))

/-- PREPARE (R35, R324, R501): once no message of the previous epoch is in flight, the prepare goes to every
participant. -/
def execPrepare (part : Nat) (s : State) : Res :=
  let q := s.part part
  .next (match q.change with
    | some h =>
      if !s.live || h.phase ≠ .waiting || s.oldTraffic part then s
      else
        let ms := participants q.cfg h.cfg
        let s := (s.updPart part (fun q => { q with change := some { h with
          phase := .prepared
          sentAt := s.now
          members := ms
          staged := []
          lost := []
          old := q.cfg } })).fixDomains
        ms.foldl (fun s u => s.control part u 0) s
    | none => s)

/-- PREPARE_RECEIVE (R324): a participant that can stage the settings stages them and arrives; one that was reset since
has lost the prepare (R329). -/
def execPrepareReceive (part : Nat) (u : Participant) (canStage : Bool) (s : State) : Res :=
  .next (match (s.part part).change with
    | some h =>
      if s.live && h.phase = .prepared && canStage && u ∈ h.members && u ∉ h.lost then
        (s.updPart part (fun q => { q with change := some { h with staged := addOnce h.staged u } })).control part u 1
      else s
    | none => s)

/-- The controller aborts in place of its arrival (R325): result 0x0A, the epoch unchanged; a retirement's change is
tried again. -/
def State.abortPrepare (s : State) (n : Nat) (h : Change) : State :=
  let s := h.members.foldl (fun s u => s.control n u 2) s
  if h.retire then s.updPart n (fun q => { q with change := some { h with phase := .waiting, members := [], staged := [], lost := [] } })
  else
    let s := s.updPart n (fun q => { q with change := if h.staged = [] then none else some { h with phase := .aborting } })
    (s.applyDone n 0x0A).fixDomains

/-- PREPARE_TIMEOUT (R325): a participant has not arrived 10 ms after the prepare was sent. -/
def execPrepareTimeout (part : Nat) (s : State) : Res :=
  .next (match (s.part part).change with
    | some h =>
      if s.live && h.phase = .prepared && h.sentAt + 10000000 ≤ s.now && !h.members.all (· ∈ h.staged) then s.abortPrepare part h else s
    | none => s)

/-- PREPARE_ABORT_RECEIVE (R325): a participant discards its staged settings. -/
def execPrepareAbortReceive (part : Nat) (u : Participant) (s : State) : Res :=
  .next (match (s.part part).change with
    | some h =>
      if !s.live || h.phase ≠ .aborting then s
      else
        let staged := h.staged.filter (· ≠ u)
        s.updPart part (fun q => { q with change := if staged = [] then none else some { h with staged := staged } })
    | none => s)

/-- STEP_HOLD_TIMEOUT (R328). -/
def execStepHoldTimeout (part : Nat) (s : State) : Res :=
  let q := s.part part
  .next (match q.change with
    | some h =>
      if s.live && h.phase = .prepared && h.hold && q.stepHoldS ≠ 0 && h.sentAt + 1000000000 * q.stepHoldS ≤ s.now then s.abortPrepare part h else s
    | none => s)

/-! ### Commit (R326, R327, R310, R48, R49) -/


/-- The release of the prepare line is the commit (R326): the reset of a partition that is disabled (R48), the recovery of
one that loses clusters (R49, R247). -/
def State.commitChange (s : State) (n : Nat) (h : Change) : State :=
  let off := h.old.enable && !h.cfg.enable
  let gone := h.leaving
  let s := s.updPart n (fun q => { q with change := some { h with phase := .committed, staged := [] } })
  let s := if off then s.resetPart n false else s
  let s := if gone ≠ [] && !off then { s with tx := { s.tx with recovering := addOnce s.tx.recovering n } } else s
  h.members.foldl (fun s u => s.control n u 3) s

/-- MODE_COMMIT (R326): every participant has arrived and the controller does not hold its arrival, so that the prepare
line releases; the release reaches a participant, which applies. -/
def execModeCommit (c : CommitAt) (s : State) : Res :=
  .next (match (s.part c.part).change with
    | some h =>
      if !s.live || c.unit ∉ h.members then s
      else if h.phase = .prepared && h.members.all (· ∈ h.staged) && !h.hold then
        ((s.commitChange c.part h).participantApplies c.part c.unit).releaseHeld
      else if h.phase = .committed && c.unit ∉ h.applied then (s.participantApplies c.part c.unit).releaseHeld
      else s
    | none => s)

/-- COMMIT_LINE_RELEASE (R327): every participant has applied; the epoch, result 0x01; a retirement resumes (R482). -/
def execCommitLineRelease (part : Nat) (s : State) : Res :=
  .next (match (s.part part).change with
    | some h =>
      if !s.live || h.phase ≠ .committed || !h.members.all (· ∈ h.applied) then s
      else
        let s := s.updPart part (fun q => { q with epoch := q.epoch + 1, change := none })
        let s := h.members.foldl (fun s u => s.control part u 5) s
        let s := if h.retire then (match s.errs.retiring with | some r => s.finishRetire r | none => s) else s.applyDone part 0x01
        s.fixDomains
    | none => s)

end Sys2Proof.Machine
end

