-- ==== Sys2Proof/Machine/Tiers.lean ====
section
/-! DEFINITION. The memory tiers' controllers: reservation tables and windows (R273 to R282, R297 to R302), throttle
levels (R279), fallow writes and reads (R287 to R289), near-stack row remapping (R291, R292). -/

namespace Sys2Proof.Machine

/-! ### Reservation tables (R277, R278, R298 to R302) -/

/-- The key of a near-stack entry. -/
def rsvKey (stack part : Nat) : Nat := stack * 8 + part
/-- The four classes of an entry in the order of R280. -/
def Rsv.classes (r : Rsv) : List Nat := [r.serve.toNat, r.training.toNat, r.checkpoint.toNat, r.scrub.toNat]
/-- The sum of an entry. -/
def Rsv.total (r : Rsv) : Nat := r.classes.sum

/-- The result and the detail of an apply (R277, R302): a share out of range or a reserved field first, since a share
above 504 would always break the sum as well (log entry 27). -/
def State.memCode (s : State) : Nat × Nat :=
  let t := s.tiers
  let shares := (List.range 8).map (fun n => (s.part n).rickStaged.toNat)
  let stack := (List.range 16).find? (fun i => 1280 < ((List.range 8).map (fun p => (t.nearStaged.get {} (rsvKey i p)).total)).sum + 64)
  let under := (List.range 8).find? (fun n => (s.part n).cfg.enable && shares.getD n 0 < (s.part n).shares)
  if shares.any (504 < ·) then (6, 0)
  else match stack with
    | some i => (2, i)
    | none =>
      if 3520 < ((List.range 8).map (fun p => (t.fallowStaged.get {} p).total)).sum + 160 then (3, 0)
      else if 504 < shares.sum then (4, 0)
      else match under with
        | some n => (5, n)
        | none => (1, 0)

/-- An apply runs (R277): what passes takes effect at the next window boundary. -/
def State.runMemApply (s : State) : State :=
  let (code, detail) := s.memCode
  let t := s.tiers
  let s := { s with tiers := { t with
    memBusy := false
    memResult := BitVec.ofNat 8 code
    memDetail := BitVec.ofNat 8 detail
    pending := if code = 1 then some { near := t.nearStaged, fallow := t.fallowStaged, rick := (List.range 8).map (fun n => (s.part n).rickStaged.toNat) } else t.pending } }
  s.tryLicence

/-- A write of MGT_MEM_CTRL (R301); during a firmware handover the apply waits for its end (R490). -/
def State.writeMemCtrl (s : State) (v : BitVec 32) : State :=
  if !v.getLsbD 31 || s.tiers.memBusy then s
  else
    let s := { s with tiers := { s.tiers with memBusy := true } }
    if s.errs.handover.isSome then s else s.runMemApply

/-- MEM_APPLY (R277, R301). -/
def execMemApply (by_ : Accessor) (value : BitVec 32) (s : State) : Res := .next (if s.live && by_ = .mgmt then s.writeMemCtrl value else s)

/-! ### Windows (R273, R279, R280) -/

/-- The bytes of a window of 100 µs at a throttle level, refresh taken off (R276, R279). -/
def windowBytes (near : Bool) (level : Nat) : Nat :=
  if near then (if level = 0 then 200000000 else if level = 1 then 160000000 else 80000000) - 6400000
  else (if level = 0 then 15360000 else if level = 1 then 13750000 else 6875000) - 500000

/-- The credits of a class in full, as (partition, bytes). -/
def classCredits (rsv : Nat → Rsv) (share c : Nat) : List (Nat × Nat) :=
  ((List.range 8).map (fun p => (p, (rsv p).classes.getD c 0 * 100000 / share))).filter (fun x => x.2 ≠ 0)

/-- Granting class by class (R280): whole credits while they fit, then one class in proportion to its partitions'
reservations in granules of 64 bytes, then none. -/
def grant (rsv : Nat → Rsv) (share : Nat) : Nat → List Nat → List (Nat × Nat × Nat)
  | _, [] => []
  | left, c :: rest =>
    let full := classCredits rsv share c
    let need := (full.map (·.2)).sum
    if need ≤ left then full.map (fun x => (x.1, c, x.2)) ++ grant rsv share (left - need) rest
    else full.map (fun x => (x.1, c, left * x.2 / need / 64 * 64))

/-- The entry point of the level that a memory is going to (R279). -/
def MemSt.entryTemp (m : MemSt) : Nat := if m.nextLevel = 2 then m.critical else m.throttle
/-- When the temperature began to stay 5 °C below that entry point, as of now. -/
def MemSt.coolSince (m : MemSt) (now : Nat) : Option Nat :=
  if m.nextLevel ≠ 0 && m.temp + 5 ≤ m.entryTemp then some (m.belowSince.getD now) else none
/-- A level falls one step when the temperature has stayed 5 °C below its entry point for 10 ms; a memory cap holds level 2
(R279, log entry 36). -/
def MemSt.cool (m : MemSt) (now : Nat) : MemSt :=
  if m.capped then { m with nextLevel := 2, belowSince := none }
  else match m.coolSince now with
    | some t =>
      if t + 10000000 ≤ now then
        let m := { m with nextLevel := m.nextLevel - 1, belowSince := none }
        { m with belowSince := m.coolSince now }
      else { m with belowSince := some t }
    | none => { m with belowSince := none }

/-- The bytes of a window's refresh: at most its allotment (R276). -/
def refreshTaken (near : Bool) (i w : Nat) : Nat := min (if near then 6400000 else 500000) (Config.refreshBytes near i w)

/-- A stack or channel at a window's start: its level, its credits, whether it sheds; the refresh of the window counts as
served (R305). -/
def MemSt.window (m : MemSt) (near : Bool) (i now : Nat) (rsv : Nat → Rsv) : MemSt :=
  let share := if near then 1 else 32
  let m := m.cool now
  let level := m.nextLevel
  let need := ((List.range 4).map (fun c => ((classCredits rsv share c).map (·.2)).sum)).sum
  let shed := decide (windowBytes near level < need)
  { m with level := level, shedding := shed, credits := grant rsv share (windowBytes near level) [0, 1, 2, 3],
           bytes := updAt (fun x => sat64 (x + refreshTaken near i (now / 100000))) m.bytes 4,
           shedWindows := if shed then sat64 (m.shedWindows + 1) else m.shedWindows }

/-- Records of a stack or channel that enters or leaves shedding, to management alone (R282). -/
def State.noteShed (s : State) (near : Bool) (i : Nat) (a b : MemSt) : State :=
  if a.shedding = b.shedding then s
  else s.post { cls := 0x06, cause := if b.shedding then 0x09 else 0x0A, unit := unitCode (if near then .near else .fallow), loc := BitVec.ofNat 32 i,
                detail := BitVec.ofNat 64 ((if near then 0 else 1) * 2 ^ 62 + b.level) } []

/-- RESERVATION_WINDOW (R273, R277, R279, R280): a window of 100 µs of timekeeper time begins. -/
def execReservationWindow (s : State) : Res :=
  .next (if !s.live || s.now / 100000 ≤ s.tiers.lastWindow then s
    else
      let s := { s with tiers := { s.tiers with lastWindow := s.now / 100000 } }
      let s := match s.tiers.pending with
        | some t =>
          let s := (List.range 8).foldl (fun s n => s.updPart n (fun q => { q with rickActive := t.rick.getD n 0 })) s
          { s with tiers := { s.tiers with pending := none, nearActive := t.near, fallowActive := t.fallow } }
        | none => s
      let s := (List.range 16).foldl (fun s i =>
        let a := s.near i
        let b := a.window true i s.now (fun p => s.tiers.nearActive.get {} (rsvKey i p))
        (s.updNear i (fun _ => b)).noteShed true i a b) s
      (List.range 32).foldl (fun s i =>
        let a := s.chan i
        let b := a.window false i s.now (fun p => s.tiers.fallowActive.get {} p)
        (s.updChan i (fun _ => b)).noteShed false i a b) s)

/-- A temperature report (R279): a level rises at its entry point, and falls one step after 10 ms at 5 °C below. -/
def MemSt.report (m : MemSt) (now temp throttle critical : Nat) : MemSt :=
  let m := { m with temp := temp, throttle := throttle, critical := critical }
  let want := if critical ≤ temp then 2 else if throttle ≤ temp then 1 else 0
  if m.nextLevel ≤ want then { m with nextLevel := want, belowSince := none } else m.cool now

/-- THROTTLE_TEMP_CHANGE (R279). -/
def execThrottleTempChange (u : MemUnit) (temp throttle critical : Nat) (s : State) : Res :=
  .next (if !s.live then s else
    match u with
    | .stack i => s.updNear i (fun m => m.report s.now temp throttle critical)
    | .channel i => s.updChan i (fun m => m.report s.now temp throttle critical))

/-! ### The fallow tier (R287 to R289) -/

/-- The keys that a queued write covers. -/
def FallowPut.keys (x : FallowPut) : List Nat := (List.range x.data.length).map (fun i => fallowKey x.channel (x.bale * 2048 + x.offset + i))

/-- A queued write is done (R287): the bale replaced, its digests and cached rows with it; the move's last write ends the
move. -/
def State.doPut (s : State) (i : Nat) (x : FallowPut) : State :=
  let n := s.partNum x.p.core
  let m := (s.ctx x.p).moves.find? (fun m => m.num = x.move)
  let s := { s with tiers := { s.tiers with fallowQ := dropAt s.tiers.fallowQ i } }
  let s := (((s.served x.keys (s.classOf n)).writeKeys x.keys x.data x.blight).markSubst x.keys x.subst).notePools x.keys
  match m with
  | some m =>
    let s := s.markStale n m.dst m.len
    let s := match (s.part n).objects.find (fld m.dst.toNat 59 40) with
      | some o => if o.kind = 1 then s.refreshCopies n o.table x.keys else s
      | none => s
    if m.queued && s.tiers.fallowQ.all (fun y => !(y.p = x.p && y.move = x.move)) then s.finishMove x.p m else s
  | none => s

/-- Whether an earlier queued write goes to the same bale. -/
def State.putBlocked (s : State) (i : Nat) (x : FallowPut) : Bool := (s.tiers.fallowQ.take i).any (fun y => y.channel = x.channel && y.bale = x.bale)

/-- FALLOW_WRITE (R287, R288): the nth queued write; one that finds too few free chunks waits. -/
def execFallowWrite (n : Nat) (s : State) : Res :=
  .next (match s.tiers.fallowQ[n]? with
    | none => s
    | some x =>
      if !s.live || s.putBlocked n x || s.partNum x.p.core ∈ s.tx.recovering then s
      else if !s.fallowFits x.keys x.data then
        { s with tiers := { s.tiers with fallowQ := updAt (fun y => { y with waits := true }) s.tiers.fallowQ n } }
      else s.doPut n x)

/-- FALLOW_CHUNK_WAIT_END (R288): the first write of a channel that has waited and finds its chunks now. -/
def execFallowChunkWaitEnd (channel : Nat) (s : State) : Res :=
  let q := s.tiers.fallowQ
  let able (i : Nat) : Bool := match q[i]? with
    | some x => x.waits && x.channel = channel && !s.putBlocked i x && s.partNum x.p.core ∉ s.tx.recovering && s.fallowFits x.keys x.data
    | none => false
  .next (if !s.live then s
    else match (List.range q.length).find? able with
      | some i => match q[i]? with
        | some x => s.doPut i x
        | none => s
      | none => s)

/-- Whether a write or a commit waits for chunks of a channel (R288, R304). -/
def State.chanWaits (s : State) (ch : Nat) : Bool :=
  s.tiers.fallowQ.any (fun x => x.waits && x.channel = ch)
    || s.tx.txs.any (fun t => t.phase = .preparing && s.allPrepared t && s.shortOn ch ((s.txCells t).map (·.1)) ((s.txCells t).map (·.2)))

/-- FALLOW_READ (R289): the nth move of a context reads its source bales. -/
def execFallowRead (p : At) (n : Nat) (s : State) : Res :=
  let c := s.ctx p
  let part := s.partNum p.core
  .next (match c.moves[n]? with
    | some m => match m.src with
      | some a =>
        if !s.live || spaceOf a ≠ 5 || m.bytes.isSome || s.heldObj part a || s.olderOverlap p m.num a m.len then s
        else
          let ks := s.keysOf part p.core a m.len
          let (l, b) := s.readKeys ks
          let u := s.substAt ks
          (s.served ks (s.classOf part)).updCtx p (fun c => { c with moves := c.moves.map (fun x =>
            if x.num = m.num then { x with bytes := some l, blight := b, subst := u } else x) })
      | none => s
    | none => s)

/-! ### Near-stack rows (R291, R292) -/

/-- A row of a stack has yielded corrected errors within this scrub sweep (R291). -/
def State.rowErrors (s : State) (stack row n : Nat) : State :=
  s.updNear stack (fun m => { m with rowErrs := m.rowErrs.upd 0 row (· + n) })

/-- Whether a row is due for a remap: an uncorrectable error, or 4 corrected errors within the scrub sweep (R291). -/
def MemSt.remapDue (m : MemSt) (row : Nat) (why : RemapWhy) : Bool :=
  match why with
  | .uncorrectable => true
  | .corrections n => decide (4 ≤ m.rowErrs.get 0 row + n)

/-- ROW_REMAP (R291, R292): demand reads of a row have met an uncorrectable error, or so many corrected ones. A row that is due
is read and written back in the refresh class, soft-repaired where its bank has a resource, else recorded as pending;
granules that could not be corrected (byte offsets in the stack) are written back with the poison pattern. -/
def execRowRemap (stack row : Nat) (why : RemapWhy) (resource : Bool) (lost : List Nat) (s : State) : Res :=
  let x := s.near stack
  .next (if !s.live || x.outOfService then s
    else
      let s := match why with
        | .uncorrectable => s
        | .corrections n => (s.rowErrors stack row n).countCorrected ⟨.near, stack⟩ n
      if !x.remapDue row why then s
      else
        let poisoned (s : State) : State := lost.foldl (fun s o => if granule (nearKey stack o) ∈ s.poison then s else s.lose (nearKey stack o)) s
        let rec_ (c : Nat) (s : State) : State := s.post { cls := 0x07, cause := BitVec.ofNat 8 c, unit := unitCode .near, loc := BitVec.ofNat 32 stack } []
        if resource && 0 < x.remapsFree then
          let s := poisoned (s.updNear stack (fun m => { m with
            remapsFree := m.remapsFree - 1
            pendingRows := m.pendingRows.filter (· ≠ row)
            rowErrs := m.rowErrs.del row
            bytes := updAt (fun b => sat64 (b + 2 * Config.dramRowBytes stack)) m.bytes 4 }))
          rec_ 4 { s with tiers := { s.tiers with remapped := s.tiers.remapped ++ [(stack, row)] } }
        else if row ∈ x.pendingRows then poisoned s
        else rec_ 5 (poisoned (s.updNear stack (fun m => { m with pendingRows := m.pendingRows ++ [row] }))))

end Sys2Proof.Machine
end

