-- ==== Sys2Proof/Machine/Firmware.lean ====
section
/-! DEFINITION. Firmware images and the handover (R487 to R490, R498). -/

namespace Sys2Proof.Machine

/-- The active and the inactive image. -/
def ErrState.activeFw (e : ErrState) : FwImage := if e.fwActive then e.fwB else e.fwA
/-- The inactive image. -/
def ErrState.idleFw (e : ErrState) : FwImage := if e.fwActive then e.fwA else e.fwB

/-- A record of class 0x09, to management (R471). -/
def State.fwRecord (s : State) (cause version : Nat) : State :=
  s.post { cls := 0x09, cause := BitVec.ofNat 8 cause, unit := unitCode .hub, detail := BitVec.ofNat 64 version } []

/-- FW_IMAGE_WRITE (R487): the inactive image is replaced where its signature and its security version pass. -/
def execFwImageWrite (image signature : List Byte) (security version : Nat) (s : State) : Res :=
  .next (if !s.live || s.errs.handover.isSome then s
    else if Config.verify Config.firmwareKey image signature && Config.minSecurity ≤ security then
      let x : FwImage := { digest := sha384 image, security := security, version := version, verified := true }
      if s.errs.fwActive then { s with errs := { s.errs with fwA := x } } else { s with errs := { s.errs with fwB := x } }
    else ({ s with errs := { s.errs with fwResult := 3 } } : State).fwRecord 3 version)

/-- Whether an apply holds the start of a handover (R490). -/
def State.appliesBusy (s : State) : Bool := s.parts.any (fun q => q.2.busy) || s.tiers.memBusy

/-- A requested handover starts once no apply is busy (R490). -/
def State.tryHandover (s : State) : State :=
  if s.errs.fwBusy && s.errs.handover.isNone && !s.appliesBusy then { s with errs := { s.errs with handover := some {} } } else s

/-- A write of MGT_FW_CTRL (R488, R498). -/
def State.writeFw (s : State) (v : BitVec 32) : State :=
  if !v.getLsbD 31 || s.errs.fwBusy then s
  else if !s.errs.idleFw.verified then ({ s with errs := { s.errs with fwResult := 3 } } : State).fwRecord 3 s.errs.idleFw.version
  else ({ s with errs := { s.errs with fwBusy := true } } : State).tryHandover

/-- FW_ACTIVATE (R488, R490). -/
def execFwActivate (by_ : Accessor) (value : BitVec 32) (s : State) : Res := .next (if s.live && by_ = .mgmt then s.writeFw value else s)

/-- FW_CONTROLLER_SWITCH (R488): one controller has switched; the first switch starts a handover that waited. -/
def execFwControllerSwitch (controller : Nat) (s : State) : Res :=
  .next (if !s.live then s
    else
      let s := s.tryHandover
      match s.errs.handover with
      | some h => { s with errs := { s.errs with handover := some { switched := addOnce h.switched controller } } }
      | none => s)

/-- What waited for the end of a handover goes on (R490, R534, R541). -/
def State.afterHandover (s : State) : State :=
  let s := s.waitedReset
  let s := s.nextRetire (s.errs.retireQ.length + 1)
  let s := if s.tiers.memBusy then s.runMemApply else s
  s.tryLicence

/-- FW_POINTER_FLIP (R488): every controller has resumed; the flip passes the hold-up gate. -/
def execFwPointerFlip (s : State) : Res :=
  .next (match s.errs.handover with
    | some h =>
      if !s.live || h.switched = [] || !s.gateOpen then s
      else
        let s := { s with errs := { s.errs with handover := none, fwBusy := false, fwResult := 1, fwActive := !s.errs.fwActive } }
        (s.fwRecord 1 s.errs.activeFw.version).afterHandover
    | none => s)

/-- FW_REVERT (R489): a controller fails; the controllers already switched return to the old image. -/
def execFwRevert (_controller : Nat) (s : State) : Res :=
  .next (if !s.live || s.errs.handover.isNone then s
    else
      let v := s.errs.idleFw.version
      let s := { s with errs := { s.errs with handover := none, fwBusy := false, fwResult := 2 } }
      ((s.fwRecord 2 v).afterHandover))

end Sys2Proof.Machine
end

