-- ==== Sys2Proof/Machine/Bringup.lean ====
section
/-! DEFINITION. The loss set and what is restored of it (R512, R514, R517, R533), module reset (R532 to R534, R569), the
bring-up stages (R524 to R527). -/

namespace Sys2Proof.Machine

/-! ### The loss set (R512, R514, R533) -/

/-- Whether a key lies in a partition's staging share. -/
def Part.stagedKey (q : Part) (k : Nat) : Bool :=
  keyRegion k = 2 && q.stageBase * 2 ^ 20 ≤ (k - 2 * 2 ^ 60) % 2 ^ 28 && (k - 2 * 2 ^ 60) % 2 ^ 28 < (q.stageBase + q.stageSize) * 2 ^ 20

/-- Whether a key lies in a partition's kept object. -/
def Part.keptKey (q : Part) (k : Nat) : Bool :=
  q.keepValid && (match q.objects.find q.keepObj with
    | some o => o.tier = 0 && turfKey o.base ≤ k && k < turfKey (o.base + o.size)
    | none => false)

/-- Whether a key is saved: staging shares and kept objects. -/
def State.savedKey (s : State) (k : Nat) : Bool := (List.range 8).any (fun n => (s.part n).stagedKey k || (s.part n).keptKey k)

/-- The copy that a save writes: the whole loss set, or the hub state of a warm reset. -/
def State.lossSet (s : State) (warm : Bool) : LossSet :=
  { age := s.power.nextAge, warm := warm, parts := s.parts, journal := if warm then [] else s.tx.journal,
    mem := if warm then [] else s.mem.filter (fun c => s.savedKey c.1), poison := if warm then [] else s.poison.filter s.savedKey,
    tiers := s.tiers, members := s.link.members, lines := s.sync.lines, serve := s.net.serve, dies := s.dies,
    streams := if warm then [] else s.net.streams, pairs := if warm then [] else s.sync.pairs }

/-- A copy replaces the older of the two (R514). -/
def State.keepCopy (s : State) (c : LossSet) : State :=
  let l := match s.power.copies with
    | [a, b] => [if a.age < b.age then b else a, c]
    | l => l ++ [c]
  { s with power := { s.power with copies := l, nextAge := s.power.nextAge + 1 } }

/-- The newer valid copy. -/
def State.newestCopy (s : State) : Option LossSet :=
  match s.power.copies with
  | [a, b] => some (if a.age < b.age then b else a)
  | l => l.head?

/-! ### Module reset (R528, R531 to R534) -/

/-- The module with every domain but 23 reset (R50, R528): time, the power and management controllers, the identity and
licence store and the barrow store stay; `keep` keeps memory domains 8-15 and 21 with what they hold (R532). -/
def State.hardReset (s : State) (keep : Bool) : State :=
  let fresh : State := {}
  { fresh with
    pending := s.pending
    now := s.now
    free := s.free
    mem := if keep then s.mem.filter (fun c => keyRegion c.1 ≠ 0) else []
    poison := if keep then s.poison.filter (fun g => keyRegion g ≠ 0) else []
    tx := if keep then { journal := s.tx.journal, freed := s.tx.freed, heads := s.tx.heads, seqs := s.tx.seqs, nextTx := s.tx.nextTx } else {}
    tiers := if keep then { dir := s.tiers.dir, remapped := s.tiers.remapped, nears := s.tiers.nears.map (fun x => (x.1, { pendingRows := x.2.pendingRows })) } else {}
    net := { ckpts := s.net.ckpts, nextRkey := s.net.nextRkey }
    errs := { log := s.errs.log, nextSeq := s.errs.nextSeq, readAll := s.errs.readAll, hourMark := s.errs.hourMark,
              fwActive := s.errs.fwActive, fwA := s.errs.fwA, fwB := s.errs.fwB, memberLosses := s.errs.memberLosses }
    power := { s.power with
      rails := s.power.rails.map (fun x => (x.1, { target := x.2.target }))
      domains := if keep then [8, 9, 10, 11, 12, 13, 14, 15, 21, 23] else [23]
      lent := []
      activeAt := []
      inputs := []
      gated := [] }
    boot := { count := s.boot.count, coldHold := s.boot.coldHold, keepMemory := keep, rstBusy := s.boot.rstBusy, rstLevel := s.boot.rstLevel,
              rstKeep := s.boot.rstKeep, rstResult := s.boot.rstResult, rstTarget := s.boot.rstTarget, since := s.now, archive := s.boot.archive }
    ident := s.ident
    mgmt := { s.mgmt with pwrOk := false }
    tap := s.tap
    out := s.out }

/-- A module reset that MGT_RESET asked for runs, or waits for the hold-up gate with its copy (R532, R533). What is kept
needs a complete bring-up, or an interrupted reset that kept it. -/
def State.runModuleReset (s : State) : State :=
  let keep := s.boot.rstKeep && (s.up || s.boot.keepMemory)
  if !keep then s.hardReset false
  else if !s.up then s.hardReset true
  else if s.gateOpen then (s.keepCopy (s.lossSet true)).hardReset true
  else s

/-- A request of a module reset (R532, R534, R544). -/
def State.askModuleReset (s : State) (keep : Bool) : State :=
  if s.boot.rstBusy then s
  else ({ s with boot := { s.boot with rstBusy := true, rstLevel := 4, rstKeep := keep } } : State).runModuleReset

/-- MODULE_RESET (R532). -/
def execModuleReset (keep : Bool) (s : State) : Res := .next (if s.live then s.askModuleReset keep else s)

/-- The reset that MOD_RESET_N requests (R569): it absorbs a reset that runs. -/
def State.pinReset (s : State) : State :=
  let s := if s.boot.rstBusy then { s with boot := { s.boot with rstBusy := false, rstResult := 3 } } else s
  s.hardReset false

/-- MOD_RESET_N_ASSERT (R569): a save that runs completes first. -/
def execModResetNAssert (s : State) : Res :=
  let s := { s with mgmt := { s.mgmt with modResetLow := true } }
  .next (if s.power.hold ≠ .normal && !s.power.saveDone then s else s.pinReset)

/-- MOD_RESET_N_RELEASE (R569, R576): the TAP resets, and bring-up may start. -/
def execModResetNRelease (s : State) : Res :=
  .next (if s.mgmt.modResetLow then
      { s with mgmt := { s.mgmt with modResetLow := false }, tap := { s.tap with ir := .idcode, driving := false, highz := false }, boot := { s.boot with since := s.now } }
    else s)

/-! ### Restoring (R517, R533) -/

/-- The settings of a partition that a copy restores; its digests are stale. -/
def Part.restored (q : Part) : Part :=
  let r : Part := { epoch := q.epoch, cfg := q.cfg, rickStaged := q.rickStaged, rickActive := q.rickActive, stageBase := q.stageBase, stageSize := q.stageSize,
                    stepHoldS := q.stepHoldS, ctxWaitMs := q.ctxWaitMs, budgetWritten := q.budgetWritten, budget := q.budgetWritten,
                    keepValid := q.keepValid, keepObj := q.keepObj, tables := q.tables, objects := q.objects, plan := q.plan, slots := q.slots }
  { r with stale := r.digestEntries }

/-- A membership that a copy restores: its image and bound. -/
def Member.restored (m : Member) : Member := { image := m.image, installed := m.installed, ringStepMs := m.ringStepMs }

/-- The granules of every object of the saved partitions but the kept ones (R517). -/
def State.lostGranules (s : State) : List Nat :=
  ((s.parts.map (fun x => (x.2.objects.map (fun y =>
    if x.2.keepValid && x.2.keepObj = y.1 then []
    else ((List.range y.2.size).filterMap (objKey x.2 y.1 y.2)).map granule)).flatten)).flatten).dedup

/-- A cold start after hold, at stage 0x08: the journals, staging shares and kept objects come back, every other object
reads with blight; of the journals, what targets other objects is discarded (R517). -/
def State.restoreCold (s : State) (c : LossSet) : State :=
  let s : State := { s with parts := c.parts.map (fun x => (x.1, x.2.restored)), mem := c.mem }
  let kept (r : JRec) : Bool := r.entries.all (fun e => e.kind ≠ 0 || (s.keysOf r.part e.core e.addr e.data.length).all (fun k => (s.part r.part).keptKey k))
  let js := c.journal.filter kept
  { s with
    poison := (s.lostGranules ++ c.poison).foldl insertNat []
    tx := { s.tx with
      journal := js
      heads := js.foldl (fun t r => t.set r.die (max (t.get 0 r.die) (r.off + r.len))) []
      seqs := js.foldl (fun l r => l.filter (fun x => !(x.1 = r.part && x.2.1 = r.die)) ++ [(r.part, r.die, r.seq + 1)]) [] }
    net := { s.net with closed := c.streams.map (fun x => (x.1, x.2, (c.pairs.get (0, 0) x.2.pair).2, (c.pairs.get (0, 0) x.2.pair).1)) }
    boot := { s.boot with restored := true } }

/-- The hub state of a copy takes effect at stage 0x0C: each partition is re-applied at its saved epochs and recovers
(R524, R533). -/
def State.reapply (s : State) (c : LossSet) : State :=
  let s : State := { s with
    parts := c.parts.map (fun x => (x.1, x.2.restored))
    tiers := { s.tiers with nearStaged := c.tiers.nearStaged, fallowStaged := c.tiers.fallowStaged, nearActive := c.tiers.nearActive, fallowActive := c.tiers.fallowActive }
    link := { s.link with members := c.members.map (fun x => (x.1, x.2.restored)) }
    sync := { s.sync with lines := c.lines.map (fun x => (x.1, { jobWide := x.2.jobWide, leadNs := x.2.leadNs, curJobWide := x.2.jobWide, curLead := x.2.leadNs })) }
    net := { s.net with serve := c.serve.map (fun x => (x.1, { holdUs := x.2.holdUs, guardNs := x.2.guardNs, ring := x.2.ring, links := x.2.links, fallback := x.2.fallback })) } }
  let resalts := (s.parts.map (fun x => (x.2.tables.filter (fun t => t.2.resalting)).map (fun t =>
    ({ part := x.1, table := t.1, p := s.leadOf x.1, status := none, ck := 0, ct := 0 } : Resalt)))).flatten
  let s : State := { s with row := { s.row with resalts := resalts } }
  s.parts.foldl (fun s x =>
    if !x.2.cfg.enable then s
    else x.2.cfg.clusters.foldl (fun s k => (s.joinCluster x.1 x.2.cfg x.2.plan.isSome x.2.epoch k).needRecovery x.1 k) s) s

/-! ### Routes (R24, R25) -/

/-- The neighbours of a die across crossings; 8 is the hub. -/
def dieNeighbours (d : Nat) : List Nat := if d = 8 then [1, 3, 5, 7] else [(d + 7) % 8, (d + 1) % 8] ++ (if d % 2 = 1 then [8] else [])

/-- The paths of `n` crossings from a die, without repeats. -/
def diePaths (a : Nat) : Nat → List (List Nat)
  | 0 => [[a]]
  | n + 1 => ((diePaths a n).map (fun p => ((dieNeighbours (p.getLastD a)).filter (· ∉ p)).map (fun d => p ++ [d]))).flatten

/-- The route of R25: fewest crossings, by the hub where one of these goes there, then the smallest list. -/
def dieRoute (a b : Nat) : List Nat :=
  let found := ((List.range 5).map (fun n => (diePaths a n).filter (fun p => p.getLast? = some b))).find? (· ≠ [])
  let l := found.getD []
  let h := if l.any (8 ∈ ·) then l.filter (8 ∈ ·) else l
  h.foldl (fun m p => if p < m then p else m) (h.headD [])

/-- The routes of every ordered pair of dies. -/
def allRoutes : List (Nat × Nat × List Nat) :=
  ((List.range 9).map (fun a => ((List.range 9).filter (· ≠ a)).map (fun b => (a, b, dieRoute a b)))).flatten

/-! ### The stages (R524 to R527) -/

/-- What an outcome amounts to: 0 pass, 1 degraded, 2 failed and stopped. -/
def stageOutcome (stage : Nat) (r : StageInput) : BitVec 8 :=
  if r.outcome = 0 then 0
  else if r.outcome = 1 then 1
  else match stage with
    | 3 => if r.otherImageOk then 1 else 2
    | 5 => 1
    | 7 => 1
    | 8 => 1
    | 10 => 0
    | 11 => 1
    | _ => 2

/-- What the self-test says of a die, held to the ranges of R13 and R19: mapped physical clusters 0 to 10, each once, with an
unused core 0 to 15; a free cluster only beside ten mapped ones. -/
def tidyMap (m : DieMap) : DieMap :=
  let cl := (m.clusters.foldl (fun l x => if x.1 < 11 && x.2 < 16 && l.all (fun y => y.1 ≠ x.1) then l ++ [x] else l) []).take 10
  { clusters := cl, clustersFree := if cl.length = 10 then min 1 m.clustersFree else 0,
    spareOk := (List.range 10).filter (fun i => i < cl.length && i ∈ m.spareOk), retired := min 0xFF m.retired }

/-- The map that self-test sets for a die (R16, R17, R19): clusters it could not map are vacant. -/
def State.setMap (s : State) (d : Nat) (m : DieMap) : State :=
  let m := tidyMap m
  let maps : Tab ClMap := (List.range (min 10 m.clusters.length)).map (fun i => (i, { valid := true, physical := (m.clusters.getD i (0, 0)).1, unusedCore := (m.clusters.getD i (0, 0)).2 }))
  let s := s.updDie d (fun _ => { maps := maps, clustersFree := m.clustersFree, coresRetired := m.retired, spareOk := m.spareOk })
  (List.range 10).foldl (fun s i => if m.clusters.length ≤ i then (s.idleVacant (10 * d + i)).loseCluster false (10 * d + i) [] else s) s

/-- A reset that keeps memory keeps the saved map; retired units that pass are spares (R533). -/
def State.keepMap (s : State) (d : Nat) (old : Die) (m : DieMap) : State :=
  let s := s.updDie d (fun _ => { maps := old.maps, clustersFree := min 1 m.clustersFree, coresRetired := min 0xFF m.retired,
                                  spareOk := (List.range 10).filter (fun i => (old.maps.get {} i).valid && i ∈ m.spareOk) })
  (List.range 10).foldl (fun s i => if (old.maps.get {} i).valid then s else s.idleVacant (10 * d + i)) s

/-- Near stacks after training (R292, R524): rows repaired hard, the soft-repair resources that are left free values. -/
def State.trainStacks (s : State) (r : StageInput) : State :=
  let s := (List.range 16).foldl (fun s i => s.updNear i (fun m => { m with outOfService := decide (i ∈ r.outStacks), pendingRows := [], remapsFree := Config.freeNat (s.free + i) % 256 })) s
  { s with free := s.free + 16, tiers := { s.tiers with remapped := [] } }

/-- The work of a stage that does not stop (R524). -/
def State.stageWork (s : State) (stage : Nat) (r : StageInput) : State :=
  let copy := s.newestCopy
  let warm := s.boot.keepMemory
  match stage with
  | 1 => { s with boot := { s.boot with count := s.boot.count + 1 } }
  | 2 => { s with ident := { s.ident with variant := s.ident.stored.variant, seq := s.ident.stored.seq } }
  | 3 => if 2 ≤ r.outcome then { s with errs := { s.errs with fwActive := !s.errs.fwActive } } else s
  | 4 =>
    let s := { s with
      power := { s.power with
        domains := (List.range 19 ++ [21, 22, 23])
        rails := (List.range 8).map (fun d => (d, { (s.rail d) with applied := (s.rail d).target })) }
      mgmt := { s.mgmt with pwrOk := true } }
    s.linkDomains
  | 5 =>
    let s := (List.range 8).foldl (fun s d =>
      let m := r.maps.getD d { clusters := [], clustersFree := 0, spareOk := [], retired := 0 }
      match (if warm then copy else none) with
      | some c => s.keepMap d (c.dies.get {} d) m
      | none => s.setMap d m) s
    if warm then r.failed.foldl (fun s x => s.bringupRetire x.1 x.2) s else s
  | 6 => r.failed.foldl (fun s x => if x.1 = .core then s.bringupRetire .core x.2 else s) s
  | 7 => s.trainStacks r
  | 8 =>
    let s := (List.range 32).foldl (fun s i => s.updChan i (fun m => { m with outOfService := decide (i ∈ r.outChannels) })) s
    match (if s.boot.coldHold then copy else none) with
    | some c => s.restoreCold c
    | none => s
  | 9 => { s with boot := { s.boot with routes := allRoutes } }
  | 10 =>
    let s := s.licenseLinks
    r.trained.foldl (fun s x =>
      if linksOf s.ident.variant ≤ x.1 then s
      else if 3 ≤ lanesIn (BitVec.ofNat 5 x.2.1) then s.linkUp x.1 (BitVec.ofNat 5 x.2.1) x.2.2.2 x.2.2.1
      else s.updLnk x.1 (fun l => { l with st := .down, downAt := s.now })) s
  | 11 =>
    let s := r.hostPorts.foldl (fun s p => { s with host := { s.host with ports := s.host.ports.upd {} p (fun x => { x with up := true }) } }) s
    r.netPorts.foldl (fun s p => { s with net := { s.net with ports := s.net.ports.upd {} p (fun x => { x with up := true, lanes := 0xFF }) } }) s
  | 12 =>
    let s := match (if warm || s.boot.restored then copy else none) with
      | some c => s.reapply c
      | none => s
    let s := { s with boot := { s.boot with state := 1, coldHold := false } }
    s.fixDomains
  | _ => s

/-- A bit mask of numbers as bytes. -/
def maskBytes (n : Nat) (l : List Nat) : List Byte := leBytes n ((List.range (8 * n)).filter (· ∈ l) |>.map (2 ^ ·)).sum

/-- The detail of a stage's report (R526). -/
def State.stageDetail (s : State) (stage : Nat) (r : StageInput) : List Byte :=
  let l := match stage with
    | 5 => maskBytes 10 ((List.range 80).filter (fun c => (s.cluster c).vacant))
    | 7 => ((List.range 16).map (fun i => leBytes 2 (r.rowsLeft.getD i 0))).flatten
    | 8 => maskBytes 4 r.outChannels
    | 10 => maskBytes 3 (r.trained.map (·.1))
    | _ => []
  slice l 0 32

/-- BRINGUP_STAGE (R524 to R526): the next stage runs and writes its report; a stage that stops ends bring-up (R525). -/
def execBringupStage (r : StageInput) (s : State) : Res :=
  let k := if s.boot.stage = 0 then 1 else s.boot.stage.toNat + 1
  .next (if !s.live || s.mgmt.modResetLow || s.boot.state ≠ 0 || 12 < k then s
    else
      let out := stageOutcome k r
      let s := if out = 2 then { s with boot := { s.boot with state := 2 } } else s.stageWork k r
      let rep : Report := { outcome := out, firstUnit := r.firstUnit, faulty := r.faulty, start := s.boot.since, stop := s.now, count := s.boot.count,
                            detail := s.stageDetail k r }
      let ended := out = 2 || k = 12
      { s with boot := { s.boot with
        stage := BitVec.ofNat 8 k
        degraded := s.boot.degraded || out = 1
        reports := s.boot.reports.set k rep
        archive := s.boot.archive ++ [(k, rep)]
        since := s.now
        rstBusy := s.boot.rstBusy && !ended
        rstResult := if s.boot.rstBusy && ended then 1 else s.boot.rstResult } })

end Sys2Proof.Machine
end

