-- ==== Sys2Proof/Machine/Power.lean ====
section
/-! DEFINITION. The power controller (R502 to R508), the hold-up gate (R513), input loss, hold and return (R514 to R517,
R566). -/

namespace Sys2Proof.Machine

/-! ### Control periods (R506, R507) -/

/-- The clusters of enabled partitions on a die. -/
def State.dieClusters (s : State) (d : Nat) : Nat :=
  (s.parts.map (fun q => if q.2.cfg.enable then (q.2.cfg.clusters.filter (fun c => clusterDie c = d)).length else 0)).sum

/-- One period of a die's rail: lowered, paced, raised or left (R506, R507). -/
def Rail.period (r : Rail) (lower hot under : Bool) : Rail :=
  if lower then (if 600 < r.applied then { r with applied := max 600 (r.applied - 5) } else { r with paceShare := min 15 (r.paceShare + 1) })
  else if r.paceShare ≠ 0 then { r with paceShare := r.paceShare - 1 }
  else if !hot && under && r.applied < r.target then { r with applied := min r.target (r.applied + 5) }
  else r

/-- POWER_CONTROL_PERIOD (R506, R507): sensors and input power are read, each die is acted on. -/
def execPowerControlPeriod (r : PowerReading) (s : State) : Res :=
  .next (if !s.live then s
    else
      let inputs := (s.power.inputs ++ [r.inputW]).reverse.take 20 |>.reverse
      let avgOver := decide (s.power.limitW * inputs.length < inputs.sum)
      let under := decide (inputs.sum * 100 ≤ s.power.limitW * inputs.length * 98)
      let total := ((List.range 8).map s.dieClusters).sum
      let s := { s with power := { s.power with
        inputs := inputs, hottest := (r.dieTemp ++ [r.hubTemp]).foldl max 0, energyMj := sat64 r.energyMj, bankJ := r.bankJ } }
      (List.range 8).foldl (fun s d =>
        let t := r.dieTemp.getD d 0
        let overBudget := decide ((s.power.limitW - r.hubW) * s.dieClusters d < r.dieW.getD d 0 * total)
        let lower := decide (103 ≤ t) || (overBudget && avgOver)
        let x := (s.rail d).period lower (decide (100 ≤ t)) under
        let s := s.updRail d (fun _ => { x with present := r.railMv.getD d 0, temp := t })
        let cap (s : State) (i : Nat) : State := s.updNear i (fun m => { m with capped := x.paceShare ≠ 0 })
        cap (cap s (2 * d)) (2 * d + 1)) s)

/-- limit_active (R506): a die that is on has an applied target below its voltage target, or is paced. -/
def State.limitActive (s : State) : Bool :=
  (List.range 8).any (fun d => s.domainOn d && ((s.rail d).applied < (s.rail d).target || (s.rail d).paceShare ≠ 0))

/-- THERMAL_CUT (R508): the die's domains are off at once, and the module is reset; a member-loss event (R492). -/
def execThermalCut (_die _sensor reading : Nat) (s : State) : Res :=
  .next (if !s.live || reading < 115 then s
    else
      let s := s.hardReset false
      { s with errs := { s.errs with memberLosses := s.errs.memberLosses + 1 } })

/-! ### The hold-up gate (R513) -/

/-- A write of MGT_PARTn_KEEP takes effect (R523): a turf object of the partition of at most 1 GiB. -/
def State.setKeep (s : State) (n : Nat) (v : Word) : State :=
  let obj := fld v.toNat 19 0
  match (s.part n).objects.find obj with
  | some o => if o.tier = 0 && o.size ≤ 2 ^ 30 then s.updPart n (fun q => { q with keepValid := v.getLsbD 63, keepObj := obj }) else s
  | none => s

/-- A write of MGT_PARTn_STAGE takes effect (R456): the partition is disabled, the share fits and overlaps no other. -/
def State.setStage (s : State) (n : Nat) (v : Word) : State :=
  let base := fld v.toNat 23 16
  let size := fld v.toNat 7 0
  let clash := (List.range 8).any (fun m => m ≠ n && size ≠ 0 && (s.part m).stageSize ≠ 0
    && base < (s.part m).stageBase + (s.part m).stageSize && (s.part m).stageBase < base + size)
  if (s.part n).cfg.enable || 240 < base + size || clash then s
  else s.updPart n (fun q => { q with stageBase := base, stageSize := size })

/-- Gated writes of these two registers (R513): at once while the gate is open, else once it opens. -/
def State.gatedWrite (s : State) (n : Nat) (keep : Bool) (v : Word) : State :=
  if s.gateOpen && s.power.gated = [] then (if keep then s.setKeep n v else s.setStage n v)
  else { s with power := { s.power with gated := s.power.gated ++ [(n, keep, v)] } }

/-- HOLDUP_GATE_OPEN (R513): the bank's usable energy has risen; what waited for the gate proceeds, in order. -/
def execHoldupGateOpen (bank : Nat) (s : State) : Res :=
  let s := { s with power := { s.power with bankJ := bank } }
  .next (if !s.live || !s.gateOpen then s
    else
      let l := s.power.gated
      let s := { s with power := { s.power with gated := [] } }
      let s := l.foldl (fun s x => s.gatedWrite x.1 x.2.1 x.2.2) s
      let s := s.net.streams.foldl (fun s x => s.publishAll (x.1 / 4096) (x.1 % 4096)) s
      let s := s.tryLicence
      if s.boot.rstBusy && s.boot.rstLevel = 4 && s.boot.rstKeep && s.up then s.runModuleReset else s)

/-! ### Loss, save, return (R514 to R517) -/

/-- The input is lost (R514, R515, R527): hold is latched and domains 17-20 go off; a loss within a hold only stops the
qualification. A handover ends with the old image active (R488). -/
def State.loseInput (s : State) : State :=
  if s.power.hold = .normal then
    let save := s.up
    { s with
      power := { s.power with
        hold := if save then .saving else .saved
        saveDone := !save
        returnedAt := none
        domains := s.power.domains.filter (fun d => !(17 ≤ d && d ≤ 20)) }
      mgmt := { s.mgmt with pwrOk := false }
      errs := { s.errs with handover := none, fwBusy := false }
      host := { s.host with ports := s.host.ports.map (fun x => (x.1, { x.2 with up := false, rate := 0, width := 0 })) }
      net := { s.net with ports := s.net.ports.map (fun x => (x.1, { x.2 with up := false })) } }
  else { s with power := { s.power with hold := if s.power.saveDone then .saved else .saving, returnedAt := none } }

/-- INPUT_LOSS (R514). -/
def execInputLoss (s : State) : Res := .next s.loseInput
/-- INPUT_OVERVOLTAGE (R566). -/
def execInputOvervoltage (s : State) : Res := .next s.loseInput

/-- LOSS_SET_SAVE_COMPLETE (R514, R515, R569): the copy is valid; a reset that MOD_RESET_N asked for runs now. -/
def execLossSetSaveComplete (s : State) : Res :=
  .next (if s.power.hold = .normal || s.power.saveDone then s
    else
      let s := s.keepCopy (s.lossSet false)
      let s := { s with power := { s.power with saveDone := true, hold := if s.power.returnedAt.isSome then .qualifying else .saved } }
      if s.mgmt.modResetLow then s.pinReset else s)

/-- HOLD_ENERGY_EXHAUSTED (R514, R517): at 50 J every domain but 23 goes off; what they held is lost, and a cold start
follows when the input returns. -/
def execHoldEnergyExhausted (bank : Nat) (s : State) : Res :=
  .next (if s.power.hold = .normal || 50 < bank then s
    else
      let s := s.hardReset false
      { s with
        power := { s.power with bankJ := bank, hold := .saved, saveDone := true, returnedAt := none }
        boot := { s.boot with coldHold := true, rstBusy := false } })

end Sys2Proof.Machine
end

