-- ==== Sys2Proof/Machine/Scrub.lean ====
section
/-! DEFINITION. Corrected errors and merged records (R472), the scrubbers (R476, R477) and the repair of poisoned
granules (R478, R479). -/

namespace Sys2Proof.Machine

/-! ### Where a granule lies (R136, R177, R270, R286) -/

/-- The byte of an interleaved area at a key, as `spread` places it. -/
def unspread (o : Obj) (base k : Nat) : Nat :=
  if o.tier = 1 then
    let a := (k - 4 * 2 ^ 60) % 2 ^ 36 - base
    let i := (maskBits o.mask).findIdx (· = (k - 4 * 2 ^ 60) / 2 ^ 36)
    (a / 4096 * max 1 o.width + i) * 4096 + a % 4096
  else
    let a := (k - 5 * 2 ^ 60) % 2 ^ 39 - base
    (a / 2048 * 32 + (k - 5 * 2 ^ 60) / 2 ^ 39) * 2048 + a % 2048

/-- The byte of an object that lies at a key: the candidate that `objKey` places there. -/
def objByte (q : Part) (num : Nat) (o : Obj) (k : Nat) : Option Nat :=
  let rs := max 1 (o.recSize (q.tables.get {} o.table))
  let a := if o.tier = 1 then (k - 4 * 2 ^ 60) % 2 ^ 36 - o.base else (k - 5 * 2 ^ 60) % 2 ^ 39 - o.base
  let n := max 1 o.width
  let cands :=
    if o.tier = 0 then [k - turfKey o.base]
    else if !o.hasRows then [unspread o o.base k]
    else (List.range n).map (fun i => (a / rs * n + i) * rs + a % rs)
      ++ [o.verOff + unspread o (roundUp (if o.tier = 1 then 4096 else 2048) (o.base + o.groups * rs)) k]
  cands.find? (fun x => objKey q num o x = some k)

/-- An object's byte by its partition, number and offset. -/
structure ObjAt where
  part : Nat
  num : Nat
  obj : Obj
  off : Nat
  deriving DecidableEq, Repr

/-- The object byte at a key: a source's before a mirror's. -/
def State.objAt (s : State) (k : Nat) : Option ObjAt :=
  let all := ((List.range 8).map (fun n => (s.part n).objects.filterMap (fun x => (objByte (s.part n) x.1 x.2 k).map (fun off => (⟨n, x.1, x.2, off⟩ : ObjAt))))).flatten
  match all.find? (fun x => x.obj.mirrorOf.isNone) with
  | some x => some x
  | none => all.head?

/-- The device address of a key: the turf-slice address, or the object's (R136); 0 where nothing is installed. -/
def State.addrOf (s : State) (k : Nat) : Word :=
  if keyRegion k = 1 then BitVec.ofNat 64 (2 ^ 60 + (k - 2 ^ 60) / sliceBytes * 2 ^ 25 + (k - 2 ^ 60) % sliceBytes)
  else match s.objAt k with
    | some x => BitVec.ofNat 64 ((3 + x.obj.tier) * 2 ^ 60 + x.num * 2 ^ 40 + x.off)
    | none => 0

/-- The table and the row whose record a byte belongs to. -/
def State.rowOf (s : State) (x : ObjAt) : Option (Nat × Nat) :=
  let rs := x.obj.recSize ((s.part x.part).tables.get {} x.obj.table)
  if x.obj.hasRows && rs ≠ 0 && x.off < x.obj.rowCount * rs then some (x.obj.table, x.obj.firstRow + x.off / rs) else none

/-- The unit that a granule lies in: a turf slice by its core, a near stack, a fallow channel. -/
def unitAt (k : Nat) : UnitRef :=
  if keyRegion k = 4 then ⟨.near, (k - 4 * 2 ^ 60) / 2 ^ 36⟩
  else if keyRegion k = 5 then ⟨.fallow, (k - 5 * 2 ^ 60) / 2 ^ 39⟩
  else ⟨.turf, (k - 2 ^ 60) / sliceBytes⟩

/-! ### Corrected errors and merge intervals (R472) -/

/-- CORRECTED_SUMMARY (R472): an hour of timekeeper time has ended. -/
def execCorrectedSummary (s : State) : Res :=
  .next (if !s.live || s.now / 3600000000000 ≤ s.errs.hourMark then s
    else
      let l := s.errs.corrected
      let s := { s with errs := { s.errs with corrected := [], hourMark := s.now / 3600000000000 } }
      l.foldl (fun s x => if x.2 = 0 then s else
        s.post { cls := 0x01, cause := 0x01, unit := unitCode x.1.kind, loc := BitVec.ofNat 32 x.1.index, count := x.2 } []) s)

/-- DISCARD_MERGE_INTERVAL_END (R472): a pending merged record is posted; an empty interval closes. -/
def execDiscardMergeIntervalEnd (u : UnitRef) (cause : Nat) (s : State) : Res :=
  .next (match s.errs.merges.find? (fun (m : Merge) => m.unit = u && m.cause = cause) with
    | some m =>
      if !s.live || s.now < m.until_ then s
      else if m.count = 0 then { s with errs := { s.errs with merges := s.errs.merges.filter (· ≠ m) } }
      else s.postMerge m
    | none => s)

/-! ### Scrubbing (R476, R477) -/

/-- The scrubber of a tier. -/
def State.scrub (s : State) (t : Nat) : Scrub := if t = 0 then s.errs.scrub0 else if t = 1 then s.errs.scrub1 else s.errs.scrub2
/-- Changing the scrubber of a tier. -/
def State.updScrub (s : State) (t : Nat) (f : Scrub → Scrub) : State :=
  if t = 0 then { s with errs := { s.errs with scrub0 := f s.errs.scrub0 } }
  else if t = 1 then { s with errs := { s.errs with scrub1 := f s.errs.scrub1 } }
  else { s with errs := { s.errs with scrub2 := f s.errs.scrub2 } }
/-- The region of the keys of a tier. -/
def tierRegion (t : Nat) : Nat := if t = 0 then 1 else 3 + t

/-- Whether a sweep has read every granule of its tier that is in use: that lists a byte or is poisoned (R476, log
entry 67). -/
def State.sweptAll (s : State) (t : Nat) : Bool :=
  let seen := (s.scrub t).seen
  s.mem.all (fun c => keyRegion c.1 ≠ tierRegion t || granule c.1 ∈ seen) && s.poison.all (fun g => keyRegion g ≠ tierRegion t || g ∈ seen)

/-- SCRUB_SWEEP_START (R476): a sweep starts when its period comes due, or at once after one that took longer; a sweep that is
not complete runs on. The corrected errors by row count anew (R291). -/
def execScrubSweepStart (tier : Nat) (s : State) : Res :=
  let x := s.scrub tier
  .next (if s.live && tier < 3 && x.enable && (!x.active || (s.sweptAll tier && x.startedAt + x.periodH * 3600000000000 ≤ s.now)) then
      let s := s.updScrub tier (fun x => { x with active := true, startedAt := s.now, seen := [] })
      if tier = 1 then { s with tiers := { s.tiers with nears := s.tiers.nears.map (fun x => (x.1, { x.2 with rowErrs := [] })) } } else s
    else s)

/-- SCRUB_GRANULE (R476, R477): one granule is read, once in a sweep, named by the key of its first byte. -/
def execScrubGranule (tier g : Nat) (found : Found) (s : State) : Res :=
  let x := s.scrub tier
  .next (if !s.live || !x.enable || !x.active || keyRegion g ≠ tierRegion tier || granule g ≠ g || g ∈ x.seen then s
    else
      let s := s.updScrub tier (fun x => { x with seen := insertNat x.seen g })
      let ks := (List.range (granSize g)).map (g + ·)
      let s := s.served ks 3
      match found with
      | .clean => s
      | .corrected =>
        let s := (s.served ks 3).countCorrected (unitAt g) 1
        if keyRegion g = 4 then s.rowErrors (unitAt g).index (Config.dramRow (unitAt g).index ((g - 4 * 2 ^ 60) % 2 ^ 36)) 1 else s
      | .uncorrectable =>
        if g ∈ s.poison then s
        else
          let a := s.addrOf g
          let (t, r) := ((s.objAt g).bind s.rowOf).getD (0, 0)
          let s := (s.lose g).post { cls := 0x02, cause := 0x02, unit := unitCode (unitAt g).kind, loc := BitVec.ofNat 32 (unitAt g).index,
                                     addr := a, tbl := BitVec.ofNat 32 t, detail := BitVec.ofNat 64 r } []
          { s with errs := { s.errs with repairs := addOnce s.errs.repairs g } })

/-! ### Repair (R478, R479) -/

/-- Bytes from a copy of a row: a way that holds it as of its row block's present version, cut to the byte's place in the
record (R205). -/
def wayByte (ways : List Way) (x : ObjAt) (t r rs ver : Nat) : Option Byte :=
  if x.obj.kind ≠ 1 then none
  else (ways.find? (fun w => w.part = x.part && w.table = t && w.row = r && !w.blight && w.ver = ver)).bind (fun w => w.bytes[x.off % rs]?)

/-- The byte of an object that a clean mirror holds (R405). -/
def State.mirrorByte (s : State) (x : ObjAt) : Option Byte :=
  (((List.range 8).map (fun m =>
    if (s.part m).cfg.serve && (s.part m).cfg.src = x.part then
      ((s.part m).objects.filter (fun y => y.2.mirrorOf = some x.num && y.2.copied)).filterMap (fun y =>
        (objKey (s.part m) y.1 y.2 x.off).bind (fun k => if granule k ∈ s.poison then none else some (Memory.get s.mem k)))
    else [])).flatten).head?

/-- The bytes at keys that a function gives for each, where it gives all. -/
def State.gatherBytes (s : State) (f : ObjAt → Option Byte) (ks : List Nat) : Option (List Byte) :=
  let l := ks.filterMap (fun k => (s.objAt k).bind f)
  if l.length = ks.length then some l else none

/-- A rick-cache or windrow copy of the rows of a granule. -/
def State.copyBytes (s : State) (ways : List Way) (ks : List Nat) : Option (List Byte) :=
  s.gatherBytes (fun x => (s.rowOf x).bind (fun y => wayByte ways x y.1 y.2 (x.obj.recSize ((s.part x.part).tables.get {} x.obj.table))
    (s.commitCount x.part (verAddr x.num x.obj (x.obj.rowBlock y.2))))) ks

/-- The version words of the row blocks that a run of bytes belongs to: rows of tables, rows of dense plan entries
(R229, R238). -/
def State.versionsAt (s : State) (n : Nat) (a : Word) (len : Nat) : List Word := s.verWords n [{ addr := a, data := List.replicate len 0 }]

/-- Whether a version word can be read. -/
def State.verClean (s : State) (n : Nat) (a : Word) : Bool := (s.keysOf n (s.leadCore n) a 8).all (fun k => granule k ∉ s.poison)

/-- The bytes that an intact journal record holds for a granule, where each version word in it is still its block's
present one. -/
def State.recBytesAt (s : State) (vers : List Word) (ks : List Nat) (r : JRec) : Option (List Byte) :=
  let now := r.entries.filter (fun e => e.kind = 1)
  if !r.crcOk || !s.readable [] r || !vers.all (fun v => now.any (fun e => e.addr = v))
      || !now.all (fun e => (s.readDev r.part e.core e.addr 8).1 = e.data) then none
  else
    let cells := ((r.entries.filter (fun e => e.kind ≠ 1 && !e.blight)).map (fun e => List.zip (s.keysOf r.part e.core e.addr e.data.length) e.data)).flatten.reverse
    let l := ks.filterMap (fun k => (cells.find? (fun c => c.1 = k)).map (·.2))
    if l.length = ks.length then some l else none

/-- The first source of R478 that serves, with its cause code. -/
def State.repairSource (s : State) (n : Nat) (a : Word) (ks : List Nat) (peer : Option PeerBlock) : Option (Nat × List Byte) :=
  let vers := s.versionsAt n a ks.length
  if vers.any (fun v => !s.verClean n v) then none
  else match s.copyBytes s.row.rick ks, s.gatherBytes s.mirrorByte ks, s.copyBytes s.row.windrow ks with
    | some l, _, _ => some (1, l)
    | none, some l, _ => some (1, l)
    | none, none, some l => some (2, l)
    | none, none, none =>
      match (if vers = [] then none else ((s.tx.journal.filter (fun r => r.state = .applied) ++ s.tx.freed).filter (fun r => r.part = n)).findSome? (s.recBytesAt vers ks)) with
      | some l => some (3, l)
      | none =>
        match peer with
        | some p =>
          if p.agreed && vers ≠ [] && (s.coverOf n a ks.length) ≠ [] && p.bytes.length = ks.length
              && vers.all (fun v => s.commitCount n v = p.version.toNat % 2 ^ 40) then some (4, p.bytes) else none
        | none => none

/-- SCRUB_REPAIR (R478, R479, R257): the granule's repair commits, or is abandoned because a commit has written it
clean, or finds no source. The version words stay: the block holds its version's values again. -/
def execScrubRepair (g : Nat) (peer : Option PeerBlock) (s : State) : Res :=
  let x := s.objAt g
  let n := match x with | some y => y.part | none => s.partNum ((g - 2 ^ 60) / sliceBytes)
  let row := (x.bind s.rowOf).map (·.2)
  let rec_ (c : Nat) (s : State) : State :=
    s.post { cls := 0x03, cause := BitVec.ofNat 8 c, unit := unitCode (unitAt g).kind, loc := BitVec.ofNat 32 (unitAt g).index,
             addr := s.addrOf g, detail := BitVec.ofNat 64 (row.getD 0) } []
  .next (if !s.live || g ∉ s.errs.repairs then s
    else
      let done (s : State) : State := { s with errs := { s.errs with repairs := s.errs.repairs.filter (· ≠ g) } }
      if g ∉ s.poison then rec_ 5 (done s)
      else
        let a := s.addrOf g
        let ks := (List.range (granSize g)).map (g + ·)
        match s.repairSource n a ks peer with
        | none => rec_ 6 (done s)
        | some (c, l) =>
          if n ∈ s.tx.recovering || !s.gateOpen || !s.fallowFits ks l then s
          else
            let s := ((done s).writeKeys ks l false).notePools ks
            let s := match x with | some y => if y.obj.kind = 1 then s.refreshCopies n y.obj.table ks else s | none => s
            rec_ c (s.redigest n (s.coverOf n a ks.length)))

end Sys2Proof.Machine
end

