-- ==== Sys2Proof/Machine/Registers.lean ====
section
/-! DEFINITION. The register map (R545 to R561): blocks, who reaches what, reads and writes of every register, and the
rows of register accesses. -/

namespace Sys2Proof.Machine

/-! ### The map (R545, R549) -/

/-- The block and the offset in it of an address of the management map; none outside every block. -/
def blockAt (a : Nat) : Option (Block × Nat) :=
  if a < 0x10000 then some (.hub, a)
  else if a < 0x20000 then some (.mgt, a - 0x10000)
  else if a < 0x21000 then some (.pwr, a - 0x20000)
  else if a < 0x22000 then some (.ident, a - 0x21000)
  else if a < 0x24000 then some (.ns, a - 0x22000)
  else if a < 0x26000 then some (.ft, a - 0x24000)
  else if a < 0x27000 then some (.pl, a - 0x26000)
  else if a < 0x28000 then some (.xu, a - 0x27000)
  else if a < 0x2C000 then some (.np, a - 0x28000)
  else if a < 0x30000 then none
  else if a < 0x31000 then some (.hqGlobal, a - 0x30000)
  else if a < 0x400000 then none
  else if a < 0xC00000 then
    let x := a - 0x400000
    let f := x % 0x200000 / 0x10000
    if f ≤ 16 then some (.hq ⟨x / 0x200000, f⟩, x % 0x10000) else none
  else if a < 0xC08000 then some (.fd ((a - 0xC00000) / 0x1000), a % 0x1000)
  else if a < 0xD00000 then none
  else if a < 0xD50000 then some (.cl ((a - 0xD00000) / 0x1000), a % 0x1000)
  else if a < 0x1000000 then none
  else if a < 0x1000000 + 1200 * 0x1000 then some (.co ((a - 0x1000000) / 0x1000), a % 0x1000)
  else none

/-- The view of an accessor (R549): a function's own window lies at the host-queue base, the other windows are reserved. -/
def viewAt (who : Accessor) (a : Nat) : Option (Block × Nat) :=
  match who with
  | .mgmt => blockAt a
  | .host f => if 0x400000 ≤ a && a < 0x410000 then some (.hq f, a - 0x400000) else if 0x400000 ≤ a && a < 0xC00000 then none else blockAt a

/-- The place of a common register of R555: 0 BLK_ID, 1 CNT_CTRL, 2 SNAP_TIME, 3 NOW, 4 ACC_ERR. -/
def commonAt (b : Block) (off : Nat) : Option Nat :=
  let base := blockSize b - 0x40
  if base ≤ off && off < base + 0x28 then some ((off - base) / 8) else none

/-- What a function reaches of a block at a slot (R549). -/
def State.hostSees (s : State) (f : FuncRef) (b : Block) (off : Nat) : Bool :=
  let n := s.boundPart f
  let common := match commonAt b off with | some i => i ≠ 4 | none => false
  match b with
  | .hub => f.fn = 0 && (off = 0 || (0x400 ≤ off && off < 0x700))
  | .mgt => match n with
    | some n => off = 0x40 * n || off = 0x40 * n + 0x20 || off = 0x2400 + 8 * n || off = 0x2600 + 8 * n
        || (0x2000 + 64 * n ≤ off && off < 0x2040 + 64 * n) || (0x2200 + 64 * n ≤ off && off < 0x2240 + 64 * n)
    | none => false
  | .pl => n.isSome && ((off < 0x300 && off % 0x20 = 0) || off = 0xC00 || off = 0xC08)
  | .xu => match n with
    | some n => common || off = 0x10 * n || off = 0x10 * n + 8 || (0x200 + 0x40 * n ≤ off && off < 0x240 + 0x40 * n)
    | none => false
  | .np => match n with
    | some n => common || (0x3000 + 0x40 * n ≤ off && off < 0x3020 + 0x40 * n) || (0x3400 + 0x40 * n ≤ off && off < 0x3440 + 0x40 * n)
        || (0x2000 + 0x40 * n ≤ off && off < 0x2040 + 0x40 * n)
    | none => false
  | .cl c => n.isSome && (s.cluster c).part = n && commonAt b off ≠ some 4
  | .co k => n.isSome && s.partOf k = n && commonAt b off ≠ some 4
  | .hq g => f = g && commonAt b off ≠ some 4
  | _ => false

/-- Whether an accessor reaches a block at a slot. -/
def State.sees (s : State) (who : Accessor) (b : Block) (off : Nat) : Bool :=
  match who with
  | .mgmt => true
  | .host f => s.hostSees f b off

/-- The power domain whose block this is; none for those that always answer (R561). -/
def blockDomain : Block → Option Nat
  | .hub => none
  | .mgt => none
  | .pwr => none
  | .ident => none
  | .ns => some 8
  | .ft => some 21
  | .np => some 18
  | .cl c => some (clusterDie c)
  | .co k => some (coreDie k)
  | _ => some 16

/-- Whether a block's domain is on. -/
def State.blockOn (s : State) (b : Block) : Bool := match blockDomain b with | some d => s.domainOn d | none => true

/-- While a hold is latched every unit is frozen; the blocks of domain 23 and the hub's status answer management. -/
def State.answers (s : State) (b : Block) : Bool := s.live || blockDomain b = none

/-! ### Reading (R550 to R552, R555) -/

/-- A register as it stands: 8 bytes wide or 4, its value. -/
structure Reg where
  wide : Bool := false
  value : Nat := 0
  deriving DecidableEq, Repr

/-- A 32-bit register. -/
def reg32 (v : Nat) : Option Reg := some { value := v % 2 ^ 32 }
/-- A 64-bit register. -/
def reg64 (v : Nat) : Option Reg := some { wide := true, value := v % 2 ^ 64 }

/-- The fields of a reservation entry (R298). -/
def Rsv.word (r : Rsv) : Nat := r.serve.toNat * 2 ^ 48 + r.training.toNat * 2 ^ 32 + r.checkpoint.toNat * 2 ^ 16 + r.scrub.toNat
/-- An entry from its word. -/
def rsvOf (w : Word) : Rsv := { serve := w.extractLsb' 48 16, training := w.extractLsb' 32 16, checkpoint := w.extractLsb' 16 16, scrub := w.extractLsb' 0 16 }

/-- HUB_BOOT_STATUS (R542). -/
def BootState.status (b : BootState) : Nat := b.stage.toNat * 2 ^ 24 + b.state.toNat * 2 ^ 22 + b2n b.degraded * 2 ^ 21 + b2n b.restored * 2 ^ 20
/-- The 64 bytes of a stage's report (R526). -/
def Report.bytes (r : Report) (stage : Nat) : List Byte :=
  [BitVec.ofNat 8 stage, r.outcome] ++ leBytes 2 r.firstUnit.toNat ++ leBytes 4 r.faulty.toNat ++ leBytes 8 r.start ++ leBytes 8 r.stop
    ++ leBytes 8 r.count ++ slice r.detail 0 32

/-- Registers of the hub block. -/
def State.hubReg (s : State) (off : Nat) : Option Reg :=
  if off = 0 then reg32 s.boot.status
  else if 0x400 ≤ off && off < 0x700 then
    let k := (off - 0x400) / 0x40 + 1
    match s.boot.reports.find k with
    | some r => reg64 (leAt (r.bytes k) (off % 0x40) 8)
    | none => reg64 (if off % 0x40 = 0 then 0xFF00 else 0)
  else none

/-- Registers of a partition in the management block (R42 to R44, R300, R456). -/
def Part.reg (q : Part) (i : Nat) : Option Reg :=
  match i with
  | 0 => reg32 (q.stCfg.toNat &&& 0xE730001F)
  | 1 => reg32 q.stMask0.toNat
  | 2 => reg32 q.stMask1.toNat
  | 3 => reg32 (q.stMask2.toNat % 2 ^ 16)
  | 4 => reg32 (b2n q.busy * 2 ^ 30 + q.epoch.toNat * 2 ^ 12 + q.result.toNat)
  | 5 => reg32 (q.rickStaged.toNat % 2 ^ 9)
  | 6 => reg32 (q.stageBase * 2 ^ 16 + q.stageSize)
  | _ => none

/-- MGT_LINEk_STATUS (R331). -/
def Line.status (l : Line) : Nat :=
  l.phase.toNat * 2 ^ 32 + b2n l.opened * 2 ^ 31 + b2n l.lateLast * 2 ^ 30 + l.expected % 2 ^ 14 * 2 ^ 14 + l.arrived % 2 ^ 14

/-- MGT_FW_CTRL (R498). -/
def ErrState.fwWord (e : ErrState) : Nat := b2n e.fwBusy * 2 ^ 30 + b2n e.fwActive * 2 ^ 29 + e.fwResult.toNat * 2 ^ 24 + e.activeFw.version % 2 ^ 16
/-- MGT_RETIRE (R497). -/
def ErrState.retireWord (e : ErrState) : Nat :=
  b2n e.retireAsk.isSome * 2 ^ 30 + b2n (e.retireKind = .cluster) * 2 ^ 29 + e.retireResult.toNat * 2 ^ 24 + e.retireNumber
/-- MGT_RESET (R544). -/
def BootState.rstWord (b : BootState) : Nat :=
  b2n b.rstBusy * 2 ^ 30 + b.rstLevel.toNat * 2 ^ 27 + b2n b.rstKeep * 2 ^ 26 + b.rstResult.toNat * 2 ^ 24 + b.rstTarget % 2 ^ 11

/-- Registers of the management block. -/
def State.mgtReg (s : State) (off : Nat) : Option Reg :=
  if off < 0x200 then (s.part (off / 0x40)).reg (off % 0x40 / 8)
  else if off = 0x200 then reg32 (b2n s.tiers.memBusy * 2 ^ 30 + s.tiers.memDetail.toNat * 2 ^ 8 + s.tiers.memResult.toNat)
  else if 0x2000 ≤ off && off < 0x2200 then reg32 (b2n (s.line ((off - 0x2000) / 8)).jobWide * 2 ^ 31 + (s.line ((off - 0x2000) / 8)).leadNs)
  else if 0x2200 ≤ off && off < 0x2400 then reg64 (s.line ((off - 0x2200) / 8)).status
  else if 0x2400 ≤ off && off < 0x2440 then reg32 ((s.part ((off - 0x2400) / 8)).stepHoldS * 2 ^ 16 + (s.part ((off - 0x2400) / 8)).ctxWaitMs)
  else if 0x2600 ≤ off && off < 0x2640 then reg32 (s.part ((off - 0x2600) / 8)).budgetWritten
  else if 0x2800 ≤ off && off < 0x2818 then reg32 (b2n (s.scrub ((off - 0x2800) / 8)).enable * 2 ^ 31 + (s.scrub ((off - 0x2800) / 8)).periodH)
  else if off = 0x2820 then reg32 s.errs.retireWord
  else if off = 0x2828 then reg32 s.errs.fwWord
  else if off = 0x2830 then reg32 s.boot.rstWord
  else if 0x2840 ≤ off && off < 0x2880 then reg64 (b2n (s.part ((off - 0x2840) / 8)).keepValid * 2 ^ 63 + (s.part ((off - 0x2840) / 8)).keepObj)
  else none

/-- PWR_DIEd_RAIL (R520). -/
def Rail.word (r : Rail) : Nat :=
  r.present % 2 ^ 10 * 2 ^ 22 + r.applied % 2 ^ 10 * 2 ^ 12 + b2n (r.paceShare ≠ 0) * 2 ^ 11 + b2n (r.present ≠ r.applied) * 2 ^ 10 + r.temp % 2 ^ 8
/-- The hold codes of R521. -/
def holdCode : Hold → Nat
  | .normal => 0 | .saving => 1 | .saved => 2 | .qualifying => 3
/-- PWR_STATUS (R521). -/
def State.pwrStatus (s : State) : Nat :=
  b2n s.limitActive * 2 ^ 63 + holdCode s.power.hold * 2 ^ 60 + b2n s.gateOpen * 2 ^ 59 + s.power.bankJ % 2 ^ 16 * 2 ^ 32
    + lossSetMib s % 2 ^ 16 * 2 ^ 16 + s.power.hottest % 2 ^ 8

/-- Registers of the power block (R518 to R522). -/
def State.pwrReg (s : State) (off : Nat) : Option Reg :=
  if off = 0 then reg32 s.power.limitW
  else if 0x10 ≤ off && off < 0x50 then reg32 (s.rail ((off - 0x10) / 8)).target
  else if 0x50 ≤ off && off < 0x90 then reg32 (s.rail ((off - 0x50) / 8)).word
  else if off = 0x100 then reg64 s.pwrStatus
  else if off = 0x108 then reg64 s.power.energyMj
  else none

/-- Registers of the identity block (R543); ID_LIC_DATA reads as zero. -/
def State.idReg (s : State) (off : Nat) : Option Reg :=
  if off = 0 then reg32 (b2n s.ident.busy * 2 ^ 30 + s.ident.variant.toNat * 2 ^ 16 + s.ident.result.toNat)
  else if off = 0x10 then reg64 moduleId.toNat
  else if 0x100 ≤ off && off < 0x200 then reg64 0
  else none

/-- NS_STACKs_STATUS (R303). -/
def MemSt.stackWord (m : MemSt) : Nat :=
  m.level * 2 ^ 30 + b2n m.shedding * 2 ^ 29 + b2n (m.pendingRows ≠ []) * 2 ^ 28 + m.temp % 2 ^ 8 * 2 ^ 20 + m.throttle % 2 ^ 8 * 2 ^ 12 + m.remapsFree % 2 ^ 12
/-- FT_CHc_STATUS (R304). -/
def State.chanWord (s : State) (c : Nat) : Nat :=
  let m := s.chan c
  m.level * 2 ^ 62 + b2n m.shedding * 2 ^ 61 + b2n (s.chanWaits c) * 2 ^ 60 + m.temp % 2 ^ 8 * 2 ^ 52
    + (poolChunks s.ident.variant - (usedChunks s.tiers.dir c).length) % 2 ^ 29

/-- Registers of the near-stack block (R298, R303). -/
def State.nsReg (s : State) (off : Nat) : Option Reg :=
  if off < 0x400 then (if off % 0x40 = 0 then reg32 (s.near (off / 0x40)).stackWord else none)
  else if 0x1000 ≤ off && off < 0x1400 then reg64 (s.tiers.nearStaged.get {} (rsvKey ((off - 0x1000) / 0x40) (off % 0x40 / 8))).word
  else if 0x1400 ≤ off && off < 0x1800 then reg64 (s.tiers.nearActive.get {} (rsvKey ((off - 0x1400) / 0x40) (off % 0x40 / 8))).word
  else none

/-- Registers of the fallow block (R299, R304). -/
def State.ftReg (s : State) (off : Nat) : Option Reg :=
  if off < 0x800 then (if off % 0x40 = 0 then reg64 (s.chanWord (off / 0x40)) else none)
  else if 0x1000 ≤ off && off < 0x1040 then reg64 (s.tiers.fallowStaged.get {} ((off - 0x1000) / 8)).word
  else if 0x1040 ≤ off && off < 0x1080 then reg64 (s.tiers.fallowActive.get {} ((off - 0x1040) / 8)).word
  else none

/-- The link states of R371. -/
def linkCode : LinkSt → Nat
  | .off => 0 | .training => 1 | .up => 2 | .down => 3 | .unlicensed => 4
/-- PL_LINKk_STATUS (R371). -/
def Link.word (l : Link) : Nat := linkCode l.st * 2 ^ 29 + l.lanes.toNat * 2 ^ 24 + l.width % 8 * 2 ^ 21 + b2n l.peerResetting * 2 ^ 20 + l.peerLink % 32
/-- PL_TIME_STATUS (R373). -/
def TimeSync.word (t : TimeSync) : Nat := b2n t.inSync * 2 ^ 63 + t.parentLink % 32 * 2 ^ 58 + t.depth % 64 * 2 ^ 52 + unsignedOf 32 t.offsetPs

/-- Registers of the peer-link block (R371, R373). -/
def State.plReg (s : State) (off : Nat) : Option Reg :=
  if off < 0x300 then
    if off % 0x20 = 0 then reg32 (s.lnk (off / 0x20)).word else if off % 0x20 = 8 then reg64 (s.lnk (off / 0x20)).peer.toNat else none
  else if off = 0xC00 then reg64 s.link.time.word
  else if off = 0xC08 then reg64 s.link.time.root.toNat
  else none

/-- Registers of the exchange block (R374, R375). -/
def State.xuReg (s : State) (off : Nat) : Option Reg :=
  if off < 0x80 then
    let m := s.member (off / 0x10)
    if off % 0x10 = 0 then reg32 m.ringStepMs
    else reg64 (m.image.epoch.toNat * 2 ^ 32 + b2n m.quarantined * 2 ^ 31 + b2n m.installed * 2 ^ 30 + m.image.own % 2 ^ 14)
  else none

/-- Registers of the network-port block (R428 to R431, R451). -/
def State.npReg (s : State) (off : Nat) : Option Reg :=
  if off < 0x800 then
    let p := s.nport (off / 0x100)
    match off % 0x100 with
    | 0x00 => reg64 (b2n p.up * 2 ^ 63 + p.lanes.toNat * 2 ^ 55 + p.fec % 2 ^ 32)
    | 0x08 => reg64 p.ip4.toNat
    | 0x10 => reg64 p.ip6hi.toNat
    | 0x18 => reg64 p.ip6lo.toNat
    | 0x20 => reg64 p.udp.toNat
    | _ => none
  else if 0x3000 ≤ off && off < 0x3200 then
    let v := s.serve ((off - 0x3000) / 0x40)
    match off % 0x40 with
    | 0x00 => reg32 (b2n v.intake * 2 ^ 31 + b2n v.held * 2 ^ 30 + v.holdUs % 2 ^ 12 * 2 ^ 16 + v.guardNs % 2 ^ 16)
    | 0x08 => reg64 (v.ring.toNat &&& 0xFFFF000FFFFFF000)
    | 0x10 => reg64 (v.links.toNat % 2 ^ 58)
    | 0x18 => reg64 v.fallback.toNat
    | _ => none
  else none

/-- HQ_QPq_CFG and HQ_ERR_CFG share their fields (R464, R494). -/
def cfgWord (enable : Bool) (size vector holdoff : Nat) : Nat := b2n enable * 2 ^ 31 + size % 16 * 2 ^ 26 + vector % 256 * 2 ^ 8 + holdoff % 256
/-- HQ_QPq_CFG (R464): while the pair stops, what was last written. -/
def Queue.cfg (x : Queue) : Nat := if x.stopping then x.nextCfg.toNat &&& 0xBC00FFFF else cfgWord x.enable x.sizeLog2 x.vector x.holdoff
/-- HQ_QPq_STATUS (R465); a queue of a function without Bus Master Enable is held (R447). -/
def Queue.statusWord (x : Queue) (busMaster : Bool) : Nat :=
  let st := match x.state with | .disabled => 0 | .running => if busMaster then 1 else 3 | .error => 2
  st * 2 ^ 30 + x.cause.toNat * 2 ^ 16 + x.head % 2 ^ 12

/-- The MSI-X vectors of a function (R464). -/
def vectorsOf (f : FuncRef) : Nat := if f.fn = 0 then 256 else 16

/-- Registers of a function window (R463, R493, R547). -/
def State.hqReg (s : State) (f : FuncRef) (off : Nat) : Option Reg :=
  let g := s.func f
  if off < 0x1000 then
    let x := g.queues.get {} (off / 0x40)
    match off % 0x40 with
    | 0x00 => reg64 x.sqBase.toNat
    | 0x08 => reg64 x.cqBase.toNat
    | 0x10 => reg32 x.cfg
    | 0x18 => reg32 0
    | 0x20 => reg32 0
    | 0x28 => reg32 (x.statusWord g.busMaster)
    | _ => none
  else if off = 0x1080 then reg64 g.err.base.toNat
  else if off = 0x1088 then reg32 (cfgWord g.err.enable g.err.sizeLog2 g.err.vector g.err.holdoff)
  else if off = 0x1090 then reg32 0
  else if off = 0x1098 then reg32 (b2n g.err.overRec.isSome * 2 ^ 31 + g.err.tail % 2 ^ g.err.sizeLog2)
  else if 0x2000 ≤ off && off < 0x2000 + 16 * vectorsOf f then
    let v := g.vectors.get {} ((off - 0x2000) / 16)
    if off % 16 = 0 then reg64 v.addr.toNat else reg64 (b2n v.masked * 2 ^ 32 + v.data.toNat)
  else if 0x3000 ≤ off && off < 0x3000 + vectorsOf f / 8 then
    reg64 ((List.range 64).map (fun i => b2n (g.vectors.get {} ((off - 0x3000) * 8 + i)).pending * 2 ^ i)).sum
  else none

/-- FD_CLMAPn and FD_SPARE_STATUS (R17, R19). -/
def State.fdReg (s : State) (d off : Nat) : Option Reg :=
  let x := s.die d
  if off < 0x50 then
    let m := x.maps.get {} (off / 8)
    reg32 (b2n m.valid * 2 ^ 31 + m.unusedCore % 16 * 2 ^ 16 + m.physical % 16)
  else if off = 0x50 then reg32 (x.clustersFree % 16 * 2 ^ 16 + x.spareOk.length % 256 * 2 ^ 8 + x.coresRetired % 256)
  else none

/-- CL_SW_STATE (R263). -/
def State.clReg (s : State) (c off : Nat) : Option Reg :=
  let x := s.cluster c
  let code := match x.sw with | .idle => 0 | .sweeping => 1 | .recovering => 2 | .exporting => 3 | .digesting => 4
  if off = 0x400 then reg32 (code * 2 ^ 29 + b2n x.divergent * 2 ^ 28 + b2n x.planValid * 2 ^ 27 + x.swStep.toNat) else none

/-- CO_CTXn_STATE, CO_CNT_CTRL and CO_CTXn_FAULT (R122, R124, R158). -/
def State.coReg (s : State) (k off : Nat) : Option Reg :=
  if off < 0x40 then reg32 (s.ctx ⟨k, off / 8⟩).stateWord
  else if off = 0x40 then reg32 0
  else if 0x80 ≤ off && off < 0xC0 then reg32 ((s.ctx ⟨k, (off - 0x80) / 8⟩).faultCause.toNat * 2 ^ 24 + (s.ctx ⟨k, (off - 0x80) / 8⟩).faultPc.toNat)
  else none

/-- HQ_PORTp_PERM (R466). -/
def State.hqgReg (s : State) (off : Nat) : Option Reg := if off < 0x20 then reg32 ((s.host.ports.get {} (off / 8)).perm.toNat % 2 ^ 17) else none

/-- A common register (R555). -/
def State.commonReg (s : State) (who : Accessor) (b : Block) (i : Nat) : Option Reg :=
  match i with
  | 0 => reg64 (blockKind b * 2 ^ 24 + 0xA1 * 2 ^ 16 + blockInstance b)
  | 1 => reg32 0
  | 2 => reg64 (((s.holding who b).map (·.time)).getD 0)
  | 3 => reg64 s.now
  | 4 => reg64 0
  | _ => none

/-- The register of a block at a slot, counters from the accessor's holding registers (R557). -/
def State.regAt (s : State) (who : Accessor) (b : Block) (off : Nat) : Option Reg :=
  match commonAt b off with
  | some i => s.commonReg who b i
  | none =>
    if (s.counters b).any (fun x => x.1 = off) then reg64 (((s.holding who b).map (fun h => h.values.get 0 off)).getD 0)
    else match b with
      | .hub => s.hubReg off
      | .mgt => s.mgtReg off
      | .pwr => s.pwrReg off
      | .ident => s.idReg off
      | .ns => s.nsReg off
      | .ft => s.ftReg off
      | .pl => s.plReg off
      | .xu => s.xuReg off
      | .np => s.npReg off
      | .hqGlobal => s.hqgReg off
      | .hq f => s.hqReg f off
      | .fd d => s.fdReg d off
      | .cl c => s.clReg c off
      | .co k => s.coReg k off

/-- A logic domain that is off after bring-up reads reset values (R561): the state of a die that holds nothing. -/
def State.offView (s : State) (b : Block) : State :=
  match b with
  | .co k => { s with cores := s.cores.del k }
  | .cl c => { s with clusters := s.clusters.del c }
  | _ => s

/-- The register of a block whose logic domain is off (R561): BLK_ID, else reset values. -/
def State.offReg (s : State) (who : Accessor) (b : Block) (off : Nat) : Option Reg :=
  match commonAt b off with
  | some 0 => s.commonReg who b 0
  | some _ => reg64 0
  | none => if (s.counters b).any (fun x => x.1 = off) then reg64 0 else (s.offView b).regAt who b off

/-- The value that a read of a slot's bytes gives. -/
def Reg.read (r : Reg) (hi : Bool) (width : Nat) : Word :=
  if width = 8 then BitVec.ofNat 64 r.value else BitVec.ofNat 64 (if hi then r.value / 2 ^ 32 else r.value % 2 ^ 32)

/-- The block and the offset at which an access that is malformed or reserved is counted (R546, R550): MGT_ACC_ERR
outside every block. -/
def errAt (who : Accessor) (a : Nat) : Block × Nat := (viewAt who a).getD (.mgt, a)

/-- A register read (R546, R549 to R551, R561): the state after it and the value. NOW and ACC_ERR that are read narrower
count as malformed. -/
def State.readReg (s : State) (who : Accessor) (a width : Nat) : State × Word :=
  if !(width = 4 || width = 8) || a % width ≠ 0 then (s.badAccess (errAt who a).1 (errAt who a).2, 0)
  else match viewAt who a with
  | none => (s, 0)
  | some (b, off) =>
    let slot := off / 8 * 8
    if !s.answers b || (!s.blockOn b && !(s.up && (blockDomain b).any (· < 8))) then (s, 0)
    else if width ≠ 8 && (commonAt b slot = some 3 || commonAt b slot = some 4) then (s.badAccess b off, 0)
    else if !s.sees who b slot then (s, 0)
    else if !s.blockOn b then (s, match s.offReg who b slot with | some r => r.read (off % 8 = 4) width | none => 0)
    else if commonAt b slot = some 4 then s.takeAccErr b
    else (s, match s.regAt who b slot with | some r => r.read (off % 8 = 4) width | none => 0)

/-! ### Writing (R550, R551, R554) -/

/-- A write of MGT_LINEk_CFG (R330). -/
def State.writeLine (s : State) (k : Nat) (v : BitVec 32) : State :=
  s.updLine k (fun l => { l with jobWide := v.getLsbD 31, leadNs := max 0xC8 (fld v.toNat 15 0) })

/-- A write of MGT_PARTn_SYNC (R316, R332): waits that have outlasted a shorter bound fault at once. -/
def State.writeSync (s : State) (n : Nat) (v : BitVec 32) : State :=
  let w := fld v.toNat 15 0
  let s := s.updPart n (fun q => { q with stepHoldS := fld v.toNat 23 16, ctxWaitMs := if w = 0 then q.ctxWaitMs else w })
  (s.ctxsOf n).foldl State.watchdog s

/-- A write of MGT_PARTn_STRICT (R389). -/
def State.writeStrict (s : State) (n : Nat) (v : BitVec 32) : State :=
  let b := fld v.toNat 19 0
  let c := (s.part n).cfg
  let atOnce := !c.enable || c.serve || !s.busyPart n
  if b = 0 then s else s.updPart n (fun q => { q with budgetWritten := b, budget := if atOnce then b else q.budget })

/-- A write of MGT_SCRUBt_CFG (R496). -/
def Scrub.write (x : Scrub) (v : BitVec 32) : Scrub :=
  { x with enable := v.getLsbD 31, periodH := if fld v.toNat 15 0 = 0 then x.periodH else fld v.toNat 15 0 }

/-- A write of MGT_RESET (R544). -/
def State.writeReset (s : State) (v : BitVec 32) : State :=
  let level := fld v.toNat 29 27
  let go := v.getLsbD 31
  if go && s.boot.rstBusy then s
  else
    let s := { s with boot := { s.boot with rstLevel := BitVec.ofNat 3 level, rstKeep := v.getLsbD 26, rstTarget := fld v.toNat 10 0 } }
    if !go then s
    else if 4 < level then { s with boot := { s.boot with rstResult := 2 } }
    else if level = 4 then s.askModuleReset (v.getLsbD 26)
    else s.askReset level (if level = 3 then 0 else fld v.toNat 10 0)

/-- Writes of the management block. -/
def State.writeMgt (s : State) (off : Nat) (w : Word) : State :=
  let v : BitVec 32 := w.setWidth 32
  if off < 0x200 then
    let n := off / 0x40
    match off % 0x40 / 8 with
    | 0 => s.updPart n (fun q => { q with stCfg := v })
    | 1 => s.updPart n (fun q => { q with stMask0 := v })
    | 2 => s.updPart n (fun q => { q with stMask1 := v })
    | 3 => s.updPart n (fun q => { q with stMask2 := v })
    | 4 => s.writeApply n v
    | 5 => s.updPart n (fun q => { q with rickStaged := v })
    | 6 => s.gatedWrite n false w
    | _ => s
  else if off = 0x200 then s.writeMemCtrl v
  else if 0x2000 ≤ off && off < 0x2200 then s.writeLine ((off - 0x2000) / 8) v
  else if 0x2400 ≤ off && off < 0x2440 then s.writeSync ((off - 0x2400) / 8) v
  else if 0x2600 ≤ off && off < 0x2640 then s.writeStrict ((off - 0x2600) / 8) v
  else if 0x2800 ≤ off && off < 0x2818 then s.updScrub ((off - 0x2800) / 8) (fun x => x.write v)
  else if off = 0x2820 then s.writeRetire v
  else if off = 0x2828 then s.writeFw v
  else if off = 0x2830 then s.writeReset v
  else if 0x2840 ≤ off && off < 0x2880 then s.gatedWrite ((off - 0x2840) / 8) true w
  else s

/-- Writes of the power block (R518, R519): clamped; an applied target above the voltage target falls with it (R502). -/
def State.writePwr (s : State) (off : Nat) (w : Word) : State :=
  if off = 0 then { s with power := { s.power with limitW := min 0x12C0 (max 0x3E8 (fld w.toNat 15 0)) } }
  else if 0x10 ≤ off && off < 0x50 then
    let t := min 850 (max 600 (fld w.toNat 9 0 / 5 * 5))
    s.updRail ((off - 0x10) / 8) (fun r => { r with target := t, applied := min r.applied t })
  else s

/-- Writes of the identity block (R543, R551): ID_LIC_CTRL, the bytes of ID_LIC_DATA. -/
def State.writeId (s : State) (off width : Nat) (w : Word) : State :=
  if off = 0 then
    if w.getLsbD 31 && !s.ident.busy then ({ s with ident := { s.ident with busy := true } } : State).tryLicence else s
  else if 0x100 ≤ off && off < 0x200 then
    { s with ident := { s.ident with data := (List.range width).foldl (fun t i => t.set (off - 0x100 + i) (w.extractLsb' (8 * i) 8)) s.ident.data } }
  else s

/-- Writes of the reservation registers (R298, R299). -/
def State.writeRsv (s : State) (near : Bool) (off : Nat) (w : Word) : State :=
  if near then
    if 0x1000 ≤ off && off < 0x1400 then
      { s with tiers := { s.tiers with nearStaged := s.tiers.nearStaged.set (rsvKey ((off - 0x1000) / 0x40) (off % 0x40 / 8)) (rsvOf w) } } else s
  else if 0x1000 ≤ off && off < 0x1040 then { s with tiers := { s.tiers with fallowStaged := s.tiers.fallowStaged.set ((off - 0x1000) / 8) (rsvOf w) } }
  else s

/-- Writes of NP_SERVEn_CFG (R428): intake needs slots and space 0x1; while intake = 1 the other fields stay. -/
def Serve.writeCfg (v : Serve) (w : Word) : Serve :=
  let on := w.getLsbD 31
  if v.intake then { v with intake := on }
  else { v with
    intake := on && v.slotCount ≠ 0 && fld v.ring.toNat 63 60 = 1
    held := w.getLsbD 30
    holdUs := if fld w.toNat 27 16 = 0 then v.holdUs else fld w.toNat 27 16
    guardNs := max 0x3E8 (fld w.toNat 15 0) }

/-- Writes of the network-port block (R428 to R431, R451): the port registers are management's. -/
def State.writeNp (s : State) (who : Accessor) (off : Nat) (w : Word) : State :=
  if off < 0x800 then
    if who ≠ .mgmt then s
    else
      let f (g : NPort → NPort) : State := { s with net := { s.net with ports := s.net.ports.upd {} (off / 0x100) g } }
      match off % 0x100 with
      | 0x08 => f (fun p => { p with ip4 := BitVec.ofNat 64 (w.toNat % 2 ^ 32) })
      | 0x10 => f (fun p => { p with ip6hi := w })
      | 0x18 => f (fun p => { p with ip6lo := w })
      | 0x20 => f (fun p => { p with udp := BitVec.ofNat 64 (w.toNat % 2 ^ 44) })
      | _ => s
  else if 0x3000 ≤ off && off < 0x3200 then
    let n := (off - 0x3000) / 0x40
    let on := (s.serve n).intake
    match off % 0x40 with
    | 0x00 => s.updServe n (fun v => v.writeCfg w)
    | 0x08 => if on then s else s.updServe n (fun v => { v with ring := w &&& 0xFFFF000FFFFFF000 })
    | 0x10 => if on then s else s.updServe n (fun v => { v with links := BitVec.ofNat 64 (w.toNat % 2 ^ 58) })
    | 0x18 => if on then s else s.updServe n (fun v => { v with fallback := w })
    | _ => s
  else s

/-- A write of HQ_ERR_CFG (R493, R494): its fields are stored whether the ring runs or not; a ring that starts is empty, one
that runs goes on; enable is 0 with a size outside 4 to 12 (log entry 66). -/
def ErrRing.writeCfg (e : ErrRing) (v : BitVec 32) : ErrRing :=
  let size := fld v.toNat 29 26
  let on := v.getLsbD 31 && 4 ≤ size && size ≤ 12
  let x := { e with sizeLog2 := size, vector := fld v.toNat 15 8, holdoff := fld v.toNat 7 0, enable := on }
  if on && !e.enable then { x with tail := 0, head := 0, written := 0, overRec := none } else x

/-- A write of HQ_ERR_HEAD (R473, R493): entries up to the new head are free, an overflow record is final. -/
def State.writeErrHead (s : State) (f : FuncRef) (w : Word) : State :=
  let e := (s.func f).err
  let size := 2 ^ e.sizeLog2
  let h := fld w.toNat 11 0
  let adv := (h + size - e.head % size) % size
  if size ≤ h || e.tail < e.head + adv then s.badAccess (.hq f) 0x1090
  else if adv = 0 then s
  else s.updFunc f (fun g => { g with err := { e with head := e.head + adv, overRec := none } })

/-- A write of an MSI-X table entry (R446, R547). -/
def State.writeVec (s : State) (f : FuncRef) (i : Nat) (second : Bool) (w : Word) : State :=
  let s := s.updFunc f (fun g => { g with vectors := g.vectors.upd {} i (fun v =>
    if second then { v with data := w.setWidth 32, masked := w.getLsbD 32 } else { v with addr := w }) })
  s.trySend f i

/-- Writes of a function window (R463, R493, R547). -/
def State.writeHq (s : State) (f : FuncRef) (off : Nat) (w : Word) : State :=
  let v : BitVec 32 := w.setWidth 32
  if off < 0x1000 then
    let q : QRef := ⟨f.port, f.fn, off / 0x40⟩
    let x := s.queue q
    match off % 0x40 with
    | 0x00 => if x.enable then s else s.updQueue q (fun x => { x with sqBase := w &&& 0xFFFFFFFFFFFFF000 })
    | 0x08 => if x.enable then s else s.updQueue q (fun x => { x with cqBase := w &&& 0xFFFFFFFFFFFFF000 })
    | 0x10 => s.writeQueueCfg q v
    | 0x18 => s.writeTail q w
    | 0x20 => s.writeHead q w
    | _ => s
  else if off = 0x1080 then (if (s.func f).err.enable then s else s.updFunc f (fun g => { g with err := { g.err with base := w &&& 0xFFFFFFFFFFFFF000 } }))
  else if off = 0x1088 then s.updFunc f (fun g => { g with err := g.err.writeCfg v })
  else if off = 0x1090 then s.writeErrHead f w
  else if 0x2000 ≤ off && off < 0x2000 + 16 * vectorsOf f then s.writeVec f ((off - 0x2000) / 16) (off % 16 = 8) w
  else s

/-- Writes of a core block (R121, R122): the watchdog bit, CO_CNT_CTRL. -/
def State.writeCo (s : State) (who : Accessor) (k off : Nat) (w : Word) : State :=
  if off < 0x40 then (if w.getLsbD 28 then s.updCtx ⟨k, off / 8⟩ (fun c => { c with watchdog := false }) else s)
  else if off = 0x40 then s.writeCnt who (.co k) w
  else s

/-- A write that has reached its unit. -/
def State.putReg (s : State) (who : Accessor) (b : Block) (off width : Nat) (w : Word) : State :=
  if commonAt b off = some 1 then s.writeCnt who b w
  else match b with
    | .mgt => if who = .mgmt then s.writeMgt off w else s
    | .pwr => s.writePwr off w
    | .ident => s.writeId off width w
    | .ns => s.writeRsv true off w
    | .ft => s.writeRsv false off w
    | .xu => if off < 0x80 && off % 0x10 = 0 && who = .mgmt && fld w.toNat 15 0 ≠ 0 then s.updMember (off / 0x10) (fun m => { m with ringStepMs := fld w.toNat 15 0 }) else s
    | .np => s.writeNp who off w
    | .hqGlobal => if off < 0x20 then { s with host := { s.host with ports := s.host.ports.upd {} (off / 8) (fun p => { p with perm := BitVec.ofNat 32 (w.toNat % 2 ^ 17) }) } } else s
    | .hq f => s.writeHq f off w
    | .co k => s.writeCo who k off w
    | _ => s

/-- A register write (R546, R549 to R551, R554, R561). A 4-byte write of a 64-bit register changes its half. -/
def State.writeReg (s : State) (who : Accessor) (a width : Nat) (w : Word) : State :=
  if !(width = 4 || width = 8) || a % width ≠ 0 then s.badAccess (errAt who a).1 (errAt who a).2
  else match viewAt who a with
  | none => s.badAccess .mgt a
  | some (b, off) =>
    let slot := off / 8 * 8
    if !(s.live || b = .pwr) || !s.blockOn b then s
    else match s.regAt who b slot with
      | none => s.badAccess b off
      | some r =>
        let hi := off % 8 = 4
        if !s.sees who b slot then s
        else if b = .ident && 0x100 ≤ off && off < 0x200 then s.writeId off width w
        else if width = 8 then s.putReg who b slot 8 (if r.wide then w else BitVec.ofNat 64 (w.toNat % 2 ^ 32))
        else if !r.wide then (if hi then s else s.putReg who b slot 4 (BitVec.ofNat 64 (w.toNat % 2 ^ 32)))
        else s.putReg who b slot 8 (BitVec.ofNat 64 (if hi then w.toNat % 2 ^ 32 * 2 ^ 32 + r.value % 2 ^ 32 else r.value / 2 ^ 32 * 2 ^ 32 + w.toNat % 2 ^ 32))

/-! ### The rows -/

/-- What an accessor receives. -/
def State.respond (s : State) (who : Accessor) (v : Word) : State := { s with regs := { s.regs with responses := s.regs.responses ++ [{ who := who, status := 0, value := v }] } }

/-- STAGE_WRITE (R456, R513). -/
def execStageWrite (by_ : Accessor) (part : Nat) (value : BitVec 32) (s : State) : Res :=
  .next (if s.live && by_ = .mgmt && part < 8 then s.gatedWrite part false (value.setWidth 64) else s)

/-- KEEP_WRITE (R513, R523). -/
def execKeepWrite (by_ : Accessor) (part : Nat) (value : Word) (s : State) : Res :=
  .next (if s.live && by_ = .mgmt && part < 8 then s.gatedWrite part true value else s)

/-- SYNC_WRITE (R316, R332). -/
def execSyncWrite (by_ : Accessor) (part : Nat) (value : BitVec 32) (s : State) : Res :=
  .next (if s.live && by_ = .mgmt && part < 8 then s.writeSync part value else s)

/-- STRICT_WRITE (R389). -/
def execStrictWrite (by_ : Accessor) (part : Nat) (value : BitVec 32) (s : State) : Res :=
  .next (if s.live && by_ = .mgmt && part < 8 then s.writeStrict part value else s)

/-- ERR_HEAD_WRITE (R473, R493). -/
def execErrHeadWrite (f : FuncRef) (value : Word) (s : State) : Res := .next (if s.live then s.writeErrHead f value else s)

/-- Whether an accessor's write of CNT_CTRL reaches a block. -/
def State.cntReach (s : State) (who : Accessor) (b : Block) : Bool := s.live && s.blockOn b && s.sees who b (blockSize b - 0x38)

/-- COUNTER_SNAPSHOT (R125, R557): a write of CNT_CTRL with snapshot = 1. -/
def execCounterSnapshot (by_ : Accessor) (b : Block) (value : BitVec 32) (s : State) : Res :=
  .next (if s.cntReach by_ b && value.getLsbD 1 then s.writeCnt by_ b (value.setWidth 64) else s)

/-- COUNTER_CLEAR (R558, R559): a write of CNT_CTRL with clear = 1. -/
def execCounterClear (by_ : Accessor) (b : Block) (value : BitVec 32) (s : State) : Res :=
  .next (if s.cntReach by_ b && value.getLsbD 0 then s.writeCnt by_ b (value.setWidth 64) else s)

/-- The address of a common register in the management map, or in a function's view. -/
def commonAddr (b : Block) (i : Nat) : Nat :=
  let base := match b with
    | .hub => 0 | .mgt => 0x10000 | .pwr => 0x20000 | .ident => 0x21000 | .ns => 0x22000 | .ft => 0x24000 | .pl => 0x26000 | .xu => 0x27000
    | .np => 0x28000 | .hqGlobal => 0x30000 | .hq f => 0x400000 + 0x200000 * f.port + 0x10000 * f.fn | .fd d => 0xC00000 + 0x1000 * d
    | .cl c => 0xD00000 + 0x1000 * c | .co k => 0x1000000 + 0x1000 * k
  base + blockSize b - 0x40 + 8 * i

/-- The address at which an accessor finds a common register; a function finds its own window at the host-queue base. -/
def commonFor (who : Accessor) (b : Block) (i : Nat) : Nat :=
  match who, b with
  | .host f, .hq g => if f = g then 0x40FFC0 + 8 * i else commonAddr b i
  | _, _ => commonAddr b i

/-- A read of a common register at its unit, and its answer. -/
def State.readCommon (s : State) (x : Accessor × Block × Nat × Nat) : State :=
  let r := s.readReg x.1 (commonFor x.1 x.2.1 x.2.2.1) x.2.2.2
  r.1.respond x.1 r.2

/-- A read that crosses the stile (R10, R552): it stalls while its unit cannot be reached. -/
def State.stallRead (s : State) (x : Accessor × Block × Nat × Nat) : State :=
  if s.answers x.2.1 then s.readCommon x else { s with regs := { s.regs with stalled := s.regs.stalled ++ [x] } }

/-- Reads that stalled are answered in the order in which they came, where their unit can be reached now. -/
def State.drainReads (s : State) : State :=
  s.regs.stalled.foldl State.stallRead { s with regs := { s.regs with stalled := [] } }

/-- ACC_ERR_READ (R551, R555). -/
def execAccErrRead (by_ : Accessor) (b : Block) (width : Nat) (s : State) : Res := .next (s.stallRead (by_, b, 4, width))

/-- NOW_READ (R551, R552, R555). -/
def execNowRead (by_ : Accessor) (b : Block) (width : Nat) (s : State) : Res := .next (s.stallRead (by_, b, 3, width))

/-- REGISTER_WRITE (R554). -/
def execRegisterWrite (by_ : Accessor) (addr width : Nat) (value : Word) (s : State) : Res := .next (s.writeReg by_ addr width value)

end Sys2Proof.Machine
end

