-- ==== Sys2Proof/Machine/Mgmt.lean ====
section
/-! DEFINITION. The management bus (R571 to R574): register access and log read, MCTP control, PLDM. Layouts that the
spec takes from DMTF standards without giving them are PRESUMED (log entry 8). -/

namespace Sys2Proof.Machine

/-- A message on the management bus, with what the spec does not fix behind it (log entry 8). -/
def State.mctp (s : State) (l : List Byte) : State := (s.send (.mctp (l ++ Config.replyTail s.free))).fresh

/-! ### Register access and log read (R573, R574) -/

/-- The bytes 0x00 to 0x07 of a vendor-defined response (R573). -/
def vendorHead (command tag status : Nat) : List Byte :=
  [0x7F] ++ leBytes 4 0x0000B61E ++ [BitVec.ofNat 8 (command + 0x80), BitVec.ofNat 8 tag, BitVec.ofNat 8 status]

/-- A response, whole. -/
def State.vendor (s : State) (command tag status : Nat) (data : List Byte) : State := s.send (.mctp (vendorHead command tag status ++ data))

/-- Whether a register request is well formed (R573). -/
def mgmtOk (r : MgmtReq) : Bool := r.tag ≤ 3 && (r.width = 4 || r.width = 8) && r.addr.toNat < 2 ^ 26

/-- The 64 bytes of an error record (R468). -/
def ErrRec.bytes (r : ErrRec) : List Byte :=
  [r.cls, r.cause, r.unit, 0] ++ leBytes 4 r.loc.toNat ++ leBytes 8 r.seq ++ leBytes 8 r.time ++ leBytes 8 r.tag.toNat ++ leBytes 8 r.addr.toNat
    ++ leBytes 4 r.tbl.toNat ++ leBytes 4 r.count ++ leBytes 8 r.detail.toNat ++ leBytes 8 0

/-- A request's tag. -/
def MgmtCmd.tag : MgmtCmd → Nat
  | .read r => r.tag
  | .write r _ => r.tag
  | .log tag _ _ => tag

/-- A request's register address, as MGT_ACC_ERR takes it. -/
def MgmtCmd.addr : MgmtCmd → Nat
  | .read r => r.addr.toNat
  | .write r _ => r.addr.toNat
  | .log _ _ _ => 0

/-- Whether a request is well formed (R573). -/
def MgmtCmd.ok : MgmtCmd → Bool
  | .read r => mgmtOk r
  | .write r _ => mgmtOk r
  | .log tag count _ => tag ≤ 3 && 1 ≤ count && count ≤ 16

/-- The command code of a request (R573). -/
def MgmtCmd.code : MgmtCmd → Nat
  | .read _ => 1
  | .write _ _ => 2
  | .log _ _ _ => 3

/-- Whether the unit that a request reaches can answer it now. -/
def State.mgmtReady (s : State) : MgmtCmd → Bool
  | .read r => (viewAt .mgmt r.addr.toNat).all (fun x => s.answers x.1)
  | .write r _ => (viewAt .mgmt r.addr.toNat).all (fun x => s.answers x.1)
  | .log _ _ _ => true

/-- A log read (R573, R574): records from a sequence on; the newest one read releases ALERT_N. -/
def State.logRead (s : State) (tag count : Nat) (first : Word) : State :=
  let l := (s.errs.log.filter (fun r => first.toNat ≤ r.seq)).take count
  match l.getLast? with
  | none => s.vendor 3 tag 4 []
  | some r =>
    let lost := (s.errs.log.head?).any (fun o => first.toNat < o.seq)
    let s := if r.seq + 1 = s.errs.nextSeq then { s with errs := { s.errs with readAll := true } } else s
    s.vendor 3 tag (if lost then 3 else 0) ((l.map ErrRec.bytes).flatten)

/-- A request is handled and answered (R573). -/
def State.mgmtRun (s : State) : MgmtCmd → State
  | .read r =>
    let (t, v) := s.readReg .mgmt r.addr.toNat r.width
    t.vendor 1 r.tag 0 (leBytes 8 v.toNat)
  | .write r value => (s.writeReg .mgmt r.addr.toNat r.width value).vendor 2 r.tag 0 []
  | .log tag count first => s.logRead tag count first

/-- A request arrives (R573, R574): discarded where its tag is outstanding, answered at once where it is malformed, else
handled after those that wait before it. -/
def State.mgmtRequest (s : State) (c : MgmtCmd) : State :=
  if s.mgmt.waiting.any (fun x => x.tag = c.tag) then s.badAccess .mgt c.addr
  else if !c.ok then (s.badAccess .mgt c.addr).vendor c.code c.tag 1 []
  else if s.mgmt.waiting = [] && s.mgmtReady c then s.mgmtRun c
  else { s with mgmt := { s.mgmt with waiting := s.mgmt.waiting ++ [c] } }

/-- Requests that waited are handled in arrival order (R574), at most `k` of them. -/
def State.mgmtDrain (s : State) : Nat → State
  | 0 => s
  | k + 1 =>
    match s.mgmt.waiting with
    | [] => s
    | c :: rest =>
      if s.mgmtReady c then State.mgmtDrain (({ s with mgmt := { s.mgmt with waiting := rest } } : State).mgmtRun c) k else s

/-- MGMT_REGISTER_READ (R573). -/
def execMgmtRegisterRead (r : MgmtReq) (s : State) : Res := .next (s.mgmtRequest (.read r))

/-- MGMT_REGISTER_WRITE (R573). -/
def execMgmtRegisterWrite (r : MgmtReq) (value : Word) (s : State) : Res := .next (s.mgmtRequest (.write r value))

/-- MGMT_LOG_READ (R573, R574): up to 16 records. -/
def execMgmtLogRead (tag count : Nat) (first : Word) (s : State) : Res := .next (s.mgmtRequest (.log tag count first))

/-! ### MCTP control (R571) -/

/-- SET_ENDPOINT_ID (R571): 0x00 and 0xFF are no endpoint's. -/
def execSetEndpointId (eid : Byte) (s : State) : Res :=
  .next (if eid = 0 || eid = 0xFF then s.mctp [0x00, 0x02]
    else ({ s with mgmt := { s.mgmt with eid := eid } } : State).mctp [0x00, 0x00, eid])

/-- GET_ENDPOINT_ID (R571). -/
def execGetEndpointId (s : State) : Res := .next (s.mctp [0x00, 0x00, s.mgmt.eid])

/-- The message types of R571. -/
def messageTypes : List Byte := [0x00, 0x01, 0x05, 0x7F]

/-- GET_MCTP_VERSION_SUPPORT (R571). -/
def execGetMctpVersionSupport (msgType : Byte) (s : State) : Res :=
  .next (s.mctp [0x00, if msgType ∈ messageTypes then 0x00 else 0x80])

/-- GET_MESSAGE_TYPE_SUPPORT (R571): the types besides MCTP control. -/
def execGetMessageTypeSupport (s : State) : Res := .next (s.mctp ([0x00, 0x00, 0x03] ++ messageTypes.drop 1))

/-! ### PLDM (R571, R572) -/

/-- PLDM_BASE (R571): a Type 0 request is answered. -/
def execPldmBase (command : Byte) (s : State) : Res := .next (s.mctp [0x01, 0x00, command])

/-- PLDM_SENSOR_READ (R572): energy in mJ, hottest sensor in °C, limit_active, in the order of R572. -/
def execPldmSensorRead (sensor : Nat) (s : State) : Res :=
  .next (s.mctp ([0x01, 0x02] ++ (match sensor with
    | 0 => leBytes 8 s.power.energyMj
    | 1 => leBytes 1 s.power.hottest
    | 2 => leBytes 1 (b2n s.limitActive)
    | _ => [])))

end Sys2Proof.Machine
end

