-- ==== Sys2Proof/Machine/Rdma.lean ====
section
/-! DEFINITION. The RoCEv2 endpoint (R452 to R454): remote writes, writes with immediate, reads, and the rate of a
connection under congestion notifications. -/

namespace Sys2Proof.Machine

/-- The key of a connection in the tables of the network ports. -/
def connKey (n k : Nat) : Nat := n * 4096 + k

/-- The object that a request may reach: its rkey names a region of the partition with the access asked for, and its
bytes lie in the object (R452). A mirror takes no remote write (R404). -/
def State.rdmaTarget (s : State) (r : RdmaReq) (write : Bool) (len : Nat) : Option Word :=
  match s.net.regions.find (r.part * 2 ^ 32 + r.rkey.toNat) with
  | none => none
  | some g =>
    ((s.part r.part).objects.find g.object).bind (fun o =>
      if (if write then g.write && o.mirrorOf.isNone else g.read) && r.offset + len ≤ o.size then
        some (BitVec.ofNat 64 ((3 + (if o.mirrorOf.isSome then 0 else o.tier)) * 2 ^ 60 + g.object * 2 ^ 40 + r.offset))
      else none)

/-- Whether a request finds its connection and a partition that serves it now: objects of a partition in recovery are
held (R247). -/
def State.rdmaOpen (s : State) (r : RdmaReq) : Bool :=
  s.live && (s.net.conns.find (connKey r.part r.conn)).isSome && r.part ∉ s.tx.recovering

/-- A remote write, an ordinary write into its object (R454), or the remote access error; one into the fallow tier waits where
chunks are wanting (R288). -/
def State.rdmaPut (s : State) (r : RdmaReq) (k : State → State) : State :=
  match s.rdmaTarget r true r.data.length with
  | none => s.send (.rdmaReply r.part r.conn false [])
  | some a =>
    let ks := s.keysOf r.part 0 a r.data.length
    if !s.fallowFits ks r.data then s
    else ((k ((s.served ks (s.classOf r.part)).writeDev r.part 0 a r.data false)).notePools ks).send (.rdmaReply r.part r.conn true [])

/-- RDMA_WRITE (R452, R454). -/
def execRdmaWrite (r : RdmaReq) (s : State) : Res := .next (if s.rdmaOpen r then s.rdmaPut r (fun s => s) else s)

/-- RDMA_WRITE_IMMEDIATE (R454): ck [31:30], ct [16:0]; an action outside the partition's allocation is not taken. -/
def execRdmaWriteImmediate (r : RdmaReq) (imm : BitVec 32) (s : State) : Res :=
  let ck : BitVec 2 := BitVec.ofNat 2 (fld imm.toNat 31 30)
  let ct : BitVec 17 := BitVec.ofNat 17 imm.toNat
  .next (if s.rdmaOpen r then
      s.rdmaPut r (fun s => if ctShapeOk ck ct && s.ctOwned r.part ck ct then s.action r.part (s.partTag r.part ((s.part r.part).lastStarted.setWidth 16) .sync) ck ct else s)
    else s)

/-- RDMA_READ (R452). -/
def execRdmaRead (r : RdmaReq) (s : State) : Res :=
  .next (if !s.rdmaOpen r then s else
    match s.rdmaTarget r false r.length with
    | none => s.send (.rdmaReply r.part r.conn false [])
    | some a => (s.served (s.keysOf r.part 0 a r.length) (s.classOf r.part)).send (.rdmaReply r.part r.conn true (s.readDev r.part 0 a r.length).1))

/-- Changing an open connection. -/
def State.updConn (s : State) (n k : Nat) (f : Conn → Conn) : State :=
  match s.net.conns.find (connKey n k) with
  | some c => { s with net := { s.net with conns := s.net.conns.set (connKey n k) (f c) } }
  | none => s

/-- CNP_RECEIVE (R452): the rate of the connection halves. -/
def execCnpReceive (part conn : Nat) (s : State) : Res :=
  .next (if s.live then s.updConn part conn (fun c => { c with rate := c.rate / 2, since := s.now }) else s)

/-- RATE_RECOVERY_STEP (R452): 50 µs after the last change the rate recovers by a step of the part's own (log entry 9). -/
def execRateRecoveryStep (part conn : Nat) (s : State) : Res :=
  .next (if s.live then s.updConn part conn (fun c =>
      if c.rate < 65536 && c.since + 50000 ≤ s.now then { c with rate := min 65536 (max c.rate (Config.recoverRate c.rate)), since := s.now } else c)
    else s)

end Sys2Proof.Machine
end

