-- ==== Sys2Proof/Machine/Return.lean ====
section
/-! DEFINITION. The return of the input after a loss: cold start and warm return (R514 to R517, R566). -/

namespace Sys2Proof.Machine

/-- INPUT_RETURN (R514, R515, R517): the 20 ms begin; with only domain 23 left, a cold start begins. -/
def execInputReturn (s : State) : Res :=
  .next (if s.power.hold = .normal || s.power.returnedAt.isSome then s
    else if s.boot.coldHold && s.power.domains = [23] then
      ({ s with
        power := { s.power with hold := .normal, saveDone := false, returnedAt := none, energyMj := 0 }
        boot := { s.boot with since := s.now } } : State).drainReads.mgmtDrain 4
    else { s with power := { s.power with returnedAt := some s.now, hold := if s.power.saveDone then .qualifying else .saving } })

/-- QUALIFICATION_COMPLETE (R515, R516): the save is done and the input has stayed for 20 ms: a warm return. Links that
were up retrain; register reads that stalled (R552) and management's requests that waited (R574) are
handled. -/
def execQualificationComplete (s : State) : Res :=
  .next (match s.power.returnedAt with
    | some t =>
      if s.power.hold = .normal || !s.power.saveDone || s.now < t + 20000000 then s
      else
        let s := { s with power := { s.power with hold := .normal, saveDone := false, returnedAt := none } }
        if s.boot.stage.toNat < 4 then s.drainReads.mgmtDrain 4
        else
          let s := ({ s with power := { s.power with domains := [17, 18].foldl insertNat s.power.domains } } : State).linkDomains
          let s := ((List.range 24).filter (fun k => (s.lnk k).st = .up)).foldl (fun s k => (s.goDown k).updLnk k (fun l => { l with st := .training })) s
          (s.nextRetire (s.errs.retireQ.length + 1)).drainReads.mgmtDrain 4
    | none => s)

end Sys2Proof.Machine
end

