-- ==== Sys2Proof/Machine/Spdm.lean ====
section
/-! DEFINITION. Attestation (R535 to R538): the SPDM responder over the DOE mailboxes and the management bus. Message
codes and layouts of DSP0274 are PRESUMED (log entry 8). -/

namespace Sys2Proof.Machine

/-- The SHA-384 digest of an image. -/
def imageDigest (b : Bool) (x : FwImage) : List Byte := if x.digest = [] then Config.shippedDigest b else x.digest
/-- CDI of the active firmware (R537). -/
def State.cdi (s : State) : List Byte := hmac384 Config.deviceSecret (imageDigest s.errs.fwActive s.errs.activeFw)
/-- The certificate chain of slot 0 (R537). -/
def State.chain (s : State) : List Byte := Config.certChain s.cdi

/-- An SPDM response on the way that its request came. -/
def State.spdm (s : State) (v : SpdmVia) (l : List Byte) : State :=
  match v with
  | .doe p => if s.live && (s.host.ports.get {} p).up then s.send (.doe p l) else s
  | .mctp => s.send (.mctp (0x05 :: l))

/-- The header of an SPDM 1.3 response. -/
def spdmHead (code p1 p2 : Byte) : List Byte := [0x13, code, p1, p2]
/-- An error response. -/
def spdmError (code : Byte) : List Byte := spdmHead 0x7F code 0x00

/-- SPDM_GET_VERSION (R538). -/
def execSpdmGetVersion (v : SpdmVia) (s : State) : Res :=
  .next ((s.spdm v ([0x10, 0x04, 0x00, 0x00, 0x00, 0x01] ++ leBytes 2 0x1300)))

/-- SPDM_GET_CAPABILITIES (R538): certificates, challenge, signed measurements; no sessions, key exchange or mutual
authentication. -/
def execSpdmGetCapabilities (v : SpdmVia) (s : State) : Res :=
  .next ((s.spdm v (spdmHead 0x61 0x00 0x00 ++ Config.replyTail s.free)).fresh)

/-- SPDM_NEGOTIATE_ALGORITHMS (R538): ECDSA P-384 and SHA-384 only. -/
def execSpdmNegotiateAlgorithms (v : SpdmVia) (s : State) : Res :=
  .next ((s.spdm v (spdmHead 0x63 0x00 0x00 ++ Config.replyTail s.free)).fresh)

/-- SPDM_GET_DIGESTS (R538): slot 0 alone. -/
def execSpdmGetDigests (v : SpdmVia) (s : State) : Res := .next (s.spdm v (spdmHead 0x01 0x00 0x01 ++ sha384 s.chain))

/-- SPDM_GET_CERTIFICATE (R538): a part of slot 0's chain. -/
def execSpdmGetCertificate (v : SpdmVia) (slot offset length : Nat) (s : State) : Res :=
  let l := (s.chain.drop offset).take length
  .next (if slot ≠ 0 || s.chain.length ≤ offset then s.spdm v (spdmError 0x01)
    else s.spdm v (spdmHead 0x02 0x00 0x00 ++ leBytes 2 l.length ++ leBytes 2 (s.chain.length - offset - l.length) ++ l))

/-- SPDM_CHALLENGE (R538): signed with the Alias key; ResponseNotReady during a firmware handover. -/
def execSpdmChallenge (v : SpdmVia) (nonce : List Byte) (s : State) : Res :=
  let body := spdmHead 0x03 0x00 0x01 ++ sha384 s.chain ++ Config.replyTail s.free
  .next (if s.errs.handover.isSome then s.spdm v (spdmError 0x42)
    else (s.spdm v (body ++ Config.sign (Config.aliasKey s.cdi) (nonce ++ body))).fresh)

/-- The measurements of R538. -/
def State.measurement (s : State) (i : Nat) : Option (List Byte) :=
  match i with
  | 1 => some (imageDigest s.errs.fwActive s.errs.activeFw)
  | 2 => some (imageDigest (!s.errs.fwActive) s.errs.idleFw)
  | 3 => some (sha384 s.ident.stored.bytes)
  | 4 => some Config.dieKeyDigests
  | 5 => some (leBytes 4 Config.minSecurity)
  | _ => none

/-- SPDM_GET_MEASUREMENTS (R538): index 0 asks for their number, 0xFF for all of them. -/
def execSpdmGetMeasurements (v : SpdmVia) (index : Nat) (nonce : List Byte) (s : State) : Res :=
  let block (i : Nat) : List Byte := match s.measurement i with | some l => [BitVec.ofNat 8 i] ++ leBytes 2 l.length ++ l | none => []
  let send (p1 : Byte) (l : List Byte) : State :=
    let body := spdmHead 0x60 p1 0x00 ++ l ++ Config.replyTail s.free
    (s.spdm v (body ++ Config.sign (Config.aliasKey s.cdi) (nonce ++ body))).fresh
  .next (if s.errs.handover.isSome then s.spdm v (spdmError 0x42)
    else if index = 0 then send 0x05 []
    else if index = 0xFF then send 0x00 ((((List.range 5).map (· + 1)).map block).flatten)
    else if (s.measurement index).isSome then send 0x00 (block index)
    else s.spdm v (spdmError 0x01))

end Sys2Proof.Machine
end

