-- ==== Sys2Proof/Machine/Tap.lean ====
section
/-! DEFINITION. The test access port (R575, R576). -/

namespace Sys2Proof.Machine

/-- The one-bit bypass register: TDO is TDI one clock later, behind the 0 that it captured. -/
def bypassOut (tdi : List Bool) : List Bool := (false :: tdi).take tdi.length

/-- BYPASS as the part's instruction. -/
def State.bypass (s : State) (tdi : List Bool) : State :=
  ({ s with tap := { s.tap with ir := .bypass, driving := false, highz := false } } : State).send (.tdo (bypassOut tdi))

/-- TAP_BYPASS (R575): BYPASS and every instruction code that the part does not implement. -/
def execTapBypass (_code : Nat) (tdi : List Bool) (s : State) : Res := .next (s.bypass tdi)

/-- TAP_IDCODE (R575). -/
def execTapIdcode (s : State) : Res :=
  .next (({ s with tap := { s.tap with ir := .idcode, driving := false, highz := false } } : State).send
    (.tdo ((List.range 32).map (fun i => bitAt 0x1120046B i))))

/-- TAP_SAMPLE_PRELOAD (R575): the pins are shifted out, the boundary register takes what is shifted in. -/
def execTapSamplePreload (pins preload : List Bool) (s : State) : Res :=
  .next (({ s with tap := { ir := .sample, boundary := preload, driving := false, highz := false } } : State).send (.tdo pins))

/-- TAP_EXTEST (R576): while MOD_RESET_N is low the pins are driven from the boundary register; the input pins that it
captures are outside the part: free bits. -/
def execTapExtest (tdi : List Bool) (s : State) : Res :=
  .next (if s.mgmt.modResetLow then
      (({ s with tap := { ir := .extest, boundary := tdi, driving := true, highz := false } } : State).send
        (.tdo ((List.range tdi.length).map (fun i => Config.freeNat s.free / 2 ^ i % 2 = 1)))).fresh
    else s.bypass tdi)

/-- TAP_CLAMP (R576): the pins are held from the boundary register, the bypass register is shifted. -/
def execTapClamp (tdi : List Bool) (s : State) : Res :=
  .next (if s.mgmt.modResetLow then
      ({ s with tap := { s.tap with ir := .clamp, driving := true, highz := false } } : State).send (.tdo (bypassOut tdi))
    else s.bypass tdi)

/-- TAP_HIGHZ (R576): the outputs are released, the bypass register is shifted. -/
def execTapHighz (tdi : List Bool) (s : State) : Res :=
  .next (if s.mgmt.modResetLow then
      ({ s with tap := { s.tap with ir := .highz, driving := false, highz := true } } : State).send (.tdo (bypassOut tdi))
    else s.bypass tdi)

/-- TAP_RESET (R576): Test-Logic-Reset. -/
def execTapReset (s : State) : Res := .next { s with tap := { s.tap with ir := .idcode, driving := false, highz := false } }

end Sys2Proof.Machine
end

