-- ==== Sys2Proof/Machine/Dispatch.lean ====
section
/-! DEFINITION. The dispatch of commands to their meanings: one arm per constructor of `Instr`. -/

namespace Sys2Proof.Machine

/-- The effect of a command on everything but the queue. -/
def exec (i : Instr) (s : State) : Host.Outcome State Fault Refusal :=
  match i with
  | .add p f => Sys2Proof.Machine.execAdd p f s
  | .sub p f => Sys2Proof.Machine.execSub p f s
  | .and p f => Sys2Proof.Machine.execAnd p f s
  | .or p f => Sys2Proof.Machine.execOr p f s
  | .xor p f => Sys2Proof.Machine.execXor p f s
  | .shl p f => Sys2Proof.Machine.execShl p f s
  | .shr p f => Sys2Proof.Machine.execShr p f s
  | .sar p f => Sys2Proof.Machine.execSar p f s
  | .mul p f => Sys2Proof.Machine.execMul p f s
  | .mulhu p f => Sys2Proof.Machine.execMulhu p f s
  | .min p f => Sys2Proof.Machine.execMin p f s
  | .max p f => Sys2Proof.Machine.execMax p f s
  | .minu p f => Sys2Proof.Machine.execMinu p f s
  | .maxu p f => Sys2Proof.Machine.execMaxu p f s
  | .slt p f => Sys2Proof.Machine.execSlt p f s
  | .sltu p f => Sys2Proof.Machine.execSltu p f s
  | .lih p f => Sys2Proof.Machine.execLih p f s
  | .ld p f sub => Sys2Proof.Machine.execLd p f sub s
  | .st p f sub => Sys2Proof.Machine.execSt p f sub s
  | .beq p f => Sys2Proof.Machine.execBeq p f s
  | .bne p f => Sys2Proof.Machine.execBne p f s
  | .blt p f => Sys2Proof.Machine.execBlt p f s
  | .bge p f => Sys2Proof.Machine.execBge p f s
  | .bltu p f => Sys2Proof.Machine.execBltu p f s
  | .bgeu p f => Sys2Proof.Machine.execBgeu p f s
  | .jal p f => Sys2Proof.Machine.execJal p f s
  | .jalr p f => Sys2Proof.Machine.execJalr p f s
  | .gets p f sub => Sys2Proof.Machine.execGets p f sub s
  | .vadd p f => Sys2Proof.Machine.execVadd p f s
  | .vsub p f => Sys2Proof.Machine.execVsub p f s
  | .vmul p f => Sys2Proof.Machine.execVmul p f s
  | .vfma p f => Sys2Proof.Machine.execVfma p f s
  | .vmin p f => Sys2Proof.Machine.execVmin p f s
  | .vmax p f => Sys2Proof.Machine.execVmax p f s
  | .vabs p f => Sys2Proof.Machine.execVabs p f s
  | .vneg p f => Sys2Proof.Machine.execVneg p f s
  | .vsel p f => Sys2Proof.Machine.execVsel p f s
  | .vclt p f => Sys2Proof.Machine.execVclt p f s
  | .vceq p f => Sys2Proof.Machine.execVceq p f s
  | .vgmax p f => Sys2Proof.Machine.execVgmax p f s
  | .vgsum p f => Sys2Proof.Machine.execVgsum p f s
  | .vcvt p f => Sys2Proof.Machine.execVcvt p f s
  | .vexp2 p f => Sys2Proof.Machine.execVexp2 p f s
  | .vlog2 p f => Sys2Proof.Machine.execVlog2 p f s
  | .vrcp p f => Sys2Proof.Machine.execVrcp p f s
  | .vrsqrt p f => Sys2Proof.Machine.execVrsqrt p f s
  | .vsqrt p f => Sys2Proof.Machine.execVsqrt p f s
  | .vrsum p f => Sys2Proof.Machine.execVrsum p f s
  | .vrsumf p f => Sys2Proof.Machine.execVrsumf p f s
  | .vrmax p f => Sys2Proof.Machine.execVrmax p f s
  | .vrmaxa p f => Sys2Proof.Machine.execVrmaxa p f s
  | .vld p f => Sys2Proof.Machine.execVld p f s
  | .vst p f => Sys2Proof.Machine.execVst p f s
  | .vq p f => Sys2Proof.Machine.execVq p f s
  | .vdq p f => Sys2Proof.Machine.execVdq p f s
  | .vbcast p f => Sys2Proof.Machine.execVbcast p f s
  | .vext p f => Sys2Proof.Machine.execVext p f s
  | .vrng p f => Sys2Proof.Machine.execVrng p f s
  | .tmul p f => Sys2Proof.Machine.execTmul p f s
  | .tclr p f => Sys2Proof.Machine.execTclr p f s
  | .tmovv p f => Sys2Proof.Machine.execTmovv p f s
  | .tlda p f => Sys2Proof.Machine.execTlda p f s
  | .tsta p f => Sys2Proof.Machine.execTsta p f s
  | .taddm p f => Sys2Proof.Machine.execTaddm p f s
  | .tileProductComplete core => Sys2Proof.Machine.execTileProductComplete core s
  | .rgath p f => Sys2Proof.Machine.execRgath p f s
  | .rgrad p f => Sys2Proof.Machine.execRgrad p f s
  | .rprel p f => Sys2Proof.Machine.execRprel p f s
  | .rstat p f => Sys2Proof.Machine.execRstat p f s
  | .rsalt p f => Sys2Proof.Machine.execRsalt p f s
  | .mov p f => Sys2Proof.Machine.execMov p f s
  | .movz p f => Sys2Proof.Machine.execMovz p f s
  | .moveComplete p n => Sys2Proof.Machine.execMoveComplete p n s
  | .mfence p f => Sys2Proof.Machine.execMfence p f s
  | .operandDataReturn p n bad => Sys2Proof.Machine.execOperandDataReturn p n bad s
  | .fset p f => Sys2Proof.Machine.execFset p f s
  | .fclr p f => Sys2Proof.Machine.execFclr p f s
  | .fwait p f => Sys2Proof.Machine.execFwait p f s
  | .fwaitc p f => Sys2Proof.Machine.execFwaitc p f s
  | .cprod p f => Sys2Proof.Machine.execCprod p f s
  | .ccons p f => Sys2Proof.Machine.execCcons p f s
  | .cwaitr p f => Sys2Proof.Machine.execCwaitr p f s
  | .cwaita p f => Sys2Proof.Machine.execCwaita p f s
  | .cread p f => Sys2Proof.Machine.execCread p f s
  | .harr p f => Sys2Proof.Machine.execHarr p f s
  | .hwait p f => Sys2Proof.Machine.execHwait p f s
  | .hbar p f => Sys2Proof.Machine.execHbar p f s
  | .syncStoreOperation die n => Sys2Proof.Machine.execSyncStoreOperation die n s
  | .wake p => Sys2Proof.Machine.execWake p s
  | .contextWaitWatchdog p => Sys2Proof.Machine.execContextWaitWatchdog p s
  | .powerLending u => Sys2Proof.Machine.execPowerLending u s
  | .hedgerowArrival n => Sys2Proof.Machine.execHedgerowArrival n s
  | .lineReportReceive line member epoch phase t => Sys2Proof.Machine.execLineReportReceive line member epoch phase t s
  | .jobWideRelease line => Sys2Proof.Machine.execJobWideRelease line s
  | .txb p f => Sys2Proof.Machine.execTxb p f s
  | .txc p f => Sys2Proof.Machine.execTxc p f s
  | .txa p f => Sys2Proof.Machine.execTxa p f s
  | .xcoll p f => Sys2Proof.Machine.execXcoll p f s
  | .xlag p f => Sys2Proof.Machine.execXlag p f s
  | .tstep p f => Sys2Proof.Machine.execTstep p f s
  | .tget p f => Sys2Proof.Machine.execTget p f s
  | .tstat p f => Sys2Proof.Machine.execTstat p f s
  | .mepoch p f => Sys2Proof.Machine.execMepoch p f s
  | .stepb p f => Sys2Proof.Machine.execStepb p f s
  | .nop p f => Sys2Proof.Machine.execNop p f s
  | .halt p f => Sys2Proof.Machine.execHalt p f s
  | .cstart p f => Sys2Proof.Machine.execCstart p f s
  | .cstop p f => Sys2Proof.Machine.execCstop p f s
  | .cstate p f => Sys2Proof.Machine.execCstate p f s
  | .epost p f => Sys2Proof.Machine.execEpost p f s
  | .ifence p f => Sys2Proof.Machine.execIfence p f s
  | .ill p => Sys2Proof.Machine.execIll p s
  | .strictOperandDelivery p n => Sys2Proof.Machine.execStrictOperandDelivery p n s
  | .freezeResume core => Sys2Proof.Machine.execFreezeResume core s
  | .strictWaitWake p => Sys2Proof.Machine.execStrictWaitWake p s
  | .messageReceipt u m => Sys2Proof.Machine.execMessageReceipt u m s
  | .applyWrite by_ part value => Sys2Proof.Machine.execApplyWrite by_ part value s
  | .applyRun => Sys2Proof.Machine.execApplyRun s
  | .prepare part => Sys2Proof.Machine.execPrepare part s
  | .prepareReceive part u canStage => Sys2Proof.Machine.execPrepareReceive part u canStage s
  | .prepareTimeout part => Sys2Proof.Machine.execPrepareTimeout part s
  | .prepareAbortReceive part u => Sys2Proof.Machine.execPrepareAbortReceive part u s
  | .stepHoldTimeout part => Sys2Proof.Machine.execStepHoldTimeout part s
  | .modeCommit c => Sys2Proof.Machine.execModeCommit c s
  | .commitLineRelease part => Sys2Proof.Machine.execCommitLineRelease part s
  | .rowFetch job idx bad => Sys2Proof.Machine.execRowFetch job idx bad s
  | .rickCacheFetch job idx bad => Sys2Proof.Machine.execRickCacheFetch job idx bad s
  | .sketchDecay die => Sys2Proof.Machine.execSketchDecay die s
  | .windrowCopy n => Sys2Proof.Machine.execWindrowCopy n s
  | .gatherSegmentDone job idx => Sys2Proof.Machine.execGatherSegmentDone job idx s
  | .gatherDeadline job => Sys2Proof.Machine.execGatherDeadline job s
  | .gatherComplete job => Sys2Proof.Machine.execGatherComplete job s
  | .pressureInterval => Sys2Proof.Machine.execPressureInterval s
  | .resaltGroupMigrate part table => Sys2Proof.Machine.execResaltGroupMigrate part table s
  | .gradientContribution job => Sys2Proof.Machine.execGradientContribution job s
  | .sweepStart part => Sys2Proof.Machine.execSweepStart part s
  | .sweepRowBlock part entry block => Sys2Proof.Machine.execSweepRowBlock part entry block s
  | .sweepComplete part => Sys2Proof.Machine.execSweepComplete part s
  | .digestExchange part others => Sys2Proof.Machine.execDigestExchange part others s
  | .journalRecordPlace die => Sys2Proof.Machine.execJournalRecordPlace die s
  | .txPrepared tx die bad => Sys2Proof.Machine.execTxPrepared tx die bad s
  | .txDurablePoint tx => Sys2Proof.Machine.execTxDurablePoint tx s
  | .txRetire tx => Sys2Proof.Machine.execTxRetire tx s
  | .recovery r => Sys2Proof.Machine.execRecovery r s
  | .exportRun part => Sys2Proof.Machine.execExportRun part s
  | .memApply by_ value => Sys2Proof.Machine.execMemApply by_ value s
  | .reservationWindow => Sys2Proof.Machine.execReservationWindow s
  | .throttleTempChange u temp throttle critical => Sys2Proof.Machine.execThrottleTempChange u temp throttle critical s
  | .fallowWrite n => Sys2Proof.Machine.execFallowWrite n s
  | .fallowChunkWaitEnd channel => Sys2Proof.Machine.execFallowChunkWaitEnd channel s
  | .fallowRead p n => Sys2Proof.Machine.execFallowRead p n s
  | .rowRemap stack row why resource lost => Sys2Proof.Machine.execRowRemap stack row why resource lost s
  | .scrubGranule tier granule found => Sys2Proof.Machine.execScrubGranule tier granule found s
  | .scrubRepair granule peer => Sys2Proof.Machine.execScrubRepair granule peer s
  | .scrubSweepStart tier => Sys2Proof.Machine.execScrubSweepStart tier s
  | .correctedSummary => Sys2Proof.Machine.execCorrectedSummary s
  | .discardMergeIntervalEnd u cause => Sys2Proof.Machine.execDiscardMergeIntervalEnd u cause s
  | .retirement kind number why => Sys2Proof.Machine.execRetirement kind number why s
  | .retirementDrained => Sys2Proof.Machine.execRetirementDrained s
  | .retirementCopied => Sys2Proof.Machine.execRetirementCopied s
  | .retireRequest by_ value => Sys2Proof.Machine.execRetireRequest by_ value s
  | .fwImageWrite image signature security version => Sys2Proof.Machine.execFwImageWrite image signature security version s
  | .fwActivate by_ value => Sys2Proof.Machine.execFwActivate by_ value s
  | .fwControllerSwitch controller => Sys2Proof.Machine.execFwControllerSwitch controller s
  | .fwPointerFlip => Sys2Proof.Machine.execFwPointerFlip s
  | .fwRevert controller => Sys2Proof.Machine.execFwRevert controller s
  | .powerControlPeriod r => Sys2Proof.Machine.execPowerControlPeriod r s
  | .thermalCut die sensor reading => Sys2Proof.Machine.execThermalCut die sensor reading s
  | .holdupGateOpen bank => Sys2Proof.Machine.execHoldupGateOpen bank s
  | .inputLoss => Sys2Proof.Machine.execInputLoss s
  | .inputOvervoltage => Sys2Proof.Machine.execInputOvervoltage s
  | .lossSetSaveComplete => Sys2Proof.Machine.execLossSetSaveComplete s
  | .holdEnergyExhausted bank => Sys2Proof.Machine.execHoldEnergyExhausted bank s
  | .inputReturn => Sys2Proof.Machine.execInputReturn s
  | .qualificationComplete => Sys2Proof.Machine.execQualificationComplete s
  | .bringupStage r => Sys2Proof.Machine.execBringupStage r s
  | .coreReset target => Sys2Proof.Machine.execCoreReset target s
  | .clusterReset target => Sys2Proof.Machine.execClusterReset target s
  | .partitionReset target => Sys2Proof.Machine.execPartitionReset target s
  | .computeReset => Sys2Proof.Machine.execComputeReset s
  | .moduleReset keep => Sys2Proof.Machine.execModuleReset keep s
  | .modResetNAssert => Sys2Proof.Machine.execModResetNAssert s
  | .modResetNRelease => Sys2Proof.Machine.execModResetNRelease s
  | .hostPerst port => Sys2Proof.Machine.execHostPerst port s
  | .functionLevelReset f => Sys2Proof.Machine.execFunctionLevelReset f s
  | .busMasterDisable f => Sys2Proof.Machine.execBusMasterDisable f s
  | .busMasterEnable f => Sys2Proof.Machine.execBusMasterEnable f s
  | .sqTailWrite q value => Sys2Proof.Machine.execSqTailWrite q value s
  | .cqHeadWrite q value => Sys2Proof.Machine.execCqHeadWrite q value s
  | .queueEnable q value => Sys2Proof.Machine.execQueueEnable q value s
  | .queueDisable q value => Sys2Proof.Machine.execQueueDisable q value s
  | .sqeFetch q r => Sys2Proof.Machine.execSqeFetch q r s
  | .hostNop q => Sys2Proof.Machine.execHostNop q s
  | .hostWrite q => Sys2Proof.Machine.execHostWrite q s
  | .hostRead q => Sys2Proof.Machine.execHostRead q s
  | .signal q => Sys2Proof.Machine.execSignal q s
  | .programLoad q => Sys2Proof.Machine.execProgramLoad q s
  | .launch q => Sys2Proof.Machine.execLaunch q s
  | .stop q => Sys2Proof.Machine.execStop q s
  | .installTable q => Sys2Proof.Machine.execInstallTable q s
  | .installObject q => Sys2Proof.Machine.execInstallObject q s
  | .remove q => Sys2Proof.Machine.execRemove q s
  | .removeTakeEffect part => Sys2Proof.Machine.execRemoveTakeEffect part s
  | .installSweepPlan q => Sys2Proof.Machine.execInstallSweepPlan q s
  | .installMirror q => Sys2Proof.Machine.execInstallMirror q s
  | .mirrorCopy part obj => Sys2Proof.Machine.execMirrorCopy part obj s
  | .installMembership q => Sys2Proof.Machine.execInstallMembership q s
  | .topologySearch q => Sys2Proof.Machine.execTopologySearch q s
  | .searchFlitReceive link m => Sys2Proof.Machine.execSearchFlitReceive link m s
  | .exportCmd q => Sys2Proof.Machine.execExportCmd q s
  | .importCmd q => Sys2Proof.Machine.execImportCmd q s
  | .replayStart q => Sys2Proof.Machine.execReplayStart q s
  | .replayEnd q => Sys2Proof.Machine.execReplayEnd q s
  | .registerRegion q => Sys2Proof.Machine.execRegisterRegion q s
  | .deregisterRegion q => Sys2Proof.Machine.execDeregisterRegion q s
  | .connect q => Sys2Proof.Machine.execConnect q s
  | .disconnect q => Sys2Proof.Machine.execDisconnect q s
  | .openStream q => Sys2Proof.Machine.execOpenStream q s
  | .closeStream q => Sys2Proof.Machine.execCloseStream q s
  | .msixHoldoffExpiry f vector => Sys2Proof.Machine.execMsixHoldoffExpiry f vector s
  | .msixUnmask f vector => Sys2Proof.Machine.execMsixUnmask f vector s
  | .rdmaWrite r => Sys2Proof.Machine.execRdmaWrite r s
  | .rdmaWriteImmediate r imm => Sys2Proof.Machine.execRdmaWriteImmediate r imm s
  | .rdmaRead r => Sys2Proof.Machine.execRdmaRead r s
  | .cnpReceive part conn => Sys2Proof.Machine.execCnpReceive part conn s
  | .rateRecoveryStep part conn => Sys2Proof.Machine.execRateRecoveryStep part conn s
  | .serveRequest port d => Sys2Proof.Machine.execServeRequest port d s
  | .serveBackstop part n queued => Sys2Proof.Machine.execServeBackstop part n queued s
  | .serveHoldBoundExpiry part => Sys2Proof.Machine.execServeHoldBoundExpiry part s
  | .recordFragment port d => Sys2Proof.Machine.execRecordFragment port d s
  | .partialRecordTimeout part stream => Sys2Proof.Machine.execPartialRecordTimeout part stream s
  | .creditTimer part stream => Sys2Proof.Machine.execCreditTimer part stream s
  | .flitReceive link f crc => Sys2Proof.Machine.execFlitReceive link f crc s
  | .retryRequestReceive link seq => Sys2Proof.Machine.execRetryRequestReceive link seq s
  | .keepaliveTimer link => Sys2Proof.Machine.execKeepaliveTimer link s
  | .linkDownTimeout link => Sys2Proof.Machine.execLinkDownTimeout link s
  | .linkRetrain link r => Sys2Proof.Machine.execLinkRetrain link r s
  | .laneFailure link lane => Sys2Proof.Machine.execLaneFailure link lane s
  | .timeFlitExchange link t => Sys2Proof.Machine.execTimeFlitExchange link t s
  | .fencedReplyReceive part epoch => Sys2Proof.Machine.execFencedReplyReceive part epoch s
  | .newerEpochHoldExpiry part => Sys2Proof.Machine.execNewerEpochHoldExpiry part s
  | .collectivePhaseStart coll r => Sys2Proof.Machine.execCollectivePhaseStart coll r s
  | .collectivePieceReceive coll => Sys2Proof.Machine.execCollectivePieceReceive coll s
  | .permutePieceCommit coll => Sys2Proof.Machine.execPermutePieceCommit coll s
  | .ringStepWatchdog coll => Sys2Proof.Machine.execRingStepWatchdog coll s
  | .abortFlitReceive link f => Sys2Proof.Machine.execAbortFlitReceive link f s
  | .collectiveComplete coll => Sys2Proof.Machine.execCollectiveComplete coll s
  | .licenceApply by_ value => Sys2Proof.Machine.execLicenceApply by_ value s
  | .stageWrite by_ part value => Sys2Proof.Machine.execStageWrite by_ part value s
  | .keepWrite by_ part value => Sys2Proof.Machine.execKeepWrite by_ part value s
  | .syncWrite by_ part value => Sys2Proof.Machine.execSyncWrite by_ part value s
  | .strictWrite by_ part value => Sys2Proof.Machine.execStrictWrite by_ part value s
  | .errHeadWrite f value => Sys2Proof.Machine.execErrHeadWrite f value s
  | .counterSnapshot by_ b value => Sys2Proof.Machine.execCounterSnapshot by_ b value s
  | .counterClear by_ b value => Sys2Proof.Machine.execCounterClear by_ b value s
  | .accErrRead by_ b width => Sys2Proof.Machine.execAccErrRead by_ b width s
  | .nowRead by_ b width => Sys2Proof.Machine.execNowRead by_ b width s
  | .registerWrite by_ addr width value => Sys2Proof.Machine.execRegisterWrite by_ addr width value s
  | .mgmtRegisterRead r => Sys2Proof.Machine.execMgmtRegisterRead r s
  | .mgmtRegisterWrite r value => Sys2Proof.Machine.execMgmtRegisterWrite r value s
  | .mgmtLogRead tag count first => Sys2Proof.Machine.execMgmtLogRead tag count first s
  | .setEndpointId eid => Sys2Proof.Machine.execSetEndpointId eid s
  | .getEndpointId => Sys2Proof.Machine.execGetEndpointId s
  | .getMctpVersionSupport msgType => Sys2Proof.Machine.execGetMctpVersionSupport msgType s
  | .getMessageTypeSupport => Sys2Proof.Machine.execGetMessageTypeSupport s
  | .pldmBase command => Sys2Proof.Machine.execPldmBase command s
  | .pldmSensorRead sensor => Sys2Proof.Machine.execPldmSensorRead sensor s
  | .spdmGetVersion v => Sys2Proof.Machine.execSpdmGetVersion v s
  | .spdmGetCapabilities v => Sys2Proof.Machine.execSpdmGetCapabilities v s
  | .spdmNegotiateAlgorithms v => Sys2Proof.Machine.execSpdmNegotiateAlgorithms v s
  | .spdmGetDigests v => Sys2Proof.Machine.execSpdmGetDigests v s
  | .spdmGetCertificate v slot offset length => Sys2Proof.Machine.execSpdmGetCertificate v slot offset length s
  | .spdmChallenge v nonce => Sys2Proof.Machine.execSpdmChallenge v nonce s
  | .spdmGetMeasurements v index nonce => Sys2Proof.Machine.execSpdmGetMeasurements v index nonce s
  | .tapBypass code tdi => Sys2Proof.Machine.execTapBypass code tdi s
  | .tapIdcode => Sys2Proof.Machine.execTapIdcode s
  | .tapSamplePreload pins preload => Sys2Proof.Machine.execTapSamplePreload pins preload s
  | .tapExtest tdi => Sys2Proof.Machine.execTapExtest tdi s
  | .tapClamp tdi => Sys2Proof.Machine.execTapClamp tdi s
  | .tapHighz tdi => Sys2Proof.Machine.execTapHighz tdi s
  | .tapReset => Sys2Proof.Machine.execTapReset s
  | .indirectBlockRead q r => Sys2Proof.Machine.execIndirectBlockRead q r s
  | .writeVisible p => Sys2Proof.Machine.execWriteVisible p s
  | .digestRecompute part entry => Sys2Proof.Machine.execDigestRecompute part entry s
  | .hotReset port => Sys2Proof.Machine.execHotReset port s
  | .hostLinkDown port => Sys2Proof.Machine.execHostLinkDown port s
  | .hostLinkUp port rate width => Sys2Proof.Machine.execHostLinkUp port rate width s
  | .networkLinkDown port lanes => Sys2Proof.Machine.execNetworkLinkDown port lanes s
  | .networkLinkUp port lanes => Sys2Proof.Machine.execNetworkLinkUp port lanes s

end Sys2Proof.Machine
end

