-- ==== Sys2Proof/Safety.lean ====
section
/-! DEFINITION. The words that statements use: the invariant every step keeps, the shape of a safe outcome, when an
instruction issues and completes, and what an instruction or a command leaves as it was. -/

namespace Sys2Proof.Machine

/-- Memory is in its canonical form. -/
def State.memOk (s : State) : Prop := Memory.wf s.mem = true

/-- Memory and the bytes of every saved loss set (R514) are in canonical form. -/
def State.bytesOk (s : State) : Prop := s.memOk ∧ ∀ c ∈ s.power.copies, Memory.wf c.mem = true

/-- An outcome that is a next state with a property. -/
def Completes (o : Host.Outcome State Fault Refusal) (P : State → Prop) : Prop := ∃ t, o = .next t ∧ P t

/-! ### Issue (R98, R99, R132) -/

/-- Context `p` takes an issue slot for an instruction that uses the registers `u`: the module runs, the core is not
frozen, the pc can be fetched from, the operands are there, its unit has room, no check of the instruction fails, nothing
holds it back. -/
structure Issues (s : State) (p : At) (u : Uses) (room : Room) (check : Option (BitVec 8)) : Prop where
  can : s.canIssue p = true
  fetch : fetchFault (s.ctx p).pc = none
  ready : s.ready p u = true
  ok : check = none
  hold : room.hold = none
  room : room.full = false

/-- A context after it has issued an instruction: ready, past the instruction. -/
def Ctx.advanced (c : Ctx) : Ctx := { c with state := .ready, stalledOn := none, pc := c.pc + 8 }

/-- An instruction that issued left `u` (the state before it, with what the instruction does outside its core) but
for its own context and the issue bookkeeping and counters of its core: the contexts of others, the units of its core, the
other cores, memory and every other part of the state are those of `u`. -/
structure BesidesIssue (s u t : State) (p : At) : Prop where
  rest : t = { u with
    cores := t.cores
    free := t.free
    power := { u.power with lent := t.power.lent, activeAt := t.power.activeAt } }
  others : ∀ q, q ≠ p → t.ctx q = s.ctx q
  cores : ∀ k, k ≠ p.core → t.core k = s.core k
  units : (t.core p.core).tiles = (s.core p.core).tiles ∧ (t.core p.core).frozen = (s.core p.core).frozen ∧ (t.core p.core).entries = (s.core p.core).entries
  issued : (t.core p.core).cnt.issued = sat64 ((s.core p.core).cnt.issued + 1)

/-- An instruction that issued touched only its own context. -/
abbrev OnlyContext (s t : State) (p : At) : Prop := BesidesIssue s s t p

/-- An instruction that issued touched only its own context, which is now `c`. -/
def Becomes (s t : State) (p : At) (c : Ctx) : Prop := OnlyContext s t p ∧ t.ctx p = c

/-- The instruction wrote `v` to scalar register `r` (s0 discards it) and nothing else. -/
structure WritesScalar (s t : State) (p : At) (r : BitVec 5) (v : Word) : Prop where
  only : OnlyContext s t p
  regs : ∀ q, (t.ctx p).getS q = if q = 0 then 0 else if q = r then v else (s.ctx p).getS q
  frame : t.ctx p = { (s.ctx p).advanced with s := (t.ctx p).s }

/-- The instruction wrote `v` to vector register `r`, its marks to the sticky pair, and nothing else. -/
structure WritesVector (s t : State) (p : At) (r : BitVec 4) (v : VReg) : Prop where
  only : OnlyContext s t p
  regs : ∀ q, (t.ctx p).getV q = if q = r then v else (s.ctx p).getV q
  frame : t.ctx p = { (s.ctx p).advanced with
    v := (t.ctx p).v
    stickyBlight := (s.ctx p).stickyBlight || v.blight
    stickySubst := (s.ctx p).stickySubst || v.subst }

/-- The instruction at the pc of context `p` did not issue but faulted with `cause` (R132, R156, R157): the context is faulted at
its pc with its registers kept and its open transaction aborted, a record of class 0x05 cause 0x01 is posted, and the release of
its fault flag, where that is one of its partition's (R308), is sent or owed. Memory, the other contexts, the other cores
and the count of issued instructions stay. -/
structure Faults (s t : State) (p : At) (cause : BitVec 8) : Prop where
  ctx : t.ctx p = { s.ctx p with
    state := .faulted
    faultCause := cause
    faultPc := (s.ctx p).pc.setWidth 20
    wait := none
    stalledOn := none
    tx := none
    txid := if (s.ctx p).tx.isSome then 0 else (s.ctx p).txid
    owed := (t.ctx p).owed }
  others : ∀ q, q ≠ p → t.ctx q = s.ctx q
  cores : ∀ k, k ≠ p.core → t.core k = s.core k
  counted : (t.core p.core).cnt.issued = (s.core p.core).cnt.issued
  mem : t.mem = s.mem
  record : ∃ w, t.errs.log.getLast? = some {
    cls := 0x05, cause := 0x01, unit := 0x00, loc := BitVec.ofNat 32 p.core, seq := s.errs.nextSeq, time := s.now, tag := w,
    detail := BitVec.ofNat 64 (p.ctx * 2 ^ 32 + cause.toNat * 2 ^ 24 + (s.ctx p).pc.toNat % 2 ^ 20) }
  seq : t.errs.nextSeq = s.errs.nextSeq + 1
  flag : match (s.ctx p).faultFlag.filter (fun id => s.flagPart id.toNat = s.partOf p.core) with
    | some id => if (s.ctx p).drained
        then (∃ w, t.sync.inflight = s.sync.inflight ++ [⟨.ctx p, fld id.toNat 16 14, .setFlag id.toNat, w⟩]) ∧ (t.ctx p).owed = (s.ctx p).owed
        else t.sync = s.sync ∧ (t.ctx p).owed = (s.ctx p).owed ++ [⟨.ctx p, fld id.toNat 16 14, .setFlag id.toNat, 0⟩]
    | none => t.sync = s.sync ∧ (t.ctx p).owed = (s.ctx p).owed

/-- What a store instruction leaves outside its context: the bytes of the scratchpad, or the write in the context's open
transaction (R117, R251). -/
def State.stored (s : State) (p : At) (a : Word) (data : List Byte) (m : Marks) : State :=
  if spaceOf a = 0 then s.writeMarked (s.partNum p.core) p.core a data m.blight m.subst
  else match (s.ctx p).tx with
    | some num => s.txWrite num a data m.blight m.subst
    | none => s

/-- What a store beyond the scratchpad outside a transaction leaves on its way. -/
def State.storesOf (s : State) (p : At) (a : Word) (data : List Byte) (m : Marks) : List Store :=
  if spaceOf a = 0 || (s.ctx p).tx.isSome then []
  else [{ num := (s.ctx p).nextMove, addr := a, data := data, blight := m.blight, subst := m.subst,
          tag := s.tagOf p 0 (s.dataClass p false).code m.blight m.subst }]

/-- The runs of bytes that a VQ of `outs` writes: codes, scale words, side entries, outlier values, statistics and the
counts of the descriptor (R149). -/
def vqSpans (d : TDesc) (outs : List QOut) : List (Word × Nat) :=
  [(plus d.code (d.cursor * 4 * eltBits d.fmt), outs.length * 4 * eltBits d.fmt), (plus d.scale (2 * d.cursor), 2 * outs.length),
   (plus d.esc (8 * d.escN), (vqEsc d outs).length), (plus d.prom (40 * d.promN), (vqProm d outs).length), (plus d.at_ 0x60, 24)]
  ++ (if d.stats then [(d.statAddr, 576)] else [])
  ++ ((List.range d.outliers.length).map (fun j => (List.range outs.length).map (fun i =>
      (plus d.outl (2 * ((d.cursor + i) / max 1 d.blocks * d.outCount + j)), 2)))).flatten

/-- The bytes of memory that runs of a core's addresses name. -/
def State.keysOfRuns (s : State) (n core : Nat) (l : List (Word × Nat)) : List Nat := (l.map (fun x => s.keysOf n core x.1 x.2)).flatten

/-- Every byte of memory reads as before but those at the listed keys. -/
def KeepsBytes (s t : State) (ks : List Nat) : Prop := ∀ k, k ∉ ks → Memory.get t.mem k = Memory.get s.mem k

/-! ### Reports and the layout of memory -/

/-- `t` is `u` but for what it reports: error records, the functions' rings, entries and vectors, messages that leave. -/
def BesidesReports (u t : State) : Prop := t = { u with errs := t.errs, host := t.host, out := t.out }

/-- Two states lay memory out alike: the same objects, tables and configuration in every partition. -/
def SameMap (s u : State) : Prop :=
  ∀ m, (s.part m).objects = (u.part m).objects ∧ (s.part m).tables = (u.part m).tables ∧ (s.part m).cfg = (u.part m).cfg

/-! ### Host commands (R436 to R440) -/

/-- The completion queue of `q` takes one more entry; a pair that stops only to start anew begins its rings again (R464). -/
def TakesEntry (u t : State) (q : QRef) : Prop := (u.queue q).restarts = false → (t.queue q).cqTail = (u.queue q).cqTail + 1

/-- A command of opcode `op` runs from queue `q` on partition `n`, as `c`, from the state `u`: the oldest unstarted
descriptor starts with its block inline, or the started command has its indirect block. -/
def HostRuns (s : State) (q : QRef) (op n : Nat) (u : State) (c : HostCmd) : Prop :=
  s.live = true ∧ s.boundPart (qFunc q) = some n ∧ opcodeOf c.desc = op ∧
  ((∃ f rest, (s.queue q).started = none ∧ (s.queue q).fetched = f :: rest ∧ s.mayStartCmd q f.desc = true ∧ headerOk f.desc = true
      ∧ takesIndirect f.desc = false ∧ c = { ref := refOf q f.seq f.desc, desc := f.desc, block := slice f.desc 0x40 (leAt f.desc 2 2) }
      ∧ u = (s.updQueue q (fun x => { x with fetched := rest, reserved := x.reserved + 1, running := x.running ++ [f.seq] })).fnCount (qFunc q) 0)
    ∨ (∃ st b, (s.queue q).started = some st ∧ st.block = some b ∧ c = { ref := refOf q st.seq st.desc, desc := st.desc, block := b }
      ∧ u = s.updQueue q (fun x => { x with started := none })))

/-- The command `c` ended on `u`: beside reports nothing else changed, one completion entry was produced (in a queue that does
not start afresh with it), and it left with the status, detail and result given where the function may write. -/
def Answers (u t : State) (c : HostCmd) (status detail : BitVec 16) (result : Word) : Prop :=
  BesidesReports u t ∧ TakesEntry u t c.ref.q ∧
  ((u.func (qFunc c.ref.q)).busMaster = true →
    let x := u.queue c.ref.q
    Out.completion c.ref.q (x.cqTail % 2 ^ x.sizeLog2) c.ref.seq c.ref.id result status detail (phaseBit x.cqTail x.sizeLog2) ∈ t.out)

end Sys2Proof.Machine
end

