-- ==== Sys2Proof/Certificates/Slice0/Obligations.lean ====
section
/-! DEFINITION. The statements for the provers. -/

open Sys2Proof Sys2Proof.Machine

/-! ### Scalar instructions -/

/-- R145, R134: the sixteen ALU rows write `op sa b` to sd, b being sb or the sign-extended immediate; every other
register, the marks, memory and all else stay (frame). -/
def Obligations.ScalarArithmeticResults : Prop :=
  ∀ (s : State) (p : At) (f : LayS),
    Issues s p { s := [f.sd, f.sa, f.sb] } {} (if f.i = 1 then must (f.sb = 0) 0x03 else must (f.imm = 0) 0x03) →
    let a := (s.ctx p).getS f.sa
    let b := if f.i = 1 then f.imm.signExtend 64 else (s.ctx p).getS f.sb
    ∀ iv ∈ [(Instr.add p f, a + b), (.sub p f, a - b), (.and p f, a &&& b), (.or p f, a ||| b), (.xor p f, a ^^^ b),
        (.shl p f, a <<< (b.toNat % 64)), (.shr p f, a >>> (b.toNat % 64)), (.sar p f, a.sshiftRight (b.toNat % 64)),
        (.mul p f, a * b), (.mulhu p f, BitVec.ofNat 64 (a.toNat * b.toNat / 2 ^ 64)),
        (.min p f, BitVec.ofInt 64 (min a.toInt b.toInt)), (.max p f, BitVec.ofInt 64 (max a.toInt b.toInt)),
        (.minu p f, BitVec.ofNat 64 (min a.toNat b.toNat)), (.maxu p f, BitVec.ofNat 64 (max a.toNat b.toNat)),
        (.slt p f, if a.toInt < b.toInt then 1 else 0), (.sltu p f, if a.toNat < b.toNat then 1 else 0)],
      Completes (exec iv.1 s) (fun t => WritesScalar s t p f.sd iv.2)

/-- R145, R148: a branch goes to pc + 8 × imm32 (sign-extended, log entry 11) where its comparison holds and to pc + 8
otherwise; JAL and JALR also write pc + 8 to sd. Nothing else changes. -/
def Obligations.BranchesAndJumps : Prop :=
  ∀ (s : State) (p : At) (f : LayS),
    let c := s.ctx p
    let a := c.getS f.sa
    let b := c.getS f.sb
    let far := c.pc + 8 * f.imm.signExtend 64
    (Issues s p { s := [f.sa, f.sb] } {} (must (f.sd = 0 && f.i = 0) 0x03) →
      ∀ iv ∈ [(Instr.beq p f, decide (a = b)), (.bne p f, decide (a ≠ b)), (.blt p f, decide (a.toInt < b.toInt)),
          (.bge p f, decide (b.toInt ≤ a.toInt)), (.bltu p f, decide (a.toNat < b.toNat)), (.bgeu p f, decide (b.toNat ≤ a.toNat))],
        Completes (exec iv.1 s) (fun t => Becomes s t p { c.advanced with pc := if iv.2 then far else c.pc + 8 }))
    ∧ (Issues s p { s := [f.sd] } {} (must (f.sa = 0 && f.sb = 0) 0x03) →
      Completes (exec (.jal p f) s) (fun t => Becomes s t p { c.advanced.setS f.sd (c.pc + 8) with pc := far }))
    ∧ (Issues s p { s := [f.sd, f.sa] } {} (must (f.sb = 0 && f.imm = 0) 0x03) →
      Completes (exec (.jalr p f) s) (fun t => Becomes s t p { c.advanced.setS f.sd (c.pc + 8) with pc := a }))

/-- R145, R117, R118, R251: LD from the scratchpad writes the bytes there, zero- or sign-extended, to sd at once; one from
beyond leaves an outstanding load, and the marks of what is read mark the sticky pair. ST to the scratchpad stores the low bytes
of sb there at once; one beyond joins the context's open transaction, and with none leaves a store that is not visible yet.
Memory changes in the stored bytes alone. -/
def Obligations.ScalarLoadsAndStores : Prop :=
  ∀ (s : State) (p : At) (f : LayS) (sub : BitVec 8),
    let c := s.ctx p
    let n := s.partNum p.core
    let a := c.getS f.sa + f.imm.signExtend 64
    let size := 2 ^ (sub.toNat % 4)
    let bytes := leBytes size (c.getS f.sb).toNat
    (Issues s p { s := [f.sd, f.sa] } (s.lsuRoom p)
        (firstFault [must (sub.toNat < 8 && f.sb = 0 && f.i = 0) 0x03, s.accessFault n .load a size size]) →
      Completes (exec (.ld p f sub) s) (fun t => OnlyContext s t p ∧
        if spaceOf a = 0 then
          let r := s.readMarked n p.core a size
          t.ctx p = (c.advanced.setS f.sd (if sub.getLsbD 2 then BitVec.ofInt 64 (signed (8 * size) (leAt r.1 0 size)) else BitVec.ofNat 64 (leAt r.1 0 size))).mark r.2.1 r.2.2
        else t.ctx p = { c.advanced with loads := c.loads ++ [s.loadOf p (.scalar f.sd size (sub.getLsbD 2)) a (t.core p.core).cnt.beats] }))
    ∧ (Issues s p { s := [f.sa, f.sb] } (s.lsuRoom p)
        (firstFault [must (sub.toNat < 4 && f.sd = 0 && f.i = 0) 0x03, s.accessFault n .store a size size]) →
      Completes (exec (.st p f sub) s) (fun t =>
        BesidesIssue s (((s.issued p).stored p a bytes {}).noteSlot p a) t p
        ∧ (spaceOf a = 0 → t.mem = Memory.putAll s.mem (List.zip (s.keysOf n p.core a size) bytes))
        ∧ KeepsBytes s t (if spaceOf a = 0 then s.keysOf n p.core a size else [])
        ∧ t.ctx p = { c.advanced with
          stores := c.stores ++ s.storesOf p a bytes {}
          nextMove := c.nextMove + (s.storesOf p a bytes {}).length }))

/-- R145, R150, R135, R101: what LIH, GETS, TGET and MEPOCH write to sd, the sticky pair that TSTAT writes there and clears, the
tag step that TSTEP sets. The timekeeper (selector 5) reads as a time at most one crossing old and CO_CNT_BEATS
(selector 6) as the live count, this beat in it. -/
def Obligations.TagAndModeResults : Prop :=
  ∀ (s : State) (p : At),
    let c := s.ctx p
    let n := s.partNum p.core
    let cl := coreCluster p.core
    (∀ f : LayS, Issues s p { s := [f.sd] } {} (must (f.sa = 0 && f.sb = 0 && f.i = 0) 0x03) →
      Completes (exec (.lih p f) s) (fun t => WritesScalar s t p f.sd (f.imm ++ (c.getS f.sd).setWidth 32)))
    ∧ (∀ (f : LayS) (sel : BitVec 8),
        Issues s p { s := [f.sd] } {} (firstFault [must (sel.toNat ≤ 8) 0x02, must (f.sa = 0 && f.sb = 0 && f.i = 0 && f.imm = 0) 0x03]) →
      Completes (exec (.gets p f sel) s) (fun t => ∃ v, WritesScalar s t p f.sd v
        ∧ (∀ x ∈ [(0, p.ctx), (1, p.core), (2, cl), (3, n), (4, (s.cluster cl).epoch.toNat), (6, (t.core p.core).cnt.beats),
              (7, b2n (s.strictCore p.core)), (8, (s.coresOf n).length)], sel.toNat = x.1 → v = BitVec.ofNat 64 x.2)
        ∧ (sel.toNat = 5 → ∃ age, age ≤ 5 ∧ v = BitVec.ofNat 64 (s.now - age))))
    ∧ (∀ f : LayA, Issues s p { s := [f.sd] } {} (must (f.sa = 0 && f.zero = 0) 0x03) →
      Completes (exec (.tget p f) s) (fun t => WritesScalar s t p f.sd (s.tagOf p 0 0 false false))
      ∧ Completes (exec (.mepoch p f) s) (fun t => WritesScalar s t p f.sd
          (BitVec.ofNat 64 ((s.cluster cl).epoch.toNat + if s.preparePending cl then 2 ^ 12 else 0)))
      ∧ Completes (exec (.tstat p f) s) (fun t => Becomes s t p { c.advanced.setS f.sd
            (BitVec.ofNat 64 ((if c.stickyBlight then 2 else 0) + if c.stickySubst then 1 else 0)) with
          stickyBlight := false
          stickySubst := false }))
    ∧ (∀ f : LayA, Issues s p { s := [f.sa] } {} (must (f.sd = 0 && f.zero = 0) 0x03) →
      Completes (exec (.tstep p f) s) (fun t => Becomes s t p { c.advanced with step := (c.getS f.sa).setWidth 16 }))

/-! ### Vector instructions -/

/-- R145, R146, R63: the lane-wise rows write, element by element, the operation on the exact values of the sources
rounded once to the format; blight and substituted of the result are the OR of the sources' (R37). -/
def Obligations.VectorLanewiseResults : Prop :=
  ∀ (s : State) (p : At) (f : LayV),
    let c := s.ctx p
    let fr := fracOf f.fmt
    let x := vvals f.fmt (c.getV f.va)
    let y := vvals f.fmt (c.getV f.vb)
    let z := vvals f.fmt (c.getV f.vc)
    let one := truth fr
    (Issues s p { v := [f.vd, f.va, f.vb] } (s.vecRoom p) (firstFault [must (f.vc = 0 && f.sa = 0 && f.sb = 0 && f.imm = 0) 0x03, vfmt f.fmt]) →
      ∀ iv ∈ [(Instr.vadd p f, fun a b => encFp fr (addVal a b)), (.vsub p f, fun a b => encFp fr (addVal a (negVal b))),
          (.vmul p f, fun a b => encFp fr (mulVal a b)), (.vmin p f, fun a b => encFp fr (minVal a b)),
          (.vmax p f, fun a b => encFp fr (maxVal a b)), (.vclt p f, fun a b => one (ltVal a b)), (.vceq p f, fun a b => one (eqVal a b))],
        Completes (exec iv.1 s) (fun t => WritesVector s t p f.vd
          (vregOf (packLanes f.fmt (List.zipWith iv.2 x y)) (marksOf c [f.va, f.vb]))))
    ∧ (Issues s p { v := [f.vd, f.va, f.vb, f.vc] } (s.vecRoom p) (firstFault [must (f.sa = 0 && f.sb = 0 && f.imm = 0) 0x03, vfmt f.fmt]) →
      ∀ iv ∈ [(Instr.vfma p f, fun a b d => encFp fr (addVal (mulVal a b) d)), (.vsel p f, fun a b d => encFp fr (if nonZero d then a else b))],
        Completes (exec iv.1 s) (fun t => WritesVector s t p f.vd
          (vregOf (packLanes f.fmt (List.zipWith (fun a bd => iv.2 a bd.1 bd.2) x (List.zip y z))) (marksOf c [f.va, f.vb, f.vc]))))
    ∧ (Issues s p { v := [f.vd, f.va] } (s.vecRoom p) (firstFault [must (f.vb = 0 && f.vc = 0 && f.sa = 0 && f.sb = 0 && f.imm = 0) 0x03, vfmt f.fmt]) →
      ∀ iv ∈ [(Instr.vabs p f, fun a => encFp fr (absVal a)), (.vneg p f, fun a => encFp fr (negVal a)), (.vexp2 p f, exp2Fp fr),
          (.vlog2 p f, log2Fp fr), (.vrcp p f, rcpFp fr), (.vrsqrt p f, rsqrtFp fr), (.vsqrt p f, sqrtFp fr)],
        Completes (exec iv.1 s) (fun t => WritesVector s t p f.vd (vregOf (packLanes f.fmt (x.map iv.2)) (marksOf c [f.va]))))

/-- R113, R145, R146, R392: reductions by groups and of the whole register, conversion, broadcast, extraction to a scalar
register and the random values of a key block. -/
def Obligations.VectorReductionsAndMoves : Prop :=
  ∀ (s : State) (p : At) (f : LayV),
    let c := s.ctx p
    let n := s.partNum p.core
    let fr := fracOf f.fmt
    let x := vvals f.fmt (c.getV f.va)
    let group (g : List Val → Nat) : List Nat :=
      ((List.range (x.length / 32)).map (fun i => List.replicate 32 (g ((x.drop (32 * i)).take 32)))).flatten
    (Issues s p { v := [f.vd, f.va] } (s.vecRoom p) (firstFault [must (f.vb = 0 && f.vc = 0 && f.sa = 0 && f.sb = 0 && f.imm = 0) 0x03, vfmt f.fmt]) →
      ∀ iv ∈ [(Instr.vgmax p f, packLanes f.fmt (group (fun l => encFp fr (maxOf true l)))), (.vgsum p f, packLanes f.fmt (group (sumFp fr))),
          (.vrsum p f, w96Lanes (encW96 (sumMeasured x).1 (sumMeasured x).2)), (.vrsumf p f, oneLane (sumFp 23 x)),
          (.vrmax p f, oneLane (encFp fr (maxOf false x))), (.vrmaxa p f, oneLane (encFp fr (maxOf true x)))],
        Completes (exec iv.1 s) (fun t => WritesVector s t p f.vd (vregOf iv.2 (marksOf c [f.va]))))
    ∧ (Issues s p { v := [f.vd, f.va] } (s.vecRoom p) (firstFault [must (f.vb = 0 && f.vc = 0 && f.sa = 0 && f.sb = 0 && f.imm.toNat < 2) 0x03, vfmt f.fmt]) →
        Completes (exec (.vcvt p f) s) (fun t => WritesVector s t p f.vd
          (if f.fmt = 0x11 then vregOf (mkLanes (fun i => BitVec.ofNat 32 (encFp 23 (bf16 ((c.getV f.va).half (128 * f.imm.toNat + i)).toNat)))) (marksOf c [f.va])
           else vregOf (mkHalves (fun i => if i / 128 = f.imm.toNat then encFp 7 (fp32 ((c.getV f.va).lane (i % 128)).toNat)
             else ((c.getV f.vd).half i).toNat)) (marksOf c [f.va, f.vd]))))
    ∧ (Issues s p { s := [f.sb], v := [f.vd] } (s.vecRoom p) (must (f.va = 0 && f.vb = 0 && f.vc = 0 && f.sa = 0 && f.fmt = 0 && f.imm = 0) 0x03) →
        Completes (exec (.vbcast p f) s) (fun t => WritesVector s t p f.vd { lanes := mkLanes (fun _ => (c.getS f.sb).setWidth 32) }))
    ∧ (Issues s p { s := [f.sa], v := [f.va] } (s.vecRoom p) (must (f.vd = 0 && f.vb = 0 && f.vc = 0 && f.sb = 0 && f.fmt = 0 && f.imm.toNat < 128) 0x03) →
        Completes (exec (.vext p f) s) (fun t => Becomes s t p
          ((c.advanced.setS f.sa (((c.getV f.va).lane f.imm.toNat).setWidth 64)).mark (c.getV f.va).blight (c.getV f.va).subst)))
    ∧ (Issues s p { s := [f.sb], v := [f.vd] } (s.vecRoom p)
          (firstFault [must (f.va = 0 && f.vb = 0 && f.vc = 0 && f.sa = 0 && f.imm = 0) 0x03, must (f.fmt = 0 || f.fmt = 0x11) 0x04,
            s.accessFault n .block (c.getS f.sb) 32 32]) →
        Completes (exec (.vrng p f) s) (fun t => let r := s.readMarked n p.core (c.getS f.sb) 32
          WritesVector s t p f.vd { lanes := rngLanes f.fmt r.1, blight := r.2.1, subst := r.2.2 }))

/-- R145, R149, R114, R135, R37: VLD loads 512 bytes with their marks, at once from the scratchpad and as an outstanding load
from beyond; VST stores a register and its marks, which join the sticky pair. VQ writes the areas, the statistics and the
counts of its descriptor and nothing else; VDQ decodes blocks into vd and leaves memory. Where VQ or VDQ reads beyond the
scratchpad its operands are outstanding, as for a load. -/
def Obligations.VectorMemoryResults : Prop :=
  ∀ (s : State) (p : At) (f : LayV),
    let c := s.ctx p
    let n := s.partNum p.core
    let a := c.getS f.sb + 64 * f.imm.signExtend 64
    let v := c.getV f.va
    let d := s.desc n p.core (c.getS f.sb)
    let bad := v.blight || d.2
    (Issues s p { s := [f.sb], v := [f.vd] } (s.lsuRoom p)
        (firstFault [must (f.va = 0 && f.vb = 0 && f.vc = 0 && f.sa = 0 && f.fmt = 0) 0x03, s.accessFault n .load a 512 64]) →
      Completes (exec (.vld p f) s) (fun t => let r := s.readMarked n p.core a 512
        if spaceOf a = 0 then WritesVector s t p f.vd { lanes := lanesOf r.1, blight := r.2.1, subst := r.2.2 }
        else Becomes s t p { c.advanced with loads := c.loads ++ [s.loadOf p (.vector f.vd) a (t.core p.core).cnt.beats] }))
    ∧ (Issues s p { s := [f.sb], v := [f.va] } (s.lsuRoom p)
        (firstFault [must (f.vd = 0 && f.vb = 0 && f.vc = 0 && f.sa = 0 && f.fmt = 0) 0x03, s.accessFault n .store a 512 64]) →
      Completes (exec (.vst p f) s) (fun t =>
        BesidesIssue s ((s.issued p).stored p a v.bytes v.marks) t p
        ∧ (spaceOf a = 0 → t.mem = Memory.putAll s.mem (List.zip (s.keysOf n p.core a 512) v.bytes))
        ∧ KeepsBytes s t (if spaceOf a = 0 then s.keysOf n p.core a 512 else [])
        ∧ t.ctx p = { c.advanced.mark v.blight v.subst with
          stores := c.stores ++ s.storesOf p a v.bytes v.marks
          nextMove := c.nextMove + (s.storesOf p a v.bytes v.marks).length }))
    ∧ (Issues s p { s := [f.sb], v := [f.va] } (s.vecRoom p)
        (firstFault [must (f.vd = 0 && f.vb = 0 && f.vc = 0 && f.sa = 0 && f.imm = 0) 0x03, vfmt f.fmt,
          vqFault s n p.core (c.getS f.sb) bad (vvals f.fmt v)]) →
      let m : Marks := ⟨bad, v.subst || s.runsSubst n p.core d.1.headRuns⟩
      let runs := d.1.headRuns ++ (if d.1.stats then [(d.1.statAddr, 576)] else [])
      let u := vqWrite (s.issued p) n p.core d.1 m (vvals f.fmt v)
      Completes (exec (.vq p f) s) (fun t => BesidesIssue s (u.servedRuns s p runs) t p ∧ t.mem = u.mem
        ∧ KeepsBytes s t (s.keysOfRuns n p.core (vqSpans d.1 (vqOuts d.1 bad (vvals f.fmt v))))
        ∧ t.ctx p = { c.advanced.mark m.blight m.subst with
          loads := c.loads ++ s.delay p (fun len => .engine len [] []) runs (t.core p.core).cnt.beats }))
    ∧ (let d := d.1
       let first := (c.getS f.sa).toNat
       let k := if f.fmt = 0x10 then 8 else 4
       let bs := (List.range k).map (fun i => s.blockVals n p.core d (first + i))
       let runs := d.headRuns ++ d.blockRuns first k ++ d.sideRuns
       let x : VReg := { lanes := packLanes f.fmt ((bs.map (fun b => b.1.map (encFp (fracOf f.fmt)))).flatten),
                         blight := (s.desc n p.core (c.getS f.sb)).2 || bs.any (·.2), subst := s.runsSubst n p.core runs }
       Issues s p { s := [f.sa, f.sb], v := [f.vd] } (s.areaRoom n (s.vecRoom p) [d.code, d.scale, d.esc, d.prom, d.outl])
        (firstFault [must (f.va = 0 && f.vb = 0 && f.vc = 0 && f.imm = 0) 0x03, vfmt f.fmt, s.descFault n (c.getS f.sb),
          must (d.legal && d.kind = 0) 0x05, must (s.blocksOk n d first k) 0x06]) →
      Completes (exec (.vdq p f) s) (fun t =>
        BesidesIssue s (((List.range k).foldl (fun u i => u.reportDamage n p.core d (first + i)) (s.issued p)).servedRuns s p runs) t p
        ∧ t.mem = s.mem ∧ t.ctx p = { c.advanced.setV f.vd x with
          loads := c.loads ++ s.delay p (fun len => .engine len [f.vd] []) runs (t.core p.core).cnt.beats }))

/-! ### Tile engine -/

/-- R108, R109, R111, R151, R99: TMUL that finds room puts its product, computed from the two tiles, behind the engine's other
products and changes no register yet; what it reads beyond the scratchpad is outstanding. TILE_PRODUCT_COMPLETE delivers the
oldest product of a core that is not frozen, once its operands are there, and counts its beats and side products. -/
def Obligations.TileProducts : Prop :=
  (∀ (s : State) (p : At) (f : LayT),
    let c := s.ctx p
    let n := s.partNum p.core
    let a := s.tile n p.core (c.getS f.sa)
    let b := s.tile n p.core (c.getS f.sb)
    let q := s.product n p.core a b
    let areas (t : Tile) : List Word := [t.d.code, t.d.scale, t.d.esc, t.d.prom, t.d.outl]
    let runs := a.headRuns (c.getS f.sa) ++ a.blockRuns ++ a.d.sideRuns ++ b.headRuns (c.getS f.sb) ++ b.blockRuns ++ b.d.sideRuns
    Issues s p (if f.dk = 0 then { s := [f.sa, f.sb], a := [f.acc] } else { s := [f.sa, f.sb], v := regsFrom f.vd f.fmt })
        (s.areaRoom n (s.tileRoom p.core) (areas a ++ areas b)) (firstFault [tmulShape f, tmulFault s n p.core (c.getS f.sa) (c.getS f.sb) (f.dk = 1)]) →
      Completes (exec (.tmul p f) s) (fun t => let num := (t.core p.core).cnt.issued
        (t.core p.core).tiles = (s.core p.core).tiles ++ [{ p := p, num := num, dest := productDest f (c.getA f.acc) q, beats := q.beats,
                                                            side := q.side, blight := q.blight, subst := s.runsSubst n p.core runs }]
        ∧ t.ctx p = { c.advanced with loads := c.loads ++ s.delay p (fun len => .product len num) runs (t.core p.core).cnt.beats }
        ∧ BesidesIssue s ((((s.issued p).reportTile n p.core a).reportTile n p.core b).servedRuns s p runs)
            (t.updCore p.core (fun k => { k with tiles := (s.core p.core).tiles })) p
        ∧ t.mem = s.mem))
  ∧ (∀ (s : State) (k : Nat) (j : TileJob) (rest : List TileJob),
    s.live = true → (s.core k).frozen = none → (s.core k).tiles = j :: rest → j.p.core = k → s.productWaits j = false →
      Completes (exec (.tileProductComplete k) s) (fun t =>
        (t.core k).tiles = rest
        ∧ (t.core k).cnt = { (s.core k).cnt with
            tileBeats := sat64 ((s.core k).cnt.tileBeats + j.beats)
            sideProducts := sat64 ((s.core k).cnt.sideProducts + j.side) }
        ∧ (∀ r, (t.ctx j.p).getA r = ((s.ctx j.p).deliver j).getA r) ∧ (∀ r, (t.ctx j.p).getV r = ((s.ctx j.p).deliver j).getV r)
        ∧ (∀ i, i ≠ k → t.core i = s.core i) ∧ t.mem = s.mem
        ∧ ((s.ctx j.p).stalledOn ≠ some .stopping → t = { s with cores := t.cores })))

/-- R145, R151, R115: TCLR clears an accumulator under a new anchor; TMOVV rounds its elements once into vector registers;
TLDA loads a W96 tile with the descriptor's anchor and term count. Memory stays. -/
def Obligations.TileAccumulators : Prop :=
  ∀ (s : State) (p : At) (f : LayT),
    let c := s.ctx p
    let n := s.partNum p.core
    let acc := c.getA f.acc
    let tl := s.tile n p.core (c.getS f.sa)
    (Issues s p { s := [f.sa], a := [f.acc] } (s.tileRoom p.core) (must (f.zero = 0 && f.dk = 0 && f.vd = 0 && f.sb = 0 && f.fmt = 0) 0x03) →
      Completes (exec (.tclr p f) s) (fun t => Becomes s t p (c.advanced.setA f.acc { anchor := (c.getS f.sa).setWidth 10 })))
    ∧ (Issues s p { a := [f.acc], v := regsFrom f.vd f.fmt } (s.tileRoom p.core)
        (firstFault [must (f.zero = 0 && f.dk = 0 && f.sa = 0 && f.sb = 0 && (f.vd = 0 || f.vd = 8)) 0x03, vfmt f.fmt]) →
      Completes (exec (.tmovv p f) s) (fun t => OnlyContext s t p ∧
        let regs := placeResults f.fmt ((List.range 1024).map (fun k => finalFp (fracOf f.fmt) (acc.part k) (anchorE acc.anchor) 1))
        (∀ i < regs.length, (t.ctx p).getV (f.vd + BitVec.ofNat 4 i) = vregOf (regs.getD i []) acc.marks)
        ∧ (∀ r, r ∉ regsFrom f.vd f.fmt → (t.ctx p).getV r = c.getV r)
        ∧ t.ctx p = { c.advanced.mark acc.blight acc.subst with v := (t.ctx p).v }))
    ∧ (let runs := tl.headRuns (c.getS f.sa) ++ tl.elemRuns
      let x : TileAcc := { anchor := tl.d.anchor, terms := tl.d.terms,
                           elems := accElems tl.d.anchor (fun k => (s.tileElem n p.core tl k).1),
                           blight := tl.blight || (List.range 1024).any (fun k => (s.tileElem n p.core tl k).2),
                           subst := s.runsSubst n p.core runs }
      Issues s p { s := [f.sa], a := [f.acc] } (s.tileRoom p.core) (firstFault [w96Shape f, w96Fault s n p.core (c.getS f.sa) {} false]) →
      Completes (exec (.tlda p f) s) (fun t => BesidesIssue s ((s.issued p).servedRuns s p runs) t p ∧ t.mem = s.mem
        ∧ t.ctx p = { c.advanced.setA f.acc x with
          loads := c.loads ++ s.delay p (fun len => .engine len [] [f.acc]) runs (t.core p.core).cnt.beats }))

/-- R151, R87, R219, R135: TSTA stores the accumulator's elements over the live rows of a W96 tile and raises the descriptor's term
count to the larger of the two; TADDM adds them to the tile and the counts, or, for a plan accumulator whose step's
sweep has started, is discarded and counted. Nothing but those rows and that count is stored, unless the count of terms passes
its bound and every element takes overflow; the marks join the sticky pair. -/
def Obligations.TileStores : Prop :=
  ∀ (s : State) (p : At) (f : LayT),
    let c := s.ctx p
    let n := s.partNum p.core
    let acc := c.getA f.acc
    let tl := s.tile n p.core (c.getS f.sa)
    let head := tl.headRuns (c.getS f.sa)
    let runs := head ++ tl.elemRuns
    let spans := tl.elemRuns ++ [(plus tl.ref.desc 0x48, 8)]
    Issues s p { s := [f.sa], a := [f.acc] } (s.tileRoom p.core) (firstFault [w96Shape f, w96Fault s n p.core (c.getS f.sa) acc true]) →
      (let u := ((s.issued p).putTile n p.core tl acc.part acc.marks).putArea n p.core (plus tl.ref.desc 0x48) (leBytes 8 (max tl.d.terms acc.terms)) {}
       Completes (exec (.tsta p f) s) (fun t => BesidesIssue s (u.servedRuns s p head) t p ∧ t.mem = u.mem
        ∧ KeepsBytes s t (s.keysOfRuns n p.core spans)
        ∧ t.ctx p = { c.advanced.mark acc.blight acc.subst with
          loads := c.loads ++ s.delay p (fun len => .engine len [] []) head (t.core p.core).cnt.beats }))
      ∧ (let es (k : Nat) := s.tileElem n p.core tl k
       let m : Marks := ⟨acc.blight || tl.blight || (List.range 1024).any (fun k => (es k).2), acc.subst || s.runsSubst n p.core runs⟩
       let u := ((s.issued p).putTile n p.core tl (fun k => addW96 (es k).1 (acc.part k)) m).putArea n p.core (plus tl.ref.desc 0x48)
          (leBytes 8 (addTerms tl.d.terms acc.terms).1) {}
       Completes (exec (.taddm p f) s) (fun t =>
        if s.late n c.step && s.planAcc n p.core tl.d then
          BesidesIssue s ((s.issued p).countLate (coreCluster p.core) n (s.tagOf p 0x20 0 acc.blight acc.subst)) t p ∧ t.ctx p = c.advanced ∧ t.mem = s.mem
          ∧ (t.cluster (coreCluster p.core)).cnt.late = sat64 ((s.cluster (coreCluster p.core)).cnt.late + 1)
        else
          let w := if (addTerms tl.d.terms acc.terms).2 then u.overflowAll n p.core tl.d else u
          BesidesIssue s (w.servedRuns s p runs) t p ∧ t.mem = w.mem
          ∧ ((addTerms tl.d.terms acc.terms).2 = false → KeepsBytes s t (s.keysOfRuns n p.core spans))
          ∧ t.ctx p = { c.advanced.mark m.blight m.subst with
            loads := c.loads ++ s.delay p (fun len => .engine len [] []) runs (t.core p.core).cnt.beats }))

/-! ### Row engine and exchange unit commands -/

/-- R155, R181, R216: RGATH and RGRAD read their block when they issue and leave the job it describes in the cluster's row engine,
after those already there; a gather raises its table's counters by its kinds of index. R201, R210, R217: RPREL, RSTAT
and RSALT act at once: RPREL fills the rick cache, RSTAT writes its record, RSALT starts the re-salt or answers why it does
not; the block's completion is the last thing they send. -/
def Obligations.RowCommandsSubmitted : Prop :=
  ∀ (s : State) (p : At) (f : LayA),
    let c := s.ctx p
    let n := s.partNum p.core
    let a := c.getS f.sa
    let b := saltBlock (s.readDev n p.core a 32).1
    let v := s.issued p
    (∀ ic ∈ [(Instr.rgath p f, false), (.rgrad p f, true)],
      Issues s p { s := [f.sa] } (s.rowRoom p) (firstFault [must (f.sd = 0 && f.zero = 0) 0x03, gatherFault s p a ic.2]) →
      let j := s.rowJob p a ic.2
      let u : State := { v with row := { v.row with jobs := s.row.jobs ++ [j], nextJob := s.row.nextJob + 1 } }
      Completes (exec ic.1 s) (fun t => t.ctx p = c.advanced ∧ t.mem = s.mem ∧ t.row.jobs = s.row.jobs ++ [j]
        ∧ BesidesIssue s (if ic.2 then u else u.countKinds (((s.findTable j.part j.cmd.table).map (·.1)).getD j.part) j.cmd.table j.fetches) t p))
    ∧ (let l := (s.readDev n p.core a 32).1
      let w := leAt l 0 8
      let tn := fld w 63 52
      let own := ((s.findTable n tn).map (·.1)).getD n
      let ck : BitVec 2 := BitVec.ofNat 2 (leAt l 0x14 4)
      let ct : BitVec 17 := BitVec.ofNat 17 (fld (leAt l 0x14 4) 18 2)
      let idx := (s.readList n p.core (addrAt l 8) (if bitAt w 48 then 4 else 8) (leAt l 0x10 4)).1
      let u := idx.foldl (fun u raw => match classify (s.part own) tn (bitAt w 48) raw with | .row r => u.preload own tn r | _ => u) v
      Issues s p { s := [f.sa] } (s.rowRoom p)
        (firstFault [must (f.sd = 0 && f.zero = 0) 0x03, s.accessFault n .block a 32 32,
          must (fld w 51 49 = 0 && fld w 47 0 = 0 && ckWordOk (leAt l 0x14 4) && leAt l 0x18 8 = 0 && (s.findTable n tn).isSome) 0x05,
          firstFault [s.spanFault n .load (addrAt l 8) ((if bitAt w 48 then 4 else 8) * leAt l 0x10 4), must (s.ctOwned n ck ct) 0x06]]) →
      Completes (exec (.rprel p f) s) (fun t => t.ctx p = c.advanced ∧ t.mem = s.mem
        ∧ BesidesIssue s (u.action n (s.unitTag p) ck ct) t p
        ∧ t.row = { s.row with rick := u.row.rick } ∧ (∀ m, t.part m = { s.part m with rotation := (t.part m).rotation })))
    ∧ (∀ own tb, s.findTable n b.table = some (own, tb) →
      Issues s p { s := [f.sa] } (s.rowRoom p) (firstFault [must (f.sd = 0 && f.zero = 0) 0x03, saltFault s p a true false 128]) →
      let u := v.writeDev n p.core b.addr tb.statBytes false
      let w := if b.clear then u.updPart own (fun q => { q with tables := q.tables.upd {} b.table (fun x => { x with counts := [] }) }) else u
      Completes (exec (.rstat p f) s) (fun t => t.ctx p = c.advanced ∧ BesidesIssue s (w.action n (s.unitTag p) b.ck b.ct) t p
        ∧ t.mem = Memory.putAll s.mem (List.zip (s.keysOf n p.core b.addr tb.statBytes.length) tb.statBytes)
        ∧ KeepsBytes s t (s.keysOf n p.core b.addr tb.statBytes.length)
        ∧ (b.clear = true → ((t.part own).tables.get {} b.table).counts = [])))
    ∧ (let tb := (s.part n).tables.get {} b.table
      let refused (code : Byte) (t : State) : Prop :=
        BesidesIssue s ((v.writeDev n p.core b.addr [code] false).action n (s.unitTag p) b.ck b.ct) t p
        ∧ t.mem = Memory.putAll s.mem (List.zip (s.keysOf n p.core b.addr 1) [code]) ∧ KeepsBytes s t (s.keysOf n p.core b.addr 1)
      Issues s p { s := [f.sa] } (s.rowRoom p)
        (firstFault [must (f.sd = 0 && f.zero = 0) 0x03, saltFault s p a false (s.part n).cfg.serve 1]) →
      Completes (exec (.rsalt p f) s) (fun t => t.ctx p = c.advanced ∧
        if tb.resalting then refused 0x03 t
        else if (s.part n).salted tb = [] then refused 0x04 t
        else t.mem = s.mem ∧ ((t.part n).tables.get {} b.table) = { tb with newSalt := b.word, cursor := 0, resalting := true }
          ∧ (∀ k, k ≠ b.table → (t.part n).tables.find k = (s.part n).tables.find k)
          ∧ BesidesIssue s { v with parts := t.parts, row := { v.row with resalts := s.row.resalts ++
              [{ part := n, table := b.table, p := p, status := some b.addr, ck := b.ck, ct := b.ct, tag := s.unitTag p }] } } t p
          ∧ ∀ m, t.part m = { s.part m with tables := (t.part m).tables }))

/-- R359, R357, R370: XCOLL leaves the collective of its block in the exchange unit, numbered after those of its
group and step, with the flits that came for it before; of a quarantined part it ends at once with status 0x03. XLAG writes its
report of 512 bytes, which begins with the time and the number of collectives seen, and nothing else. -/
def Obligations.ExchangeCommands : Prop :=
  ∀ (s : State) (p : At) (f : LayA),
    let c := s.ctx p
    let n := s.partNum p.core
    let a := c.getS f.sa
    let g := collOf (s.readDev n p.core a 64).1
    (Issues s p { s := [f.sa] } (s.collRoom p) (firstFault [must (f.sd = 0 && f.zero = 0) 0x03, collFault s p a]) →
      let no := ((s.link.collNums.find? (fun x => x.1 = n && x.2.1 = g.group && x.2.2.1 = c.step)).map (·.2.2.2)).getD 0
      let mine (x : InFlit) : Bool := x.flit.part = n && x.flit.step = c.step && x.flit.coll.toNat = no % 1024 && x.flit.src ∈ s.groupOf n g.group
      let x : Coll := { num := s.link.nextColl, no := no, part := n, p := p, tag := s.tagOf p g.outFmt OrderClass.exchange.code false false,
                        step := c.step, cmd := g, startedAt := s.now, readyAt := s.now, stepMs := (s.member n).ringStepMs, inbox := s.link.early.filter mine }
      let Joined (t : State) : Prop := BesidesIssue s { s with link := t.link } t p ∧ t.ctx p = c.advanced
        ∧ t.link = { s.link with colls := s.link.colls ++ [x], nextColl := s.link.nextColl + 1, collNums := t.link.collNums,
                                 early := s.link.early.filter (fun y => !mine y) }
        ∧ (∀ y, y ∈ t.link.collNums ↔ y = (n, g.group, c.step, no + 1) ∨ (y ∈ s.link.collNums ∧ (y.1, y.2.1, y.2.2.1) ≠ (n, g.group, c.step)))
      Completes (exec (.xcoll p f) s) (fun t =>
        if (s.member n).quarantined then ∃ u, Joined u ∧ t = u.endColl x 0x03 0xFFFFFFFF ∧ (∀ y ∈ t.link.colls, y.num ≠ x.num)
          ∧ t.mem = (s.writeDev n p.core g.statAddr (s.collRecord x 0x03 0xFFFFFFFF) false).mem
        else Joined t))
    ∧ (Issues s p { s := [f.sa] } {} (firstFault [must (f.sd = 0 && f.zero = 0) 0x03, s.accessFault n .block a 512 1]) →
      let l := s.lagReport p
      Completes (exec (.xlag p f) s) (fun t => BesidesIssue s ((s.issued p).writeDev n p.core a l false) t p ∧ t.ctx p = c.advanced
        ∧ l.length = 512 ∧ KeepsBytes s t (s.keysOf n p.core a 512)
        ∧ l.take 16 = leBytes 8 s.now ++ leBytes 8 (s.link.lag.filter (fun x => x.die = coreDie p.core && x.part = n)).length
        ∧ t.mem = Memory.putAll s.mem (List.zip (s.keysOf n p.core a 512) l)))

/-! ### Transactions of contexts -/

/-- R154, R239, R251, R254, R255: TXB opens a transaction whose id stands in sd and in the tag state; TXC of one that nothing
binds to abort prepares it and holds the context, one that must abort answers its code in sd at once and drops the
writes; while moves of the transaction run it only waits; TXA drops the writes. Memory stays in all of them. -/
def Obligations.ContextTransactions : Prop :=
  ∀ (s : State) (p : At) (f : LayA),
    let c := s.ctx p
    let n := s.partNum p.core
    let cl := coreCluster p.core
    (Issues s p { s := [f.sd] } {} (firstFault [must (f.sa = 0 && f.zero = 0) 0x03, must (!(s.part n).cfg.serve) 0x06, must c.tx.isNone 0x09]) →
      Completes (exec (.txb p f) s) (fun t => ∃ x : Tx, t.tx = { s.tx with txs := s.tx.txs ++ [x], nextTx := s.tx.nextTx + 1 } ∧ x.num = s.tx.nextTx ∧ x.part = n
        ∧ x.origin = .context p ∧ x.entries = [] ∧ x.phase = .opened ∧ x.coord = coreDie p.core ∧ x.epoch = (s.cluster cl).epoch
        ∧ x.step = fullStep (s.part n).lastStarted c.step ∧ ((s.tx.txs.filter (fun y => y.part = n)).length < 65535 → x.txid ≠ 0 ∧ ∀ y ∈ s.tx.txs, y.part = n → y.txid ≠ x.txid)
        ∧ t.ctx p = { c.advanced with tx := some x.num, txid := x.txid }.setS f.sd (x.txid.setWidth 64) ∧ BesidesIssue s { s with tx := t.tx } t p))
    ∧ (s.canIssue p = true → c.txMoves = true → Completes (exec (.txc p f) s) (fun t => t = s.holdAt p c.pc .operand))
    ∧ (∀ num x, c.tx = some num → s.txn num = some x → c.txMoves = false →
      Issues s p { s := [f.sd] } {} (firstFault [must (f.sa = 0 && f.zero = 0) 0x03, must c.tx.isSome 0x09]) →
      let y := { x with step := fullStep (s.part x.part).lastStarted c.step }
      Completes (exec (.txc p f) s) (fun t => t.mem = s.mem ∧ BesidesIssue s { s with tx := t.tx, clusters := t.clusters } t p ∧
        match s.txCode y with
        | some code => (∀ z, z ∈ t.tx.txs ↔ z ∈ s.tx.txs ∧ z.num ≠ x.num)
          ∧ t.ctx p = ({ c.advanced with tx := none, txid := 0 } : Ctx).setS f.sd (BitVec.ofNat 64 code)
        | none => t.clusters = s.clusters ∧ (∃ z ∈ t.tx.txs, z = { y with phase := .preparing, prepared := [] })
          ∧ t.tx.waiting = s.tx.waiting ++ s.records { y with phase := .preparing, prepared := [] }
          ∧ t.ctx p = { c with state := .stalled, stalledOn := some (.commit x.num f.sd) }))
    ∧ (∀ num, c.tx = some num → (∀ x ∈ s.tx.txs, x.num = num → x.phase = .opened) →
      Issues s p {} {} (firstFault [must (f.sd = 0 && f.sa = 0 && f.zero = 0) 0x03, must c.tx.isSome 0x09]) →
      Completes (exec (.txa p f) s) (fun t => (∀ x, x ∈ t.tx.txs ↔ x ∈ s.tx.txs ∧ x.num ≠ num)
        ∧ t.ctx p = { c.advanced with tx := none, txid := 0 } ∧ t.mem = s.mem ∧ BesidesIssue s { s with tx := t.tx, clusters := t.clusters } t p
        ∧ (t.cluster cl).cnt.txAborts = sat64 ((s.cluster cl).cnt.txAborts + 1)))

/-! ### Contexts and step boundaries -/

/-- R98, R99, R145, R159, R160, R161, R164, R228, R308, R470: NOP and IFENCE only go on; HALT makes the context idle and aborts its open
transaction; EPOST posts a software record that carries sa; ILL faults its context with cause 0x02. CSTART, CSTOP and CSTATE
with their results 3, 2, 1, 0 and what they do to the context named; STEPB notes its step once and, where it completes the step
boundary, its effects come. An instruction without its operands stalls its context. -/
def Obligations.SystemInstructions : Prop :=
  (∀ (s : State) (p : At) (f : LayZ),
    let c := s.ctx p
    (Issues s p {} {} (must (f.sd = 0 && f.sa = 0 && f.sb = 0 && f.sf = 0 && f.zero = 0 && f.ctx = 0) 0x03) →
      Completes (exec (.nop p f) s) (fun t => Becomes s t p c.advanced)
      ∧ Completes (exec (.ifence p f) s) (fun t => Becomes s t p c.advanced)
      ∧ Completes (exec (.halt p f) s) (fun t => BesidesIssue s ((s.issued p).abortTx p) t p ∧ t.mem = s.mem
          ∧ (∀ num, c.tx = some num → (∀ x ∈ s.tx.txs, x.num = num → x.phase ≠ .durable ∧ x.phase ≠ .retired) → ∀ x ∈ t.tx.txs, x.num ≠ num)
          ∧ t.ctx p = { c.advanced with state := .idle, wait := none, tx := none, txid := if c.tx.isSome then 0 else c.txid }))
    ∧ (Issues s p { s := [f.sa] } {} (must (f.sd = 0 && f.sb = 0 && f.sf = 0 && f.zero = 0 && f.ctx = 0) 0x03) →
      Completes (exec (.epost p f) s) (fun t => t.ctx p = c.advanced ∧ t.mem = s.mem ∧ t.errs.nextSeq = s.errs.nextSeq + 1
        ∧ BesidesIssue s { s with errs := t.errs, host := t.host, out := t.out } t p
        ∧ t.errs.log.getLast? = some { cls := 0x0A, cause := 0x01, unit := 0x0F, loc := BitVec.ofNat 32 p.core, seq := s.errs.nextSeq,
                                       time := s.now, tag := s.tagOf p 0 0 false false, detail := c.getS f.sa }))
    ∧ (s.canIssue p = true → fetchFault c.pc = none → Completes (exec (.ill p) s) (fun t => Faults s t p 0x02)))
  ∧ (∀ (s : State) (p : At) (f : LayZ),
    let c := s.ctx p
    let n := s.partNum p.core
    let q : At := ⟨(c.getS f.sa).toNat, f.ctx.toNat⟩
    let x := s.ctx q
    let inside := s.inPart n q.core
    let lead := s.leadOf n
    let may := if q = lead then p = lead else p = lead ∨ x.controller = some (.ctx p)
    let flag : Option (BitVec 17) := if (c.getS f.sf).getLsbD 63 then some ((c.getS f.sf).setWidth 17) else none
    let Two (t : State) : Prop := (∀ r, r ≠ p → r ≠ q → t.ctx r = s.ctx r) ∧ t.mem = s.mem
    (Issues s p { s := [f.sd, f.sa, f.sb, f.sf] } {}
        (firstFault [must (f.zero = 0) 0x03, must (flag.all (fun id => s.flagPart id.toNat = some n)) 0x06]) →
      Completes (exec (.cstart p f) s) (fun t =>
        if inside = false then WritesScalar s t p f.sd 3
        else if ¬ may then WritesScalar s t p f.sd 2
        else if x.state ≠ .idle ∧ x.state ≠ .faulted then WritesScalar s t p f.sd 1
        else Two t ∧ t = { s with cores := t.cores, free := t.free, power := { s.power with lent := t.power.lent, activeAt := t.power.activeAt } }
          ∧ t.ctx p = c.advanced.setS f.sd 0 ∧ t.ctx q = { x with
            state := .ready
            pc := c.getS f.sb
            faultFlag := flag
            faultCause := 0
            faultPc := 0
            controller := some (.ctx p)
            wait := none
            stalledOn := none }))
    ∧ (Issues s p { s := [f.sd, f.sa] } {} (must (f.sb = 0 && f.sf = 0 && f.zero = 0) 0x03) →
      Completes (exec (.cstop p f) s) (fun t =>
        if inside = false then WritesScalar s t p f.sd 3
        else if ¬ may then WritesScalar s t p f.sd 2
        else Two t ∧ (∀ r, (t.ctx p).getS r = if r = 0 then 0 else if r = f.sd then 0 else c.getS r) ∧ (q ≠ p → (t.ctx q).s = x.s)
          ∧ (x.state = .idle → t.ctx q = x)
          ∧ (x.state = .waiting ∨ x.state = .faulted ∨ (x.state ≠ .idle ∧ s.unretired q = false) → (t.ctx q).state = .idle ∧ (t.ctx q).tx = none)
          ∧ (x.state = .ready ∨ x.state = .stalled → s.unretired q = true →
              (t.ctx q).state = .stalled ∧ (t.ctx q).stalledOn = some .stopping ∧ (t.ctx q).tx = none)))
    ∧ (Issues s p { s := [f.sd, f.sa] } {} (must (f.sb = 0 && f.sf = 0 && f.zero = 0) 0x03) →
      Completes (exec (.cstate p f) s) (fun t => ∃ v, WritesScalar s t p f.sd v ∧ (inside = true →
        let y := if q = p then c.advanced else x
        v = BitVec.ofNat 64 (stateCode y.state * 2 ^ 29 + b2n y.watchdog * 2 ^ 28 + (waitName y.wait).1 * 2 ^ 25 + (waitName y.wait).2)))))
  ∧ (∀ (s : State) (p : At) (f : LayA),
    let n := s.partNum p.core
    let st := (s.ctx p).step
    let noted := (s.part n).stepbs ++ if (p, st) ∈ (s.part n).stepbs then [] else [(p, st)]
    let u := (s.issued p).updPart n (fun q => { q with stepbs := noted })
    Issues s p {} {} (firstFault [must (f.sd = 0 && f.sa = 0 && f.zero = 0) 0x03, must (!(s.part n).cfg.serve) 0x06]) →
      Completes (exec (.stepb p f) s) (fun t =>
        if u.boundary n st then ∃ v, BesidesIssue s (u.updPart n (fun _ => v.part n)) v p ∧ v.ctx p = (s.ctx p).advanced ∧ v.mem = s.mem
          ∧ v.part n = { s.part n with
              stepbs := noted
              sweepDue := (s.part n).sweepDue ++ if st ∈ (s.part n).sweepDue then [] else [st]
              sweep := (s.part n).sweep.map (fun w => { w with suspended := false })
              budget := (s.part n).budgetWritten
              change := (s.part n).change.map (fun h => if h.hold then { h with hold := false, arrived := true } else h) }
          ∧ match (s.member n).pending with
            | none => t = v.setHoldPoint n
            | some img => t = (v.putImage n img).setHoldPoint n
        else BesidesIssue s u t p ∧ t.ctx p = (s.ctx p).advanced ∧ t.mem = s.mem))
  ∧ (∀ (s : State) (p : At) (f : LayS),
    (s.canIssue p = false → Completes (exec (.add p f) s) (fun t => t = s))
    ∧ (s.canIssue p = true → fetchFault (s.ctx p).pc = none → s.ready p { s := [f.sd, f.sa, f.sb] } = false →
      Completes (exec (.add p f) s) (fun t =>
        t = s.updCtx p (fun c => { c with state := .stalled, stalledOn := some .operand }))))

/-- R132, R156, R157, R159, R308, R470: an instruction whose first failing check has a cause faults its context with it: on the
fetch of any instruction, and on the checks of ADD, LD, VABS, TXB and RGATH, which between them give the causes of
fields, formats, addresses, alignment, malformed blocks and a transaction that is already open. Room and operands come before the checks. -/
def Obligations.FailedChecksFault : Prop :=
  ∀ (s : State) (p : At) (cause : BitVec 8), s.canIssue p = true →
    let c := s.ctx p
    let n := s.partNum p.core
    let Fails (i : Instr) : Prop := Completes (exec i s) (fun t => Faults s t p cause)
    (fetchFault c.pc = some cause → ∀ (f : LayS) (g : LayV) (h : LayA), Fails (.add p f) ∧ Fails (.vabs p g) ∧ Fails (.txb p h) ∧ Fails (.rgath p h))
    ∧ (fetchFault c.pc = none →
        (∀ f : LayS, s.ready p { s := [f.sd, f.sa, f.sb] } = true →
          (if f.i = 1 then must (f.sb = 0) 0x03 else must (f.imm = 0) 0x03) = some cause → Fails (.add p f))
        ∧ (∀ (f : LayS) (sub : BitVec 8), let size := 2 ^ (sub.toNat % 4)
          s.ready p { s := [f.sd, f.sa] } = true → (s.lsuRoom p).full = false →
          firstFault [must (sub.toNat < 8 && f.sb = 0 && f.i = 0) 0x03, s.accessFault n .load (c.getS f.sa + f.imm.signExtend 64) size size] = some cause →
          Fails (.ld p f sub))
        ∧ (∀ f : LayV, s.ready p { v := [f.vd, f.va] } = true → (s.vecRoom p).full = false →
          firstFault [must (f.vb = 0 && f.vc = 0 && f.sa = 0 && f.sb = 0 && f.imm = 0) 0x03, vfmt f.fmt] = some cause → Fails (.vabs p f))
        ∧ (∀ f : LayA, s.ready p { s := [f.sd] } = true →
          firstFault [must (f.sa = 0 && f.zero = 0) 0x03, must (!(s.part n).cfg.serve) 0x06, must c.tx.isNone 0x09] = some cause → Fails (.txb p f))
        ∧ (∀ f : LayA, s.ready p { s := [f.sa] } = true → (s.rowRoom p).full = false →
          firstFault [must (f.sd = 0 && f.zero = 0) 0x03, gatherFault s p (c.getS f.sa) false] = some cause → Fails (.rgath p f)))



/-! ### Moves, stores and operands on their way -/

/-- R152, R117, R251, R37: MOV and MOVZ that pass their checks join the context's moves with the completion that ck and ct name and the
marks of what they have read; between scratchpad addresses, and for zeros, the bytes are written at issue and no others, and
no other kind of move writes memory yet. -/
def Obligations.MovesStart : Prop :=
  ∀ (s : State) (p : At) (f : LayM),
    let c := s.ctx p
    let n := s.partNum p.core
    let len := (c.getS f.sb).toNat
    let dst := c.getS f.sd
    let src := c.getS f.sa
    let Started (t : State) (from_ : Option Word) (got : Option (List Byte × Bool × Bool)) : Prop :=
      let now := spaceOf dst = 0 && got.isSome
      let l := (got.map (·.1)).getD []
      let b := (got.map (·.2.1)).getD false
      let u := (got.map (·.2.2)).getD false
      let m : Move := { num := c.nextMove, src := from_, dst := dst, len := if now then 0 else len, ck := f.ck, ct := f.ct,
                        bytes := if now then some [] else got.map (·.1), blight := b, subst := u,
                        tx := if spaceOf dst = 0 then none else c.tx, tag := s.tagOf p 0 OrderClass.bulk.code b u }
      BesidesIssue s (if now then (s.issued p).writeMarked n p.core dst l b u else s.issued p) t p
      ∧ t.ctx p = { c.advanced with moves := c.moves ++ [m], nextMove := c.nextMove + 1 }
      ∧ t.mem = (if now then Memory.putAll s.mem (List.zip (s.keysOf n p.core dst l.length) l) else s.mem)
      ∧ KeepsBytes s t (if now then s.keysOf n p.core dst l.length else [])
    (Issues s p { s := [f.sd, f.sa, f.sb] } (s.lsuRoom p) (firstFault [must (f.zero = 0) 0x03, moveFault s p (some src) dst len f.ck f.ct]) →
      Completes (exec (.mov p f) s) (fun t => Started t (some src) (if spaceOf src = 0 then some (s.readMarked n p.core src len) else none)))
    ∧ (Issues s p { s := [f.sd, f.sb] } (s.lsuRoom p) (firstFault [must (f.zero = 0 && f.sa = 0) 0x03, moveFault s p none dst len f.ck f.ct]) →
      Completes (exec (.movz p f) s) (fun t => Started t none (some (List.replicate len 0, false, false))))

/-- R311, R145, R152, R251, R287, R37: MFENCE goes on where every earlier store and move of the context is visible and is held at its pc
otherwise. MOVE_COMPLETE of a move that nothing before it holds up writes its bytes at the destination and no others, or gives
them to the open transaction or to the fallow write queue; outside the fallow tier the move leaves the context with its completion
action. WRITE_VISIBLE writes the bytes of the oldest store and no others; the release that waited for it then issues. -/
def Obligations.WritesBecomeVisible : Prop :=
  ∀ (s : State) (p : At),
    let c := s.ctx p
    let n := s.partNum p.core
    (∀ f : LayM, Issues s p {} {} (must (f.sd = 0 && f.sa = 0 && f.sb = 0 && f.ck = 0 && f.ct = 0 && f.zero = 0) 0x03) →
      Completes (exec (.mfence p f) s) (fun t => Becomes s t p
        (if c.stores = [] ∧ c.moves = [] then c.advanced else { c with state := .stalled, stalledOn := some .fence })))
    ∧ (∀ (i : Nat) (m : Move), c.moves[i]? = some m → s.live = true → m.queued = false →
      s.olderOverlap p m.num m.dst m.len = false → (m.ck = 0 ∨ c.nothingBefore m.num = true) → s.heldObj n m.dst = false →
      (m.bytes = none → ∀ a, m.src = some a → spaceOf a ≠ 5 ∧ s.heldObj n a = false) →
      let r := s.moveBytes p m
      let l := r.1
      let Left (t : State) : Prop := (t.ctx p).moves = c.moves.filter (fun x => x.num ≠ m.num) ∧ (t.ctx p).s = c.s ∧ (t.ctx p).v = c.v
        ∧ (∀ a, (m.ck = 1 ∧ a = .setFlag m.ct.toNat) ∨ (m.ck = 2 ∧ a = .produce m.ct.toNat 1) ∨ (m.ck = 3 ∧ a = .consume m.ct.toNat 1) →
            ⟨.unit n, fld m.ct.toNat 16 14, a, inClass m.tag .sync⟩ ∈ t.sync.inflight)
      (m.tx = none → (spaceOf m.dst ≠ 5 ∨ l = []) →
        Completes (exec (.moveComplete p i) s) (fun t => Left t
          ∧ t.mem = Memory.putAll s.mem (List.zip (s.keysOf n p.core m.dst l.length) l)
          ∧ KeepsBytes s t (s.keysOf n p.core m.dst l.length)))
      ∧ (∀ num, m.tx = some num → Completes (exec (.moveComplete p i) s) (fun t => Left t ∧ t.mem = s.mem
          ∧ (c.stalledOn ≠ some .stopping → t.tx = (s.txWrite num m.dst l r.2.1 r.2.2).tx)))
      ∧ (m.tx = none → spaceOf m.dst = 5 → l ≠ [] → Completes (exec (.moveComplete p i) s) (fun t => t.mem = s.mem
          ∧ let q : Move := { m with blight := r.2.1, subst := r.2.2 }
            t.tiers.fallowQ = s.tiers.fallowQ ++ s.fallowPieces n p q l
            ∧ t.ctx p = { c with moves := c.moves.map (fun x => if x.num = m.num then { q with queued := true, bytes := some l } else x) })))
    ∧ (∀ (w : Store) (rest : List Store), c.stores = w :: rest → s.live = true →
      s.olderOverlap p w.num w.addr w.data.length = false → s.heldObj n w.addr = false →
      Completes (exec (.writeVisible p) s) (fun t =>
        t.mem = Memory.putAll s.mem (List.zip (s.keysOf n p.core w.addr w.data.length) w.data)
        ∧ KeepsBytes s t (s.keysOf n p.core w.addr w.data.length)
        ∧ (t.ctx p).stores = rest ∧ (t.ctx p).s = c.s ∧ (t.ctx p).v = c.v
        ∧ (∀ op, c.stalledOn = some (.release op) → rest = [] → c.moves = [] →
            (∃ x, { op with tag := x } ∈ t.sync.inflight) ∧ (t.ctx p).pc = c.pc + 8 ∧ (t.ctx p).state = .ready
            ∧ (t.core p.core).cnt.issued = sat64 ((s.core p.core).cnt.issued + 1))))

/-- R118, R385, R37, R109, R474: OPERAND_DATA_RETURN of an outstanding read delivers its bytes and marks to what waits for them, a
scalar or vector register, the registers an instruction of the vector or tile engine wrote, a product of the tile engine, and
takes the read out; where the data is found uncorrectable its granule is lost first. In strict order mode it is held instead, and
STRICT_OPERAND_DELIVERY delivers it at the budget, or freezes the core where it is not there. -/
def Obligations.OperandsDelivered : Prop :=
  ∀ (s : State) (p : At) (i : Nat) (x : Load),
    let c := s.ctx p
    let n := s.partNum p.core
    let Delivered (t : State) (l : List Byte) (b u : Bool) : Prop :=
      (t.ctx p).loads = dropAt c.loads i ∧
      match x.dest with
      | .scalar rg size sg => (∀ q, (t.ctx p).getS q = if q = 0 then 0 else if q = rg then
          (if sg then BitVec.ofInt 64 (signed (8 * size) (leAt l 0 size)) else BitVec.ofNat 64 (leAt l 0 size)) else c.getS q)
          ∧ (t.ctx p).v = c.v ∧ (t.ctx p).stickyBlight = (c.stickyBlight || b) ∧ (t.ctx p).stickySubst = (c.stickySubst || u)
      | .vector rg => (∀ q, (t.ctx p).getV q = if q = rg then { lanes := lanesOf l, blight := b, subst := u } else c.getV q)
          ∧ (t.ctx p).s = c.s ∧ (t.ctx p).stickyBlight = (c.stickyBlight || b) ∧ (t.ctx p).stickySubst = (c.stickySubst || u)
      | .engine _ vs as => (∀ q, (t.ctx p).getV q = if q ∈ vs then { c.getV q with blight := (c.getV q).blight || b, subst := (c.getV q).subst || u } else c.getV q)
          ∧ (∀ q, (t.ctx p).getA q = if q ∈ as then { c.getA q with blight := (c.getA q).blight || b, subst := (c.getA q).subst || u } else c.getA q)
          ∧ (t.ctx p).s = c.s
      | .product _ num => (t.core p.core).tiles = (s.core p.core).tiles.map (fun (j : TileJob) =>
            if j.p = p ∧ j.num = num then { j with blight := j.blight || b, subst := j.subst || u } else j)
          ∧ (t.ctx p).s = c.s ∧ (t.ctx p).v = c.v ∧ (t.ctx p).acc = c.acc
    c.loads[i]? = some x → s.live = true →
    (∀ bad, x.data = none → s.heldObj n x.addr = false →
      let v := if bad then s.demandBad p x.addr x.tag else s
      let r := v.readMarked n p.core x.addr x.dest.size
      Completes (exec (.operandDataReturn p i bad) s) (fun t => t.mem = v.mem ∧
        if s.strictCore p.core then (t.ctx p).loads[i]? = some { x with data := some r } ∧ (t.ctx p).s = c.s ∧ (t.ctx p).v = c.v
        else Delivered t r.1 r.2.1 r.2.2))
    ∧ (s.strictCore p.core = true → (s.core p.core).frozen = none →
      (∀ l b u, x.data = some (l, b, u) → Completes (exec (.strictOperandDelivery p i) s) (fun t => Delivered t l b u ∧ t.mem = s.mem))
      ∧ (x.data = none → Completes (exec (.strictOperandDelivery p i) s) (fun t =>
          (t.core p.core).frozen = some (.load p.ctx) ∧ (t.ctx p).s = c.s ∧ (t.ctx p).v = c.v ∧ t.mem = s.mem
          ∧ (t.core p.core).cnt.beats = sat64 (max (s.core p.core).cnt.beats (x.beat + s.budget n p.core x.addr)))))

/-- R385, R386: a core frozen on a full unit goes on when there is room, one frozen on a read when its data has come, one frozen on a wait when
its signal has: the context is then past its wait. STRICT_WAIT_WAKE ends a signalled wait at its budget and freezes the
core where no signal has come. -/
def Obligations.StrictWaitsAndFreezes : Prop :=
  ∀ (s : State) (p : At), s.live = true →
    let c := s.ctx p
    (∀ k, (s.core p.core).frozen = some (.full k) → (s.lsuRoom ⟨p.core, k⟩).full = false →
      Completes (exec (.freezeResume p.core) s) (fun t => (t.core p.core).frozen = none ∧ t.ctx p = c ∧ t.mem = s.mem))
    ∧ (∀ i x l b u, (s.core p.core).frozen = some (.load p.ctx) → c.loads.findIdx? (fun y => y.due && y.data.isSome) = some i →
      c.loads[i]? = some x → x.data = some (l, b, u) →
      Completes (exec (.freezeResume p.core) s) (fun t => (t.core p.core).frozen = none ∧ (t.ctx p).loads = dropAt c.loads i ∧ t.mem = s.mem
        ∧ ∀ rg, x.dest = .vector rg → (t.ctx p).getV rg = { lanes := lanesOf l, blight := b, subst := u }))
    ∧ (∀ w, (s.core p.core).frozen = some (.wait p.ctx) → c.wait = some w → w.signalled = true →
      Completes (exec (.freezeResume p.core) s) (fun t => (t.core p.core).frozen = none ∧ (t.ctx p).state = .ready
        ∧ (t.ctx p).wait = none ∧ (t.ctx p).pc = c.pc + 8 ∧ (t.ctx p).s = c.s ∧ t.mem = s.mem))
    ∧ (∀ w, s.strictCore p.core = true → (s.core p.core).frozen = none → c.wait = some w →
      Completes (exec (.strictWaitWake p) s) (fun t => (t.core p.core).cnt.beats = sat64 (max (s.core p.core).cnt.beats (w.beat + w.budget))
        ∧ t.mem = s.mem ∧
        if w.signalled then (t.ctx p).state = .ready ∧ (t.ctx p).wait = none ∧ (t.ctx p).pc = c.pc + 8 ∧ (t.core p.core).frozen = none
        else (t.core p.core).frozen = some (.wait p.ctx) ∧ t.ctx p = c))

/-! ### Flags, counter pairs and waits -/

/-- R311, R314, R307, R30, R31: FSET, CPROD and CCONS leave for their store, tagged in order class 4, where every earlier write of the context
is visible; until then the instruction has not issued and the context holds it. FCLR and CREAD leave at once. Nothing
else changes. -/
def Obligations.SyncOperationsSent : Prop :=
  ∀ (s : State) (p : At) (f : LayY),
    let c := s.ctx p
    let n := s.partNum p.core
    let die := fld f.id.toNat 16 14
    let k := if f.i = 1 then f.imm.toNat else (c.getS f.sr).toNat
    let Sent (t : State) (a : SyncDo) : Prop := t.ctx p = c.advanced ∧
      BesidesIssue s { s with sync := { s.sync with inflight := s.sync.inflight ++ [⟨.ctx p, die, a, s.tagOf p 0 4 false false⟩] } } t p
    let Released (t : State) (a : SyncDo) : Prop :=
      if c.stores = [] ∧ c.moves = [] then Sent t a
      else t = s.updCtx p (fun c => { c with state := .stalled, stalledOn := some (.release ⟨.ctx p, die, a, 0⟩) })
    (Issues s p {} {} (firstFault [must (f.sr = 0 && f.i = 0 && f.imm = 0 && f.w = 0) 0x03, must (s.flagPart f.id.toNat = some n) 0x06]) →
      Completes (exec (.fset p f) s) (fun t => Released t (.setFlag f.id.toNat))
      ∧ Completes (exec (.fclr p f) s) (fun t => Sent t (.clearFlag f.id.toNat)))
    ∧ (Issues s p { s := [f.sr] } {} (firstFault [must ((if f.i = 1 then f.sr = 0 else f.imm = 0) && f.w = 0 && fld f.id.toNat 13 12 = 0 && k < 2 ^ 32) 0x03,
        must (s.pairPart f.id.toNat = some n) 0x06]) →
      Completes (exec (.cprod p f) s) (fun t => Released t (.produce f.id.toNat k))
      ∧ Completes (exec (.ccons p f) s) (fun t => Released t (.consume f.id.toNat k)))
    ∧ (Issues s p { s := [f.sr] } {} (firstFault [must (f.i = 0 && f.imm = 0 && fld f.id.toNat 13 12 = 0) 0x03,
        must (s.pairPart f.id.toNat = some n) 0x06]) →
      Completes (exec (.cread p f) s) (fun t => Sent t (.read f.id.toNat (f.w = 1) f.sr)))

/-- R306, R311 to R315: what the store of a die does with the operation that it takes: a flag is set or cleared, a counter rises and is held at
2^64 - 1 (its side effects on a serve ring's slots, whose counters the part itself moves, aside), and every waiter whose
condition now holds is woken; a read answers its register, a wait whose condition holds is woken and another one is registered. -/
def Obligations.SyncStoreOutcomes : Prop :=
  ∀ (s : State) (die i : Nat) (op : SyncOp),
    (s.sync.inflight.filter (fun o => o.die = die))[i]? = some op →
    ((s.sync.inflight.filter (fun o => o.die = die)).take i).any (fun o => o.src = op.src) = false → s.live = true →
    Completes (exec (.syncStoreOperation die i) s) (fun t =>
      let Woken : Prop := ∀ w ∈ s.sync.waiters, if t.condMet w.cond then w ∉ t.sync.waiters ∧ w.p ∈ t.sync.wakes else w ∈ t.sync.waiters
      let serves (n : Nat) : Bool := (s.part n).cfg.enable && (s.part n).cfg.serve
      ((∀ id k, op.act ≠ .produce id k ∧ op.act ≠ .consume id k) → t.mem = s.mem) ∧
      match op.act, op.src with
      | .setFlag id, _ => (∀ x, x ∈ t.sync.flags ↔ x = id ∨ x ∈ s.sync.flags) ∧ Woken
      | .clearFlag id, _ => (∀ x, x ∈ t.sync.flags ↔ x ≠ id ∧ x ∈ s.sync.flags) ∧ Woken
      | .produce id k, _ => (∀ n < 8, serves n = true → (s.serve n).replyPair ≠ id) → t.mem = s.mem ∧ Woken
          ∧ ∀ x, t.pair x = if x = id then (min ((s.pair id).1 + k) (2 ^ 64 - 1), (s.pair id).2) else s.pair x
      | .consume id k, _ => (∀ n < 8, serves n = true → (s.serve n).requestPair ≠ id) → t.mem = s.mem ∧ Woken
          ∧ ∀ x, t.pair x = if x = id then ((s.pair id).1, min ((s.pair id).2 + k) (2 ^ 64 - 1)) else s.pair x
      | .read id consumed sr, .ctx p => (t.ctx p).getS sr =
          if sr = 0 then 0 else BitVec.ofNat 64 (if consumed then (s.pair id).2 else (s.pair id).1)
      | .wait w, .ctx p => if s.condMet w then t.sync.wakes = s.sync.wakes ++ [p] ∧ t.sync.waiters = s.sync.waiters
          else t.sync.waiters = s.sync.waiters ++ [{ p := p, cond := w }] ∧ t.sync.wakes = s.sync.wakes
      | _, _ => t.sync.flags = s.sync.flags ∧ t.sync.pairs = s.sync.pairs)

/-- R103, R312, R315: a wait whose condition holds in its store, with nothing of the context on the way there, completes like any other
instruction; another one deschedules its context at its pc and sends the wait. CO_CNT_DESCHED counts it. -/
def Obligations.WaitsDeschedule : Prop :=
  ∀ (s : State) (p : At) (f : LayY),
    let c := s.ctx p
    let n := s.partNum p.core
    let die := fld f.id.toNat 16 14
    let k := if f.i = 1 then f.imm.toNat else (c.getS f.sr).toNat
    let Waits (t : State) (w : WaitCond) : Prop :=
      if s.condMet w = true ∧ s.inFlightTo p die = false then Becomes s t p c.advanced
      else BesidesIssue s { s with sync := { s.sync with inflight := s.sync.inflight ++ [⟨.ctx p, die, .wait w, s.tagOf p 0 4 false false⟩] } } t p
        ∧ (t.core p.core).cnt.desched = sat64 ((s.core p.core).cnt.desched + 1)
        ∧ t.ctx p = { c with
            state := .waiting
            stalledOn := none
            wait := some { cond := w, since := s.now, beat := (t.core p.core).cnt.beats, budget := (s.part n).budget } }
    (Issues s p {} {} (firstFault [must (f.sr = 0 && f.i = 0 && f.imm = 0 && f.w = 0) 0x03, must (s.flagPart f.id.toNat = some n) 0x06]) →
      Completes (exec (.fwait p f) s) (fun t => Waits t (.flag f.id.toNat true))
      ∧ Completes (exec (.fwaitc p f) s) (fun t => Waits t (.flag f.id.toNat false)))
    ∧ (Issues s p { s := [f.sr] } {} (firstFault [must ((if f.i = 1 then f.sr = 0 else f.imm = 0) && f.w = 0 && fld f.id.toNat 13 12 = 0) 0x03,
        must (s.pairPart f.id.toNat = some n) 0x06]) →
      Completes (exec (.cwaitr p f) s) (fun t => Waits t (.below f.id.toNat k))
      ∧ Completes (exec (.cwaita p f) s) (fun t => Waits t (.atLeast f.id.toNat k)))

/-- R104, R316, R317, R386: a wake makes its waiting context ready past the wait (in strict order mode it only marks the signal); a wait past the
context-wait bound faults with cause 0x01 at its pc; a unit quiescent for more than 20 microseconds lends its power share. -/
def Obligations.WakesWatchdogAndLending : Prop :=
  ∀ (s : State), s.live = true →
    (∀ (p : At) (w : Wait), p ∈ s.sync.wakes → (s.ctx p).state = .waiting → (s.ctx p).wait = some w →
      Completes (exec (.wake p) s) (fun t => t.mem = s.mem ∧ (t.ctx p).s = (s.ctx p).s ∧ (∀ q, q ≠ p → t.ctx q = s.ctx q) ∧
        t.sync.wakes.length + 1 = s.sync.wakes.length ∧
        if s.strictCore p.core then t.ctx p = { s.ctx p with wait := some { w with signalled := true } }
        else (t.ctx p).state = .ready ∧ (t.ctx p).wait = none ∧ (t.ctx p).pc = (s.ctx p).pc + 8))
    ∧ (∀ (p : At) (w : Wait), (s.ctx p).state = .waiting → (s.ctx p).wait = some w →
      w.since + 1000000 * (s.part (s.partNum p.core)).ctxWaitMs < s.now →
      Completes (exec (.contextWaitWatchdog p) s) (fun t => (t.ctx p).state = .faulted ∧ (t.ctx p).faultCause = 0x01
        ∧ (t.ctx p).watchdog = true ∧ (t.ctx p).wait = none ∧ (t.ctx p).pc = (s.ctx p).pc ∧ (t.ctx p).s = (s.ctx p).s
        ∧ (∀ q, q ≠ p → t.ctx q = s.ctx q)
        ∧ (t.core p.core).frozen ≠ some (.wait p.ctx) ∧ t.mem = s.mem))
    ∧ (∀ u : UnitRef, s.idleUnit u = true →
      (((s.power.activeAt.find? (fun x => x.1 = u)).map (·.2)).getD 0) + 20000 < s.now →
      Completes (exec (.powerLending u) s) (fun t => u ∈ t.power.lent ∧ t = { s with power := { s.power with lent := t.power.lent } }))

/-! ### Hedgerow lines -/

/-- R318, R319, R30: HARR sends an arrival, tagged in order class 4, and sets the arrival bit with the phase the line stands in; HWAIT whose
phase has been released, with no arrival of its own still on its way, clears the bit and goes on, else it waits for the
release of the line's phase; HBAR does both and waits. -/
def Obligations.HedgerowInstructions : Prop :=
  ∀ (s : State) (p : At) (f : LayY),
    let c := s.ctx p
    let l := f.id.toNat
    let k := countY c f
    let sent := s.sync.arrivals ++ [{ p := p, line := l, n := k, pc := c.pc, tag := s.tagOf p 0 4 false false }]
    let Waiting (t : State) (arrivals : List Arrival) (bits : Tab (BitVec 32)) : Prop :=
      let ph := (s.line l).phase
      BesidesIssue s { s with sync := { s.sync with arrivals := arrivals, waiters := s.sync.waiters ++ [{ p := p, cond := .release l ph.toNat }] } } t p
        ∧ t.ctx p = { c with
            state := .waiting
            stalledOn := none
            arrivals := bits
            wait := some { cond := .release l ph.toNat, since := s.now, beat := (t.core p.core).cnt.beats, budget := (s.part (s.partNum p.core)).budget } }
        ∧ (t.core p.core).cnt.desched = sat64 ((s.core p.core).cnt.desched + 1)
    (Issues s p { s := [f.sr] } {} (arriveFault s p f) →
      Completes (exec (.harr p f) s) (fun t => BesidesIssue s { s with sync := { s.sync with arrivals := sent } } t p
        ∧ t.ctx p = { c.advanced with arrivals := c.arrivals.set l (s.line l).phase })
      ∧ Completes (exec (.hbar p f) s) (fun t => Waiting t sent (c.arrivals.set l (s.line l).phase)))
    ∧ (Issues s p {} {} (firstFault [must (f.sr = 0 && f.i = 0 && f.imm = 0 && f.w = 0 && fld f.id.toNat 16 6 = 0) 0x03,
        must (f.id.toNat / 8 = s.partNum p.core) 0x06]) →
      Completes (exec (.hwait p f) s) (fun t =>
        match c.arrivals.find l with
        | some ph => if (s.line l).phase ≠ ph ∧ (∀ a ∈ s.sync.arrivals, ¬ (a.p = p ∧ a.line = l))
            then Becomes s t p { c.advanced with arrivals := c.arrivals.del l } else Waiting t s.sync.arrivals c.arrivals
        | none => Waiting t s.sync.arrivals c.arrivals))

/-- R26, R318, R321, R322: an arrival with none of its core before it that is not the last of its phase is counted; the last one releases a line
of module scope (phase + 1, nothing arrived); one whose count differs from the phase's faults its context with cause 0x03 and
is not counted. A report of a line's current phase under the partition's epoch is kept. A job-wide phase whose time T has
come is released. -/
def Obligations.HedgerowLines : Prop :=
  ∀ (s : State), s.live = true →
    (∀ (i : Nat) (a : Arrival), s.sync.arrivals[i]? = some a → (∀ b ∈ s.sync.arrivals.take i, b.p.core ≠ a.p.core) →
      let x := s.line a.line
      ((x.opened = true → x.expected = a.n) →
        Completes (exec (.hedgerowArrival i) s) (fun t => t.mem = s.mem ∧ t.sync.arrivals = dropAt s.sync.arrivals i ∧
          (x.arrived + 1 ≠ a.n → t.line a.line = { x with
            opened := true
            expected := a.n
            arrived := x.arrived + 1
            curJobWide := if x.opened then x.curJobWide else x.jobWide
            curLead := if x.opened then x.curLead else x.leadNs })
          ∧ (x.arrived + 1 = a.n → (if x.opened then x.curJobWide else x.jobWide) = false →
              (t.line a.line).arrived = 0 ∧ (t.line a.line).phase = x.phase + 1 ∧ (t.line a.line).opened = false)))
      ∧ (x.opened = true → x.expected ≠ a.n →
        Completes (exec (.hedgerowArrival i) s) (fun t => t.mem = s.mem ∧ t.sync.arrivals = dropAt s.sync.arrivals i ∧ t.line a.line = x
          ∧ (t.ctx a.p).state = .faulted ∧ (t.ctx a.p).faultCause = 0x03 ∧ (t.ctx a.p).pc = a.pc ∧ (t.ctx a.p).arrivals.find a.line = none
          ∧ (∃ r ∈ t.errs.log, r.cls = 0x05 ∧ r.cause = 0x03 ∧ r.unit = 0x05 ∧ r.loc = BitVec.ofNat 32 a.line))))
    ∧ (∀ (l m : Nat) (phase : BitVec 32) (time : Nat), (s.line l).ownT = none →
      Completes (exec (.lineReportReceive l m (s.member (l / 8)).image.epoch phase time) s) (fun t => t.mem = s.mem ∧
        (m, phase, time) ∈ (t.line l).reports ∧ (t.line l).phase = (s.line l).phase))
    ∧ (∀ (l T : Nat), (s.line l).releaseAt = some T → T ≤ s.now → (s.member (l / 8)).quarantined = false →
      Completes (exec (.jobWideRelease l) s) (fun t => t.mem = s.mem ∧
        (t.line l).phase = (s.line l).phase + 1 ∧ (t.line l).releaseAt = none ∧ (t.line l).arrived = 0))



/-! ### Tagged messages and mode changes -/

/-- R32, R33, R34, R54: a unit that runs compares a message that it accepts with the epoch it has applied: equal is processed, newer held, stale
discarded and counted, the previous one processed under the previous settings; behind a held message of its class it is held
too; one of a format that R54 reserves, or of a partition that the unit does not serve, is discarded and counted. A memory unit
does the write that a message it processes carries, and memory changes in no other way. -/
def Obligations.MessageEpochVerdicts : Prop :=
  ∀ (s : State) (u : UnitRef) (m : Msg), s.live = true →
    let n := tagPart m.tag
    let b := s.unitBuf u
    let e := s.unitEpoch u n
    let d := (tagEpoch m.tag - e).toNat
    let ks := s.keysOf n u.index m.addr m.data.length
    let writes : Bool := (u.kind = .turf || u.kind = .near || u.kind = .fallow) && m.write && s.within n m.addr m.data.length
    let Discarded (t : State) : Prop := t.unitBuf u = { b with discards := min (b.discards + 1) (2 ^ 64 - 1) } ∧ t.mem = s.mem
    let Held (t : State) : Prop := t.unitBuf u = { b with held := b.held ++ [m] } ∧ t.mem = s.mem
    let Processed (t : State) (e : BitVec 12) : Prop :=
      if fmtKnown (tagFmt m.tag) = false then Discarded t
      else t.unitBuf u = { b with processed := b.processed ++ [(m, e)] }
        ∧ t.mem = (if writes then Memory.putAll s.mem (List.zip ks m.data) else s.mem) ∧ KeepsBytes s t (if writes then ks else [])
    Completes (exec (.messageReceipt u m) s) (fun t => (∀ x, x ≠ u → t.unitBuf x = s.unitBuf x) ∧
      if s.accepts u m = false then Discarded t
      else if tagClass m.tag = 5 then Processed t e
      else if b.held.any (fun x => tagClass x.tag = tagClass m.tag) then Held t
      else if d = 0 then Processed t e
      else if d ≤ 2047 then Held t
      else if d ≤ 4094 then Discarded t
      else Processed t (e - 1))

/-- R44, R45, R47: a write of MGT_PARTn_CTRL with apply set captures the staged configuration and sets busy; one while busy is set does
nothing. The apply that runs first, while no other change but a retirement's elsewhere is under way, starts a mode change where
every check passes, and otherwise ends with the code of its first failing check. -/
def Obligations.AppliesCapturedAndChecked : Prop :=
  ∀ (s : State), s.live = true →
    (∀ (n : Nat) (v : BitVec 32), n < 8 → v.getLsbD 31 = true →
      Completes (exec (.applyWrite .mgmt n v) s) (fun t =>
        if (s.part n).busy then t = s
        else t.part n = { s.part n with busy := true }
          ∧ t.applyQ = s.applyQ ++ [(n, (s.part n).stagedCfg, decide (65536 ≤ (s.part n).stMask2.toNat))]
          ∧ t = { s with parts := t.parts, applyQ := t.applyQ }))
    ∧ (∀ (n : Nat) (c : PartCfg) (rsv : Bool) (rest : List (Nat × PartCfg × Bool)),
      s.applyQ = (n, c, rsv) :: rest → s.up = true → s.errs.handover = none → (∀ q ∈ s.parts, ∀ h, q.2.change = some h → h.retire = true ∧ q.1 ≠ n) →
      let code := s.applyCode n c rsv
      Completes (exec .applyRun s) (fun t => t.applyQ = rest ∧ t.mem = s.mem ∧
        if code = 0x01 then t.part n = { s.part n with change := some { cfg := c, hold := s.holdsApply n c, arrived := !s.holdsApply n c } }
          ∧ t = { s with applyQ := rest, parts := t.parts }
        else t.part n = { s.part n with busy := false, result := code }))

/-- R28, R35, R324, R325, R328, R329: PREPARE sends a prepare, tagged in order class 5, to every participant once no message of the partition's
previous epoch is in flight; one that can stage the settings stages them and arrives, one that was reset since does not; ten
milliseconds without every arrival, or the bound of a hold for a step boundary, abort the change with result 0x0A, the applied
configuration and the epoch as they were; a participant then discards what it staged. -/
def Obligations.PrepareAndAbort : Prop :=
  ∀ (s : State) (n : Nat) (h : Change), s.live = true → (s.part n).change = some h →
    let ms := participants (s.part n).cfg h.cfg
    let tag := s.partTag n 0 .control
    let Aborted (t : State) : Prop := (t.part n).result = 0x0A ∧ (t.part n).busy = false ∧ (t.part n).epoch = (s.part n).epoch
      ∧ (t.part n).cfg = (s.part n).cfg ∧ t.mem = s.mem ∧ t.out = s.out ++ h.members.map (fun u => .control n u 2 tag)
      ∧ (t.part n).change = if h.staged = [] then none else some { h with phase := .aborting }
    (h.phase = .waiting → Completes (exec (.prepare n) s) (fun t =>
      if s.oldTraffic n then t = s
      else (t.part n).change = some { h with phase := .prepared, sentAt := s.now, members := ms, staged := [], lost := [], old := (s.part n).cfg }
        ∧ t.out = s.out ++ ms.map (fun u => .control n u 0 tag) ∧ t.mem = s.mem))
    ∧ (∀ u, h.phase = .prepared → u ∈ h.members → Completes (exec (.prepareReceive n u true) s) (fun t =>
      if u ∈ h.lost then t = s
      else (t.part n).change = some { h with staged := addOnce h.staged u } ∧ t = { s with parts := t.parts, out := s.out ++ [.control n u 1 tag] }))
    ∧ (h.phase = .prepared → h.retire = false → h.sentAt + 10000000 ≤ s.now → h.members.all (· ∈ h.staged) = false →
      Completes (exec (.prepareTimeout n) s) Aborted)
    ∧ (h.phase = .prepared → h.retire = false → h.hold = true → (s.part n).stepHoldS ≠ 0 →
      h.sentAt + 1000000000 * (s.part n).stepHoldS ≤ s.now → Completes (exec (.stepHoldTimeout n) s) Aborted)
    ∧ (∀ u, h.phase = .aborting → Completes (exec (.prepareAbortReceive n u) s) (fun t =>
      (t.part n).change = (if h.staged.filter (· ≠ u) = [] then none else some { h with staged := h.staged.filter (· ≠ u) })
      ∧ t = { s with parts := t.parts }))

/-- R326, R327, R310, R33: once every participant has arrived and the controller does not hold its arrival, the change commits, and each participant
that the release reaches applies once: the hub units the configuration, a cluster that is in it the partition, its order mode and
the epoch after, the settings before it kept; a die the flags of clusters that join, now clear; a cluster that leaves
is idle. When all have applied, the release of the commit line raises the partition's epoch by one modulo 4,096 and sets
result 0x01. -/
def Obligations.CommitAndEpoch : Prop :=
  ∀ (s : State) (n : Nat) (h : Change), s.live = true → (s.part n).change = some h →
    (∀ u, u ∈ h.members →
      (h.phase = .prepared ∧ h.hold = false ∧ h.members.all (· ∈ h.staged) = true ∧ (h.old.enable = true → h.cfg.enable = true))
        ∨ (h.phase = .committed ∧ u ∉ h.applied) →
      (∀ k, u = .cluster k → k ∉ (if h.cfg.enable then h.cfg.clusters else []) →
        Completes (exec (.modeCommit ⟨n, u⟩) s) (fun t => ∃ v : State, (v.cluster k).part = none ∧ t = v.releaseHeld))
      ∧ ((∀ k, u = .cluster k → k ∈ (if h.cfg.enable then h.cfg.clusters else [])) → (∀ x ∈ s.units, x.2.held = []) →
        Completes (exec (.modeCommit ⟨n, u⟩) s) (fun t => t.mem = s.mem ∧ (t.part n).epoch = (s.part n).epoch
          ∧ (∃ h', (t.part n).change = some h' ∧ h'.phase = .committed ∧ h'.cfg = h.cfg ∧ h'.old = h.old ∧ ∀ x, x ∈ h'.applied ↔ x = u ∨ x ∈ h.applied)
          ∧ .control n u 4 (s.partTag n 0 .control) ∈ t.out
          ∧ match u with
            | .hub => (t.part n).cfg = h.cfg ∧ (t.part n).prevCfg = h.old
            | .die d => ∀ k, k ∈ h.joining → k / 10 = d → ∀ id ∈ t.sync.flags, ¬ (fld id 16 14 * 10 + fld id 13 0 / 1536 = k ∧ fld id 13 0 < 15360)
            | .cluster k => t.cluster k = { s.cluster k with
                part := some n
                strict := h.cfg.strict
                epoch := (s.part n).epoch + 1
                prevPart := (s.cluster k).part
                prevStrict := (s.cluster k).strict
                prevEpoch := (s.part n).epoch
                planValid := (s.part n).plan.isSome
                divergent := (s.part n).divergent })))
    ∧ (h.phase = .committed → h.retire = false → h.members.all (· ∈ h.applied) = true → Completes (exec (.commitLineRelease n) s) (fun t =>
      (t.part n).epoch = (s.part n).epoch + 1 ∧ (t.part n).result = 0x01 ∧ (t.part n).busy = false ∧ (t.part n).change = none
      ∧ (t.part n).cfg = (s.part n).cfg ∧ t.mem = s.mem))


/-! ### Row engines -/

/-- R179, R191, R193, R198, R200, R204, R214, R215: a fetch that its source serves next and that reaches the rick cache raises the sketch and takes
the cached record or goes on to its next source; one that reaches a replica takes that, one that reaches its row's home takes the
record there, or finds it unusable; at its end a fetch delivers what it has, or with no source left the fallback row with blight.
R194, R192, R155, R216: past its deadline, outside strict order mode, a gather has no fetch left pending; a job that is done writes its outputs and its
status record, leaves the row engine and takes its completion action. -/
def Obligations.GathersRun : Prop :=
  (∀ (s : State) (job i : Nat) (j : RowJob),
    let After (t : State) (f : Fetch) (m : List Host.Cell) : Prop := (t.job job).bind (fun x => x.fetches.find i) = some f ∧ t.mem = m
    (∀ f own r bad, s.fetchAt job i = some (j, f, own, r) → s.servesNext j f i own r = true →
      let ks := s.masterKeys own j.cmd.table r
      let v := s.fetchView own j.cmd.table f
      (f.source = 0 → ks ≠ [] → 4 ≤ keyRegion (ks.headD 0) →
        let die := keyDie (ks.headD 0)
        Completes (exec (.rickCacheFetch job i bad) s) (fun t =>
          t.row.sketchIncs.get 0 die = s.row.sketchIncs.get 0 die + 1 ∧
          match s.row.rick.find? (fun w => w.die = die && w.part = own && w.table = j.cmd.table && w.row = r) with
          | some w => if bad || w.blight then After t { f with source := 1 } s.mem else After t { f with bytes := some w.bytes } s.mem
          | none => After t { f with source := 1, missed := true } s.mem))
      ∧ (f.source < 3 → (f.source = 0 → ∀ x, v.rowAt own j.cmd.table r = some x → x.2.2.tier = 0) → ks.any s.copying = false →
        (∀ w, s.replicaFor j f own r = some w → Completes (exec (.rowFetch job i bad) s) (fun t =>
          if bad || w.blight then After t { f with source := 2 } s.mem else After t { f with bytes := some w.bytes } s.mem))
        ∧ (s.replicaFor j f own r = none → ∀ w num o, v.rowAt own j.cmd.table r = some (w, num, o) →
          let hk := rowKeys (v.part w) num o r
          let u := if bad then s.fetchBad j (hk.headD 0) (rowAddr num o ((v.part w).tables.get {} o.table) r) else s
          Completes (exec (.rowFetch job i bad) s) (fun t =>
            if (u.readKeys hk).2 = true ∨ s.chanUp (keyChannel (hk.headD 0)) = false then After t { f with source := 3 } u.mem
            else After t { f with bytes := some (u.readKeys hk).1 } u.mem))))
    ∧ (∀ f own tb, s.job job = some j → j.fetches.find i = some f → s.jobTable j = some (own, tb) →
      s.live = true → f.outcome = .pending →
      (f.bytes.isSome = true → Completes (exec (.gatherSegmentDone job i) s) (fun t => After t { f with outcome := .delivered } s.mem))
      ∧ (f.bytes = none → 3 ≤ f.source → Completes (exec (.gatherSegmentDone job i) s) (fun t =>
          After t { f with outcome := .failed, bytes := some (s.fetchTable own j.cmd.table f).fallbackRec.1, blight := true } s.mem
          ∧ t.errs.nextSeq = s.errs.nextSeq + 1))))
  ∧ (∀ (s : State) (job : Nat) (j : RowJob) (own : Nat) (tb : Table),
    s.live = true → s.job job = some j → s.jobTable j = some (own, tb) →
    let Done (t : State) : Prop := t.row.jobs = s.row.jobs.filter (fun x => x.num ≠ j.num)
      ∧ (∀ a, (j.cmd.ck = 1 ∧ a = .setFlag j.cmd.ct.toNat) ∨ (j.cmd.ck = 2 ∧ a = .produce j.cmd.ct.toNat 1) ∨ (j.cmd.ck = 3 ∧ a = .consume j.cmd.ct.toNat 1) →
          ⟨.unit j.part, fld j.cmd.ct.toNat 16 14, a, inClass j.tag .sync⟩ ∈ t.sync.inflight)
    let Status (t : State) (b : Bool) (marks : List Byte) : Prop :=
      let l := j.statusBytes b false ++ marks
      t.mem = Memory.putAll s.mem (List.zip (s.keysOf j.part j.p.core j.cmd.stAddr l.length) l)
    (j.grad = false → j.cmd.deadline ≠ 0 → (s.part j.part).cfg.strict = false → j.issuedAt + j.cmd.deadline ≤ s.now →
      Completes (exec (.gatherDeadline job) s) (fun t => t.mem = s.mem ∧
        ∃ k, t.job job = some k ∧ k.fetches.map (·.1) = j.fetches.map (·.1) ∧ ∀ x ∈ k.fetches, x.2.outcome ≠ .pending))
    ∧ (j.rejected = true → Completes (exec (.gatherComplete job) s) (fun t => Done t ∧ Status t false []))
    ∧ (j.rejected = false → j.grad = true → j.cmd.count ≤ j.next → Completes (exec (.gatherComplete job) s) (fun t => Done t ∧ Status t j.gradBlight j.gradMarks))
    ∧ (j.rejected = false → j.grad = false → (∀ x ∈ j.fetches, x.2.outcome ≠ .pending) →
      let rows := s.gatherRows own tb j
      let ps := j.fetches.map (fun x => s.pooled own j.cmd.table x.2)
      let marks := if j.cmd.marks then j.bagsOf.map (fun b => bagMark ((ps.drop b.1).take b.2) (b.2 = 0 && j.cmd.empty)
        ((tb.recVals tb.lay tb.fallbackRec.1 0).2 || tb.fallbackBad) j.inBlight) else []
      Completes (exec (.gatherComplete job) s) (fun t => Done t ∧
        t.mem = (((s.reportRows own j).writeOutputs j tb rows).writeDev j.part j.p.core j.cmd.stAddr
          (j.statusBytes (rows.any (·.blight)) (rows.any (·.subst)) ++ marks) false).mem)))

/-- R199, R205, R206, R208: a sketch decay halves the counts of its die; a scheduled replica takes, with its row block's version, the master record as
it stands, in an empty way of its set or in that of the row of the lowest estimate where its own is higher; an interval of the
pressure monitor ends and the next one starts with nothing counted. -/
def Obligations.CachesAndMonitor : Prop :=
  ∀ (s : State), s.live = true →
    (∀ die, 2 ^ 24 ≤ s.row.sketchIncs.get 0 die → Completes (exec (.sketchDecay die) s) (fun t =>
      t.row.sketch = s.row.sketch.map (fun x => if x.1 / 2 ^ 22 = die then (x.1, x.2 / 2) else x)
      ∧ t.row.rick = s.row.rick.map (fun w => if w.die = die then { w with count := w.count / 2 } else w)
      ∧ t.row.sketchIncs.get 0 die = s.row.sketchIncs.get 0 die - 2 ^ 24 ∧ t = { s with row := t.row }))
    ∧ (∀ (n : Nat) (c : RowCopy), s.row.copies[n]? = some c → c.part ∉ s.tx.recovering →
      let ks := s.masterKeys c.part c.table c.row
      let tb := (s.part c.part).tables.get {} c.table
      let k := windSets ((s.part c.part).objects.get {} tb.windrowObj) tb c.die
      let ws := inOrder (waysOf s.row.windrow c.die c.part c.table (setOf c.table c.row k))
      let est (r : Nat) : Nat := s.estimate (s.homeDieOf c.part c.table r) c.table r
      let Placed (t : State) (i : Nat) : Prop := ∃ w ∈ t.row.windrow, w.die = c.die ∧ w.part = c.part ∧ w.table = c.table ∧ w.row = c.row ∧ w.way = i
        ∧ w.bytes = (s.readKeys ks).1 ∧ w.ver = s.rowVer c.part c.table c.row
      Completes (exec (.windrowCopy n) s) (fun t => t.row.copies = dropAt s.row.copies n ∧ t.mem = s.mem ∧
        if (s.readKeys ks).2 = true ∨ ks = [] ∨ k = 0 ∨ ws.any (fun w => w.row = c.row) = true then t.row.windrow = s.row.windrow
        else match emptyWay ws with
          | some i => Placed t i
          | none => match leastBy (fun (w : Way) => est w.row) ws with
            | some v => if est v.row < est c.row then Placed t v.way else t.row.windrow = s.row.windrow
            | none => t.row.windrow = s.row.windrow))
    ∧ (s.row.monitor.since + 100000000 ≤ s.now → Completes (exec .pressureInterval s) (fun t =>
      t.row.monitor.since = s.row.monitor.since + 100000000 ∧ t.row.monitor.near = [] ∧ t.row.monitor.fallow = [] ∧ t.row.monitor.tables = []
      ∧ t.mem = s.mem))

/-- R211, R212, R216, R219: RESALT_GROUP_MIGRATE opens the transaction of the group at the cursor, and behind the last group makes the new salt the
table's; a contribution is taken, discarded as late once its step's sweep has started, and the next one is due; an index that names
no row makes none. -/
def Obligations.ResaltAndContributions : Prop :=
  ∀ (s : State), s.live = true →
    (∀ (n tn : Nat) (r : Resalt), s.row.resalts.find? (fun x => x.part = n && x.table = tn) = some r →
      let q := s.part n
      let tb := q.tables.get {} tn
      tb.resalting = true → n ∉ s.tx.recovering → s.tx.txs.any (fun x => x.part = n && x.origin = .resalt tn tb.cursor) = false →
      Completes (exec (.resaltGroupMigrate n tn) s) (fun t =>
        match groupAt (q.salted tb) tb.cursor with
        | some (num, o, g) => t.mem = s.mem ∧ ∃ x ∈ t.tx.txs, x.num = s.tx.nextTx ∧ x.part = n ∧ x.origin = .resalt tn tb.cursor
            ∧ x.entries = s.groupEntries n num o g ∧ x.checks = s.groupChecks n o g ∧ x.phase = .preparing
        | none => ((t.part n).tables.get {} tn) = { tb with salt := tb.newSalt, newSalt := 0, cursor := 0, resalting := false }
            ∧ t.row.resalts = s.row.resalts.filter (fun x => !(x.part = n && x.table = tn))
            ∧ (r.status = none → t.mem = s.mem)
            ∧ (∀ a, r.status = some a → spaceOf a = 0 → t.mem = Memory.putAll s.mem (List.zip (s.keysOf n r.p.core a 1) [0x00]))))
    ∧ (∀ (job : Nat) (j : RowJob), s.job job = some j → j.grad = true → j.next < j.cmd.count → j.rejected = false →
      (∀ r num o e, (j.fetches.find j.next).map (·.kind) = some (.row r) → (s.part j.part).rowObj j.cmd.table r = some (num, o) →
        (s.part j.part).entryOf j.cmd.table = some e →
        Completes (exec (.gradientContribution job) s) (fun t => (t.job job).map (·.next) = some (j.next + 1) ∧
          if (s.gradTerms j ((s.part j.part).tables.get {} j.cmd.table) j.next).1.all (·.isNone) then t.mem = s.mem
          else if s.late j.part j.step then t.mem = s.mem ∧ (t.cluster (coreCluster j.p.core)).cnt.late =
              min ((s.cluster (coreCluster j.p.core)).cnt.late + 1) (2 ^ 64 - 1)
          else t.mem = (({ s with row := t.row } : State).contribute j ((s.part j.part).tables.get {} j.cmd.table) e o r j.next).mem))
      ∧ (∀ k, (j.fetches.find j.next).map (·.kind) = some k → (∀ r, k ≠ .row r) →
        Completes (exec (.gradientContribution job) s) (fun t => (t.job job).map (·.next) = some (j.next + 1) ∧ t.mem = s.mem)))



/-! ### Update sweeps -/

/-- R218, R220, R221: a sweep that is due and that nothing holds back starts with no row block done, and every swath unit of the partition sweeps its step;
with no plan, or none that names a table, memory stays as it was. -/
def Obligations.SweepsStart : Prop :=
  ∀ (s : State) (n : Nat) (st : BitVec 16), s.live = true → s.nextSweep n = some st →
    let q := s.part n
    let step := fullStep (if q.started then q.lastStarted else 0) st
    s.mayStart n step = true → s.holdsMet n = true →
    Completes (exec (.sweepStart n) s) (fun t =>
      t.part n = { q with
        sweep := some { step := step }
        started := true
        lastStarted := step
        sweepDue := q.sweepDue.filter (· ≠ st)
        stepbs := q.stepbs.filter (fun x => x.2 ≠ st) }
      ∧ (∀ k ∈ q.cfg.clusters, (t.cluster k).sw = .sweeping ∧ (t.cluster k).swStep = st)
      ∧ ((∀ pl, q.plan = some pl → ∀ e ∈ pl.entries, e.valid = false ∨ e.dense = true) → t.mem = s.mem))

/-- R236, R237, R395: a row block that is due opens one transaction that holds its writes, which enters its prepare phase; in replay mode the block is
captured and no transaction opens. Memory changes in neither case. -/
def Obligations.RowBlocksSwept : Prop :=
  ∀ (s : State) (n entry block : Nat) (w : Sweep) (b : Nat × Nat × Nat),
    let q := s.part n
    let e := ((q.plan.map (·.entries)).getD []).getD entry {}
    s.live = true → q.sweep = some w → w.suspended = false → n ∉ s.tx.recovering → (s.entryBlocks n e)[block]? = some b →
    (entry, block) ∉ w.opened → s.blockDue n e b = true → (e.dense = true → ∀ x ∈ w.opened, x.1 = entry → x ∈ w.committed) →
    let out := if e.dense then s.denseBlock n e w.step b else s.tableBlock n e w.step b
    Completes (exec (.sweepRowBlock n entry block) s) (fun t => t.mem = s.mem ∧ t.cores = s.cores
      ∧ (∃ v, (t.part n).sweep = some v ∧ v.step = w.step ∧ v.opened = w.opened ++ [(entry, block)]
          ∧ v.committed = (if q.replay.isSome then w.committed ++ [(entry, block)] else w.committed))
      ∧ if q.replay.isSome then t.tx = s.tx
        else ∃ x ∈ t.tx.txs, x.num = s.tx.nextTx ∧ x.part = n ∧ x.step = w.step ∧ x.origin = .sweep entry block
          ∧ x.entries = out.entries ∧ x.phase = .preparing ∧ x.skipped = out.skipped)

/-- R221, R258, R259, R263: once every row block of a sweep has committed, the sweep ends, an installed plan that waited for that comes into force, and
its completion action is sent; or the shards' digests are exchanged where the step is a multiple of the plan's period. The
exchange writes the report of 64 bytes, marks a shard that disagrees with the majority divergent, and ends the sweep. R257: a
stale digest is computed again. -/
def Obligations.SweepsComplete : Prop :=
  ∀ (s : State) (n : Nat) (w : Sweep), s.live = true →
    let q := s.part n
    let me := (s.member n).image.own
    let after : SwState := if q.exports.any (fun x => q.started && x.step = w.step) then .exporting else .idle
    (q.sweep = some w → w.suspended = false → w.digestDue = false → n ∉ s.tx.recovering → s.sweepDone n w = true → q.replay = none →
      Completes (exec (.sweepComplete n) s) (fun t => (t.part n).lastCompleted = w.step ∧
        if (q.plan.map (·.period)).getD 0 ≠ 0 ∧ w.step.toNat % (q.plan.map (·.period)).getD 0 = 0 then
          (t.part n).sweep = some { w with digestDue := true } ∧ (∀ k ∈ q.cfg.clusters, (t.cluster k).sw = .digesting)
          ∧ ((s.member n).quarantined = false → ∀ i ∈ s.replicas n, i ≠ me →
              ∃ d tag, .digest n i w.step d tag ∈ t.out ∧ d.member = me ∧ d.digest = q.shardDigest)
        else (t.part n).sweep = none ∧ (∀ k ∈ q.cfg.clusters, (t.cluster k).sw = after)
          ∧ (t.part n).plan = (if q.nextPlan.isSome then q.nextPlan else q.plan)
          ∧ (∀ pl act, q.plan = some pl → (pl.ck = 1 ∧ act = .setFlag pl.ct.toNat) ∨ (pl.ck = 2 ∧ act = .produce pl.ct.toNat 1)
                ∨ (pl.ck = 3 ∧ act = .consume pl.ct.toNat 1) →
              ⟨.unit n, fld pl.ct.toNat 16 14, act, inClass (s.partTag n (w.step.setWidth 16) .transaction) .sync⟩ ∈ t.sync.inflight)))
    ∧ (∀ (pl : Plan) (others : List PeerDigest), q.sweep = some w → w.digestDue = true → q.plan = some pl → q.replay = none → n ∉ s.tx.recovering →
      let ready := decide (q.stale = []) && !(s.member n).quarantined
      let held := (others.filter (fun o => o.ready && o.member ∈ s.replicas n && o.member ≠ me)).map (fun o => (o.member, o.digest))
        ++ (if ready then [(me, q.shardDigest)] else [])
      let agreed := decide (majority held = some q.shardDigest)
      let status : Byte := if ready = false then 0x02 else if agreed then 0x00 else 0x01
      let report := leBytes 8 w.step.toNat ++ leBytes 32 q.shardDigest ++ [status] ++ leBytes 23 0
      Completes (exec (.digestExchange n others) s) (fun t =>
        (t.part n).sweep = none ∧ (t.part n).lastCompleted = w.step ∧ (t.part n).lastDigestOk = (ready && agreed)
        ∧ (∀ k ∈ q.cfg.clusters, (t.cluster k).sw = after ∧ (t.cluster k).divergent = (if ready then !agreed else (s.cluster k).divergent))
        ∧ ((∀ m, (s.serve m).queue = []) →
            t.mem = Memory.putAll s.mem (List.zip (s.keysOf n (s.leadCore n) pl.report 64) report))))
    ∧ (∀ entry, entry ∈ q.stale → Completes (exec (.digestRecompute n entry) s) (fun t =>
        t = { s with parts := t.parts, tiers := t.tiers } ∧ (t.part n).stale = q.stale.filter (· ≠ entry)
        ∧ (t.part n).digests = q.digests.set entry (s.entryDigest n entry)))

/-! ### Transactions -/

/-- R239 to R243, R248, R253, R254: the first waiting record of a die that finds room is placed at the head of its ring, behind a pad where it would
cross the ring's end; a written redo record is reported prepared; at the durable point a transaction's writes reach their
homes, unless a checked version word has changed, an abort code of its context applies, the fallow pools hold no room for
them or the hold-up gate is shut; at retirement its records are freed, and the TXC of a context that opened it returns. -/
def Obligations.TransactionPhases : Prop :=
  ∀ (s : State), s.live = true →
    let Returns (t : State) (p : At) (x : Tx) (code : Nat) : Prop := ∀ m sd, (s.ctx p).stalledOn = some (.commit m sd) →
      t.ctx p = { ({ s.ctx p with tx := none, txid := 0 } : Ctx).setS sd (BitVec.ofNat 64 code) with
          state := .ready, stalledOn := none, pc := (s.ctx p).pc + 8 }
        ∧ (∀ p', p' ≠ p → t.ctx p' = s.ctx p') ∧ t.mem = s.mem ∧ t.tx.txs = s.tx.txs.filter (fun y => y.num ≠ x.num)
    (∀ (die : Nat) (r : JRec) (rest : List JRec), s.tx.waiting.filter (fun x => x.die = die) = r :: rest → s.hasRoom r = true →
      Completes (exec (.journalRecordPlace die) s) (fun t => t = { s with tx := t.tx } ∧ t.tx.txs = s.tx.txs
        ∧ t.tx.heads.get 0 die = s.tx.heads.get 0 die + s.padFor die r.len + r.len
        ∧ ∃ x ∈ t.tx.journal, x.tx = r.tx ∧ x.type = r.type ∧ x.die = die ∧ x.state = .writing ∧ x.len = r.len
          ∧ x.off = s.tx.heads.get 0 die + s.padFor die r.len ∧ (r.len ≤ ringBytes → x.off % ringBytes + x.len ≤ ringBytes)))
    ∧ (∀ (tx die : Nat) (bad : Bool), s.tx.journal.any (fun r => r.tx = tx && r.die = die && r.type ≤ 2 && r.state = .writing) = true →
      Completes (exec (.txPrepared tx die bad) s) (fun t => t = { s with tx := t.tx }
        ∧ (∀ r ∈ t.tx.journal, r.tx = tx → r.die = die → r.type ≤ 2 → r.state = .prepared)
        ∧ ∀ x ∈ t.tx.txs, x.num = tx → die ∈ x.prepared ∧ (bad = true → x.badRedo = true)))
    ∧ (∀ (tx : Nat) (x : Tx), s.txn tx = some x → x.part ∉ s.tx.recovering → s.allPrepared x = true → s.txMustWait x = false →
      let v := s.txView x
      let changed := x.checks.any (fun c => s.commitCount x.part c.1 ≠ c.2)
      ((∀ p, x.origin ≠ .context p) → x.origin ≠ .imported → x.badRedo = true ∨ changed = true →
        Completes (exec (.txDurablePoint tx) s) (fun t => t.mem = s.mem ∧ t.tx.txs = s.tx.txs.filter (fun y => y.num ≠ tx)))
      ∧ (x.origin = .imported → x.badRedo = true → Completes (exec (.txDurablePoint tx) s) (fun t => t.mem = s.mem
          ∧ ∃ y ∈ t.tx.txs, y.num = tx ∧ y.phase = .preparing ∧ y.badRedo = false ∧ y.entries = x.entries))
      ∧ (∀ p c, x.origin = .context p → changed = false → s.txCode x = some c → Completes (exec (.txDurablePoint tx) s) (Returns · p x c))
      ∧ (((∀ p, x.origin ≠ .context p) ∧ x.badRedo = false ∨ (∃ p, x.origin = .context p) ∧ s.txCode x = none) → changed = false →
        (s.txFits x = false → exec (.txDurablePoint tx) s = .next s)
        ∧ (s.txFits x = true → s.gateOpen = false → Completes (exec (.txDurablePoint tx) s) (fun t => t = { s with tx := t.tx } ∧ t.tx.journal = s.tx.journal))
        ∧ (s.txFits x = true → s.gateOpen = true → (∀ m, (s.part m).objects.any (fun o => o.2.mirrorOf.isSome) = false) →
          Completes (exec (.txDurablePoint tx) s) (fun t => t.mem = (v.writeEntries x.part (v.finalEntries x)).mem
            ∧ (∀ r ∈ t.tx.journal, r.tx = tx → r.type ≠ 4 → r.state = .durable) ∧ ∀ y ∈ t.tx.txs, y.num = tx → y.phase = .durable))))
    ∧ (∀ (tx : Nat) (x : Tx), s.txn tx = some x → x.phase = .durable → tx < s.tx.nextTx →
      Completes (exec (.txRetire tx) s) (fun t => t.mem = s.mem ∧ (∀ r ∈ t.tx.journal, r.tx = tx → r.type = 4) ∧ (∀ y ∈ t.tx.txs, y.num ≠ tx)
        ∧ ∀ p, x.origin = .context p → Returns t p x 0))

/-- R247 to R250, R263: recovery goes through the partition's records die by die, replays durable ones and prepared ones whose transaction has a
durable commit record, and discards the rest; a durable record that it cannot read correctly makes its targets blighted and
posts record 0x02.0x05; after it the partition is no longer in recovery and holds no record in a ring. -/
def Obligations.RecoveryReplays : Prop :=
  ∀ (s : State) (n : Nat) (found : List RecRead), s.live = true → n ∈ s.tx.recovering →
    let recs := ((List.range 8).map (fun d => s.tx.journal.filter (fun r => r.die = d && r.part = n))).flatten
    Completes (exec (.recovery ⟨n, found⟩) s) (fun t => n ∉ t.tx.recovering ∧ (∀ r ∈ t.tx.journal, r.part ≠ n)
      ∧ t.mem = (recs.foldl (State.recoverRec found) s).mem
      ∧ (∀ c ∈ (s.part n).cfg.clusters, (t.cluster c).sw ≠ .recovering)
      ∧ ((∀ r ∈ recs, r.state = .writing ∨ r.state = .applied ∨ r.state = .free ∨ 3 ≤ r.type) → t.mem = s.mem)
      ∧ (∀ r, recs = [r] → r.state = .durable → r.type ≤ 2 →
          (s.readable found r = true → r.passes found = true → (∀ m, (s.part m).objects.any (fun o => o.2.mirrorOf.isSome) = false) →
            t.mem = (s.writeEntries n r.entries).mem)
          ∧ (s.readable found r = true → r.passes found = false → t.mem = s.mem)
          ∧ (s.readable found r = false → s.tx.txs.filter (fun x => x.part = n) = [] → t.mem = s.mem
            ∧ (∃ e ∈ t.errs.log, e.cls = 0x02 ∧ e.cause = 0x05 ∧ e.unit = unitCode .turf ∧ e.loc = BitVec.ofNat 32 r.die ∧ e.tag = r.tag)
            ∧ ∀ e ∈ r.entries, s.rowsAt n e.addr e.data.length = [] →
                ∀ k ∈ s.keysOf n e.core e.addr e.data.length, granule k ∈ t.poison)))

/-! ### Memory tiers -/

/-- R277, R278, R301, R302: an apply of the staged reservation tables ends with the code and the detail of its first failing check, and one that passes
waits for the next window, whose start makes the tables active, gives every stack and channel its level and its
credits; no byte of memory changes. R279: a temperature at or above an entry point raises the next window's throttle level to that point's; five degrees
below the point of its level for ten milliseconds lowers it by one; otherwise it stays, and a memory cap holds it at 2. -/
def Obligations.ReservationsAndThrottling : Prop :=
  (∀ (s : State), s.live = true →
    (∀ (v : BitVec 32), v.getLsbD 31 = true → s.tiers.memBusy = false → s.errs.handover = none →
      let shares := (List.range 8).map (fun n => (s.part n).rickStaged.toNat)
      Completes (exec (.memApply .mgmt v) s) (fun t => t.tiers.memBusy = false ∧ t.mem = s.mem
        ∧ t.tiers.nearActive = s.tiers.nearActive ∧ t.tiers.fallowActive = s.tiers.fallowActive
        ∧ (t.tiers.memResult, t.tiers.memDetail) = (BitVec.ofNat 8 s.memCode.1, BitVec.ofNat 8 s.memCode.2)
        ∧ ((∃ x ∈ shares, 504 < x) → t.tiers.memResult = 6)
        ∧ (t.tiers.memResult = 1 → (∀ i < 16, ((List.range 8).map (fun p => (s.tiers.nearStaged.get {} (rsvKey i p)).total)).sum + 64 ≤ 1280)
            ∧ ((List.range 8).map (fun p => (s.tiers.fallowStaged.get {} p).total)).sum + 160 ≤ 3520 ∧ shares.sum ≤ 504
            ∧ t.tiers.pending = some { near := s.tiers.nearStaged, fallow := s.tiers.fallowStaged, rick := shares })
        ∧ (t.tiers.memResult ≠ 1 → t.tiers.pending = s.tiers.pending)))
    ∧ (s.tiers.lastWindow < s.now / 100000 → Completes (exec .reservationWindow s) (fun t =>
      t.mem = s.mem ∧ t.tiers.lastWindow = s.now / 100000 ∧ t.tiers.pending = none
      ∧ (∀ x, s.tiers.pending = some x → t.tiers.nearActive = x.near ∧ t.tiers.fallowActive = x.fallow ∧ ∀ n < 8, (t.part n).rickActive = x.rick.getD n 0)
      ∧ (s.tiers.pending = none → t.tiers.nearActive = s.tiers.nearActive ∧ t.tiers.fallowActive = s.tiers.fallowActive ∧ t.parts = s.parts)
      ∧ (∀ i < 16, t.near i = (s.near i).window true i s.now (fun p => t.tiers.nearActive.get {} (rsvKey i p)))
      ∧ (∀ i < 32, t.chan i = (s.chan i).window false i s.now (fun p => t.tiers.fallowActive.get {} p)))))
  ∧ (∀ (s : State) (i temp throttle critical : Nat), s.live = true →
    let want := if critical ≤ temp then 2 else if throttle ≤ temp then 1 else 0
    let entry (level : Nat) : Nat := if level = 2 then critical else throttle
    let Rule (m m' : MemSt) : Prop :=
      (m.nextLevel ≤ want → m'.nextLevel = want ∧ m'.belowSince = none)
      ∧ (want < m.nextLevel → m.capped = true → m'.nextLevel = 2 ∧ m'.belowSince = none)
      ∧ (want < m.nextLevel → m.capped = false → entry m.nextLevel < temp + 5 → m'.nextLevel = m.nextLevel ∧ m'.belowSince = none)
      ∧ (want < m.nextLevel → m.capped = false → temp + 5 ≤ entry m.nextLevel →
          if m.belowSince.getD s.now + 10000000 ≤ s.now then m'.nextLevel = m.nextLevel - 1
            ∧ m'.belowSince = (if m.nextLevel - 1 ≠ 0 ∧ temp + 5 ≤ entry (m.nextLevel - 1) then some s.now else none)
          else m'.nextLevel = m.nextLevel ∧ m'.belowSince = some (m.belowSince.getD s.now))
      ∧ m'.temp = temp ∧ m'.throttle = throttle ∧ m'.critical = critical ∧ m'.level = m.level ∧ m'.credits = m.credits
    Completes (exec (.throttleTempChange (.stack i) temp throttle critical) s) (fun t =>
      Rule (s.near i) (t.near i) ∧ (∀ j, j ≠ i → t.near j = s.near j) ∧ t = { s with tiers := t.tiers } ∧ t.tiers.chans = s.tiers.chans)
    ∧ Completes (exec (.throttleTempChange (.channel i) temp throttle critical) s) (fun t =>
      Rule (s.chan i) (t.chan i) ∧ (∀ j, j ≠ i → t.chan j = s.chan j) ∧ t = { s with tiers := t.tiers } ∧ t.tiers.nears = s.tiers.nears))

/-- R287, R288, R289, R291, R292: a queued fallow write reaches its bytes once no earlier one goes to its bale and its chunks are free, and waits otherwise;
the first of a channel that has waited and finds its chunks is done then; a move reads its fallow source with its marks. A near-stack row with an
uncorrectable error, or four corrected ones in a scrub sweep, is repaired where its bank has a resource and recorded as
pending where it has none; fewer are counted. -/
def Obligations.FallowAndRemaps : Prop :=
  ∀ (s : State), s.live = true →
    let able (x : FallowPut) : Bool := s.partNum x.p.core ∉ s.tx.recovering
    (∀ (i : Nat) (x : FallowPut), s.tiers.fallowQ[i]? = some x → s.putBlocked i x = false → able x = true →
      (s.fallowFits x.keys x.data = true → Completes (exec (.fallowWrite i) s) (fun t =>
        t.mem = Memory.putAll s.mem (List.zip x.keys x.data) ∧ KeepsBytes s t x.keys ∧ t.tiers.fallowQ = dropAt s.tiers.fallowQ i))
      ∧ (s.fallowFits x.keys x.data = false → Completes (exec (.fallowWrite i) s) (fun t =>
        t = { s with tiers := t.tiers } ∧ t.tiers.fallowQ = updAt (fun y => { y with waits := true }) s.tiers.fallowQ i)))
    ∧ (∀ (ch i : Nat) (x : FallowPut),
      let mayGo (k : Nat) (y : FallowPut) : Bool := y.waits && y.channel = ch && !s.putBlocked k y && able y && s.fallowFits y.keys y.data
      s.tiers.fallowQ[i]? = some x → mayGo i x = true → (∀ j < i, ∀ y, s.tiers.fallowQ[j]? = some y → mayGo j y = false) →
      Completes (exec (.fallowChunkWaitEnd ch) s) (fun t =>
        t.mem = Memory.putAll s.mem (List.zip x.keys x.data) ∧ t.tiers.fallowQ = dropAt s.tiers.fallowQ i))
    ∧ (∀ (p : At) (i : Nat) (m : Move) (a : Word), (s.ctx p).moves[i]? = some m → m.src = some a → spaceOf a = 5 → m.bytes = none →
      s.heldObj (s.partNum p.core) a = false → s.olderOverlap p m.num a m.len = false →
      let ks := s.keysOf (s.partNum p.core) p.core a m.len
      Completes (exec (.fallowRead p i) s) (fun t => t.mem = s.mem ∧
        (t.ctx p).moves = (s.ctx p).moves.map (fun x => if x.num = m.num then
          { x with bytes := some (s.readKeys ks).1, blight := (s.readKeys ks).2, subst := s.substAt ks } else x)))
    ∧ (∀ (i row : Nat) (why : RemapWhy) (lost : List Nat), (s.near i).outOfService = false →
      let due := why = .uncorrectable ∨ ∃ k, why = .corrections k ∧ 4 ≤ (s.near i).rowErrs.get 0 row + k
      let Lost (t : State) : Prop := (lost = [] → t.mem = s.mem) ∧ ∀ o ∈ lost, granule (nearKey i o) ∈ t.poison
      (due → 0 < (s.near i).remapsFree → Completes (exec (.rowRemap i row why true lost) s) (fun t =>
        t.near i = { s.near i with
            remapsFree := (s.near i).remapsFree - 1
            pendingRows := (s.near i).pendingRows.filter (· ≠ row)
            rowErrs := (t.near i).rowErrs
            bytes := updAt (fun b => sat64 (b + 2 * Config.dramRowBytes i)) (s.near i).bytes 4 }
        ∧ (t.near i).rowErrs.get 0 row = 0 ∧ t.tiers.remapped = s.tiers.remapped ++ [(i, row)] ∧ Lost t))
      ∧ (due → row ∉ (s.near i).pendingRows → Completes (exec (.rowRemap i row why false lost) s) (fun t =>
        t.near i = { s.near i with pendingRows := (s.near i).pendingRows ++ [row], rowErrs := (t.near i).rowErrs }
        ∧ t.tiers.remapped = s.tiers.remapped ∧ Lost t))
      ∧ (∀ k r, why = .corrections k → (s.near i).rowErrs.get 0 row + k < 4 → Completes (exec (.rowRemap i row why r lost) s) (fun t =>
        t.near i = { s.near i with rowErrs := (s.near i).rowErrs.upd 0 row (· + k) } ∧ t.tiers.remapped = s.tiers.remapped ∧ t.mem = s.mem)))

/-! ### Errors, scrubbing, repair -/

/-- R291, R472, R476, R477, R479: the hour's corrected errors are posted and their counts start again; a merge interval posts what it merged, or closes; a
scrub sweep starts when it is due and the last has read every granule in use, and reads each once; a scrubbed granule that cannot be corrected is lost, marked and queued for repair; a repair that a commit made needless,
or that finds no source, ends with a record. -/
def Obligations.ScrubbingAndMerging : Prop :=
  ∀ (s : State), s.live = true →
    (s.errs.hourMark < s.now / 3600000000000 → Completes (exec .correctedSummary s) (fun t =>
      t.errs.corrected = [] ∧ t.errs.hourMark = s.now / 3600000000000 ∧ BesidesReports s t
      ∧ t.errs.nextSeq = s.errs.nextSeq + (s.errs.corrected.filter (fun x => x.2 ≠ 0)).length))
    ∧ (∀ (u : UnitRef) (c : Nat) (m : Merge), s.errs.merges.find? (fun m => m.unit = u && m.cause = c) = some m → m.until_ ≤ s.now →
      Completes (exec (.discardMergeIntervalEnd u c) s) (fun t => BesidesReports s t ∧
        if m.count = 0 then t.errs.merges = s.errs.merges.filter (· ≠ m) ∧ t.errs.nextSeq = s.errs.nextSeq
        else t.errs.nextSeq = s.errs.nextSeq + 1 ∧ ∀ x ∈ t.errs.merges, x.unit = u → x.cause = c → x.count = 0 ∧ x.until_ = s.now + 1000000))
    ∧ (∀ tier, tier < 3 → (s.scrub tier).enable = true → let x := s.scrub tier
      (x.active = false ∨ (s.sweptAll tier = true ∧ x.startedAt + x.periodH * 3600000000000 ≤ s.now) →
        Completes (exec (.scrubSweepStart tier) s) (fun t => t = { s with errs := t.errs, tiers := t.tiers }
          ∧ t.scrub tier = { x with active := true, startedAt := s.now, seen := [] } ∧ (tier ≠ 1 → t.tiers = s.tiers) ∧ (tier = 1 → ∀ i, (t.near i).rowErrs = [])))
      ∧ (x.active = true → s.sweptAll tier = false → exec (.scrubSweepStart tier) s = .next s))
    ∧ (∀ tier g found, g ∈ (s.scrub tier).seen → exec (.scrubGranule tier g found) s = .next s)
    ∧ (∀ tier g, (s.scrub tier).enable = true → (s.scrub tier).active = true → keyRegion g = tierRegion tier → granule g = g → g ∉ (s.scrub tier).seen →
      Completes (exec (.scrubGranule tier g .clean) s) (fun t => t = { s with errs := t.errs, tiers := t.tiers }
          ∧ t.scrub tier = { s.scrub tier with seen := insertNat (s.scrub tier).seen g })
      ∧ Completes (exec (.scrubGranule tier g .corrected) s) (fun t => t.mem = s.mem ∧
          (keyRegion g = 4 → let k := (unitAt g).index
            let row := Config.dramRow k ((g - 4 * 2 ^ 60) % 2 ^ 36)
            (t.near k).rowErrs.get 0 row = (s.near k).rowErrs.get 0 row + 1) ∧
          (t.errs.corrected.find? (fun x => x.1 = unitAt g)).map (·.2) = some (((s.errs.corrected.find? (fun x => x.1 = unitAt g)).map (·.2)).getD 0 + 1))
      ∧ (g ∉ s.poison → Completes (exec (.scrubGranule tier g .uncorrectable) s) (fun t =>
          g ∈ t.poison ∧ g ∈ t.errs.repairs ∧ t.errs.nextSeq = s.errs.nextSeq + 1 ∧ ∀ k, granule k ≠ g → Memory.get t.mem k = Memory.get s.mem k)))
    ∧ (∀ g peer, g ∈ s.errs.repairs →
      (g ∉ s.poison → Completes (exec (.scrubRepair g peer) s) (fun t => t.mem = s.mem ∧ t.errs.repairs = s.errs.repairs.filter (· ≠ g)))
      ∧ (g ∈ s.poison → ∀ n, (match s.objAt g with | some y => y.part | none => s.partNum ((g - 2 ^ 60) / sliceBytes)) = n →
        let ks := (List.range (granSize g)).map (g + ·)
        (s.repairSource n (s.addrOf g) ks peer = none → Completes (exec (.scrubRepair g peer) s) (fun t =>
          t.mem = s.mem ∧ t.poison = s.poison ∧ t.errs.repairs = s.errs.repairs.filter (· ≠ g)))
        ∧ (∀ c l, s.repairSource n (s.addrOf g) ks peer = some (c, l) → n ∉ s.tx.recovering → s.gateOpen = true → s.fallowFits ks l = true → granule g = g →
          Completes (exec (.scrubRepair g peer) s) (fun t => t.mem = Memory.putAll s.mem (List.zip ks l) ∧ g ∉ t.poison
            ∧ t.errs.repairs = s.errs.repairs.filter (· ≠ g)))))

/-- R480, R481, R482, R483, R497: management's request is taken, and refused as unknown beyond the last core or cluster; a retirement fences its cores, with the
core spare of its cluster where there is one and with the die's spare cluster else, or leaves its cluster vacant; its cores
drain, the copy runs, and outside every partition the new map takes effect at once. -/
def Obligations.RetirementsRun : Prop :=
  ∀ (s : State), s.live = true →
    (∀ (v : BitVec 32), v.getLsbD 31 = true → s.errs.retireAsk = none → Completes (exec (.retireRequest .mgmt v) s) (fun t =>
      let kind : RetireKind := if v.getLsbD 29 then .cluster else .core
      t = { s with errs := t.errs } ∧ t.errs.retireNumber = fld v.toNat 10 0 ∧ t.errs.retireKind = kind
      ∧ if (if v.getLsbD 29 then 80 else 1200) ≤ fld v.toNat 10 0 then t.errs.retireResult = 4 ∧ t.errs.retireAsk = none
        else t.errs.retireAsk = some (kind, fld v.toNat 10 0)))
    ∧ (∀ (c number : Nat) (kind : RetireKind) (why : RetireWhy), s.errs.retireQ = [] → s.errs.retiring = none → s.errs.handover = none →
      (kind = .core ∧ c = coreCluster number ∧ why = .corrections 64) ∨ (kind = .cluster ∧ c = number ∧ (why = .logicFault ∨ why = .coreShareUsed))
        ∨ (c = (if kind = .core then coreCluster number else number) ∧ why = .request ∧ s.errs.retireAsk = some (kind, number)) →
      let d := s.die (clusterDie c)
      (d.maps.get {} (c % 10)).valid = true →
      let Fenced (t : State) (choice : Nat) (cores : List Nat) : Prop := t.mem = s.mem ∧ ∃ r, t.errs.retiring = some r ∧ r.kind = kind ∧ r.number = number
        ∧ r.choice = choice ∧ r.phase = .fenced ∧ r.part = (s.cluster c).part ∧ r.cores = cores ∧ ∀ k ∈ r.cores, (t.core k).frozen = some .retire
      (kind = .core → c % 10 ∈ d.spareOk →
        Completes (exec (.retirement kind number why) s) (Fenced · 1 (((d.maps.get {} (c % 10)).moved (number % 15)).map (15 * c + ·))))
      ∧ ((kind = .cluster ∨ c % 10 ∉ d.spareOk) → d.clustersFree ≠ 0 →
        Completes (exec (.retirement kind number why) s) (Fenced · 2 ((List.range 15).map (15 * c + ·))))
      ∧ ((kind = .cluster ∨ c % 10 ∉ d.spareOk) → d.clustersFree = 0 → Completes (exec (.retirement kind number why) s) (fun t =>
          (t.cluster c).vacant = true ∧ ((t.die (clusterDie c)).maps.get {} (c % 10)).valid = false ∧ t.errs.retiring = none
          ∧ (why = .request → t.errs.retireResult = 3 ∧ t.errs.retireAsk = none))))
    ∧ (∀ r, s.errs.retiring = some r → r.phase = .fenced → (∀ k ∈ r.cores, (s.core k).drained = true) →
      Completes (exec .retirementDrained s) (fun t => t = { s with errs := { s.errs with retiring := some { r with phase := .drained } } }))
    ∧ (∀ r n, s.errs.retiring = some r → r.phase = .drained → r.part = some n → (s.part n).change = none →
      Completes (exec .retirementCopied s) (fun t => t.mem = s.mem ∧ t.errs.retiring = some { r with phase := .copied }
        ∧ ∃ h, (t.part n).change = some h ∧ h.retire = true ∧ h.cfg = (s.part n).cfg))
    ∧ (∀ r, s.errs.retiring = some r → r.phase = .drained → r.part = none → r.choice = 1 → r.kind = .core → s.errs.retireQ = [] →
      r.wasFrozen.map (·.1) = r.cores →
      Completes (exec .retirementCopied s) (fun t =>
        ((t.die (clusterDie (coreCluster r.number))).maps.get {} (coreCluster r.number % 10)).unusedCore
            = ((s.die (clusterDie (coreCluster r.number))).maps.get {} (coreCluster r.number % 10)).core (r.number % 15)
        ∧ t.errs.retiring = none))



/-- R487, R488, R489, R490: an image whose signature and security version pass replaces the inactive one, and another is refused with result 0x03; activation
of a verified image starts a handover, controllers switch one by one, and the flip makes the other image active;
a failing controller ends the handover with result 0x02 and the old image. -/
def Obligations.FirmwareHandover : Prop :=
  ∀ (s : State), s.live = true →
    let nothingWaits := s.boot.rstBusy = false ∧ s.errs.retireQ = [] ∧ s.tiers.memBusy = false ∧ s.ident.busy = false
    (∀ (img sig : List Byte) (sec ver : Nat), s.errs.handover = none →
      Completes (exec (.fwImageWrite img sig sec ver) s) (fun t => t.errs.activeFw = s.errs.activeFw ∧ BesidesReports s t ∧
        if Config.verify Config.firmwareKey img sig = true ∧ Config.minSecurity ≤ sec then
          t.errs.idleFw = { digest := sha384 img, security := sec, version := ver, verified := true } ∧ t.errs.fwResult = s.errs.fwResult
        else t.errs.idleFw = s.errs.idleFw ∧ t.errs.fwResult = 3))
    ∧ (∀ (v : BitVec 32), v.getLsbD 31 = true → s.errs.fwBusy = false → s.errs.handover = none →
      Completes (exec (.fwActivate .mgmt v) s) (fun t => BesidesReports s t ∧ t.errs.activeFw = s.errs.activeFw ∧
        if s.errs.idleFw.verified = true then t.errs.fwBusy = true ∧ (t.errs.handover.isSome ↔ s.appliesBusy = false)
        else t.errs.fwBusy = false ∧ t.errs.fwResult = 3))
    ∧ (∀ (c : Nat) (h : Handover), s.errs.handover = some h → Completes (exec (.fwControllerSwitch c) s) (fun t =>
        t = { s with errs := { s.errs with handover := some { switched := addOnce h.switched c } } }))
    ∧ (∀ (h : Handover), s.errs.handover = some h → h.switched ≠ [] → s.gateOpen = true → nothingWaits →
      Completes (exec .fwPointerFlip s) (fun t => t.errs.fwActive = !s.errs.fwActive ∧ t.errs.handover = none ∧ t.errs.fwBusy = false ∧ t.errs.fwResult = 1
        ∧ BesidesReports s t))
    ∧ (∀ (c : Nat) (h : Handover), s.errs.handover = some h → nothingWaits → Completes (exec (.fwRevert c) s) (fun t => t.errs.fwActive = s.errs.fwActive
        ∧ t.errs.handover = none ∧ t.errs.fwBusy = false ∧ t.errs.fwResult = 2 ∧ BesidesReports s t))

/-- R506, R507, R508, R513, R514, R515, R517, R566: a control period lowers a hot or over-budget die by 5 mV or paces it, and
takes pacing back before it raises; a reading of 115 °C cuts all but domain 23; a write that waited for the hold-up gate
takes effect when the gate opens; loss latches hold and begins the save; the save writes a copy over the older; energy
down to 50 J leaves domain 23 alone; a return counts 20 ms from the return of the input. -/
def Obligations.PowerEvents : Prop :=
  ∀ (s : State),
    (s.live = true → ∀ r,
      let inputs := ((s.power.inputs ++ [r.inputW]).reverse.take 20).reverse
      let total := ((List.range 8).map s.dieClusters).sum
      Completes (exec (.powerControlPeriod r) s) (fun t => t = { s with power := t.power, tiers := t.tiers }
        ∧ t.power.inputs = inputs ∧ t.power.bankJ = r.bankJ ∧ t.power.energyMj = sat64 r.energyMj
        ∧ ∀ d, d < 8 →
          let x := s.rail d
          let hot := r.dieTemp.getD d 0
          let lower := 103 ≤ hot ∨ ((s.power.limitW - r.hubW) * s.dieClusters d < r.dieW.getD d 0 * total ∧ s.power.limitW * inputs.length < inputs.sum)
          let up := hot < 100 ∧ inputs.sum * 100 ≤ s.power.limitW * inputs.length * 98
          (t.rail d).temp = hot ∧ (t.rail d).present = r.railMv.getD d 0 ∧ (t.rail d).target = x.target
          ∧ (lower → 600 < x.applied → (t.rail d).applied = max 600 (x.applied - 5) ∧ (t.rail d).paceShare = x.paceShare)
          ∧ (lower → x.applied ≤ 600 → (t.rail d).applied = x.applied ∧ (t.rail d).paceShare = min 15 (x.paceShare + 1))
          ∧ (¬ lower → x.paceShare ≠ 0 → (t.rail d).paceShare = x.paceShare - 1 ∧ (t.rail d).applied = x.applied)
          ∧ (¬ lower → x.paceShare = 0 → up → x.applied < x.target → (t.rail d).applied = min x.target (x.applied + 5) ∧ (t.rail d).paceShare = 0)
          ∧ (¬ lower → x.paceShare = 0 → ¬ (up ∧ x.applied < x.target) → (t.rail d).applied = x.applied ∧ (t.rail d).paceShare = 0)
          ∧ ∀ k, k / 2 = d → ((t.near k).capped = true ↔ (t.rail d).paceShare ≠ 0)))
    ∧ (s.live = true → ∀ die sensor reading, 115 ≤ reading → Completes (exec (.thermalCut die sensor reading) s) (fun t =>
        t.power.domains = [23] ∧ t.mem = [] ∧ t.cores = [] ∧ t.boot.state = 0 ∧ t.errs.memberLosses = s.errs.memberLosses + 1
        ∧ t.power.copies = s.power.copies ∧ t.errs.log = s.errs.log ∧ t.ident = s.ident ∧ t.now = s.now ∧ t.pending = s.pending))
    ∧ (s.live = true → ∀ bank n keep v, s.power.gated = [(n, keep, v)] → s.net.streams = [] → s.ident.busy = false → s.boot.rstBusy = false →
        let u : State := { s with power := { s.power with bankJ := bank, gated := [] } }
        u.gateOpen = true → Completes (exec (.holdupGateOpen bank) s) (· = if keep then u.setKeep n v else u.setStage n v))
    ∧ (∀ c, c = Instr.inputLoss ∨ c = Instr.inputOvervoltage → s.live = true → Completes (exec c s) (fun t =>
        t = { s with power := t.power, mgmt := t.mgmt, errs := t.errs, host := t.host, net := t.net }
        ∧ t.power.hold = (if s.boot.state = 1 then .saving else .saved) ∧ t.power.saveDone = !s.up ∧ t.mgmt.pwrOk = false
        ∧ (∀ d, d ∈ t.power.domains ↔ d ∈ s.power.domains ∧ ¬ (17 ≤ d ∧ d ≤ 20)) ∧ t.power.copies = s.power.copies
        ∧ t.errs.handover = none ∧ t.errs.fwActive = s.errs.fwActive))
    ∧ (s.live = false → s.power.saveDone = false → s.mgmt.modResetLow = false → Completes (exec .lossSetSaveComplete s) (fun t =>
        t = { s with power := t.power } ∧ s.lossSet false ∈ t.power.copies ∧ t.power.nextAge = s.power.nextAge + 1 ∧ t.power.saveDone = true
        ∧ t.power.hold = (if s.power.returnedAt.isSome then .qualifying else .saved)
        ∧ ∀ a b, s.power.copies = [a, b] → t.power.copies = [if a.age < b.age then b else a, s.lossSet false]))
    ∧ (s.live = false → ∀ bank, bank ≤ 50 → Completes (exec (.holdEnergyExhausted bank) s) (fun t =>
        t.power.domains = [23] ∧ t.power.bankJ = bank ∧ t.power.hold = .saved ∧ t.boot.coldHold = true ∧ t.mem = [] ∧ t.cores = []
        ∧ t.power.copies = s.power.copies ∧ t.ident = s.ident))
    ∧ (s.live = false → s.power.returnedAt = none → ¬ (s.boot.coldHold = true ∧ s.power.domains = [23]) → Completes (exec .inputReturn s) (fun t =>
        t = { s with power := { s.power with returnedAt := some s.now, hold := if s.power.saveDone then .qualifying else .saving } }))
    ∧ (s.live = false → s.power.returnedAt = none → s.boot.coldHold = true → s.power.domains = [23] → s.mgmt.waiting = [] → s.regs.stalled = [] → Completes (exec .inputReturn s) (fun t =>
        t.live = true ∧ t.boot.since = s.now ∧ t = { s with power := t.power, boot := t.boot }))
    ∧ (∀ t0, s.live = false → s.power.returnedAt = some t0 → s.power.saveDone = true → t0 + 20000000 ≤ s.now → (∀ k, k < 24 → (s.lnk k).st ≠ .up) → s.errs.retireQ = [] → s.mgmt.waiting = [] → s.regs.stalled = [] →
        Completes (exec .qualificationComplete s) (fun t => t.live = true ∧ t.power.returnedAt = none ∧ t = { s with power := t.power }
          ∧ (4 ≤ s.boot.stage.toNat → 17 ∈ t.power.domains ∧ 18 ∈ t.power.domains)))

/-- R50, R524, R525, R528, R532, R569: a bring-up stage writes its report and does its work or stops; a module reset leaves domain 23's
state, and with memory kept the tiers and a copy of the hub's; MOD_RESET_N runs at once what management asks for by register. -/
def Obligations.BringupAndModuleReset : Prop :=
  ∀ (s : State),
    (s.live = true → s.mgmt.modResetLow = false → s.boot.state = 0 → ∀ k r, k = (if s.boot.stage = 0 then 1 else s.boot.stage.toNat + 1) → k ≤ 12 →
      Completes (exec (.bringupStage r) s) (fun t => t.boot.stage = BitVec.ofNat 8 k ∧ t.boot.since = s.now
        ∧ (t.boot.reports.get {} k).outcome = stageOutcome k r ∧ (t.boot.reports.get {} k).start = s.boot.since ∧ (t.boot.reports.get {} k).stop = s.now
        ∧ (stageOutcome k r = 2 → t = { s with boot := t.boot } ∧ t.boot.state = 2)
        ∧ (stageOutcome k r ≠ 2 → t = { s.stageWork k r with boot := t.boot }
          ∧ (k = 1 → t.boot.count = s.boot.count + 1 ∧ t = { s with boot := t.boot })
          ∧ (k = 2 → t.ident.variant = s.ident.stored.variant ∧ t.ident.seq = s.ident.stored.seq)
          ∧ (k = 4 → t.mgmt.pwrOk = true ∧ ∀ d, d < 8 → (t.rail d).applied = (s.rail d).target)
          ∧ (k = 9 → t.boot.routes = allRoutes)
          ∧ (k = 12 → t.up = true ∧ t.boot.coldHold = false)
          ∧ (k < 12 → t.boot.state = 0))))
    ∧ (s.live = true → s.boot.rstBusy = false → Completes (exec (.moduleReset false) s) (fun t =>
        t.mem = [] ∧ t.poison = [] ∧ t.cores = [] ∧ t.parts = [] ∧ t.power.domains = [23] ∧ t.boot.state = 0 ∧ t.boot.stage = 0
        ∧ t.boot.rstBusy = true ∧ t.boot.rstLevel = 4
        ∧ t.now = s.now ∧ t.ident = s.ident ∧ t.errs.log = s.errs.log ∧ t.power.copies = s.power.copies ∧ t.power.limitW = s.power.limitW
        ∧ t.boot.count = s.boot.count ∧ t.net.ckpts = s.net.ckpts ∧ t.pending = s.pending))
    ∧ (s.live = true → s.boot.rstBusy = false → s.up = true → s.gateOpen = true → Completes (exec (.moduleReset true) s) (fun t =>
        t.mem = s.mem.filter (fun c => keyRegion c.1 ≠ 0) ∧ t.cores = [] ∧ t.parts = [] ∧ t.boot.state = 0 ∧ t.boot.keepMemory = true ∧ t.tx.journal = s.tx.journal
        ∧ (∀ d, d ∈ t.power.domains ↔ (8 ≤ d ∧ d ≤ 15) ∨ d = 21 ∨ d = 23)
        ∧ ∃ c ∈ t.power.copies, c.warm = true ∧ c.parts = s.parts ∧ c.members = s.link.members ∧ c.dies = s.dies))
    ∧ (s.live = true ∨ s.power.saveDone = true → Completes (exec .modResetNAssert s) (fun t =>
        t.mgmt.modResetLow = true ∧ t.mem = [] ∧ t.cores = [] ∧ t.power.domains = [23] ∧ t.boot.state = 0 ∧ t.boot.rstBusy = false
        ∧ t.boot.rstResult = (if s.boot.rstBusy then 3 else s.boot.rstResult) ∧ t.ident = s.ident ∧ t.power.copies = s.power.copies))
    ∧ (s.mgmt.modResetLow = true → Completes (exec .modResetNRelease s) (fun t =>
        t = { s with mgmt := { s.mgmt with modResetLow := false }, tap := t.tap, boot := { s.boot with since := s.now } }
        ∧ t.tap.ir = .idcode ∧ t.tap.driving = false ∧ t.tap.highz = false ∧ t.tap.boundary = s.tap.boundary))

/-- R433, R448, R451, R528, R529, R530, R534, R544, R570: a reset that management asks for names its level and target, runs, and reports; a core's
context leaves idle with its registers zero; a cluster or a partition reset leaves its partition to recover; a
compute reset drops the rick cache, the sketch and early flits; a function-level reset and a lost host link return the functions
they reach to reset; link events set the port's status. -/
def Obligations.ResetsAndPortLinks : Prop :=
  ∀ (s : State), s.live = true →
    (∀ target c lvl, (c, lvl) ∈ [(Instr.coreReset target, 0), (Instr.clusterReset target, 1), (Instr.partitionReset target, 2)] →
      s.boot.rstBusy = false →
      (resetTargets lvl ≤ target → Completes (exec c s) (fun t =>
        t = { s with boot := { s.boot with rstLevel := BitVec.ofNat 3 lvl, rstTarget := target, rstResult := 2 } }))
      ∧ (target < resetTargets lvl → s.errs.handover = none → Completes (exec c s) (fun t => t.boot.rstResult = 1
        ∧ t = { ({ s with boot := { s.boot with rstLevel := BitVec.ofNat 3 lvl, rstTarget := target } } : State).runReset lvl target with boot := t.boot })))
    ∧ (∀ target i x, target < 1200 → i < 8 → s.boot.rstBusy = false → s.errs.handover = none →
      (s.core target).ctxs = [(i, x)] → x.stores = [] → x.moves = [] → x.owed = [] → x.loads = [] → x.stalledOn = none → x.tx = none →
      s.sync.inflight = [] → (s.unitBuf ⟨.core, target⟩).held = [] →
      Completes (exec (.coreReset target) s) (fun t => t.mem = s.mem ∧
        let y := t.ctx ⟨target, i⟩
        y.state = .idle ∧ y.step = 0 ∧ y.txid = 0 ∧ y.stickyBlight = false ∧ y.stickySubst = false ∧ y.wait = none ∧ y.acc = []
        ∧ (∀ r, y.getS r = 0) ∧ y.pc = x.pc ∧ (t.core target).tiles = [] ∧ (∀ n, s.partOf target = some n → n ∈ t.tx.recovering)))
    ∧ (∀ target n, target < 80 → s.boot.rstBusy = false → s.errs.handover = none → (s.cluster target).part = some n →
      Completes (exec (.clusterReset target) s) (fun t => n ∈ t.tx.recovering ∧ (t.cluster target).sw = .recovering))
    ∧ (∀ n, n < 8 → s.boot.rstBusy = false → s.errs.handover = none →
      Completes (exec (.partitionReset n) s) (fun t => ∀ c ∈ (s.part n).cfg.clusters, n ∈ t.tx.recovering ∧ (t.cluster c).sw = .recovering))
    ∧ (s.boot.rstBusy = false → s.errs.handover = none → Completes (exec .computeReset s) (fun t =>
        t.row.rick = [] ∧ t.row.sketch = [] ∧ t.link.early = [] ∧ t.link.lag = [] ∧ t.boot.rstResult = 1 ∧ t.boot.rstLevel = 3))
    ∧ (∀ f, (∀ n, n < 8 → ∀ g, s.funcOf n = some g → g ∉ resetFns f) →
      let reset (t : State) : Prop := ∀ g ∈ resetFns f, (t.func g).queues = [] ∧ (t.func g).busMaster = false ∧ (t.func g).held = [] ∧ (t.func g).vectors = []
      Completes (exec (.functionLevelReset f) s) (fun t => t = { s with host := t.host } ∧ reset t ∧ t.host.ports = s.host.ports)
      ∧ (f.fn = 0 → Completes (exec (.hotReset f.port) s) (fun t => t = { s with host := t.host } ∧ reset t ∧ t.host.ports = s.host.ports)
        ∧ ∀ c, c = Instr.hostLinkDown f.port ∨ c = Instr.hostPerst f.port → Completes (exec c s) (fun t => t = { s with host := t.host } ∧ reset t
          ∧ (t.host.ports.get {} f.port).up = false ∧ (t.host.ports.get {} f.port).rate = 0 ∧ (t.host.ports.get {} f.port).width = 0)))
    ∧ (∀ port rate width, width ≤ 8 → Completes (exec (.hostLinkUp port rate width) s) (fun t => t = { s with host := { s.host with ports := t.host.ports } }
        ∧ (t.host.ports.get {} port).up = true ∧ (t.host.ports.get {} port).rate = rate ∧ (t.host.ports.get {} port).width = width))
    ∧ (∀ port lanes up c, (c, up) ∈ [(Instr.networkLinkDown port lanes, false), (Instr.networkLinkUp port lanes, true)] →
        Completes (exec c s) (fun t => t = { s with net := { s.net with ports := t.net.ports } }
          ∧ (t.net.ports.get {} port).up = up ∧ (t.net.ports.get {} port).lanes = lanes))

/-- R436, R437, R438, R439, R441, R446, R447, R448, R464, R465, R467: a tail within the queue and not past the head is taken, and another
puts the queue into the error state; the head of the completion queue frees entries; a pair is enabled at the start of its rings
and disabled once its started commands have ended, when what was written meanwhile takes effect; fetched entries wait in order; an indirect block is
read before its command runs; a pending vector's message goes when it may; with Bus Master Enable clear a function
holds what it would send and takes the reads that are out (log entry 43), and sends what it held in order once the bit is set, then the messages of
pending vectors; a read that returns after a Function Level Reset is dropped and counted; NOP completes. -/
def Obligations.QueuesAndInterrupts : Prop :=
  ∀ (s : State), s.live = true →
    (∀ (q : QRef) (v : Word), let x := s.queue q
      let size := 2 ^ x.sizeLog2
      let tail := fld v.toNat 11 0
      let entries := (x.tail + size - x.head) % size + (tail + size - x.tail) % size
      let others (t : State) : Prop := ∀ r, ¬ (fnKey (qFunc r) = fnKey (qFunc q) ∧ r.q = q.q) → t.queue r = s.queue r
      (x.enable = true → x.state = .running →
        (tail < size → entries < size → Completes (exec (.sqTailWrite q v) s) (fun t => t = { s with host := t.host } ∧ t.queue q = { x with tail := tail } ∧ others t))
        ∧ (size ≤ tail ∨ size ≤ entries → Completes (exec (.sqTailWrite q v) s) (fun t => BesidesReports s t ∧ t.queue q = { x with state := .error, cause := 1 } ∧ t.errs.nextSeq = s.errs.nextSeq + 1)))
      ∧ (let n := x.cqHead + (tail + size - x.cqHead % size) % size
        x.enable = true → n ≤ x.cqTail → Completes (exec (.cqHeadWrite q v) s) (fun t => t = { s with host := t.host } ∧ t.queue q = { x with cqHead := n } ∧ others t)))
    ∧ (∀ (q : QRef) (v : BitVec 32), let x := s.queue q
      let size := fld v.toNat 29 26
      let started : Queue := { x with tail := 0, head := 0, fetchSeq := 0, cqHead := 0, cqTail := 0, posted := 0, reserved := 0, readsOut := 0, fetched := [], started := none, running := [] }
      (v.getLsbD 31 = true → x.enable = false → x.stopping = false → 4 ≤ size → size ≤ 12 → Completes (exec (.queueEnable q v) s) (fun t => t = { s with host := t.host }
        ∧ t.queue q = { started with sizeLog2 := size, vector := fld v.toNat 15 8, holdoff := fld v.toNat 7 0, enable := true, state := .running, cause := 0 }))
      ∧ (v.getLsbD 31 = false → x.enable = true → Completes (exec (.queueDisable q v) s) (fun t => t = { s with host := t.host } ∧ (t.queue q).enable = false
        ∧ (x.running = [] → (t.queue q).state = .disabled ∧ (t.queue q).fetched = [] ∧ (t.queue q).stopping = false ∧ (t.queue q).sizeLog2 = size)
        ∧ (x.running ≠ [] → t.queue q = { x with enable := false, stopping := true, nextCfg := v })))
      ∧ (v.getLsbD 31 = true → x.enable = false → x.stopping = true → x.running ≠ [] → Completes (exec (.queueEnable q v) s) (fun t =>
          t = { s with host := t.host } ∧ t.queue q = { x with nextCfg := v })))
    ∧ (∀ (q : QRef) (l : List Byte), let x := s.queue q
      let master := (s.func (qFunc q)).busMaster
      (x.enable = true → x.state = .running → (if master then (x.tail + 2 ^ x.sizeLog2 - x.head) % 2 ^ x.sizeLog2 ≠ 0 ∧ x.fetched.length < 16 else x.readsOut ≠ 0) →
      Completes (exec (.sqeFetch q (.data l)) s) (fun t => t = { s with host := t.host }
        ∧ t.queue q = { x with fetched := x.fetched ++ [{ seq := x.fetchSeq, desc := slice l 0 512 }], fetchSeq := x.fetchSeq + 1, readsOut := x.readsOut - 1, head := (x.head + 1) % 2 ^ x.sizeLog2 })
      ∧ Completes (exec (.sqeFetch q .failed) s) (fun t => BesidesReports s t ∧ t.queue q = { x with state := .error, cause := 2 }))
      ∧ (x.reads master = 0 → 0 < (s.func (qFunc q)).late → Completes (exec (.sqeFetch q (.data l)) s) (fun t => t = { s with host := t.host }
        ∧ t.func (qFunc q) = { s.func (qFunc q) with late := (s.func (qFunc q)).late - 1, cnt := updAt (fun n => sat64 (n + 1)) (s.func (qFunc q)).cnt 2 })))
    ∧ (∀ (q : QRef) (l : List Byte) (n : Nat) (d : List Byte), (s.queue q).started = some { seq := n, desc := d } →
      Completes (exec (.indirectBlockRead q (.data l)) s) (fun t => t = { s with host := t.host }
        ∧ t.queue q = { s.queue q with started := some { seq := n, desc := d, block := some (slice l 0 (leAt d 0x18 4)) } })
      ∧ Completes (exec (.indirectBlockRead q .failed) s) (fun t => BesidesReports s t ∧ (t.queue q).started = none ∧ TakesEntry s t q))
    ∧ (∀ (f : FuncRef) (v : Nat), let x := (s.func f).vectors.get {} v
      let free := ∀ t, x.lastSent = some t → t + 1000 * x.holdoff ≤ s.now
      x.pending = true → free → (s.func f).busMaster = true →
      (x.masked = false → Completes (exec (.msixHoldoffExpiry f v) s) (fun t => t = { s with host := t.host, out := t.out } ∧ t.out = s.out ++ [.msix f v x.addr x.data]
        ∧ (t.func f).vectors.get {} v = { x with pending := false, lastSent := some s.now }))
      ∧ Completes (exec (.msixUnmask f v) s) (fun t => t = { s with host := t.host, out := t.out } ∧ t.out = s.out ++ [.msix f v x.addr x.data]
        ∧ (t.func f).vectors.get {} v = { x with masked := false, pending := false, lastSent := some s.now }))
    ∧ (∀ (f : FuncRef), let g := s.func f
      let sends (v : Nat) : Prop := let x := g.vectors.get {} v
        x.pending = true ∧ x.masked = false ∧ ∀ t, x.lastSent = some t → t + 1000 * x.holdoff ≤ s.now
      Completes (exec (.busMasterDisable f) s) (fun t => t = { s with host := t.host }
        ∧ t.func f = { g with busMaster := false, queues := if g.busMaster then g.queues.map (fun x => (x.1, { x.2 with readsOut := x.2.reads true })) else g.queues })
      ∧ (g.busMaster = false → Completes (exec (.busMasterEnable f) s) (fun t => t = { s with host := t.host, out := t.out }
        ∧ (t.func f).busMaster = true ∧ (t.func f).held = [] ∧ (t.func f).queues = g.queues
        ∧ ∃ ms, t.out = s.out ++ g.held ++ ms ∧ (∀ o ∈ ms, ∃ v, sends v ∧ o = .msix f v (g.vectors.get {} v).addr (g.vectors.get {} v).data)
          ∧ ∀ v ∈ g.vectors.map (·.1), sends v → .msix f v (g.vectors.get {} v).addr (g.vectors.get {} v).data ∈ ms ∧ ((t.func f).vectors.get {} v).pending = false)))
    ∧ (∀ (q : QRef) (n : Nat) (u : State) (c : HostCmd), HostRuns s q 0x00 n u c → (∀ i, i < 4 → c.arg i = 0) → Completes (exec (.hostNop q) s) (fun t => Answers u t c 0 0 0))
    ∧ (∀ (q : QRef) (f : Fetched) (rest : List Fetched), (s.queue q).started = none → (s.queue q).fetched = f :: rest → s.mayStartCmd q f.desc = true →
      (s.boundPart (qFunc q)).isSome = true → opcodeOf f.desc = 0x07 → headerOk f.desc = true → takesIndirect f.desc = true → Completes (exec (.installTable q) s) (fun t => t = { s with host := t.host }
        ∧ (t.queue q).started = some { seq := f.seq, desc := f.desc } ∧ (t.queue q).fetched = rest))

/-- R160, R161, R163, R442, R452, R453, R456: a host write stores its bytes and does its action; a host read returns the bytes of
the part; a signal does its action; a program of result 0 goes into the slot or the cores that it names; launch starts
the idle and faulted contexts that have an entry point; stop makes contexts idle; regions, connections and streams are opened
under numbers and removed. -/
def Obligations.HostDataAndContexts : Prop :=
  ∀ (s u : State) (q : QRef) (n : Nat) (c : HostCmd), let a := BitVec.ofNat 64 (c.arg 0)
    let w := c.arg 1
    let rest := c.arg 2 = 0 ∧ c.arg 3 = 0
    let cores := targetCores w
    (HostRuns s q 0x01 n u c → descFlag c.desc 0 = false → w < 2 ^ 19 → ctShapeOk (argCk w) (argCt w) = true → rest → spaceOf a ∈ [0, 1, 3] →
      (c.block = [] ∨ u.within n a c.block.length = true) → u.serveWriteOk n a = true → u.ctOwned n (argCk w) (argCt w) = true →
      Completes (exec (.hostWrite q) s) (fun t => Answers ((u.writeDev n (u.leadCore n) a c.block false).action n (u.hostTag n) (argCk w) (argCt w)) t c 0 0 0))
    ∧ (HostRuns s q 0x02 n u c → 0 < c.arg 2 → c.arg 2 ≤ 448 → c.arg 3 = 0 → spaceOf a ∈ [0, 1, 2, 3] → u.within n a (c.arg 2) = true →
      Completes (exec (.hostRead q) s) (fun t => BesidesReports u t ∧ t.mem = s.mem ∧ TakesEntry u t q
        ∧ ((u.func (qFunc q)).busMaster = true → .hostData (qFunc q) (BitVec.ofNat 64 w) (u.readDev n (u.leadCore n) a (c.arg 2)).1 ∈ t.out)))
    ∧ (HostRuns s q 0x03 n u c → let v := c.arg 0
      v < 2 ^ 19 → argCk v ≠ 0 → ctShapeOk (argCk v) (argCt v) = true → w = 0 → rest → u.ctOwned n (argCk v) (argCt v) = true →
      Completes (exec (.signal q) s) (fun t => Answers (u.action n (u.hostTag n) (argCk v) (argCt v)) t c 0 0 0))
    ∧ (HostRuns s q 0x04 n u c → c.arg 0 = 2 ^ 64 - 1 → fld w 15 11 = 0 → fld w 31 27 = 0 → fld w 63 38 = 0 → rest → (∀ k ∈ cores, u.inPart n k = true) →
      let l := c.block
      let code := leAt l 8 4
      let imageKeys (k off len : Nat) := (List.range len).map (fun i => scratchKey k (off + i))
      (u.imageCode n l cores false).1 = 0 →
      (bitAt (leAt l 6 2) 0 = true → Completes (exec (.programLoad q) s) (fun t =>
        Answers { u with parts := t.parts } t c 0 0 0 ∧ (t.part n).slots.find (fld w 37 32) = some ((List.range (code / 8)).map (fun i => addrAt l (64 + 8 * i)))))
      ∧ (bitAt (leAt l 6 2) 0 = false → ∀ k, cores = [k] → Completes (exec (.programLoad q) s) (fun t =>
        t.mem = ((u.writeKeys (imageKeys k (leAt l 0x10 4) (slice l 64 code).length) (slice l 64 code) false).writeKeys
          (imageKeys k (leAt l 0x14 4) (slice l (64 + code) (leAt l 0xC 4)).length) (slice l (64 + code) (leAt l 0xC 4)) false).mem
        ∧ (t.core k).entries = (List.range 8).map (fun i => leAt l (0x18 + 4 * i) 4) ∧ (∀ i, (t.ctx ⟨k, i⟩).state = .idle) ∧ t.parts = s.parts)))
    ∧ (HostRuns s q 0x05 n u c → u.coresArg n c = none → let entry (p : At) := (u.core p.core).entries.getD p.ctx 0xFFFFFFFF
      let starts (p : At) : Bool := entry p ≠ 0xFFFFFFFF && ((u.ctx p).state = .idle || (u.ctx p).state = .faulted)
      Completes (exec (.launch q) s) (fun t =>
        Answers { u with cores := t.cores } t c 0 0 (BitVec.ofNat 64 (cores.map (fun k => ((List.range 8).filter (fun i => starts ⟨k, i⟩)).length)).sum)
        ∧ ∀ p, p.ctx < 8 → if p.core ∈ cores ∧ starts p = true then
            t.ctx p = { u.ctx p with state := .ready, pc := BitVec.ofNat 64 (entry p), faultFlag := none, faultCause := 0, faultPc := 0, controller := some .lead, wait := none, stalledOn := none }
          else t.ctx p = s.ctx p))
    ∧ (HostRuns s q 0x06 n u c → u.coresArg n c = none →
      let ts := ((cores.map (fun k => (List.range 8).map (fun i => (⟨k, i⟩ : At)))).flatten).filter (fun p => (u.ctx p).state ≠ .idle)
      Completes (exec (.stop q) s) (fun t => Answers (ts.foldl State.stopCtx u) t c 0 0 (BitVec.ofNat 64 ts.length)))
    ∧ (HostRuns s q 0x12 n u c → c.arg 0 < 2 ^ 20 → w < 4 → rest → ((u.part n).objects.find (c.arg 0)).isSome → (u.net.regions.filter (fun x => x.1 / 2 ^ 32 = n)).length < 1024 →
      Completes (exec (.registerRegion q) s) (fun t => ∃ rkey, rkey < 2 ^ 32 ∧ Answers { u with net := { u.net with nextRkey := u.net.nextRkey + 1, regions := t.net.regions } } t c 0 0 (BitVec.ofNat 64 rkey)
        ∧ t.net.regions = u.net.regions.set (n * 2 ^ 32 + rkey) { object := c.arg 0, write := bitAt w 0, read := bitAt w 1 }))
    ∧ (HostRuns s q 0x13 n u c → c.arg 0 < 2 ^ 32 → w = 0 → rest → (u.net.regions.find (n * 2 ^ 32 + c.arg 0)).isSome →
      Completes (exec (.deregisterRegion q) s) (Answers { u with net := { u.net with regions := u.net.regions.del (n * 2 ^ 32 + c.arg 0) } } · c 0 0 0))
    ∧ (HostRuns s q 0x14 n u c → c.arg 0 = 0 → w = 0 → rest → 64 ≤ c.block.length → leAt c.block 0 1 < 8 → (leAt c.block 1 1 = 4 ∨ leAt c.block 1 1 = 6) →
      zeroAt c.block 2 2 = true → zeroAt c.block 0x1F 1 = true → zeroAt c.block 0x25 27 = true → (∃ i, i < 1024 ∧ u.net.conns.find (n * 4096 + i) = none) →
      Completes (exec (.connect q) s) (fun t => ∃ i, i < 1024 ∧ u.net.conns.find (n * 4096 + i) = none
        ∧ Answers { u.fresh with net := { u.net with conns := u.net.conns.set (n * 4096 + i) { params := c.block.take 64, since := s.now } } } t c 0 0 (BitVec.ofNat 64 i)))
    ∧ (HostRuns s q 0x15 n u c → c.arg 0 < 1024 → w = 0 → rest → (u.net.conns.find (n * 4096 + c.arg 0)).isSome →
      Completes (exec (.disconnect q) s) (Answers { u with net := { u.net with conns := u.net.conns.del (n * 4096 + c.arg 0) } } · c 0 0 0))
    ∧ (HostRuns s q 0x16 n u c → let k := fld (c.arg 0) 11 0
      let pair := c.arg 3
      let size := c.arg 2
      c.arg 0 < 2 ^ 15 → pair < 2 ^ 17 → fld pair 13 12 = 0 → size ≠ 0 → size % 64 = 0 → w % 64 = 0 → w + size ≤ (u.part n).stageSize * 2 ^ 20 → u.pairPart pair = some n →
      let x : Stream := { die := fld (c.arg 0) 14 12, offset := w, size := size, pair := pair, wpos := 64 * (u.pair pair).1, creditAt := s.now }
      u.stream n k = none → u.net.closed.find (streamKey n k) = none → Completes (exec (.openStream q) s) (Answers { u with net := { u.net with streams := u.net.streams.set (streamKey n k) x } } · c 0 0 0))
    ∧ (HostRuns s q 0x17 n u c → c.arg 0 < 4096 → w = 0 → rest → (u.stream n (c.arg 0)).isSome →
      Completes (exec (.closeStream q) s) (Answers { u with net := { u.net with streams := u.net.streams.del (streamKey n (c.arg 0)) } } · c 0 0 0))

/-- R176, R230, R271, R286, R348, R353, R406, R443: an accepted descriptor is installed and a refused one named by its reason; an object in
the fallow tier reads as zero; a plan is installed with every digest entry stale, or for the next sweep while one runs; a
remove takes effect once nothing holds the thing; a mirror is filled by its copy; a membership image takes effect at once where every context is
idle, else it waits; a search floods the links that are up. -/
def Obligations.InstallsAndRemoves : Prop :=
  ∀ (s u : State) (q : QRef) (n : Nat) (c : HostCmd), let num := c.arg 0
    let w := c.arg 1
    let l := c.block
    let rest := c.arg 2 = 0 ∧ c.arg 3 = 0
    (HostRuns s q 0x07 n u c → num < 4096 → w = 0 → rest → 128 ≤ l.length → let x := u.tableOf n (l.take 128)
      u.tableReach n l x = true →
      let fresh := if ((u.part n).tables.find num).isSome then [] else
        ((((u.part n).rowObjs num x).filter (fun y => y.2.oldRec = 0)).map (fun y => y.2.fallowRuns x)).flatten
      (u.tableCode n num (l.take 128) x = 0 → Completes (exec (.installTable q) s) (fun t =>
        Answers { u with parts := t.parts, row := t.row, mem := t.mem, poison := t.poison, substd := t.substd, tiers := t.tiers } t c 0 0 0
        ∧ (∀ k, Memory.get t.mem k = if inRuns fresh k then 0 else Memory.get s.mem k)
        ∧ (t.part n).tables.find num = some (x.replacing ((u.part n).tables.get {} num))
        ∧ (t.part n).objects = (s.part n).objects ∧ (∀ m, m ≠ n → t.part m = s.part m) ∧ (∀ e ∈ t.row.rick, e ∈ s.row.rick ∧ ¬ (e.part = n ∧ e.table = num))))
      ∧ (∀ k, k < 65536 → k ≠ 0 → u.tableCode n num (l.take 128) x = k → Completes (exec (.installTable q) s) (fun t => Answers u t c 0x05 (BitVec.ofNat 16 k) 0)))
    ∧ (HostRuns s q 0x08 n u c → num < 2 ^ 20 → w = 0 → rest → 64 ≤ l.length → let o := objOf l
      (u.objCode n num (l.take 64) o = 0 → Completes (exec (.installObject q) s) (fun t =>
        let freed : List Run := match (u.part n).objects.find num with | some y => y.fallowRuns (u.objTable n y) | none => []
        BesidesReports { s with parts := t.parts, mem := t.mem, poison := t.poison, substd := t.substd, tiers := t.tiers, row := t.row } t
        ∧ TakesEntry u t q
        ∧ (t.part n).objects.find num = some o ∧ (∀ k, k ≠ num → (t.part n).objects.find k = (s.part n).objects.find k) ∧ (t.part n).tables = (s.part n).tables
        ∧ (∀ m, m ≠ n → t.part m = s.part m)
        ∧ (∀ k, Memory.get t.mem k = if inRuns (freed ++ o.fallowRuns (u.objTable n o)) k then 0 else Memory.get s.mem k)))
      ∧ (∀ k, k < 65536 → k ≠ 0 → u.objCode n num (l.take 64) o = k → Completes (exec (.installObject q) s) (fun t => Answers u t c 0x05 (BitVec.ofNat 16 k) 0)))
    ∧ (HostRuns s q 0x09 n u c → w = 0 → rest → let isT := bitAt num 63
      let k := if isT then fld num 11 0 else fld num 19 0
      (if isT then fld num 62 12 else fld num 62 20) = 0 → (if isT then ((u.part n).tables.find k).isSome else ((u.part n).objects.find k).isSome) →
      (if isT then (u.part n).tableNamed k else u.objNamed n k) = false → Completes (exec (.remove q) s) (fun t =>
        t = u.updPart n (fun p => { p with removing := p.removing ++ [{ isTable := isT, num := k, cmd := c.ref }] })))
    ∧ (∀ part r, s.live = true → (s.part part).removing.find? (fun r => !s.removalHeld part r) = some r → Completes (exec (.removeTakeEffect part) s) (fun t =>
        TakesEntry s t r.cmd.q ∧ (t.part part).removing = (s.part part).removing.filter (· ≠ r)
        ∧ (if r.isTable then (t.part part).tables.find r.num = none ∧ (t.part part).objects.map (fun x => (x.1, { x.2 with oldRec := 0 }))
              = (s.part part).objects.map (fun x => (x.1, { x.2 with oldRec := 0 })) ∧ t.mem = s.mem
            ∧ ∀ x ∈ t.row.resalts, ¬ (x.part = part ∧ x.table = r.num)
          else (t.part part).objects.find r.num = none ∧ (t.part part).tables = (s.part part).tables
            ∧ ∀ o, (s.part part).objects.find r.num = some o → ∀ k, Memory.get t.mem k = if inRuns (o.fallowRuns (s.objTable part o)) k then 0 else Memory.get s.mem k)
        ∧ ∀ m, m ≠ part → t.part m = s.part m))
    ∧ (HostRuns s q 0x0A n u c → num = 0 → w = 0 → rest → let cnt := leAt l 0 4
      let ck := argCk (leAt l 4 4)
      let ct := argCt (leAt l 4 4)
      let es := (List.range cnt).map (fun i => planEntryOf (slice l (64 + 128 * i) 128))
      cnt ≤ 4096 → 64 + 128 * cnt ≤ l.length → ctShapeOk ck ct = true → u.ctOwned n ck ct = true → spaceOf (addrAt l 0x10) = 0 →
      (∀ e ∈ es, e.valid = true → e.dense = false → ∀ x ∈ e.table :: ([e.mTable1, e.mTable2].take e.moments), ((u.part n).tables.find x).isSome) →
      (∀ e ∈ es, e.valid = true → u.entryReach n e = true) → u.planCode n l es = 0 →
      Completes (exec (.installSweepPlan q) s) (fun t => Answers { u with parts := t.parts, clusters := t.clusters } t c 0 0 0
        ∧ (∃ pl, (if (u.part n).sweep.isSome then (t.part n).nextPlan else (t.part n).plan) = some pl ∧ pl.entries = es ∧ pl.ck = ck ∧ pl.ct = ct
          ∧ pl.period = leAt l 8 4 ∧ pl.group = leAt l 0xC 4 ∧ pl.report = addrAt l 0x10 ∧ pl.shard = addrAt l 0x18)
        ∧ ((u.part n).sweep.isSome = true → (t.part n).plan = (u.part n).plan ∧ (t.part n).digests = (u.part n).digests ∧ (t.part n).stale = (u.part n).stale)
        ∧ ((u.part n).sweep = none → (t.part n).digests = [] ∧ ∀ i, i ∈ (t.part n).stale ↔ ∃ e, es[i]? = some e ∧ e.valid = true ∧ e.digest = true)
        ∧ ∀ k ∈ (s.part n).cfg.clusters, (t.cluster k).planValid = true))
    ∧ (HostRuns s q 0x0B n u c → num < 2 ^ 20 → w < 2 ^ 20 → rest → 64 ≤ l.length → let o := objOf l
      let cfg := (u.part n).cfg
      u.objCode n num (l.take 64) o = 0 → ((u.part n).objects.filter (fun x => x.2.mirrorOf.isSome)).length < 64 → o.tier = 0 → u.slicesOk n o = true → cfg.serve = true →
      ∀ x, (u.part cfg.src).objects.find w = some x → x.size = o.size → x.kind = o.kind → Completes (exec (.installMirror q) s)
        (fun t => Answers (u.placeObj n num { o with mirrorOf := some w, copied := false }) t c 0 0 0
          ∧ (t.part n).objects.find num = some { o with mirrorOf := some w, copied := false }))
    ∧ (∀ part obj o src x, let m := (s.part part).cfg.src
      s.live = true → (s.part part).objects.find obj = some o → o.mirrorOf = some src → (s.part m).objects.find src = some x → o.copied = false → m ∉ s.tx.recovering →
      let ps := (List.range o.size).filterMap (fun i => (objKey (s.part m) src x i).bind (fun a => (objKey (s.part part) obj o i).map (fun b => (a, b))))
      Completes (exec (.mirrorCopy part obj) s) (fun t => t = { s with mem := t.mem, poison := t.poison, substd := t.substd, tiers := t.tiers, parts := t.parts }
        ∧ t.mem = (s.writeKeys (ps.map (·.2)) (s.readKeys (ps.map (·.1))).1 false).mem ∧ (t.part part).objects.find obj = some { o with copied := true }))
    ∧ (HostRuns s q 0x0C n u c → num = 0 → w = 0 → rest → ∀ img, imageOf l = some (img, true) → u.imageReject n img true = 0 →
      (u.busyPart n = true → Completes (exec (.installMembership q) s) (fun t => t = u.updMember n (fun m => { m with pending := some img, pendCmd := some c.ref })))
      ∧ (u.busyPart n = false → (u.member n).installed = false → (u.member n).held = [] → (u.member n).heldReports = [] → Completes (exec (.installMembership q) s) (fun t =>
          Answers { u with link := t.link } t c 0 0 0 ∧ (t.member n).image = img ∧ (t.member n).installed = true ∧ (t.member n).pending = none ∧ ∀ m, m ≠ n → t.member m = s.member m)))
    ∧ (HostRuns s q 0x0D n u c → num < 2 ^ 20 → w = 0 → rest → bitAt ((s.host.ports.get {} q.port).perm.toNat) q.fn = true →
      ∀ o, (u.part n).objects.find num = some o → o.tier = 0 → u.link.search.own = false → u.upLinks ≠ [] → Completes (exec (.topologySearch q) s) (fun t =>
        t = { u with link := t.link, out := t.out } ∧ t.link.search.own = true ∧ t.link.search.highest = u.link.search.highest + 1
        ∧ t.link.search.children = u.upLinks ∧ t.link.search.cmd = some c.ref ∧ t.link.search.object = num
        ∧ ∀ k ∈ u.upLinks, .search k (.search (u.link.search.highest + 1) moduleId) ∈ t.out))

/-- R260, R261, R262, R295, R395, R396, R397, R444: an export waits for the sweep of its step and then writes the stream
of the committed state to its checkpoint slot or its connection; an import reads, at a step boundary, the sections that match and opens the
first of the transactions that write them, or completes with none; a replay
stands for its step until its end returns the partition to the step it held. -/
def Obligations.ExportsAndReplays : Prop :=
  ∀ (s u : State) (q : QRef) (n : Nat) (c : HostCmd), let a0 := c.arg 0
    let a1 := c.arg 1
    let rest := c.arg 2 = 0 ∧ c.arg 3 = 0
    (HostRuns s q 0x0E n u c → c.arg 3 < 2 ^ 32 → (u.part n).replay = none →
      (if bitAt a1 63 then fld a1 62 4 = 0 else fld a1 62 10 = 0 ∧ (u.net.conns.find (n * 4096 + fld a1 9 0)).isSome = true) →
      let step : Word := BitVec.ofNat 64 a0
      let x : Export := ⟨step, if bitAt a1 63 then some (fld a1 3 0) else none, fld a1 9 0, BitVec.ofNat 64 (c.arg 2), BitVec.ofNat 32 (c.arg 3), c.ref⟩
      let late := (u.part n).started = true ∧ step.toNat < (u.part n).lastStarted.toNat
      (¬ late → Completes (exec (.exportCmd q) s) (fun t => t = { u with parts := t.parts, clusters := t.clusters, power := t.power }
        ∧ (t.part n) = { u.part n with exports := (u.part n).exports ++ [x] } ∧ (∀ m, m ≠ n → t.part m = u.part m)
        ∧ ((u.part n).sweep.isSome = true → t.clusters = u.clusters)))
      ∧ (late → Completes (exec (.exportCmd q) s) (Answers u · c 0x08 0 0)))
    ∧ (∀ part x slot, let p := s.part part
      let l := s.streamOf part 0x534C4758 x.step p.shardDigest { all := true, blocks := [] }
      p.exports.find? (fun x => p.started && x.step = p.lastCompleted) = some x → s.live = true → p.sweep = none → p.replay = none → part ∉ s.tx.recovering →
      let Ran (t : State) : Prop := t.mem = s.mem ∧ (t.part part).exports = p.exports.filter (· ≠ x) ∧ TakesEntry s t x.cmd.q
      (x.checkpoint = some slot → s.checkpointBytes part slot + l.length ≤ checkpointCap → s.gateOpen = true → Completes (exec (.exportRun part) s) (fun t =>
        (t.net.ckpts.get [] (part * 16 + slot)) = l ∧ Ran t))
      ∧ (x.checkpoint = some slot → checkpointCap < s.checkpointBytes part slot + l.length → Completes (exec (.exportRun part) s) (fun t =>
        t.net.ckpts = s.net.ckpts ∧ Ran t))
      ∧ (x.checkpoint = none → Completes (exec (.exportRun part) s) (fun t => t.net.ckpts = s.net.ckpts ∧ Ran t
        ∧ ((s.net.conns.find (part * 4096 + x.conn)).isSome = true → .rdmaWrite part x.conn x.remote x.rkey l ∈ t.out))))
    ∧ (HostRuns s q 0x0F n u c → s.atRest n = true → a1 = 0 → rest → (u.part n).replay = none →
      (if bitAt a0 63 then fld a0 62 4 = 0 else fld a0 62 20 = 0 ∧ ((u.part n).objects.find (fld a0 19 0)).isSome = true) →
      let l := if bitAt a0 63 then u.net.ckpts.get [] (n * 16 + fld a0 3 0) else match (u.part n).objects.find (fld a0 19 0) with
        | some o => (u.readDev n 0 (BitVec.ofNat 64 ((3 + o.tier) * 2 ^ 60 + fld a0 19 0 * 2 ^ 40)) o.size).1
        | none => []
      (leAt l 0 4 = 0x534C4758 → leAt l 4 2 = 1 → let sects := u.importSects n (leAt l 0x18 4) (l.drop 64) []
        match (sects.map batchesOf).flatten with
        | [] => Completes (exec (.importCmd q) s) (fun t => Answers { u with parts := t.parts } t c 0 0 (BitVec.ofNat 64 sects.length) ∧ (t.part n).importing = none)
        | b :: r => Completes (exec (.importCmd q) s) (fun t => t.mem = s.mem
            ∧ (t.part n).importing = some { cmd := c.ref, sections := sects.length, batches := r }
            ∧ ∃ x ∈ t.tx.txs, x.num = u.tx.nextTx ∧ x.part = n ∧ x.origin = .imported ∧ x.phase = .preparing ∧ x.entries = b))
      ∧ (¬ (leAt l 0 4 = 0x534C4758 ∧ leAt l 4 2 = 1) → Completes (exec (.importCmd q) s) (Answers u · c 0 0 0)))
    ∧ (HostRuns s q 0x10 n u c → a1 < 2 ^ 20 → rest → ∀ o, (u.part n).objects.find a1 = some o → o.tier < 2 → (u.part n).replay = none → (u.part n).sweep = none →
      Completes (exec (.replayStart q) s) (fun t => let step : Word := BitVec.ofNat 64 a0
        let p := u.part n
        t = { u with parts := t.parts } ∧ (∀ m, m ≠ n → t.part m = s.part m)
        ∧ (t.part n).replay = some { step := step, object := a1, cmd := some c.ref, heldStarted := p.lastStarted, heldAny := p.started }
        ∧ (t.part n).started = true ∧ (t.part n).lastStarted = step - 1 ∧ (t.part n).objects = p.objects))
    ∧ (HostRuns s q 0x11 n u c → a0 = 0 → a1 = 0 → rest → ∀ r, (u.part n).replay = some r → r.cmd = none →
      let opened : List Nat := match (u.part n).sweep with | some w => w.opened.map (fun x => x.1) | none => []
      let v := u.clearAccs n (fun i => r.swept || i ∈ opened)
      Completes (exec (.replayEnd q) s) (fun t => BesidesReports { v with parts := t.parts, clusters := t.clusters, power := t.power } t
        ∧ TakesEntry u t q ∧ (t.part n).replay = none ∧ (t.part n).sweep = none
        ∧ (n ∉ u.tx.recovering → ∀ k ∈ (u.part n).cfg.clusters, (t.cluster k).sw ≠ .sweeping)
        ∧ (t.part n).started = r.heldAny ∧ (t.part n).lastStarted = r.heldStarted))

/-- R288, R407, R411, R413, R416, R422, R452, R454, R459, R460, R461: a remote write stores into its region, waits while the fallow
pools hold no room for it, or is refused, with its immediate the action is done, and a remote read returns the bytes; a notification halves a connection's rate, which recovers
from 50 µs on; a request is placed, queued, or rejected with 0x03 or 0x04; the backstop answers with the
fallback; the hold bound marks what is unanswered; a fragment in order is stored, a record whole in one fragment is
ready; a record without fragments for 50 ms is discarded and tears its stream; credit is sent. -/
def Obligations.NetworkTraffic : Prop :=
  ∀ (s : State), s.live = true →
    (∀ (r : RdmaReq) (imm : BitVec 32), s.rdmaOpen r = true → let reply (ok : Bool) (l : List Byte) : Out := .rdmaReply r.part r.conn ok l
      (s.rdmaTarget r true r.data.length = none → ∀ c, c = Instr.rdmaWrite r ∨ c = Instr.rdmaWriteImmediate r imm → Completes (exec c s) (· = s.send (reply false [])))
      ∧ (∀ a, s.rdmaTarget r true r.data.length = some a → let ks := s.keysOf r.part 0 a r.data.length
        let v := (s.served ks (s.classOf r.part)).writeDev r.part 0 a r.data false
        let ck : BitVec 2 := BitVec.ofNat 2 (fld imm.toNat 31 30)
        let ct : BitVec 17 := BitVec.ofNat 17 imm.toNat
        let tag := s.partTag r.part ((s.part r.part).lastStarted.setWidth 16) .sync
        (s.fallowFits ks r.data = false → ∀ c, c = Instr.rdmaWrite r ∨ c = Instr.rdmaWriteImmediate r imm → exec c s = .next s)
        ∧ (s.fallowFits ks r.data = true → Completes (exec (.rdmaWrite r) s) (fun t => t = (v.notePools ks).send (reply true []) ∧ t.mem = v.mem)
          ∧ (ctShapeOk ck ct = true → v.ctOwned r.part ck ct = true → Completes (exec (.rdmaWriteImmediate r imm) s) (fun t =>
              t = ((v.action r.part tag ck ct).notePools ks).send (reply true []) ∧ t.mem = v.mem))))
      ∧ (s.rdmaTarget r false r.length = none → Completes (exec (.rdmaRead r) s) (· = s.send (reply false [])))
      ∧ (∀ a, s.rdmaTarget r false r.length = some a → Completes (exec (.rdmaRead r) s) (·
          = (s.served (s.keysOf r.part 0 a r.length) (s.classOf r.part)).send (reply true (s.readDev r.part 0 a r.length).1))))
    ∧ (∀ part conn c, s.net.conns.find (connKey part conn) = some c →
      Completes (exec (.cnpReceive part conn) s) (fun t => t = { s with net := { s.net with conns := s.net.conns.set (connKey part conn) { c with rate := c.rate / 2, since := s.now } } })
      ∧ (c.rate < 65536 → c.since + 50000 ≤ s.now → Completes (exec (.rateRecoveryStep part conn) s) (fun t => ∃ x, c.rate ≤ x ∧ x ≤ 65536
        ∧ t = { s with net := { s.net with conns := s.net.conns.set (connKey part conn) { c with rate := x, since := s.now } } })))
    ∧ (∀ port (d : Datagram), let l := d.payload
      let n := fld (leAt l 5 1) 2 0
      let v := s.serve n
      let open_ := (s.part n).cfg.enable = true ∧ (s.part n).cfg.serve = true ∧ v.intake = true
      let refused (status : Nat) := Completes (exec (.serveRequest port d) s) (fun t => ∃ u, u = s.serveCount n 4 1 ∧ t = { u with out := t.out }
        ∧ t.out = s.out ++ [.datagram port (routeOf port d) (s.replyBytes status 0 (addrAt l 8) 0 [])])
      s.addressed port d (fld (s.nport port).udp.toNat 31 16) = true → d.fragmented = false →
      (requestOk l = false ∨ ¬ open_ → refused 3)
      ∧ (requestOk l = true → open_ → n ∈ s.tx.recovering → refused 4)
      ∧ (requestOk l = true → open_ → n ∉ s.tx.recovering → v.queue = [] → s.canPlace n = true → Completes (exec (.serveRequest port d) s) (fun t =>
          t = s.place n l (routeOf port d) port s.now (s.now + leAt l 0x10 4)))
      ∧ (requestOk l = true → open_ → n ∉ s.tx.recovering → v.queue.length < 4096 → ¬ (v.queue = [] ∧ s.canPlace n = true) → Completes (exec (.serveRequest port d) s) (fun t =>
          t = { s with net := { s.net with serve := t.net.serve } } ∧ (t.serve n).slots = v.slots ∧ ∃ x, (t.serve n).queue = v.queue ++ [x] ∧ x.bytes = l ∧ x.arrived = s.now
          ∧ x.deadline = s.now + leAt l 0x10 4))
      ∧ (requestOk l = true → open_ → n ∉ s.tx.recovering → 4096 ≤ v.queue.length → refused 4))
    ∧ (∀ part n, (s.part part).cfg.strict = false → let v := s.serve part
      (∀ q, v.queue[n]? = some q → q.deadline ≤ s.now + v.guardNs → Completes (exec (.serveBackstop part n true) s) (fun t => t.mem = s.mem
        ∧ t = (s.updServe part (fun v => { v with queue := dropAt v.queue n })).sendFallback part 0x02 (s.queuedSlot part q)))
      ∧ (∀ x, v.slots[n]? = some x → x.deadline ≤ s.now + v.guardNs → x.expired = false → s.slotState part x.index = 1 →
        Completes (exec (.serveBackstop part n false) s) (fun t => ((t.serve part).slots[n]?).map (·.expired) = some true ∧ (t.serve part).queue = v.queue
          ∧ t.mem = (((s.sendFallback part 0x02 x).putServe part ((s.sendFallback part 0x02 x).slotAt part x.index 0) [0x03])).mem)))
    ∧ (∀ part t0, s.net.holdPoint.find (s.part part).cfg.src = some t0 → (s.serve part).held = true → (s.part part).cfg.serve = true → t0 + 1000 * (s.serve part).holdUs ≤ s.now →
      Completes (exec (.serveHoldBoundExpiry part) s) (fun t =>
        (t.serve part).slots = (s.serve part).slots.map (fun x => if x.expired then x else { x with lost := true }) ∧ (t.serve part).queue = (s.serve part).queue ∧ t.parts = s.parts))
    ∧ (∀ port (d : Datagram) k x, let l := d.payload
      let f := fragOf l
      let n := leAt l 6 1
      let v := s.updStream n f.stream (fun x => { x with port := port, route := routeOf port d })
      s.addressed port d (fld (s.nport port).udp.toNat 15 0) = true → d.fragmented = false → fragOk l = true → f.stream = k → s.stream n k = some x → f.seq ∉ x.discarded →
      (∀ r, x.partialRec = some r → f.seq = r.seq → f.recLen = r.length → f.off = r.next → f.off + f.len < r.length → Completes (exec (.recordFragment port d) s) (fun t =>
        t.mem = (s.putRing n x (r.at_ + 64 + f.off) (l.drop 64)).mem ∧ ((t.stream n k).bind (·.partialRec)) = some { r with next := f.off + f.len, last := s.now }))
      ∧ (x.partialRec = none → f.off = 0 → (∀ p, x.lastSeq = some p → p < f.seq) → f.recLen + 64 ≤ x.size → x.entryAt f.recLen + entryLen f.recLen ≤ v.credit x →
        f.len = f.recLen → s.gateOpen = false → Completes (exec (.recordFragment port d) s) (fun t =>
          t.mem = (s.putRing n x (x.entryAt f.recLen + 64) (l.drop 64)).mem ∧ ∃ y r, t.stream n k = some y ∧ y.partialRec = none ∧ y.publishing = x.publishing ++ [r]
          ∧ r.seq = f.seq ∧ r.length = f.recLen ∧ r.at_ = x.entryAt f.recLen ∧ r.tear = x.torn ∧ y.torn = false ∧ y.lastSeq = some (max f.seq (x.lastSeq.getD 0)))))
    ∧ (∀ part k x r, s.stream part k = some x → x.partialRec = some r → r.last + 50000000 ≤ s.now → Completes (exec (.partialRecordTimeout part k) s) (fun t =>
        t = { s with net := t.net } ∧ ∃ y, t.stream part k = some y ∧ y.partialRec = none ∧ y.torn = true ∧ r.seq ∈ y.discarded ∧ y.publishing = x.publishing))
    ∧ (∀ part k x, s.stream part k = some x → x.route ≠ [] → s.gateOpen = true → Completes (exec (.creditTimer part k) s) (fun t =>
        t = { s with net := t.net, out := t.out } ∧ (∃ l, t.out = s.out ++ [.datagram x.port x.route l] ∧ leAt l 0x20 8 = s.credit x % 2 ^ 64)
        ∧ t.stream part k = some { x with credited := s.credit x, creditAt := s.now }))

/-- R335, R336, R340, R341, R342, R343, R345, R346, R349, R354, R357: a flit whose CRC fails asks for a retry, one out of order once; an
accepted one moves the expected number on and frees what it acknowledges; a data flit of a newer epoch is held for 10 ms;
a retry replays from the number asked for; a keepalive carries the returned credits; 8 µs without a good flit take the
link down; training brings it up; a failed lane is replaced; a fenced reply quarantines; a search message of a higher
generation is served and passed on; the root has offset 0. -/
def Obligations.LinkEvents : Prop :=
  ∀ (s : State) (k : Nat), s.live = true → let l := s.lnk k
    let others (t : State) : Prop := ∀ j, j ≠ k → t.lnk j = s.lnk j
    (l.st = .up →
      (∀ f crc, Flit.crc f ≠ crc → Completes (exec (.flitReceive k f crc) s) (fun t => t = { s with link := t.link, out := t.out } ∧ (t.lnk k).discarding = true
          ∧ (t.lnk k).rxSeq = l.rxSeq ∧ others t ∧ (l.queued = [] → l.replay.length < 2048 →
            ∃ g, t.out = s.out ++ [.flit k g] ∧ g.type = 2 ∧ g.first = l.rxSeq.toNat ∧ g.seq = l.txSeq ∧ (t.lnk k).txSeq = l.txSeq + 1)))
      ∧ (∀ f, l.discarding = false → f.seq ≠ l.rxSeq → Completes (exec (.flitReceive k f (Flit.crc f)) s) (fun t => (t.lnk k).discarding = true ∧ (t.lnk k).lastGood = s.now
          ∧ (t.lnk k).rxSeq = l.rxSeq ∧ others t ∧ (l.queued = [] → l.replay.length < 2048 →
            ∃ g, t.out = s.out ++ [.flit k g] ∧ g.type = 2 ∧ g.first = l.rxSeq.toNat ∧ g.seq = l.txSeq ∧ (t.lnk k).txSeq = l.txSeq + 1)))
      ∧ (∀ (f : Flit), f.seq = l.rxSeq → f.type = 1 → l.queued = [] → (s.part f.part).cfg.enable = true →
          ((s.member f.part).installed = true → f.dst = (s.member f.part).image.own) →
          epochCmp f.epoch (s.member f.part).image.epoch = 1 → Completes (exec (.flitReceive k f (Flit.crc f)) s) (fun t => t = { s with link := t.link }
          ∧ (t.lnk k).rxSeq = l.rxSeq + 1 ∧ (t.lnk k).discarding = false ∧ (t.lnk k).replay = l.replay.filter (fun x => 2048 ≤ (f.ack - x.seq).toNat) ∧ others t
          ∧ (t.member f.part).held = (s.member f.part).held ++ [(f, k, s.now)]))
      ∧ (∀ seq, l.retryTimes = [] → (l.replay.map (·.seq)).Nodup → Completes (exec (.retryRequestReceive k seq) s) (fun t => t = { s with link := t.link, out := t.out } ∧ others t
          ∧ (t.lnk k).replay = l.replay
          ∧ t.out = s.out ++ (l.replay.dropWhile (fun f => f.seq ≠ seq)).map (fun f => .flit k { f with ack := l.rxSeq - 1 })))
      ∧ (l.queued = [] → l.replay.length < 2048 → Completes (exec (.keepaliveTimer k) s) (fun t => t = { s with link := t.link, out := t.out } ∧ others t
          ∧ (t.lnk k).lastKeep = s.now ∧ (t.lnk k).freed = [] ∧ (t.lnk k).txSeq = l.txSeq + 1
          ∧ ∃ f, t.out = s.out ++ [.flit k f] ∧ f.type = 0 ∧ f.credits = l.freed ∧ f.first = k ∧ f.vals = [l.lanes.toNat] ∧ f.srcId = moduleId ∧ f.status = 0
            ∧ f.seq = l.txSeq ∧ f.ack = l.rxSeq - 1))
      ∧ (l.lastGood + 8000 ≤ s.now → s.link.search.serving = false → Completes (exec (.linkDownTimeout k) s) (fun t => (t.lnk k).st = .down ∧ (t.lnk k).downAt = s.now ∧ others t
          ∧ t.mem = s.mem ∧ t.parts = s.parts ∧ s.errs.nextSeq < t.errs.nextSeq))
      ∧ (∀ lane i, lane < 5 → lane ∉ l.failed → l.failed.length < 2 → l.lanes.getLsbD lane = true → l.replay = [] →
          (List.range 5).find? (fun i => !l.lanes.getLsbD i && i ∉ l.failed ++ [lane]) = some i → Completes (exec (.laneFailure k lane) s) (fun t =>
          (t.lnk k).failed = l.failed ++ [lane] ∧ (t.lnk k).lanes.getLsbD lane = false ∧ (t.lnk k).lanes.getLsbD i = true ∧ (t.lnk k).st = .up
          ∧ (t.lnk k).width = lanesIn (t.lnk k).lanes ∧ t.errs.nextSeq = s.errs.nextSeq + 1 ∧ others t))
      ∧ (∀ x : TimeExchange, s.link.time.locked = true → s.link.time.inSync = false → Completes (exec (.timeFlitExchange k x) s) (fun t =>
          t = { s.fresh with link := t.link, out := t.out } ∧ others t ∧ (t.lnk k).advRoot = some (x.root, x.depth, x.neighbour) ∧ t.link.time.locked = true
          ∧ ((∀ j, j ≠ k → (s.lnk j).st ≠ .up) → k < 24 → let y := t.link.time
            if x.root < moduleId then y.parentLink = k ∧ y.depth = x.depth + 1 ∧ y.root = x.root ∧ y.offsetPs = ((x.t2 - x.t1) + (x.t3 - x.t4)) * 50
            else y.parentLink = 0x1F ∧ y.depth = 0 ∧ y.root = moduleId ∧ y.offsetPs = 0)))
      ∧ (∀ g init, s.link.search.highest < g → s.link.search.own = false → s.upLinks.filter (· ≠ k) ≠ [] → Completes (exec (.searchFlitReceive k (.search g init)) s) (fun t =>
          t = { s.fresh with link := t.link, out := t.out } ∧ t.link.search.highest = g ∧ t.link.search.initiator = init ∧ t.link.search.parent = k
          ∧ t.link.search.children = s.upLinks.filter (· ≠ k) ∧ ∀ j ∈ s.upLinks.filter (· ≠ k), .search j (.search g init) ∈ t.out)))
    ∧ (∀ r, l.st = .training ∨ (l.st = .down ∧ l.downAt + 10000000 ≤ s.now) →
      (r.ok = true → 3 ≤ lanesIn r.lanes → l.replay = [] → l.queued = [] → s.link.search.serving = false → Completes (exec (.linkRetrain k r) s) (fun t =>
          (t.lnk k).st = .up ∧ (t.lnk k).lanes = activeLanes r.lanes ∧ (t.lnk k).width = min 4 (lanesIn r.lanes) ∧ (t.lnk k).peer = r.peer ∧ (t.lnk k).peerLink = r.peerLink
          ∧ (∀ i, i ∈ (t.lnk k).failed ↔ i < 5 ∧ r.lanes.getLsbD i = false)
          ∧ t.errs.nextSeq = s.errs.nextSeq + 1 ∧ others t))
      ∧ (r.ok = false ∨ lanesIn r.lanes < 3 → Completes (exec (.linkRetrain k r) s) (fun t => t = { s with link := t.link } ∧ t.lnk k = { l with st := .down, downAt := s.now } ∧ others t)))
    ∧ (∀ part epoch, let m := s.member part
      m.installed = true → epochCmp epoch m.image.epoch = 1 → (∀ c ∈ s.link.colls, c.part ≠ part) → Completes (exec (.fencedReplyReceive part epoch) s) (fun t =>
        (t.member part).quarantined = true ∧ (t.member part).fenceEpoch = epoch ∧ (t.member part).image = m.image ∧ t.mem = s.mem ∧ t.errs.nextSeq = s.errs.nextSeq + 1))
    ∧ (∀ part, let m := s.member part
      Completes (exec (.newerEpochHoldExpiry part) s) (fun t => t = { s with link := t.link } ∧ (t.member part).held = m.held.filter (fun x => ¬ x.2.2 + 10000000 ≤ s.now)
        ∧ (t.member part).heldReports = m.heldReports.filter (fun x => ¬ x.2.2.2.2.2 + 10000000 ≤ s.now) ∧ ∀ n, n ≠ part → t.member n = s.member n))

/-- R354, R361, R362, R364, R365, R368, R369: a collective goes from its submission through counts and exponents to its ring steps; a flit's carried
sums are taken in order; a piece of an in-place permute commits under a transaction of its own; a late predecessor or an
abort ends it with status 0x01 and its status record; when every output is here it ends with status 0x00. -/
def Obligations.CollectivesRun : Prop :=
  ∀ (s : State) (num : Nat) (c : Coll), s.live = true → s.link.colls.find? (fun c => c.num = num) = some c → let M := (s.collGroup c).length
    let becomes (t : State) (x : Coll) : Prop := t.link.colls.find? (fun c => c.num = num) = some x
    (∀ r, c.phase = .submitted → Completes (exec (.collectivePhaseStart num r) s) (fun t => t = { s with link := { s.link with colls := t.link.colls } }
      ∧ becomes t { c with phase := .counts, readyAt := s.now, stepMs := (s.member c.part).ringStepMs, subst := c.subst || s.inputSubst c }))
    ∧ (∀ r, c.phase = .counts → c.cmd.kind ≤ 1 → Completes (exec (.collectivePhaseStart num r) s) (fun t => t = { s with link := { s.link with colls := t.link.colls } }
      ∧ ∃ counts, becomes t { c with phase := .exponents, readyAt := s.now, stepMs := (s.member c.part).ringStepMs, totalShards := c.cmd.shards + r.shards, counts := counts }))
    ∧ (∀ r, c.phase = .exponents → let es := (List.range c.cmd.units).map (fun e => max (s.localExp c e) (r.exponents.getD e noExp))
      let d : Coll := { c with exps := es }
      let under := ((List.range c.cmd.units).map (s.underCount d)).sum
      let bl := (List.range c.cmd.units).any (fun e => (s.localVals c e).2)
      let x : Coll := { c with phase := .reduce, exps := es, under := under, blight := c.blight || bl, ringSteps := c.ringSteps + 2 * (M - 1), readyAt := s.now, stepMs := (s.member c.part).ringStepMs }
      Completes (exec (.collectivePhaseStart num r) s) (fun t => t =
        ((({ s with link := { s.link with colls := s.link.colls.map (fun y => if y.num = num then { y with phase := .reduce, exps := es, under := under, blight := y.blight || bl, ringSteps := y.ringSteps + 2 * (M - 1), readyAt := s.now, stepMs := (s.member y.part).ringStepMs } else y) } } : State).startReduce x).xuCount c.part 5 under)))
    ∧ (∀ t0 w f tail, c.inbox = ⟨t0, w, f⟩ :: tail → c.phase = .gather → f.vals = [] → s.endsStep c ((s.collGroup c).findIdx (· = f.src)) f = false →
      Completes (exec (.collectivePieceReceive num) s) (fun t => t = { s with link := { s.link with colls := t.link.colls } }
        ∧ becomes t { c with inbox := tail, blight := c.blight || f.blight, subst := c.subst || f.subst }))
    ∧ (∀ t0 w f tail e v p, c.inbox = ⟨t0, w, f⟩ :: tail → c.phase = .reduce → f.vals = [v] → f.first = e → c.sums.find e = none → p = c.uncarry v →
      c.joined.get 0 e + 1 < (reduceHop M (s.ownerOf c e) (s.collPos c)).1 →
      Completes (exec (.collectivePieceReceive num) s) (fun t => t = { s with link := { s.link with colls := t.link.colls } }
        ∧ ∃ x, becomes t x ∧ x.inbox = tail ∧ x.sums = c.sums.set e p ∧ x.joined = c.joined.set e (c.joined.get 0 e + 1) ∧ x.got = c.got ∧ x.blight = (c.blight || f.blight)))
    ∧ (let sz := collSize c.cmd.outFmt
      let start := piecesEnd (c.sentLocal.length + 1) 0 c.sentLocal
      let n := min (c.counts.getD 0 0 - start) (min (65536 * c.cmd.bufSize / 232 * (232 / sz)) (2 ^ 26 / sz))
      c.cmd.inPlace = true → c.phase = .direct → n ≠ 0 → (∀ i, i < n → (c.got.find (start + i)).isSome) → Completes (exec (.permutePieceCommit num) s) (fun t =>
        t.mem = s.mem ∧ (∃ x, becomes t x ∧ x.sentLocal = c.sentLocal ++ [(start, n)] ∧ x.got = c.got ∧ x.phase = .direct)
        ∧ ∃ y ∈ t.tx.txs, y.part = c.part ∧ y.origin = .permute num start n
          ∧ y.entries.map (·.data) = [((List.range n).map (fun i => leBytes sz ((c.got.find (start + i)).getD 0))).flatten]))
    ∧ ((c.phase = .exponents ∨ c.phase = .reduce ∨ c.phase = .gather ∨ c.phase = .direct) → (s.awaited c).all (fun e => (c.got.find e).isSome) = false → c.readyAt + 1000000 * c.stepMs ≤ s.now →
      let m := s.awaitedFrom c
      Completes (exec (.ringStepWatchdog num) s) (fun t => t = (((s.sendAborts c m).endColl c 0x01 (BitVec.ofNat 32 m)).suspect c.part m 2 0)))
    ∧ (∀ (k : Nat) (f : Flit), let m := s.member f.part
      f.type = 4 → (m.installed = true → f.dst = m.image.own) →
      (f.epoch = m.image.epoch → s.collOf f.part f = some c → Completes (exec (.abortFlitReceive k f) s) (fun t =>
        t = s.endColl c 0x01 (BitVec.ofNat 32 f.first) ∧ ∀ x ∈ t.link.colls, x.num ≠ num))
      ∧ (f.epoch = m.image.epoch → s.collOf f.part f = none → exec (.abortFlitReceive k f) s = .next s)
      ∧ (epochCmp f.epoch m.image.epoch = 1 → Completes (exec (.abortFlitReceive k f) s) (fun t => t = { s with link := { s.link with members := t.link.members } }
        ∧ (t.member f.part).held = m.held ++ [(f, k, s.now)])))
    ∧ (s.collDone c = true → Completes (exec (.collectiveComplete num) s) (fun t => t = s.endColl c 0x00 0xFFFFFFFF ∧ (∀ x ∈ t.link.colls, x.num ≠ num)
        ∧ t.mem = (s.writeDev c.part c.p.core c.cmd.statAddr (s.collRecord c 0 0xFFFFFFFF) false).mem))

/-- R10, R125, R128, R316, R332, R389, R456, R473, R493, R513, R523, R541, R551, R552, R555, R557, R558, R559: what the writes of a licence, a
staging share, a kept object, the watchdog bounds, the strict budget and the ring head leave; a snapshot keeps the live
counters in the accessor's holding registers and a clear leaves those alone; ACC_ERR reads and clears at once, and NOW is the time; a
read of either stalls while a hold keeps its unit from answering. -/
def Obligations.RegisterCommands : Prop :=
  (∀ (s : State), s.live = true →
    (∀ v : BitVec 32, v.getLsbD 31 = true → s.ident.busy = false → let l := s.ident.licence
      (s.licenceWaits = true → Completes (exec (.licenceApply .mgmt v) s) (fun t => t = { s with ident := { s.ident with busy := true } }))
      ∧ (s.licenceWaits = false → Completes (exec (.licenceApply .mgmt v) s) (fun t => t.ident.result = BitVec.ofNat 8 (s.licenceCode l) ∧
        if s.licenceCode l = 1 then t = { s with ident := t.ident, power := t.power, link := t.link } ∧ t.ident.busy = false ∧ t.ident.variant = BitVec.ofNat 8 (leAt l 0x10 1)
          ∧ t.ident.seq = leAt l 4 4 ∧ t.ident.stored = { seq := leAt l 4 4, variant := BitVec.ofNat 8 (leAt l 0x10 1), bytes := l }
        else t = { s with ident := { s.ident with result := t.ident.result } })))
    ∧ (∀ n, n < 8 → s.power.gated = [] →
      (∀ v : BitVec 32, let base := fld v.toNat 23 16
        let size := fld v.toNat 7 0
        (s.gateOpen = false → Completes (exec (.stageWrite .mgmt n v) s) (fun t => t = { s with power := { s.power with gated := [(n, false, v.setWidth 64)] } }))
        ∧ (s.gateOpen = true → (s.part n).cfg.enable = false → base + size ≤ 240 →
          (∀ m, m < 8 → m ≠ n → size = 0 ∨ (s.part m).stageSize = 0 ∨ base + size ≤ (s.part m).stageBase ∨ (s.part m).stageBase + (s.part m).stageSize ≤ base) →
          Completes (exec (.stageWrite .mgmt n v) s) (fun t => t = s.updPart n (fun q => { q with stageBase := base, stageSize := size }))))
      ∧ (∀ (v : Word) o, s.gateOpen = true → (s.part n).objects.find (fld v.toNat 19 0) = some o → o.tier = 0 → o.size ≤ 2 ^ 30 →
        Completes (exec (.keepWrite .mgmt n v) s) (fun t => t = s.updPart n (fun q => { q with keepValid := v.getLsbD 63, keepObj := fld v.toNat 19 0 }))))
    ∧ (∀ n (v : BitVec 32), n < 8 →
      ((∀ p ∈ s.ctxsOf n, (s.ctx p).state ≠ .waiting) → Completes (exec (.syncWrite .mgmt n v) s) (fun t =>
        t = s.updPart n (fun q => { q with stepHoldS := fld v.toNat 23 16, ctxWaitMs := if fld v.toNat 15 0 = 0 then q.ctxWaitMs else fld v.toNat 15 0 })))
      ∧ (fld v.toNat 19 0 ≠ 0 → Completes (exec (.strictWrite .mgmt n v) s) (fun t => let now := (s.part n).cfg.enable = false ∨ (s.part n).cfg.serve = true ∨ s.busyPart n = false
        (now → t = s.updPart n (fun q => { q with budgetWritten := fld v.toNat 19 0, budget := fld v.toNat 19 0 }))
        ∧ (¬ now → t = s.updPart n (fun q => { q with budgetWritten := fld v.toNat 19 0 })))))
    ∧ (∀ (f : FuncRef) (v : Word), let e := (s.func f).err
      let size := 2 ^ e.sizeLog2
      let h := fld v.toNat 11 0
      let adv := (h + size - e.head % size) % size
      (h < size → adv ≠ 0 → e.head + adv ≤ e.tail → Completes (exec (.errHeadWrite f v) s) (fun t => t = s.updFunc f (fun g => { g with err := { e with head := e.head + adv, overRec := none } })))
      ∧ (size ≤ h ∨ e.tail < e.head + adv → Completes (exec (.errHeadWrite f v) s) (fun t => t = s.badAccess (.hq f) 0x1090)))
    ∧ (∀ (who : Accessor) (b : Block) (v : BitVec 32), s.cntReach who b = true → s.counters b ≠ [] → (∀ k, b = .co k → (s.core k).frozen ≠ some .retire) →
      (v.getLsbD 1 = true → v.getLsbD 0 = false → Completes (exec (.counterSnapshot who b v) s) (fun t => t = { s with regs := { s.regs with holds := t.regs.holds } }
        ∧ t.holding who b = some { who := who, block := b, time := s.now, values := s.counters b } ∧ ∀ w c, (w, c) ≠ (who, b) → t.holding w c = s.holding w c))
      ∧ (v.getLsbD 1 = false → v.getLsbD 0 = true → mayClear who b = true → Completes (exec (.counterClear who b v) s) (fun t => t.regs = s.regs ∧ t.mem = s.mem
        ∧ ∀ x ∈ t.counters b, x.2 = 0))
      ∧ (v.getLsbD 1 = false → v.getLsbD 0 = true → mayClear who b = false → Completes (exec (.counterClear who b v) s) (fun t => t = s)))
    ∧ (∀ (b : Block) (i : Nat), i = 3 ∨ i = 4 → blockAt (commonAddr b i) = some (b, blockSize b - 0x40 + 8 * i) → s.blockOn b = true →
      (i = 4 → Completes (exec (.accErrRead .mgmt b 8) s) (fun t => t = { s with regs := t.regs } ∧ (∀ x ∈ t.regs.accErr, x.block ≠ b)
        ∧ t.regs.responses = s.regs.responses ++ [{ who := .mgmt, status := 0, value := match s.regs.accErr.find? (fun x => x.block = b) with
            | some x => BitVec.ofNat 64 (x.count * 2 ^ 32 + x.offset) | none => 0 }]))
      ∧ (i = 3 → Completes (exec (.nowRead .mgmt b 8) s) (fun t => t = { s with regs := { s.regs with responses := s.regs.responses ++ [{ who := .mgmt, status := 0, value := BitVec.ofNat 64 s.now }] } }))))
  ∧ ∀ (s : State) (who : Accessor) (b : Block) (d width : Nat), s.live = false → blockDomain b = some d →
    let stalls (i : Nat) : State := { s with regs := { s.regs with stalled := s.regs.stalled ++ [(who, b, i, width)] } }
    exec (.accErrRead who b width) s = .next (stalls 4) ∧ exec (.nowRead who b width) s = .next (stalls 3)

/-- R518, R519: PWR_LIMIT and PWR_DIEd_VTARGET at reset, after a write of management, and as they read; an applied target
above the new voltage target falls with it (R502), and nothing else changes. -/
def Obligations.PowerRegisters : Prop :=
  State.reset.power.limitW = 0x12C0 ∧ (∀ d, d < 8 → (State.reset.rail d).target = 0x2D0)
  ∧ ∀ (s : State) (v : Word) (width : Nat), width = 4 ∨ width = 8 →
    (let limit := v.toNat % 2 ^ 16
      let stored := if limit < 0x3E8 then 0x3E8 else if 0x12C0 < limit then 0x12C0 else limit
      Completes (exec (.registerWrite .mgmt 0x20000 width v) s) (fun t => t = { s with power := { s.power with limitW := stored } }
        ∧ t.readReg .mgmt 0x20000 4 = (t, BitVec.ofNat 64 stored)))
    ∧ (∀ d, d < 8 → let whole := v.toNat % 2 ^ 10 / 5 * 5
      let stored := if whole < 600 then 600 else if 850 < whole then 850 else whole
      Completes (exec (.registerWrite .mgmt (0x20010 + 8 * d) width v) s) (fun t => t = { s with power := { s.power with rails := t.power.rails } }
        ∧ (t.rail d).target = stored ∧ (t.rail d).applied = min (s.rail d).applied stored ∧ (∀ e, e ≠ d → t.rail e = s.rail e)
        ∧ t.readReg .mgmt (0x20010 + 8 * d) 4 = (t, BitVec.ofNat 64 stored)))

/-- R538, R571, R572, R573, R574: a register request on the management bus is answered with the register's value, a malformed one with
status 1, one whose tag is outstanding is discarded and counted, one behind others waits its turn; a log read returns the records from a sequence on and notes the newest; the endpoint id is set and read; the
PLDM sensors read as the power block has them; the responder of slot 0 gives its version, digests, certificate and
measurements, signed with the Alias key, and answers ResponseNotReady during a handover. -/
def Obligations.ManagementAndAttestation : Prop :=
  ∀ (s : State),
    let begins (l : List Byte) (t : State) : Prop := t = { s with mgmt := t.mgmt, out := t.out, free := t.free } ∧ ∃ tail, t.out = s.out ++ [.mctp (l ++ tail)]
    let same (t : State) : Prop := t.mgmt = s.mgmt
    let request : MgmtCmd → Instr := fun c => match c with
      | .read r => .mgmtRegisterRead r | .write r v => .mgmtRegisterWrite r v | .log tag count first => .mgmtLogRead tag count first
    (∀ c : MgmtCmd, ((∃ x ∈ s.mgmt.waiting, x.tag = c.tag) → Completes (exec (request c) s) (· = s.badAccess .mgt c.addr))
      ∧ (s.mgmt.waiting ≠ [] → (∀ x ∈ s.mgmt.waiting, x.tag ≠ c.tag) → c.ok = true → Completes (exec (request c) s)
        (· = { s with mgmt := { s.mgmt with waiting := s.mgmt.waiting ++ [c] } })))
    ∧ (∀ r : MgmtReq, s.mgmt.waiting = [] → (mgmtOk r = false → ∀ v, Completes (exec (.mgmtRegisterRead r) s) (· = (s.badAccess .mgt r.addr.toNat).send (.mctp (vendorHead 1 r.tag 1)))
        ∧ Completes (exec (.mgmtRegisterWrite r v) s) (· = (s.badAccess .mgt r.addr.toNat).send (.mctp (vendorHead 2 r.tag 1))))
      ∧ (mgmtOk r = true → (∀ x, viewAt .mgmt r.addr.toNat = some x → s.answers x.1 = true) → ∀ v,
        Completes (exec (.mgmtRegisterRead r) s) (· = (s.readReg .mgmt r.addr.toNat r.width).1.send (.mctp (vendorHead 1 r.tag 0 ++ leBytes 8 (s.readReg .mgmt r.addr.toNat r.width).2.toNat)))
        ∧ Completes (exec (.mgmtRegisterWrite r v) s) (· = (s.writeReg .mgmt r.addr.toNat r.width v).send (.mctp (vendorHead 2 r.tag 0)))))
    ∧ (∀ tag count (first : Word), s.mgmt.waiting = [] → tag ≤ 3 → 1 ≤ count → count ≤ 16 → let l := (s.errs.log.filter (fun r => first.toNat ≤ r.seq)).take count
      (l = [] → Completes (exec (.mgmtLogRead tag count first) s) (· = s.send (.mctp (vendorHead 3 tag 4))))
      ∧ (∀ r, l.getLast? = some r → Completes (exec (.mgmtLogRead tag count first) s) (fun t => t = { s with errs := { s.errs with readAll := t.errs.readAll }, out := t.out }
        ∧ (∃ status, (status = 0 ∨ status = 3) ∧ t.out = s.out ++ [.mctp (vendorHead 3 tag status ++ (l.map ErrRec.bytes).flatten)]
          ∧ (status = 3 ↔ ∃ o, s.errs.log.head? = some o ∧ first.toNat < o.seq))
        ∧ t.errs.readAll = (if r.seq + 1 = s.errs.nextSeq then true else s.errs.readAll))))
    ∧ (∀ eid : Byte, eid ≠ 0 → eid ≠ 0xFF → Completes (exec (.setEndpointId eid) s) (fun t => begins [0, 0, eid] t ∧ t.mgmt = { s.mgmt with eid := eid }))
    ∧ Completes (exec .getEndpointId s) (fun t => begins [0, 0, s.mgmt.eid] t ∧ same t)
    ∧ (∀ x, Completes (exec (.getMctpVersionSupport x) s) (fun t => begins [0, if x = 0 ∨ x = 1 ∨ x = 5 ∨ x = 0x7F then 0 else 0x80] t ∧ same t))
    ∧ Completes (exec .getMessageTypeSupport s) (fun t => begins [0, 0, 3, 1, 5, 0x7F] t ∧ same t)
    ∧ (∀ x, Completes (exec (.pldmBase x) s) (fun t => begins [1, 0, x] t ∧ same t))
    ∧ (Completes (exec (.pldmSensorRead 0) s) (fun t => begins ([1, 2] ++ leBytes 8 s.power.energyMj) t ∧ same t)
      ∧ Completes (exec (.pldmSensorRead 1) s) (fun t => begins ([1, 2] ++ leBytes 1 s.power.hottest) t ∧ same t)
      ∧ Completes (exec (.pldmSensorRead 2) s) (fun t => begins ([1, 2] ++ leBytes 1 (b2n s.limitActive)) t ∧ same t))
    ∧ (∀ v : SpdmVia, (∀ p, v = .doe p → s.live = true ∧ (s.host.ports.get {} p).up = true) →
      let way (l : List Byte) : Out := match v with | .doe p => .doe p l | .mctp => .mctp (0x05 :: l)
      let sent (l : List Byte) (t : State) : Prop := t = { s with out := s.out ++ [way l], free := t.free }
      let signed (head nonce : List Byte) (t : State) : Prop := ∃ body, head <+: body ∧ sent (body ++ Config.sign (Config.aliasKey s.cdi) (nonce ++ body)) t
      Completes (exec (.spdmGetVersion v) s) (sent [0x10, 0x04, 0, 0, 0, 1, 0x00, 0x13])
      ∧ Completes (exec (.spdmGetCapabilities v) s) (fun t => ∃ tail, sent ([0x13, 0x61, 0, 0] ++ tail) t)
      ∧ Completes (exec (.spdmNegotiateAlgorithms v) s) (fun t => ∃ tail, sent ([0x13, 0x63, 0, 0] ++ tail) t)
      ∧ Completes (exec (.spdmGetDigests v) s) (sent ([0x13, 0x01, 0, 1] ++ sha384 s.chain))
      ∧ (∀ offset length, let l := (s.chain.drop offset).take length
        Completes (exec (.spdmGetCertificate v 0 offset length) s) (sent (if offset < s.chain.length then
          [0x13, 0x02, 0, 0] ++ leBytes 2 l.length ++ leBytes 2 (s.chain.length - offset - l.length) ++ l else [0x13, 0x7F, 0x01, 0])))
      ∧ (∀ nonce, (s.errs.handover = none → Completes (exec (.spdmChallenge v nonce) s) (signed ([0x13, 0x03, 0, 1] ++ sha384 s.chain) nonce))
        ∧ (s.errs.handover.isSome → Completes (exec (.spdmChallenge v nonce) s) (sent [0x13, 0x7F, 0x42, 0])))
      ∧ (∀ index nonce, (s.errs.handover.isSome → Completes (exec (.spdmGetMeasurements v index nonce) s) (sent [0x13, 0x7F, 0x42, 0]))
        ∧ (s.errs.handover = none → ∀ m, s.measurement index = some m → Completes (exec (.spdmGetMeasurements v index nonce) s)
          (signed ([0x13, 0x60, 0, 0, BitVec.ofNat 8 index] ++ leBytes 2 m.length ++ m) nonce))))

/-- R576: EXTEST, CLAMP and HIGHZ take effect while MOD_RESET_N is low and are BYPASS else; its rise resets the test port, and
no bring-up stage runs while it is low; the port changes itself alone and what is shifted out. R575: what BYPASS, IDCODE and
SAMPLE/PRELOAD shift out. -/
def Obligations.TestAccessPort : Prop :=
  ∀ (s : State) (tdi : List Bool) (code : Nat),
    let effects := [Instr.tapExtest tdi, Instr.tapClamp tdi, Instr.tapHighz tdi]
    let bypassed := (false :: tdi).take tdi.length
    (s.mgmt.modResetLow = false → ∀ c ∈ effects, exec c s = exec (.tapBypass code tdi) s)
    ∧ (s.mgmt.modResetLow = true → Completes (exec (.tapExtest tdi) s) (fun t => t.tap = { ir := .extest, boundary := tdi, driving := true, highz := false }
          ∧ ∃ l, l.length = tdi.length ∧ t.out = s.out ++ [.tdo l])
      ∧ Completes (exec (.tapClamp tdi) s) (fun t => t.tap = { ir := .clamp, boundary := s.tap.boundary, driving := true, highz := false } ∧ t.out = s.out ++ [.tdo bypassed])
      ∧ Completes (exec (.tapHighz tdi) s) (fun t => t.tap = { ir := .highz, boundary := s.tap.boundary, driving := false, highz := true } ∧ t.out = s.out ++ [.tdo bypassed])
      ∧ Completes (exec .modResetNRelease s) (fun t => t.mgmt.modResetLow = false ∧ exec .tapReset t = .next t)
      ∧ ∀ r, exec (.bringupStage r) s = .next s)
    ∧ (∀ c ∈ effects ++ [.tapBypass code tdi, .tapIdcode, .tapSamplePreload tdi tdi, .tapReset], Completes (exec c s) (fun t => t = { s with tap := t.tap, out := t.out, free := t.free }))
    ∧ Completes (exec (.tapBypass code tdi) s) (fun t => t.tap = { s.tap with ir := .bypass, driving := false, highz := false } ∧ t.out = s.out ++ [.tdo bypassed])
    ∧ Completes (exec .tapIdcode s) (fun t => t.tap = { s.tap with ir := .idcode, driving := false, highz := false }
        ∧ t.out = s.out ++ [.tdo ((List.range 32).map (fun i => 0x1120046B / 2 ^ i % 2 = 1))])
    ∧ (∀ pins, Completes (exec (.tapSamplePreload pins tdi) s) (fun t => t.tap = { ir := .sample, boundary := tdi, driving := false, highz := false } ∧ t.out = s.out ++ [.tdo pins]))
    ∧ Completes (exec .tapReset s) (fun t => t = { s with tap := { s.tap with ir := .idcode, driving := false, highz := false } })

/-- R84, R87: the windowed exact sum is the same for any order of the terms, and the sums of two groups of them joined are the sum
of all, with no value left where either overflows; the special result depends only on which non-finite terms there are. -/
def Obligations.WindowedSumsIgnoreOrder : Prop :=
  (∀ (E : Int) (declared : Bool) (ts us : List Val), ts.Perm us → sumOn E declared ts = sumOn E declared us ∧ sumMeasured ts = sumMeasured us)
  ∧ (∀ (E : Int) (declared : Bool) (ts us : List Val), let a := sumOn E declared ts
      let b := sumOn E declared us
      sumOn E declared (ts ++ us) = { units := if a.overflow || b.overflow then 0 else a.units + b.units, special := combine a.special b.special, overflow := a.overflow || b.overflow })
  ∧ (∀ (E : Int) (declared : Bool) (ts us : List Val), (∀ x : Val, x.isFin = false → (x ∈ ts ↔ x ∈ us)) → (sumOn E declared ts).special = (sumOn E declared us).special)

/-- A step takes the command at the front of the queue and does what it does on the rest; on an empty queue one nanosecond
passes, counted for the cores that are quiescent (log entry 1: the model's choice). -/
def Obligations.StepRunsFrontCommand : Prop :=
  (∀ (s : State) (c : Instr) (rest : List Instr), step { s with pending := c :: rest } = exec c { s with pending := rest })
  ∧ ∀ s : State, s.pending = [] → ∃ t, step s = .next t ∧ t.now = s.now + 1 ∧ t.mem = s.mem ∧ t.pending = []

/-- Right after reset memory and the saved copies are in canonical form, nothing waits, domain 23 alone is on and no
bring-up stage has run (R51, R524), and power, links, queues and contexts stand at their reset values. -/
def Obligations.AfterReset : Prop :=
  State.reset.bytesOk ∧ State.reset.pending = [] ∧ State.reset.power.domains = [23] ∧ State.reset.live = true ∧ State.reset.boot.stage = 0 ∧ State.reset.boot.state = 0
  ∧ (∀ k, (State.reset.lnk k).st = .off) ∧ (∀ p, (State.reset.ctx p).state = .idle ∧ ∀ r, (State.reset.ctx p).getS r = 0)
  ∧ (∀ q, (State.reset.queue q).enable = false ∧ (State.reset.queue q).state = .disabled) ∧ (∀ n, (State.reset.part n).cfg.enable = false)
  ∧ ∀ a, Memory.get State.reset.mem a = 0

/-- Every step keeps memory, and the bytes of every saved copy of the loss set, in canonical form: addresses rise, and no
entry holds what an unlisted address reads as. -/
def Obligations.StepKeepsBytesCanonical : Prop :=
  ∀ (s t : State), s.bytesOk → step s = .next t → t.bytesOk
end

