-- ==== Sys2Proof/Laws/State.lean ====
section
/-! SUPPORT. What each update of one record leaves of the state: one lemma per field and update, true by
computation; a proof that rewrites with them never unfolds a record update. -/

namespace Sys2Proof.Machine


/-! `State.updCore` -/

@[simp] theorem State.updCore_pending (s : State) (k : Nat) (f : Core → Core) : (s.updCore k f).pending = s.pending := rfl
@[simp] theorem State.updCore_now (s : State) (k : Nat) (f : Core → Core) : (s.updCore k f).now = s.now := rfl
@[simp] theorem State.updCore_free (s : State) (k : Nat) (f : Core → Core) : (s.updCore k f).free = s.free := rfl
@[simp] theorem State.updCore_mem (s : State) (k : Nat) (f : Core → Core) : (s.updCore k f).mem = s.mem := rfl
@[simp] theorem State.updCore_poison (s : State) (k : Nat) (f : Core → Core) : (s.updCore k f).poison = s.poison := rfl
@[simp] theorem State.updCore_clusters (s : State) (k : Nat) (f : Core → Core) : (s.updCore k f).clusters = s.clusters := rfl
@[simp] theorem State.updCore_dies (s : State) (k : Nat) (f : Core → Core) : (s.updCore k f).dies = s.dies := rfl
@[simp] theorem State.updCore_units (s : State) (k : Nat) (f : Core → Core) : (s.updCore k f).units = s.units := rfl
@[simp] theorem State.updCore_parts (s : State) (k : Nat) (f : Core → Core) : (s.updCore k f).parts = s.parts := rfl
@[simp] theorem State.updCore_applyQ (s : State) (k : Nat) (f : Core → Core) : (s.updCore k f).applyQ = s.applyQ := rfl
@[simp] theorem State.updCore_row (s : State) (k : Nat) (f : Core → Core) : (s.updCore k f).row = s.row := rfl
@[simp] theorem State.updCore_tx (s : State) (k : Nat) (f : Core → Core) : (s.updCore k f).tx = s.tx := rfl
@[simp] theorem State.updCore_sync (s : State) (k : Nat) (f : Core → Core) : (s.updCore k f).sync = s.sync := rfl
@[simp] theorem State.updCore_tiers (s : State) (k : Nat) (f : Core → Core) : (s.updCore k f).tiers = s.tiers := rfl
@[simp] theorem State.updCore_link (s : State) (k : Nat) (f : Core → Core) : (s.updCore k f).link = s.link := rfl
@[simp] theorem State.updCore_host (s : State) (k : Nat) (f : Core → Core) : (s.updCore k f).host = s.host := rfl
@[simp] theorem State.updCore_net (s : State) (k : Nat) (f : Core → Core) : (s.updCore k f).net = s.net := rfl
@[simp] theorem State.updCore_errs (s : State) (k : Nat) (f : Core → Core) : (s.updCore k f).errs = s.errs := rfl
@[simp] theorem State.updCore_power (s : State) (k : Nat) (f : Core → Core) : (s.updCore k f).power = s.power := rfl
@[simp] theorem State.updCore_boot (s : State) (k : Nat) (f : Core → Core) : (s.updCore k f).boot = s.boot := rfl
@[simp] theorem State.updCore_ident (s : State) (k : Nat) (f : Core → Core) : (s.updCore k f).ident = s.ident := rfl
@[simp] theorem State.updCore_regs (s : State) (k : Nat) (f : Core → Core) : (s.updCore k f).regs = s.regs := rfl
@[simp] theorem State.updCore_mgmt (s : State) (k : Nat) (f : Core → Core) : (s.updCore k f).mgmt = s.mgmt := rfl
@[simp] theorem State.updCore_tap (s : State) (k : Nat) (f : Core → Core) : (s.updCore k f).tap = s.tap := rfl
@[simp] theorem State.updCore_out (s : State) (k : Nat) (f : Core → Core) : (s.updCore k f).out = s.out := rfl

/-! `State.updCtx` -/

@[simp] theorem State.updCtx_pending (s : State) (p : At) (f : Ctx → Ctx) : (s.updCtx p f).pending = s.pending := rfl
@[simp] theorem State.updCtx_now (s : State) (p : At) (f : Ctx → Ctx) : (s.updCtx p f).now = s.now := rfl
@[simp] theorem State.updCtx_free (s : State) (p : At) (f : Ctx → Ctx) : (s.updCtx p f).free = s.free := rfl
@[simp] theorem State.updCtx_mem (s : State) (p : At) (f : Ctx → Ctx) : (s.updCtx p f).mem = s.mem := rfl
@[simp] theorem State.updCtx_poison (s : State) (p : At) (f : Ctx → Ctx) : (s.updCtx p f).poison = s.poison := rfl
@[simp] theorem State.updCtx_clusters (s : State) (p : At) (f : Ctx → Ctx) : (s.updCtx p f).clusters = s.clusters := rfl
@[simp] theorem State.updCtx_dies (s : State) (p : At) (f : Ctx → Ctx) : (s.updCtx p f).dies = s.dies := rfl
@[simp] theorem State.updCtx_units (s : State) (p : At) (f : Ctx → Ctx) : (s.updCtx p f).units = s.units := rfl
@[simp] theorem State.updCtx_parts (s : State) (p : At) (f : Ctx → Ctx) : (s.updCtx p f).parts = s.parts := rfl
@[simp] theorem State.updCtx_applyQ (s : State) (p : At) (f : Ctx → Ctx) : (s.updCtx p f).applyQ = s.applyQ := rfl
@[simp] theorem State.updCtx_row (s : State) (p : At) (f : Ctx → Ctx) : (s.updCtx p f).row = s.row := rfl
@[simp] theorem State.updCtx_tx (s : State) (p : At) (f : Ctx → Ctx) : (s.updCtx p f).tx = s.tx := rfl
@[simp] theorem State.updCtx_sync (s : State) (p : At) (f : Ctx → Ctx) : (s.updCtx p f).sync = s.sync := rfl
@[simp] theorem State.updCtx_tiers (s : State) (p : At) (f : Ctx → Ctx) : (s.updCtx p f).tiers = s.tiers := rfl
@[simp] theorem State.updCtx_link (s : State) (p : At) (f : Ctx → Ctx) : (s.updCtx p f).link = s.link := rfl
@[simp] theorem State.updCtx_host (s : State) (p : At) (f : Ctx → Ctx) : (s.updCtx p f).host = s.host := rfl
@[simp] theorem State.updCtx_net (s : State) (p : At) (f : Ctx → Ctx) : (s.updCtx p f).net = s.net := rfl
@[simp] theorem State.updCtx_errs (s : State) (p : At) (f : Ctx → Ctx) : (s.updCtx p f).errs = s.errs := rfl
@[simp] theorem State.updCtx_power (s : State) (p : At) (f : Ctx → Ctx) : (s.updCtx p f).power = s.power := rfl
@[simp] theorem State.updCtx_boot (s : State) (p : At) (f : Ctx → Ctx) : (s.updCtx p f).boot = s.boot := rfl
@[simp] theorem State.updCtx_ident (s : State) (p : At) (f : Ctx → Ctx) : (s.updCtx p f).ident = s.ident := rfl
@[simp] theorem State.updCtx_regs (s : State) (p : At) (f : Ctx → Ctx) : (s.updCtx p f).regs = s.regs := rfl
@[simp] theorem State.updCtx_mgmt (s : State) (p : At) (f : Ctx → Ctx) : (s.updCtx p f).mgmt = s.mgmt := rfl
@[simp] theorem State.updCtx_tap (s : State) (p : At) (f : Ctx → Ctx) : (s.updCtx p f).tap = s.tap := rfl
@[simp] theorem State.updCtx_out (s : State) (p : At) (f : Ctx → Ctx) : (s.updCtx p f).out = s.out := rfl

/-! `State.updPart` -/

@[simp] theorem State.updPart_pending (s : State) (n : Nat) (f : Part → Part) : (s.updPart n f).pending = s.pending := rfl
@[simp] theorem State.updPart_now (s : State) (n : Nat) (f : Part → Part) : (s.updPart n f).now = s.now := rfl
@[simp] theorem State.updPart_free (s : State) (n : Nat) (f : Part → Part) : (s.updPart n f).free = s.free := rfl
@[simp] theorem State.updPart_mem (s : State) (n : Nat) (f : Part → Part) : (s.updPart n f).mem = s.mem := rfl
@[simp] theorem State.updPart_poison (s : State) (n : Nat) (f : Part → Part) : (s.updPart n f).poison = s.poison := rfl
@[simp] theorem State.updPart_cores (s : State) (n : Nat) (f : Part → Part) : (s.updPart n f).cores = s.cores := rfl
@[simp] theorem State.updPart_clusters (s : State) (n : Nat) (f : Part → Part) : (s.updPart n f).clusters = s.clusters := rfl
@[simp] theorem State.updPart_dies (s : State) (n : Nat) (f : Part → Part) : (s.updPart n f).dies = s.dies := rfl
@[simp] theorem State.updPart_units (s : State) (n : Nat) (f : Part → Part) : (s.updPart n f).units = s.units := rfl
@[simp] theorem State.updPart_applyQ (s : State) (n : Nat) (f : Part → Part) : (s.updPart n f).applyQ = s.applyQ := rfl
@[simp] theorem State.updPart_row (s : State) (n : Nat) (f : Part → Part) : (s.updPart n f).row = s.row := rfl
@[simp] theorem State.updPart_tx (s : State) (n : Nat) (f : Part → Part) : (s.updPart n f).tx = s.tx := rfl
@[simp] theorem State.updPart_sync (s : State) (n : Nat) (f : Part → Part) : (s.updPart n f).sync = s.sync := rfl
@[simp] theorem State.updPart_tiers (s : State) (n : Nat) (f : Part → Part) : (s.updPart n f).tiers = s.tiers := rfl
@[simp] theorem State.updPart_link (s : State) (n : Nat) (f : Part → Part) : (s.updPart n f).link = s.link := rfl
@[simp] theorem State.updPart_host (s : State) (n : Nat) (f : Part → Part) : (s.updPart n f).host = s.host := rfl
@[simp] theorem State.updPart_net (s : State) (n : Nat) (f : Part → Part) : (s.updPart n f).net = s.net := rfl
@[simp] theorem State.updPart_errs (s : State) (n : Nat) (f : Part → Part) : (s.updPart n f).errs = s.errs := rfl
@[simp] theorem State.updPart_power (s : State) (n : Nat) (f : Part → Part) : (s.updPart n f).power = s.power := rfl
@[simp] theorem State.updPart_boot (s : State) (n : Nat) (f : Part → Part) : (s.updPart n f).boot = s.boot := rfl
@[simp] theorem State.updPart_ident (s : State) (n : Nat) (f : Part → Part) : (s.updPart n f).ident = s.ident := rfl
@[simp] theorem State.updPart_regs (s : State) (n : Nat) (f : Part → Part) : (s.updPart n f).regs = s.regs := rfl
@[simp] theorem State.updPart_mgmt (s : State) (n : Nat) (f : Part → Part) : (s.updPart n f).mgmt = s.mgmt := rfl
@[simp] theorem State.updPart_tap (s : State) (n : Nat) (f : Part → Part) : (s.updPart n f).tap = s.tap := rfl
@[simp] theorem State.updPart_out (s : State) (n : Nat) (f : Part → Part) : (s.updPart n f).out = s.out := rfl

/-! `State.updCluster` -/

@[simp] theorem State.updCluster_pending (s : State) (c : Nat) (f : Cluster → Cluster) : (s.updCluster c f).pending = s.pending := rfl
@[simp] theorem State.updCluster_now (s : State) (c : Nat) (f : Cluster → Cluster) : (s.updCluster c f).now = s.now := rfl
@[simp] theorem State.updCluster_free (s : State) (c : Nat) (f : Cluster → Cluster) : (s.updCluster c f).free = s.free := rfl
@[simp] theorem State.updCluster_mem (s : State) (c : Nat) (f : Cluster → Cluster) : (s.updCluster c f).mem = s.mem := rfl
@[simp] theorem State.updCluster_poison (s : State) (c : Nat) (f : Cluster → Cluster) : (s.updCluster c f).poison = s.poison := rfl
@[simp] theorem State.updCluster_cores (s : State) (c : Nat) (f : Cluster → Cluster) : (s.updCluster c f).cores = s.cores := rfl
@[simp] theorem State.updCluster_dies (s : State) (c : Nat) (f : Cluster → Cluster) : (s.updCluster c f).dies = s.dies := rfl
@[simp] theorem State.updCluster_units (s : State) (c : Nat) (f : Cluster → Cluster) : (s.updCluster c f).units = s.units := rfl
@[simp] theorem State.updCluster_parts (s : State) (c : Nat) (f : Cluster → Cluster) : (s.updCluster c f).parts = s.parts := rfl
@[simp] theorem State.updCluster_applyQ (s : State) (c : Nat) (f : Cluster → Cluster) : (s.updCluster c f).applyQ = s.applyQ := rfl
@[simp] theorem State.updCluster_row (s : State) (c : Nat) (f : Cluster → Cluster) : (s.updCluster c f).row = s.row := rfl
@[simp] theorem State.updCluster_tx (s : State) (c : Nat) (f : Cluster → Cluster) : (s.updCluster c f).tx = s.tx := rfl
@[simp] theorem State.updCluster_sync (s : State) (c : Nat) (f : Cluster → Cluster) : (s.updCluster c f).sync = s.sync := rfl
@[simp] theorem State.updCluster_tiers (s : State) (c : Nat) (f : Cluster → Cluster) : (s.updCluster c f).tiers = s.tiers := rfl
@[simp] theorem State.updCluster_link (s : State) (c : Nat) (f : Cluster → Cluster) : (s.updCluster c f).link = s.link := rfl
@[simp] theorem State.updCluster_host (s : State) (c : Nat) (f : Cluster → Cluster) : (s.updCluster c f).host = s.host := rfl
@[simp] theorem State.updCluster_net (s : State) (c : Nat) (f : Cluster → Cluster) : (s.updCluster c f).net = s.net := rfl
@[simp] theorem State.updCluster_errs (s : State) (c : Nat) (f : Cluster → Cluster) : (s.updCluster c f).errs = s.errs := rfl
@[simp] theorem State.updCluster_power (s : State) (c : Nat) (f : Cluster → Cluster) : (s.updCluster c f).power = s.power := rfl
@[simp] theorem State.updCluster_boot (s : State) (c : Nat) (f : Cluster → Cluster) : (s.updCluster c f).boot = s.boot := rfl
@[simp] theorem State.updCluster_ident (s : State) (c : Nat) (f : Cluster → Cluster) : (s.updCluster c f).ident = s.ident := rfl
@[simp] theorem State.updCluster_regs (s : State) (c : Nat) (f : Cluster → Cluster) : (s.updCluster c f).regs = s.regs := rfl
@[simp] theorem State.updCluster_mgmt (s : State) (c : Nat) (f : Cluster → Cluster) : (s.updCluster c f).mgmt = s.mgmt := rfl
@[simp] theorem State.updCluster_tap (s : State) (c : Nat) (f : Cluster → Cluster) : (s.updCluster c f).tap = s.tap := rfl
@[simp] theorem State.updCluster_out (s : State) (c : Nat) (f : Cluster → Cluster) : (s.updCluster c f).out = s.out := rfl

/-! `State.updDie` -/

@[simp] theorem State.updDie_pending (s : State) (d : Nat) (f : Die → Die) : (s.updDie d f).pending = s.pending := rfl
@[simp] theorem State.updDie_now (s : State) (d : Nat) (f : Die → Die) : (s.updDie d f).now = s.now := rfl
@[simp] theorem State.updDie_free (s : State) (d : Nat) (f : Die → Die) : (s.updDie d f).free = s.free := rfl
@[simp] theorem State.updDie_mem (s : State) (d : Nat) (f : Die → Die) : (s.updDie d f).mem = s.mem := rfl
@[simp] theorem State.updDie_poison (s : State) (d : Nat) (f : Die → Die) : (s.updDie d f).poison = s.poison := rfl
@[simp] theorem State.updDie_cores (s : State) (d : Nat) (f : Die → Die) : (s.updDie d f).cores = s.cores := rfl
@[simp] theorem State.updDie_clusters (s : State) (d : Nat) (f : Die → Die) : (s.updDie d f).clusters = s.clusters := rfl
@[simp] theorem State.updDie_units (s : State) (d : Nat) (f : Die → Die) : (s.updDie d f).units = s.units := rfl
@[simp] theorem State.updDie_parts (s : State) (d : Nat) (f : Die → Die) : (s.updDie d f).parts = s.parts := rfl
@[simp] theorem State.updDie_applyQ (s : State) (d : Nat) (f : Die → Die) : (s.updDie d f).applyQ = s.applyQ := rfl
@[simp] theorem State.updDie_row (s : State) (d : Nat) (f : Die → Die) : (s.updDie d f).row = s.row := rfl
@[simp] theorem State.updDie_tx (s : State) (d : Nat) (f : Die → Die) : (s.updDie d f).tx = s.tx := rfl
@[simp] theorem State.updDie_sync (s : State) (d : Nat) (f : Die → Die) : (s.updDie d f).sync = s.sync := rfl
@[simp] theorem State.updDie_tiers (s : State) (d : Nat) (f : Die → Die) : (s.updDie d f).tiers = s.tiers := rfl
@[simp] theorem State.updDie_link (s : State) (d : Nat) (f : Die → Die) : (s.updDie d f).link = s.link := rfl
@[simp] theorem State.updDie_host (s : State) (d : Nat) (f : Die → Die) : (s.updDie d f).host = s.host := rfl
@[simp] theorem State.updDie_net (s : State) (d : Nat) (f : Die → Die) : (s.updDie d f).net = s.net := rfl
@[simp] theorem State.updDie_errs (s : State) (d : Nat) (f : Die → Die) : (s.updDie d f).errs = s.errs := rfl
@[simp] theorem State.updDie_power (s : State) (d : Nat) (f : Die → Die) : (s.updDie d f).power = s.power := rfl
@[simp] theorem State.updDie_boot (s : State) (d : Nat) (f : Die → Die) : (s.updDie d f).boot = s.boot := rfl
@[simp] theorem State.updDie_ident (s : State) (d : Nat) (f : Die → Die) : (s.updDie d f).ident = s.ident := rfl
@[simp] theorem State.updDie_regs (s : State) (d : Nat) (f : Die → Die) : (s.updDie d f).regs = s.regs := rfl
@[simp] theorem State.updDie_mgmt (s : State) (d : Nat) (f : Die → Die) : (s.updDie d f).mgmt = s.mgmt := rfl
@[simp] theorem State.updDie_tap (s : State) (d : Nat) (f : Die → Die) : (s.updDie d f).tap = s.tap := rfl
@[simp] theorem State.updDie_out (s : State) (d : Nat) (f : Die → Die) : (s.updDie d f).out = s.out := rfl

/-! `State.updMember` -/

@[simp] theorem State.updMember_pending (s : State) (n : Nat) (f : Member → Member) : (s.updMember n f).pending = s.pending := rfl
@[simp] theorem State.updMember_now (s : State) (n : Nat) (f : Member → Member) : (s.updMember n f).now = s.now := rfl
@[simp] theorem State.updMember_free (s : State) (n : Nat) (f : Member → Member) : (s.updMember n f).free = s.free := rfl
@[simp] theorem State.updMember_mem (s : State) (n : Nat) (f : Member → Member) : (s.updMember n f).mem = s.mem := rfl
@[simp] theorem State.updMember_poison (s : State) (n : Nat) (f : Member → Member) : (s.updMember n f).poison = s.poison := rfl
@[simp] theorem State.updMember_cores (s : State) (n : Nat) (f : Member → Member) : (s.updMember n f).cores = s.cores := rfl
@[simp] theorem State.updMember_clusters (s : State) (n : Nat) (f : Member → Member) : (s.updMember n f).clusters = s.clusters := rfl
@[simp] theorem State.updMember_dies (s : State) (n : Nat) (f : Member → Member) : (s.updMember n f).dies = s.dies := rfl
@[simp] theorem State.updMember_units (s : State) (n : Nat) (f : Member → Member) : (s.updMember n f).units = s.units := rfl
@[simp] theorem State.updMember_parts (s : State) (n : Nat) (f : Member → Member) : (s.updMember n f).parts = s.parts := rfl
@[simp] theorem State.updMember_applyQ (s : State) (n : Nat) (f : Member → Member) : (s.updMember n f).applyQ = s.applyQ := rfl
@[simp] theorem State.updMember_row (s : State) (n : Nat) (f : Member → Member) : (s.updMember n f).row = s.row := rfl
@[simp] theorem State.updMember_tx (s : State) (n : Nat) (f : Member → Member) : (s.updMember n f).tx = s.tx := rfl
@[simp] theorem State.updMember_sync (s : State) (n : Nat) (f : Member → Member) : (s.updMember n f).sync = s.sync := rfl
@[simp] theorem State.updMember_tiers (s : State) (n : Nat) (f : Member → Member) : (s.updMember n f).tiers = s.tiers := rfl
@[simp] theorem State.updMember_host (s : State) (n : Nat) (f : Member → Member) : (s.updMember n f).host = s.host := rfl
@[simp] theorem State.updMember_net (s : State) (n : Nat) (f : Member → Member) : (s.updMember n f).net = s.net := rfl
@[simp] theorem State.updMember_errs (s : State) (n : Nat) (f : Member → Member) : (s.updMember n f).errs = s.errs := rfl
@[simp] theorem State.updMember_power (s : State) (n : Nat) (f : Member → Member) : (s.updMember n f).power = s.power := rfl
@[simp] theorem State.updMember_boot (s : State) (n : Nat) (f : Member → Member) : (s.updMember n f).boot = s.boot := rfl
@[simp] theorem State.updMember_ident (s : State) (n : Nat) (f : Member → Member) : (s.updMember n f).ident = s.ident := rfl
@[simp] theorem State.updMember_regs (s : State) (n : Nat) (f : Member → Member) : (s.updMember n f).regs = s.regs := rfl
@[simp] theorem State.updMember_mgmt (s : State) (n : Nat) (f : Member → Member) : (s.updMember n f).mgmt = s.mgmt := rfl
@[simp] theorem State.updMember_tap (s : State) (n : Nat) (f : Member → Member) : (s.updMember n f).tap = s.tap := rfl
@[simp] theorem State.updMember_out (s : State) (n : Nat) (f : Member → Member) : (s.updMember n f).out = s.out := rfl

/-! `State.updLnk` -/

@[simp] theorem State.updLnk_pending (s : State) (k : Nat) (f : Link → Link) : (s.updLnk k f).pending = s.pending := rfl
@[simp] theorem State.updLnk_now (s : State) (k : Nat) (f : Link → Link) : (s.updLnk k f).now = s.now := rfl
@[simp] theorem State.updLnk_free (s : State) (k : Nat) (f : Link → Link) : (s.updLnk k f).free = s.free := rfl
@[simp] theorem State.updLnk_mem (s : State) (k : Nat) (f : Link → Link) : (s.updLnk k f).mem = s.mem := rfl
@[simp] theorem State.updLnk_poison (s : State) (k : Nat) (f : Link → Link) : (s.updLnk k f).poison = s.poison := rfl
@[simp] theorem State.updLnk_cores (s : State) (k : Nat) (f : Link → Link) : (s.updLnk k f).cores = s.cores := rfl
@[simp] theorem State.updLnk_clusters (s : State) (k : Nat) (f : Link → Link) : (s.updLnk k f).clusters = s.clusters := rfl
@[simp] theorem State.updLnk_dies (s : State) (k : Nat) (f : Link → Link) : (s.updLnk k f).dies = s.dies := rfl
@[simp] theorem State.updLnk_units (s : State) (k : Nat) (f : Link → Link) : (s.updLnk k f).units = s.units := rfl
@[simp] theorem State.updLnk_parts (s : State) (k : Nat) (f : Link → Link) : (s.updLnk k f).parts = s.parts := rfl
@[simp] theorem State.updLnk_applyQ (s : State) (k : Nat) (f : Link → Link) : (s.updLnk k f).applyQ = s.applyQ := rfl
@[simp] theorem State.updLnk_row (s : State) (k : Nat) (f : Link → Link) : (s.updLnk k f).row = s.row := rfl
@[simp] theorem State.updLnk_tx (s : State) (k : Nat) (f : Link → Link) : (s.updLnk k f).tx = s.tx := rfl
@[simp] theorem State.updLnk_sync (s : State) (k : Nat) (f : Link → Link) : (s.updLnk k f).sync = s.sync := rfl
@[simp] theorem State.updLnk_tiers (s : State) (k : Nat) (f : Link → Link) : (s.updLnk k f).tiers = s.tiers := rfl
@[simp] theorem State.updLnk_host (s : State) (k : Nat) (f : Link → Link) : (s.updLnk k f).host = s.host := rfl
@[simp] theorem State.updLnk_net (s : State) (k : Nat) (f : Link → Link) : (s.updLnk k f).net = s.net := rfl
@[simp] theorem State.updLnk_errs (s : State) (k : Nat) (f : Link → Link) : (s.updLnk k f).errs = s.errs := rfl
@[simp] theorem State.updLnk_power (s : State) (k : Nat) (f : Link → Link) : (s.updLnk k f).power = s.power := rfl
@[simp] theorem State.updLnk_boot (s : State) (k : Nat) (f : Link → Link) : (s.updLnk k f).boot = s.boot := rfl
@[simp] theorem State.updLnk_ident (s : State) (k : Nat) (f : Link → Link) : (s.updLnk k f).ident = s.ident := rfl
@[simp] theorem State.updLnk_regs (s : State) (k : Nat) (f : Link → Link) : (s.updLnk k f).regs = s.regs := rfl
@[simp] theorem State.updLnk_mgmt (s : State) (k : Nat) (f : Link → Link) : (s.updLnk k f).mgmt = s.mgmt := rfl
@[simp] theorem State.updLnk_tap (s : State) (k : Nat) (f : Link → Link) : (s.updLnk k f).tap = s.tap := rfl
@[simp] theorem State.updLnk_out (s : State) (k : Nat) (f : Link → Link) : (s.updLnk k f).out = s.out := rfl

/-! `State.updLine` -/

@[simp] theorem State.updLine_pending (s : State) (k : Nat) (f : Line → Line) : (s.updLine k f).pending = s.pending := rfl
@[simp] theorem State.updLine_now (s : State) (k : Nat) (f : Line → Line) : (s.updLine k f).now = s.now := rfl
@[simp] theorem State.updLine_free (s : State) (k : Nat) (f : Line → Line) : (s.updLine k f).free = s.free := rfl
@[simp] theorem State.updLine_mem (s : State) (k : Nat) (f : Line → Line) : (s.updLine k f).mem = s.mem := rfl
@[simp] theorem State.updLine_poison (s : State) (k : Nat) (f : Line → Line) : (s.updLine k f).poison = s.poison := rfl
@[simp] theorem State.updLine_cores (s : State) (k : Nat) (f : Line → Line) : (s.updLine k f).cores = s.cores := rfl
@[simp] theorem State.updLine_clusters (s : State) (k : Nat) (f : Line → Line) : (s.updLine k f).clusters = s.clusters := rfl
@[simp] theorem State.updLine_dies (s : State) (k : Nat) (f : Line → Line) : (s.updLine k f).dies = s.dies := rfl
@[simp] theorem State.updLine_units (s : State) (k : Nat) (f : Line → Line) : (s.updLine k f).units = s.units := rfl
@[simp] theorem State.updLine_parts (s : State) (k : Nat) (f : Line → Line) : (s.updLine k f).parts = s.parts := rfl
@[simp] theorem State.updLine_applyQ (s : State) (k : Nat) (f : Line → Line) : (s.updLine k f).applyQ = s.applyQ := rfl
@[simp] theorem State.updLine_row (s : State) (k : Nat) (f : Line → Line) : (s.updLine k f).row = s.row := rfl
@[simp] theorem State.updLine_tx (s : State) (k : Nat) (f : Line → Line) : (s.updLine k f).tx = s.tx := rfl
@[simp] theorem State.updLine_tiers (s : State) (k : Nat) (f : Line → Line) : (s.updLine k f).tiers = s.tiers := rfl
@[simp] theorem State.updLine_link (s : State) (k : Nat) (f : Line → Line) : (s.updLine k f).link = s.link := rfl
@[simp] theorem State.updLine_host (s : State) (k : Nat) (f : Line → Line) : (s.updLine k f).host = s.host := rfl
@[simp] theorem State.updLine_net (s : State) (k : Nat) (f : Line → Line) : (s.updLine k f).net = s.net := rfl
@[simp] theorem State.updLine_errs (s : State) (k : Nat) (f : Line → Line) : (s.updLine k f).errs = s.errs := rfl
@[simp] theorem State.updLine_power (s : State) (k : Nat) (f : Line → Line) : (s.updLine k f).power = s.power := rfl
@[simp] theorem State.updLine_boot (s : State) (k : Nat) (f : Line → Line) : (s.updLine k f).boot = s.boot := rfl
@[simp] theorem State.updLine_ident (s : State) (k : Nat) (f : Line → Line) : (s.updLine k f).ident = s.ident := rfl
@[simp] theorem State.updLine_regs (s : State) (k : Nat) (f : Line → Line) : (s.updLine k f).regs = s.regs := rfl
@[simp] theorem State.updLine_mgmt (s : State) (k : Nat) (f : Line → Line) : (s.updLine k f).mgmt = s.mgmt := rfl
@[simp] theorem State.updLine_tap (s : State) (k : Nat) (f : Line → Line) : (s.updLine k f).tap = s.tap := rfl
@[simp] theorem State.updLine_out (s : State) (k : Nat) (f : Line → Line) : (s.updLine k f).out = s.out := rfl

/-! `State.updFunc` -/

@[simp] theorem State.updFunc_pending (s : State) (r : FuncRef) (f : Func → Func) : (s.updFunc r f).pending = s.pending := rfl
@[simp] theorem State.updFunc_now (s : State) (r : FuncRef) (f : Func → Func) : (s.updFunc r f).now = s.now := rfl
@[simp] theorem State.updFunc_free (s : State) (r : FuncRef) (f : Func → Func) : (s.updFunc r f).free = s.free := rfl
@[simp] theorem State.updFunc_mem (s : State) (r : FuncRef) (f : Func → Func) : (s.updFunc r f).mem = s.mem := rfl
@[simp] theorem State.updFunc_poison (s : State) (r : FuncRef) (f : Func → Func) : (s.updFunc r f).poison = s.poison := rfl
@[simp] theorem State.updFunc_cores (s : State) (r : FuncRef) (f : Func → Func) : (s.updFunc r f).cores = s.cores := rfl
@[simp] theorem State.updFunc_clusters (s : State) (r : FuncRef) (f : Func → Func) : (s.updFunc r f).clusters = s.clusters := rfl
@[simp] theorem State.updFunc_dies (s : State) (r : FuncRef) (f : Func → Func) : (s.updFunc r f).dies = s.dies := rfl
@[simp] theorem State.updFunc_units (s : State) (r : FuncRef) (f : Func → Func) : (s.updFunc r f).units = s.units := rfl
@[simp] theorem State.updFunc_parts (s : State) (r : FuncRef) (f : Func → Func) : (s.updFunc r f).parts = s.parts := rfl
@[simp] theorem State.updFunc_applyQ (s : State) (r : FuncRef) (f : Func → Func) : (s.updFunc r f).applyQ = s.applyQ := rfl
@[simp] theorem State.updFunc_row (s : State) (r : FuncRef) (f : Func → Func) : (s.updFunc r f).row = s.row := rfl
@[simp] theorem State.updFunc_tx (s : State) (r : FuncRef) (f : Func → Func) : (s.updFunc r f).tx = s.tx := rfl
@[simp] theorem State.updFunc_sync (s : State) (r : FuncRef) (f : Func → Func) : (s.updFunc r f).sync = s.sync := rfl
@[simp] theorem State.updFunc_tiers (s : State) (r : FuncRef) (f : Func → Func) : (s.updFunc r f).tiers = s.tiers := rfl
@[simp] theorem State.updFunc_link (s : State) (r : FuncRef) (f : Func → Func) : (s.updFunc r f).link = s.link := rfl
@[simp] theorem State.updFunc_net (s : State) (r : FuncRef) (f : Func → Func) : (s.updFunc r f).net = s.net := rfl
@[simp] theorem State.updFunc_errs (s : State) (r : FuncRef) (f : Func → Func) : (s.updFunc r f).errs = s.errs := rfl
@[simp] theorem State.updFunc_power (s : State) (r : FuncRef) (f : Func → Func) : (s.updFunc r f).power = s.power := rfl
@[simp] theorem State.updFunc_boot (s : State) (r : FuncRef) (f : Func → Func) : (s.updFunc r f).boot = s.boot := rfl
@[simp] theorem State.updFunc_ident (s : State) (r : FuncRef) (f : Func → Func) : (s.updFunc r f).ident = s.ident := rfl
@[simp] theorem State.updFunc_regs (s : State) (r : FuncRef) (f : Func → Func) : (s.updFunc r f).regs = s.regs := rfl
@[simp] theorem State.updFunc_mgmt (s : State) (r : FuncRef) (f : Func → Func) : (s.updFunc r f).mgmt = s.mgmt := rfl
@[simp] theorem State.updFunc_tap (s : State) (r : FuncRef) (f : Func → Func) : (s.updFunc r f).tap = s.tap := rfl
@[simp] theorem State.updFunc_out (s : State) (r : FuncRef) (f : Func → Func) : (s.updFunc r f).out = s.out := rfl

/-! `State.updQueue` -/

@[simp] theorem State.updQueue_pending (s : State) (q : QRef) (f : Queue → Queue) : (s.updQueue q f).pending = s.pending := rfl
@[simp] theorem State.updQueue_now (s : State) (q : QRef) (f : Queue → Queue) : (s.updQueue q f).now = s.now := rfl
@[simp] theorem State.updQueue_free (s : State) (q : QRef) (f : Queue → Queue) : (s.updQueue q f).free = s.free := rfl
@[simp] theorem State.updQueue_mem (s : State) (q : QRef) (f : Queue → Queue) : (s.updQueue q f).mem = s.mem := rfl
@[simp] theorem State.updQueue_poison (s : State) (q : QRef) (f : Queue → Queue) : (s.updQueue q f).poison = s.poison := rfl
@[simp] theorem State.updQueue_cores (s : State) (q : QRef) (f : Queue → Queue) : (s.updQueue q f).cores = s.cores := rfl
@[simp] theorem State.updQueue_clusters (s : State) (q : QRef) (f : Queue → Queue) : (s.updQueue q f).clusters = s.clusters := rfl
@[simp] theorem State.updQueue_dies (s : State) (q : QRef) (f : Queue → Queue) : (s.updQueue q f).dies = s.dies := rfl
@[simp] theorem State.updQueue_units (s : State) (q : QRef) (f : Queue → Queue) : (s.updQueue q f).units = s.units := rfl
@[simp] theorem State.updQueue_parts (s : State) (q : QRef) (f : Queue → Queue) : (s.updQueue q f).parts = s.parts := rfl
@[simp] theorem State.updQueue_applyQ (s : State) (q : QRef) (f : Queue → Queue) : (s.updQueue q f).applyQ = s.applyQ := rfl
@[simp] theorem State.updQueue_row (s : State) (q : QRef) (f : Queue → Queue) : (s.updQueue q f).row = s.row := rfl
@[simp] theorem State.updQueue_tx (s : State) (q : QRef) (f : Queue → Queue) : (s.updQueue q f).tx = s.tx := rfl
@[simp] theorem State.updQueue_sync (s : State) (q : QRef) (f : Queue → Queue) : (s.updQueue q f).sync = s.sync := rfl
@[simp] theorem State.updQueue_tiers (s : State) (q : QRef) (f : Queue → Queue) : (s.updQueue q f).tiers = s.tiers := rfl
@[simp] theorem State.updQueue_link (s : State) (q : QRef) (f : Queue → Queue) : (s.updQueue q f).link = s.link := rfl
@[simp] theorem State.updQueue_net (s : State) (q : QRef) (f : Queue → Queue) : (s.updQueue q f).net = s.net := rfl
@[simp] theorem State.updQueue_errs (s : State) (q : QRef) (f : Queue → Queue) : (s.updQueue q f).errs = s.errs := rfl
@[simp] theorem State.updQueue_power (s : State) (q : QRef) (f : Queue → Queue) : (s.updQueue q f).power = s.power := rfl
@[simp] theorem State.updQueue_boot (s : State) (q : QRef) (f : Queue → Queue) : (s.updQueue q f).boot = s.boot := rfl
@[simp] theorem State.updQueue_ident (s : State) (q : QRef) (f : Queue → Queue) : (s.updQueue q f).ident = s.ident := rfl
@[simp] theorem State.updQueue_regs (s : State) (q : QRef) (f : Queue → Queue) : (s.updQueue q f).regs = s.regs := rfl
@[simp] theorem State.updQueue_mgmt (s : State) (q : QRef) (f : Queue → Queue) : (s.updQueue q f).mgmt = s.mgmt := rfl
@[simp] theorem State.updQueue_tap (s : State) (q : QRef) (f : Queue → Queue) : (s.updQueue q f).tap = s.tap := rfl
@[simp] theorem State.updQueue_out (s : State) (q : QRef) (f : Queue → Queue) : (s.updQueue q f).out = s.out := rfl

/-! `State.updServe` -/

@[simp] theorem State.updServe_pending (s : State) (n : Nat) (f : Serve → Serve) : (s.updServe n f).pending = s.pending := rfl
@[simp] theorem State.updServe_now (s : State) (n : Nat) (f : Serve → Serve) : (s.updServe n f).now = s.now := rfl
@[simp] theorem State.updServe_free (s : State) (n : Nat) (f : Serve → Serve) : (s.updServe n f).free = s.free := rfl
@[simp] theorem State.updServe_mem (s : State) (n : Nat) (f : Serve → Serve) : (s.updServe n f).mem = s.mem := rfl
@[simp] theorem State.updServe_poison (s : State) (n : Nat) (f : Serve → Serve) : (s.updServe n f).poison = s.poison := rfl
@[simp] theorem State.updServe_cores (s : State) (n : Nat) (f : Serve → Serve) : (s.updServe n f).cores = s.cores := rfl
@[simp] theorem State.updServe_clusters (s : State) (n : Nat) (f : Serve → Serve) : (s.updServe n f).clusters = s.clusters := rfl
@[simp] theorem State.updServe_dies (s : State) (n : Nat) (f : Serve → Serve) : (s.updServe n f).dies = s.dies := rfl
@[simp] theorem State.updServe_units (s : State) (n : Nat) (f : Serve → Serve) : (s.updServe n f).units = s.units := rfl
@[simp] theorem State.updServe_parts (s : State) (n : Nat) (f : Serve → Serve) : (s.updServe n f).parts = s.parts := rfl
@[simp] theorem State.updServe_applyQ (s : State) (n : Nat) (f : Serve → Serve) : (s.updServe n f).applyQ = s.applyQ := rfl
@[simp] theorem State.updServe_row (s : State) (n : Nat) (f : Serve → Serve) : (s.updServe n f).row = s.row := rfl
@[simp] theorem State.updServe_tx (s : State) (n : Nat) (f : Serve → Serve) : (s.updServe n f).tx = s.tx := rfl
@[simp] theorem State.updServe_sync (s : State) (n : Nat) (f : Serve → Serve) : (s.updServe n f).sync = s.sync := rfl
@[simp] theorem State.updServe_tiers (s : State) (n : Nat) (f : Serve → Serve) : (s.updServe n f).tiers = s.tiers := rfl
@[simp] theorem State.updServe_link (s : State) (n : Nat) (f : Serve → Serve) : (s.updServe n f).link = s.link := rfl
@[simp] theorem State.updServe_host (s : State) (n : Nat) (f : Serve → Serve) : (s.updServe n f).host = s.host := rfl
@[simp] theorem State.updServe_errs (s : State) (n : Nat) (f : Serve → Serve) : (s.updServe n f).errs = s.errs := rfl
@[simp] theorem State.updServe_power (s : State) (n : Nat) (f : Serve → Serve) : (s.updServe n f).power = s.power := rfl
@[simp] theorem State.updServe_boot (s : State) (n : Nat) (f : Serve → Serve) : (s.updServe n f).boot = s.boot := rfl
@[simp] theorem State.updServe_ident (s : State) (n : Nat) (f : Serve → Serve) : (s.updServe n f).ident = s.ident := rfl
@[simp] theorem State.updServe_regs (s : State) (n : Nat) (f : Serve → Serve) : (s.updServe n f).regs = s.regs := rfl
@[simp] theorem State.updServe_mgmt (s : State) (n : Nat) (f : Serve → Serve) : (s.updServe n f).mgmt = s.mgmt := rfl
@[simp] theorem State.updServe_tap (s : State) (n : Nat) (f : Serve → Serve) : (s.updServe n f).tap = s.tap := rfl
@[simp] theorem State.updServe_out (s : State) (n : Nat) (f : Serve → Serve) : (s.updServe n f).out = s.out := rfl

/-! `State.updNear` -/

@[simp] theorem State.updNear_pending (s : State) (k : Nat) (f : MemSt → MemSt) : (s.updNear k f).pending = s.pending := rfl
@[simp] theorem State.updNear_now (s : State) (k : Nat) (f : MemSt → MemSt) : (s.updNear k f).now = s.now := rfl
@[simp] theorem State.updNear_free (s : State) (k : Nat) (f : MemSt → MemSt) : (s.updNear k f).free = s.free := rfl
@[simp] theorem State.updNear_mem (s : State) (k : Nat) (f : MemSt → MemSt) : (s.updNear k f).mem = s.mem := rfl
@[simp] theorem State.updNear_poison (s : State) (k : Nat) (f : MemSt → MemSt) : (s.updNear k f).poison = s.poison := rfl
@[simp] theorem State.updNear_cores (s : State) (k : Nat) (f : MemSt → MemSt) : (s.updNear k f).cores = s.cores := rfl
@[simp] theorem State.updNear_clusters (s : State) (k : Nat) (f : MemSt → MemSt) : (s.updNear k f).clusters = s.clusters := rfl
@[simp] theorem State.updNear_dies (s : State) (k : Nat) (f : MemSt → MemSt) : (s.updNear k f).dies = s.dies := rfl
@[simp] theorem State.updNear_units (s : State) (k : Nat) (f : MemSt → MemSt) : (s.updNear k f).units = s.units := rfl
@[simp] theorem State.updNear_parts (s : State) (k : Nat) (f : MemSt → MemSt) : (s.updNear k f).parts = s.parts := rfl
@[simp] theorem State.updNear_applyQ (s : State) (k : Nat) (f : MemSt → MemSt) : (s.updNear k f).applyQ = s.applyQ := rfl
@[simp] theorem State.updNear_row (s : State) (k : Nat) (f : MemSt → MemSt) : (s.updNear k f).row = s.row := rfl
@[simp] theorem State.updNear_tx (s : State) (k : Nat) (f : MemSt → MemSt) : (s.updNear k f).tx = s.tx := rfl
@[simp] theorem State.updNear_sync (s : State) (k : Nat) (f : MemSt → MemSt) : (s.updNear k f).sync = s.sync := rfl
@[simp] theorem State.updNear_link (s : State) (k : Nat) (f : MemSt → MemSt) : (s.updNear k f).link = s.link := rfl
@[simp] theorem State.updNear_host (s : State) (k : Nat) (f : MemSt → MemSt) : (s.updNear k f).host = s.host := rfl
@[simp] theorem State.updNear_net (s : State) (k : Nat) (f : MemSt → MemSt) : (s.updNear k f).net = s.net := rfl
@[simp] theorem State.updNear_errs (s : State) (k : Nat) (f : MemSt → MemSt) : (s.updNear k f).errs = s.errs := rfl
@[simp] theorem State.updNear_power (s : State) (k : Nat) (f : MemSt → MemSt) : (s.updNear k f).power = s.power := rfl
@[simp] theorem State.updNear_boot (s : State) (k : Nat) (f : MemSt → MemSt) : (s.updNear k f).boot = s.boot := rfl
@[simp] theorem State.updNear_ident (s : State) (k : Nat) (f : MemSt → MemSt) : (s.updNear k f).ident = s.ident := rfl
@[simp] theorem State.updNear_regs (s : State) (k : Nat) (f : MemSt → MemSt) : (s.updNear k f).regs = s.regs := rfl
@[simp] theorem State.updNear_mgmt (s : State) (k : Nat) (f : MemSt → MemSt) : (s.updNear k f).mgmt = s.mgmt := rfl
@[simp] theorem State.updNear_tap (s : State) (k : Nat) (f : MemSt → MemSt) : (s.updNear k f).tap = s.tap := rfl
@[simp] theorem State.updNear_out (s : State) (k : Nat) (f : MemSt → MemSt) : (s.updNear k f).out = s.out := rfl

/-! `State.updChan` -/

@[simp] theorem State.updChan_pending (s : State) (k : Nat) (f : MemSt → MemSt) : (s.updChan k f).pending = s.pending := rfl
@[simp] theorem State.updChan_now (s : State) (k : Nat) (f : MemSt → MemSt) : (s.updChan k f).now = s.now := rfl
@[simp] theorem State.updChan_free (s : State) (k : Nat) (f : MemSt → MemSt) : (s.updChan k f).free = s.free := rfl
@[simp] theorem State.updChan_mem (s : State) (k : Nat) (f : MemSt → MemSt) : (s.updChan k f).mem = s.mem := rfl
@[simp] theorem State.updChan_poison (s : State) (k : Nat) (f : MemSt → MemSt) : (s.updChan k f).poison = s.poison := rfl
@[simp] theorem State.updChan_cores (s : State) (k : Nat) (f : MemSt → MemSt) : (s.updChan k f).cores = s.cores := rfl
@[simp] theorem State.updChan_clusters (s : State) (k : Nat) (f : MemSt → MemSt) : (s.updChan k f).clusters = s.clusters := rfl
@[simp] theorem State.updChan_dies (s : State) (k : Nat) (f : MemSt → MemSt) : (s.updChan k f).dies = s.dies := rfl
@[simp] theorem State.updChan_units (s : State) (k : Nat) (f : MemSt → MemSt) : (s.updChan k f).units = s.units := rfl
@[simp] theorem State.updChan_parts (s : State) (k : Nat) (f : MemSt → MemSt) : (s.updChan k f).parts = s.parts := rfl
@[simp] theorem State.updChan_applyQ (s : State) (k : Nat) (f : MemSt → MemSt) : (s.updChan k f).applyQ = s.applyQ := rfl
@[simp] theorem State.updChan_row (s : State) (k : Nat) (f : MemSt → MemSt) : (s.updChan k f).row = s.row := rfl
@[simp] theorem State.updChan_tx (s : State) (k : Nat) (f : MemSt → MemSt) : (s.updChan k f).tx = s.tx := rfl
@[simp] theorem State.updChan_sync (s : State) (k : Nat) (f : MemSt → MemSt) : (s.updChan k f).sync = s.sync := rfl
@[simp] theorem State.updChan_link (s : State) (k : Nat) (f : MemSt → MemSt) : (s.updChan k f).link = s.link := rfl
@[simp] theorem State.updChan_host (s : State) (k : Nat) (f : MemSt → MemSt) : (s.updChan k f).host = s.host := rfl
@[simp] theorem State.updChan_net (s : State) (k : Nat) (f : MemSt → MemSt) : (s.updChan k f).net = s.net := rfl
@[simp] theorem State.updChan_errs (s : State) (k : Nat) (f : MemSt → MemSt) : (s.updChan k f).errs = s.errs := rfl
@[simp] theorem State.updChan_power (s : State) (k : Nat) (f : MemSt → MemSt) : (s.updChan k f).power = s.power := rfl
@[simp] theorem State.updChan_boot (s : State) (k : Nat) (f : MemSt → MemSt) : (s.updChan k f).boot = s.boot := rfl
@[simp] theorem State.updChan_ident (s : State) (k : Nat) (f : MemSt → MemSt) : (s.updChan k f).ident = s.ident := rfl
@[simp] theorem State.updChan_regs (s : State) (k : Nat) (f : MemSt → MemSt) : (s.updChan k f).regs = s.regs := rfl
@[simp] theorem State.updChan_mgmt (s : State) (k : Nat) (f : MemSt → MemSt) : (s.updChan k f).mgmt = s.mgmt := rfl
@[simp] theorem State.updChan_tap (s : State) (k : Nat) (f : MemSt → MemSt) : (s.updChan k f).tap = s.tap := rfl
@[simp] theorem State.updChan_out (s : State) (k : Nat) (f : MemSt → MemSt) : (s.updChan k f).out = s.out := rfl

/-! `State.updRail` -/

@[simp] theorem State.updRail_pending (s : State) (d : Nat) (f : Rail → Rail) : (s.updRail d f).pending = s.pending := rfl
@[simp] theorem State.updRail_now (s : State) (d : Nat) (f : Rail → Rail) : (s.updRail d f).now = s.now := rfl
@[simp] theorem State.updRail_free (s : State) (d : Nat) (f : Rail → Rail) : (s.updRail d f).free = s.free := rfl
@[simp] theorem State.updRail_mem (s : State) (d : Nat) (f : Rail → Rail) : (s.updRail d f).mem = s.mem := rfl
@[simp] theorem State.updRail_poison (s : State) (d : Nat) (f : Rail → Rail) : (s.updRail d f).poison = s.poison := rfl
@[simp] theorem State.updRail_cores (s : State) (d : Nat) (f : Rail → Rail) : (s.updRail d f).cores = s.cores := rfl
@[simp] theorem State.updRail_clusters (s : State) (d : Nat) (f : Rail → Rail) : (s.updRail d f).clusters = s.clusters := rfl
@[simp] theorem State.updRail_dies (s : State) (d : Nat) (f : Rail → Rail) : (s.updRail d f).dies = s.dies := rfl
@[simp] theorem State.updRail_units (s : State) (d : Nat) (f : Rail → Rail) : (s.updRail d f).units = s.units := rfl
@[simp] theorem State.updRail_parts (s : State) (d : Nat) (f : Rail → Rail) : (s.updRail d f).parts = s.parts := rfl
@[simp] theorem State.updRail_applyQ (s : State) (d : Nat) (f : Rail → Rail) : (s.updRail d f).applyQ = s.applyQ := rfl
@[simp] theorem State.updRail_row (s : State) (d : Nat) (f : Rail → Rail) : (s.updRail d f).row = s.row := rfl
@[simp] theorem State.updRail_tx (s : State) (d : Nat) (f : Rail → Rail) : (s.updRail d f).tx = s.tx := rfl
@[simp] theorem State.updRail_sync (s : State) (d : Nat) (f : Rail → Rail) : (s.updRail d f).sync = s.sync := rfl
@[simp] theorem State.updRail_tiers (s : State) (d : Nat) (f : Rail → Rail) : (s.updRail d f).tiers = s.tiers := rfl
@[simp] theorem State.updRail_link (s : State) (d : Nat) (f : Rail → Rail) : (s.updRail d f).link = s.link := rfl
@[simp] theorem State.updRail_host (s : State) (d : Nat) (f : Rail → Rail) : (s.updRail d f).host = s.host := rfl
@[simp] theorem State.updRail_net (s : State) (d : Nat) (f : Rail → Rail) : (s.updRail d f).net = s.net := rfl
@[simp] theorem State.updRail_errs (s : State) (d : Nat) (f : Rail → Rail) : (s.updRail d f).errs = s.errs := rfl
@[simp] theorem State.updRail_boot (s : State) (d : Nat) (f : Rail → Rail) : (s.updRail d f).boot = s.boot := rfl
@[simp] theorem State.updRail_ident (s : State) (d : Nat) (f : Rail → Rail) : (s.updRail d f).ident = s.ident := rfl
@[simp] theorem State.updRail_regs (s : State) (d : Nat) (f : Rail → Rail) : (s.updRail d f).regs = s.regs := rfl
@[simp] theorem State.updRail_mgmt (s : State) (d : Nat) (f : Rail → Rail) : (s.updRail d f).mgmt = s.mgmt := rfl
@[simp] theorem State.updRail_tap (s : State) (d : Nat) (f : Rail → Rail) : (s.updRail d f).tap = s.tap := rfl
@[simp] theorem State.updRail_out (s : State) (d : Nat) (f : Rail → Rail) : (s.updRail d f).out = s.out := rfl

/-! `State.updTxn` -/

@[simp] theorem State.updTxn_pending (s : State) (n : Nat) (f : Tx → Tx) : (s.updTxn n f).pending = s.pending := rfl
@[simp] theorem State.updTxn_now (s : State) (n : Nat) (f : Tx → Tx) : (s.updTxn n f).now = s.now := rfl
@[simp] theorem State.updTxn_free (s : State) (n : Nat) (f : Tx → Tx) : (s.updTxn n f).free = s.free := rfl
@[simp] theorem State.updTxn_mem (s : State) (n : Nat) (f : Tx → Tx) : (s.updTxn n f).mem = s.mem := rfl
@[simp] theorem State.updTxn_poison (s : State) (n : Nat) (f : Tx → Tx) : (s.updTxn n f).poison = s.poison := rfl
@[simp] theorem State.updTxn_cores (s : State) (n : Nat) (f : Tx → Tx) : (s.updTxn n f).cores = s.cores := rfl
@[simp] theorem State.updTxn_clusters (s : State) (n : Nat) (f : Tx → Tx) : (s.updTxn n f).clusters = s.clusters := rfl
@[simp] theorem State.updTxn_dies (s : State) (n : Nat) (f : Tx → Tx) : (s.updTxn n f).dies = s.dies := rfl
@[simp] theorem State.updTxn_units (s : State) (n : Nat) (f : Tx → Tx) : (s.updTxn n f).units = s.units := rfl
@[simp] theorem State.updTxn_parts (s : State) (n : Nat) (f : Tx → Tx) : (s.updTxn n f).parts = s.parts := rfl
@[simp] theorem State.updTxn_applyQ (s : State) (n : Nat) (f : Tx → Tx) : (s.updTxn n f).applyQ = s.applyQ := rfl
@[simp] theorem State.updTxn_row (s : State) (n : Nat) (f : Tx → Tx) : (s.updTxn n f).row = s.row := rfl
@[simp] theorem State.updTxn_sync (s : State) (n : Nat) (f : Tx → Tx) : (s.updTxn n f).sync = s.sync := rfl
@[simp] theorem State.updTxn_tiers (s : State) (n : Nat) (f : Tx → Tx) : (s.updTxn n f).tiers = s.tiers := rfl
@[simp] theorem State.updTxn_link (s : State) (n : Nat) (f : Tx → Tx) : (s.updTxn n f).link = s.link := rfl
@[simp] theorem State.updTxn_host (s : State) (n : Nat) (f : Tx → Tx) : (s.updTxn n f).host = s.host := rfl
@[simp] theorem State.updTxn_net (s : State) (n : Nat) (f : Tx → Tx) : (s.updTxn n f).net = s.net := rfl
@[simp] theorem State.updTxn_errs (s : State) (n : Nat) (f : Tx → Tx) : (s.updTxn n f).errs = s.errs := rfl
@[simp] theorem State.updTxn_power (s : State) (n : Nat) (f : Tx → Tx) : (s.updTxn n f).power = s.power := rfl
@[simp] theorem State.updTxn_boot (s : State) (n : Nat) (f : Tx → Tx) : (s.updTxn n f).boot = s.boot := rfl
@[simp] theorem State.updTxn_ident (s : State) (n : Nat) (f : Tx → Tx) : (s.updTxn n f).ident = s.ident := rfl
@[simp] theorem State.updTxn_regs (s : State) (n : Nat) (f : Tx → Tx) : (s.updTxn n f).regs = s.regs := rfl
@[simp] theorem State.updTxn_mgmt (s : State) (n : Nat) (f : Tx → Tx) : (s.updTxn n f).mgmt = s.mgmt := rfl
@[simp] theorem State.updTxn_tap (s : State) (n : Nat) (f : Tx → Tx) : (s.updTxn n f).tap = s.tap := rfl
@[simp] theorem State.updTxn_out (s : State) (n : Nat) (f : Tx → Tx) : (s.updTxn n f).out = s.out := rfl

/-! `State.fresh` -/

@[simp] theorem State.fresh_pending (s : State) : (s.fresh).pending = s.pending := rfl
@[simp] theorem State.fresh_now (s : State) : (s.fresh).now = s.now := rfl
@[simp] theorem State.fresh_mem (s : State) : (s.fresh).mem = s.mem := rfl
@[simp] theorem State.fresh_poison (s : State) : (s.fresh).poison = s.poison := rfl
@[simp] theorem State.fresh_cores (s : State) : (s.fresh).cores = s.cores := rfl
@[simp] theorem State.fresh_clusters (s : State) : (s.fresh).clusters = s.clusters := rfl
@[simp] theorem State.fresh_dies (s : State) : (s.fresh).dies = s.dies := rfl
@[simp] theorem State.fresh_units (s : State) : (s.fresh).units = s.units := rfl
@[simp] theorem State.fresh_parts (s : State) : (s.fresh).parts = s.parts := rfl
@[simp] theorem State.fresh_applyQ (s : State) : (s.fresh).applyQ = s.applyQ := rfl
@[simp] theorem State.fresh_row (s : State) : (s.fresh).row = s.row := rfl
@[simp] theorem State.fresh_tx (s : State) : (s.fresh).tx = s.tx := rfl
@[simp] theorem State.fresh_sync (s : State) : (s.fresh).sync = s.sync := rfl
@[simp] theorem State.fresh_tiers (s : State) : (s.fresh).tiers = s.tiers := rfl
@[simp] theorem State.fresh_link (s : State) : (s.fresh).link = s.link := rfl
@[simp] theorem State.fresh_host (s : State) : (s.fresh).host = s.host := rfl
@[simp] theorem State.fresh_net (s : State) : (s.fresh).net = s.net := rfl
@[simp] theorem State.fresh_errs (s : State) : (s.fresh).errs = s.errs := rfl
@[simp] theorem State.fresh_power (s : State) : (s.fresh).power = s.power := rfl
@[simp] theorem State.fresh_boot (s : State) : (s.fresh).boot = s.boot := rfl
@[simp] theorem State.fresh_ident (s : State) : (s.fresh).ident = s.ident := rfl
@[simp] theorem State.fresh_regs (s : State) : (s.fresh).regs = s.regs := rfl
@[simp] theorem State.fresh_mgmt (s : State) : (s.fresh).mgmt = s.mgmt := rfl
@[simp] theorem State.fresh_tap (s : State) : (s.fresh).tap = s.tap := rfl
@[simp] theorem State.fresh_out (s : State) : (s.fresh).out = s.out := rfl

/-! `State.send` -/

@[simp] theorem State.send_pending (s : State) (o : Out) : (s.send o).pending = s.pending := rfl
@[simp] theorem State.send_now (s : State) (o : Out) : (s.send o).now = s.now := rfl
@[simp] theorem State.send_free (s : State) (o : Out) : (s.send o).free = s.free := rfl
@[simp] theorem State.send_mem (s : State) (o : Out) : (s.send o).mem = s.mem := rfl
@[simp] theorem State.send_poison (s : State) (o : Out) : (s.send o).poison = s.poison := rfl
@[simp] theorem State.send_cores (s : State) (o : Out) : (s.send o).cores = s.cores := rfl
@[simp] theorem State.send_clusters (s : State) (o : Out) : (s.send o).clusters = s.clusters := rfl
@[simp] theorem State.send_dies (s : State) (o : Out) : (s.send o).dies = s.dies := rfl
@[simp] theorem State.send_units (s : State) (o : Out) : (s.send o).units = s.units := rfl
@[simp] theorem State.send_parts (s : State) (o : Out) : (s.send o).parts = s.parts := rfl
@[simp] theorem State.send_applyQ (s : State) (o : Out) : (s.send o).applyQ = s.applyQ := rfl
@[simp] theorem State.send_row (s : State) (o : Out) : (s.send o).row = s.row := rfl
@[simp] theorem State.send_tx (s : State) (o : Out) : (s.send o).tx = s.tx := rfl
@[simp] theorem State.send_sync (s : State) (o : Out) : (s.send o).sync = s.sync := rfl
@[simp] theorem State.send_tiers (s : State) (o : Out) : (s.send o).tiers = s.tiers := rfl
@[simp] theorem State.send_link (s : State) (o : Out) : (s.send o).link = s.link := rfl
@[simp] theorem State.send_host (s : State) (o : Out) : (s.send o).host = s.host := rfl
@[simp] theorem State.send_net (s : State) (o : Out) : (s.send o).net = s.net := rfl
@[simp] theorem State.send_errs (s : State) (o : Out) : (s.send o).errs = s.errs := rfl
@[simp] theorem State.send_power (s : State) (o : Out) : (s.send o).power = s.power := rfl
@[simp] theorem State.send_boot (s : State) (o : Out) : (s.send o).boot = s.boot := rfl
@[simp] theorem State.send_ident (s : State) (o : Out) : (s.send o).ident = s.ident := rfl
@[simp] theorem State.send_regs (s : State) (o : Out) : (s.send o).regs = s.regs := rfl
@[simp] theorem State.send_mgmt (s : State) (o : Out) : (s.send o).mgmt = s.mgmt := rfl
@[simp] theorem State.send_tap (s : State) (o : Out) : (s.send o).tap = s.tap := rfl

/-! `State.sendSync` -/

@[simp] theorem State.sendSync_pending (s : State) (o : SyncOp) : (s.sendSync o).pending = s.pending := rfl
@[simp] theorem State.sendSync_now (s : State) (o : SyncOp) : (s.sendSync o).now = s.now := rfl
@[simp] theorem State.sendSync_free (s : State) (o : SyncOp) : (s.sendSync o).free = s.free := rfl
@[simp] theorem State.sendSync_mem (s : State) (o : SyncOp) : (s.sendSync o).mem = s.mem := rfl
@[simp] theorem State.sendSync_poison (s : State) (o : SyncOp) : (s.sendSync o).poison = s.poison := rfl
@[simp] theorem State.sendSync_cores (s : State) (o : SyncOp) : (s.sendSync o).cores = s.cores := rfl
@[simp] theorem State.sendSync_clusters (s : State) (o : SyncOp) : (s.sendSync o).clusters = s.clusters := rfl
@[simp] theorem State.sendSync_dies (s : State) (o : SyncOp) : (s.sendSync o).dies = s.dies := rfl
@[simp] theorem State.sendSync_units (s : State) (o : SyncOp) : (s.sendSync o).units = s.units := rfl
@[simp] theorem State.sendSync_parts (s : State) (o : SyncOp) : (s.sendSync o).parts = s.parts := rfl
@[simp] theorem State.sendSync_applyQ (s : State) (o : SyncOp) : (s.sendSync o).applyQ = s.applyQ := rfl
@[simp] theorem State.sendSync_row (s : State) (o : SyncOp) : (s.sendSync o).row = s.row := rfl
@[simp] theorem State.sendSync_tx (s : State) (o : SyncOp) : (s.sendSync o).tx = s.tx := rfl
@[simp] theorem State.sendSync_tiers (s : State) (o : SyncOp) : (s.sendSync o).tiers = s.tiers := rfl
@[simp] theorem State.sendSync_link (s : State) (o : SyncOp) : (s.sendSync o).link = s.link := rfl
@[simp] theorem State.sendSync_host (s : State) (o : SyncOp) : (s.sendSync o).host = s.host := rfl
@[simp] theorem State.sendSync_net (s : State) (o : SyncOp) : (s.sendSync o).net = s.net := rfl
@[simp] theorem State.sendSync_errs (s : State) (o : SyncOp) : (s.sendSync o).errs = s.errs := rfl
@[simp] theorem State.sendSync_power (s : State) (o : SyncOp) : (s.sendSync o).power = s.power := rfl
@[simp] theorem State.sendSync_boot (s : State) (o : SyncOp) : (s.sendSync o).boot = s.boot := rfl
@[simp] theorem State.sendSync_ident (s : State) (o : SyncOp) : (s.sendSync o).ident = s.ident := rfl
@[simp] theorem State.sendSync_regs (s : State) (o : SyncOp) : (s.sendSync o).regs = s.regs := rfl
@[simp] theorem State.sendSync_mgmt (s : State) (o : SyncOp) : (s.sendSync o).mgmt = s.mgmt := rfl
@[simp] theorem State.sendSync_tap (s : State) (o : SyncOp) : (s.sendSync o).tap = s.tap := rfl
@[simp] theorem State.sendSync_out (s : State) (o : SyncOp) : (s.sendSync o).out = s.out := rfl

end Sys2Proof.Machine
end

