-- ==== Sys2Proof/Laws/Tables.lean ====
section
/-! SUPPORT. Reading a table after writing it: sparse tables, and every numbered record of the state after its
update. -/

namespace Sys2Proof.Machine

variable {α : Type}

@[simp] theorem Tab.get_set_same (d : α) (t : Tab α) (k : Nat) (a : α) : (t.set k a).get d k = a := by
  induction t with
  | nil => simp [Tab.set, Tab.get]
  | cons x t ih =>
    obtain ⟨j, b⟩ := x
    unfold Tab.set
    split
    · simp [Tab.get]
    · split
      · simp [Tab.get]
      · simp [Tab.get, *]

theorem Tab.get_set_ne (d : α) (t : Tab α) {k i : Nat} (a : α) (h : i ≠ k) : (t.set k a).get d i = t.get d i := by
  induction t with
  | nil => simp [Tab.set, Tab.get, Ne.symm h]
  | cons x t ih =>
    obtain ⟨j, b⟩ := x
    unfold Tab.set
    split
    · subst_vars; simp [Tab.get, Ne.symm h]
    · split
      · simp [Tab.get, Ne.symm h]
      · simp [Tab.get, ih]

@[simp] theorem Tab.find_set_same (t : Tab α) (k : Nat) (a : α) : (t.set k a).find k = some a := by
  induction t with
  | nil => simp [Tab.set, Tab.find]
  | cons x t ih =>
    obtain ⟨j, b⟩ := x
    unfold Tab.set
    split
    · simp [Tab.find]
    · split
      · simp [Tab.find]
      · simp [Tab.find, *]

theorem Tab.find_set_ne (t : Tab α) {k i : Nat} (a : α) (h : i ≠ k) : (t.set k a).find i = t.find i := by
  induction t with
  | nil => simp [Tab.set, Tab.find, Ne.symm h]
  | cons x t ih =>
    obtain ⟨j, b⟩ := x
    unfold Tab.set
    split
    · subst_vars; simp [Tab.find, Ne.symm h]
    · split
      · simp [Tab.find, Ne.symm h]
      · simp [Tab.find, ih]

@[simp] theorem Tab.find_del_same (t : Tab α) (k : Nat) : (t.del k).find k = none := by
  induction t with
  | nil => simp [Tab.del, Tab.find]
  | cons x t ih =>
    obtain ⟨j, b⟩ := x
    by_cases h : j = k
    · simpa [Tab.del, h] using ih
    · simpa [Tab.del, Tab.find, h] using ih

@[simp] theorem State.core_updCore_same (s : State) (k : Nat) (f : Core → Core) : (s.updCore k f).core k = f (s.core k) := by
  simp [State.updCore, State.core]
theorem State.core_updCore_ne (s : State) (k : Nat) (f : Core → Core) {i : Nat} (h : i ≠ k) : (s.updCore k f).core i = s.core i := by
  simp [State.updCore, State.core, Tab.get_set_ne _ _ _ h]

@[simp] theorem State.part_updPart_same (s : State) (k : Nat) (f : Part → Part) : (s.updPart k f).part k = f (s.part k) := by
  simp [State.updPart, State.part]
theorem State.part_updPart_ne (s : State) (k : Nat) (f : Part → Part) {i : Nat} (h : i ≠ k) : (s.updPart k f).part i = s.part i := by
  simp [State.updPart, State.part, Tab.get_set_ne _ _ _ h]

@[simp] theorem State.cluster_updCluster_same (s : State) (k : Nat) (f : Cluster → Cluster) : (s.updCluster k f).cluster k = f (s.cluster k) := by
  simp [State.updCluster, State.cluster]
theorem State.cluster_updCluster_ne (s : State) (k : Nat) (f : Cluster → Cluster) {i : Nat} (h : i ≠ k) : (s.updCluster k f).cluster i = s.cluster i := by
  simp [State.updCluster, State.cluster, Tab.get_set_ne _ _ _ h]

@[simp] theorem State.die_updDie_same (s : State) (k : Nat) (f : Die → Die) : (s.updDie k f).die k = f (s.die k) := by
  simp [State.updDie, State.die]
theorem State.die_updDie_ne (s : State) (k : Nat) (f : Die → Die) {i : Nat} (h : i ≠ k) : (s.updDie k f).die i = s.die i := by
  simp [State.updDie, State.die, Tab.get_set_ne _ _ _ h]

@[simp] theorem State.member_updMember_same (s : State) (k : Nat) (f : Member → Member) : (s.updMember k f).member k = f (s.member k) := by
  simp [State.updMember, State.member]
theorem State.member_updMember_ne (s : State) (k : Nat) (f : Member → Member) {i : Nat} (h : i ≠ k) : (s.updMember k f).member i = s.member i := by
  simp [State.updMember, State.member, Tab.get_set_ne _ _ _ h]

@[simp] theorem State.lnk_updLnk_same (s : State) (k : Nat) (f : Link → Link) : (s.updLnk k f).lnk k = f (s.lnk k) := by
  simp [State.updLnk, State.lnk]
theorem State.lnk_updLnk_ne (s : State) (k : Nat) (f : Link → Link) {i : Nat} (h : i ≠ k) : (s.updLnk k f).lnk i = s.lnk i := by
  simp [State.updLnk, State.lnk, Tab.get_set_ne _ _ _ h]

@[simp] theorem State.line_updLine_same (s : State) (k : Nat) (f : Line → Line) : (s.updLine k f).line k = f (s.line k) := by
  simp [State.updLine, State.line]
theorem State.line_updLine_ne (s : State) (k : Nat) (f : Line → Line) {i : Nat} (h : i ≠ k) : (s.updLine k f).line i = s.line i := by
  simp [State.updLine, State.line, Tab.get_set_ne _ _ _ h]

@[simp] theorem State.serve_updServe_same (s : State) (k : Nat) (f : Serve → Serve) : (s.updServe k f).serve k = f (s.serve k) := by
  simp [State.updServe, State.serve]
theorem State.serve_updServe_ne (s : State) (k : Nat) (f : Serve → Serve) {i : Nat} (h : i ≠ k) : (s.updServe k f).serve i = s.serve i := by
  simp [State.updServe, State.serve, Tab.get_set_ne _ _ _ h]

@[simp] theorem State.near_updNear_same (s : State) (k : Nat) (f : MemSt → MemSt) : (s.updNear k f).near k = f (s.near k) := by
  simp [State.updNear, State.near]
theorem State.near_updNear_ne (s : State) (k : Nat) (f : MemSt → MemSt) {i : Nat} (h : i ≠ k) : (s.updNear k f).near i = s.near i := by
  simp [State.updNear, State.near, Tab.get_set_ne _ _ _ h]

@[simp] theorem State.chan_updChan_same (s : State) (k : Nat) (f : MemSt → MemSt) : (s.updChan k f).chan k = f (s.chan k) := by
  simp [State.updChan, State.chan]
theorem State.chan_updChan_ne (s : State) (k : Nat) (f : MemSt → MemSt) {i : Nat} (h : i ≠ k) : (s.updChan k f).chan i = s.chan i := by
  simp [State.updChan, State.chan, Tab.get_set_ne _ _ _ h]

@[simp] theorem State.rail_updRail_same (s : State) (k : Nat) (f : Rail → Rail) : (s.updRail k f).rail k = f (s.rail k) := by
  simp [State.updRail, State.rail]
theorem State.rail_updRail_ne (s : State) (k : Nat) (f : Rail → Rail) {i : Nat} (h : i ≠ k) : (s.updRail k f).rail i = s.rail i := by
  simp [State.updRail, State.rail, Tab.get_set_ne _ _ _ h]

@[simp] theorem State.func_updFunc_same (s : State) (r : FuncRef) (f : Func → Func) : (s.updFunc r f).func r = f (s.func r) := by
  simp [State.updFunc, State.func]
theorem State.func_updFunc_ne (s : State) (r i : FuncRef) (f : Func → Func) (h : fnKey i ≠ fnKey r) :
    (s.updFunc r f).func i = s.func i := by
  simp [State.updFunc, State.func, Tab.get_set_ne _ _ _ h]
@[simp] theorem State.queue_updQueue_same (s : State) (q : QRef) (f : Queue → Queue) : (s.updQueue q f).queue q = f (s.queue q) := by
  simp [State.updQueue, State.queue]

@[simp] theorem State.ctx_updCtx_same (s : State) (p : At) (f : Ctx → Ctx) : (s.updCtx p f).ctx p = f (s.ctx p) := by
  simp [State.updCtx, State.ctx]
theorem State.ctx_updCtx_ne (s : State) {p q : At} (f : Ctx → Ctx) (h : q ≠ p) : (s.updCtx p f).ctx q = s.ctx q := by
  by_cases hc : q.core = p.core
  · have hx : q.ctx ≠ p.ctx := by
      intro e; apply h; cases p; cases q; simp_all
    simp [State.updCtx, State.ctx, hc, Tab.get_set_ne _ _ _ hx]
  · simp [State.updCtx, State.ctx, State.core_updCore_ne _ _ _ hc]
/-- An update of a core that leaves its contexts leaves every context. -/
theorem State.ctx_updCore (s : State) (k : Nat) (f : Core → Core) (h : (f (s.core k)).ctxs = (s.core k).ctxs) (p : At) :
    (s.updCore k f).ctx p = s.ctx p := by
  by_cases hc : p.core = k
  · subst hc; simp [State.ctx, h]
  · simp [State.ctx, State.core_updCore_ne _ _ _ hc]

@[simp] theorem State.core_updPart (s : State) (k i : Nat) (f : Part → Part) : (s.updPart k f).core i = s.core i := rfl
@[simp] theorem State.cluster_updPart (s : State) (k i : Nat) (f : Part → Part) : (s.updPart k f).cluster i = s.cluster i := rfl
@[simp] theorem State.die_updPart (s : State) (k i : Nat) (f : Part → Part) : (s.updPart k f).die i = s.die i := rfl
@[simp] theorem State.member_updPart (s : State) (k i : Nat) (f : Part → Part) : (s.updPart k f).member i = s.member i := rfl
@[simp] theorem State.lnk_updPart (s : State) (k i : Nat) (f : Part → Part) : (s.updPart k f).lnk i = s.lnk i := rfl
@[simp] theorem State.line_updPart (s : State) (k i : Nat) (f : Part → Part) : (s.updPart k f).line i = s.line i := rfl
@[simp] theorem State.serve_updPart (s : State) (k i : Nat) (f : Part → Part) : (s.updPart k f).serve i = s.serve i := rfl
@[simp] theorem State.near_updPart (s : State) (k i : Nat) (f : Part → Part) : (s.updPart k f).near i = s.near i := rfl
@[simp] theorem State.chan_updPart (s : State) (k i : Nat) (f : Part → Part) : (s.updPart k f).chan i = s.chan i := rfl
@[simp] theorem State.rail_updPart (s : State) (k i : Nat) (f : Part → Part) : (s.updPart k f).rail i = s.rail i := rfl
@[simp] theorem State.ctx_updPart (s : State) (k : Nat) (p : At) (f : Part → Part) : (s.updPart k f).ctx p = s.ctx p := rfl
@[simp] theorem State.core_updCluster (s : State) (k i : Nat) (f : Cluster → Cluster) : (s.updCluster k f).core i = s.core i := rfl
@[simp] theorem State.part_updCluster (s : State) (k i : Nat) (f : Cluster → Cluster) : (s.updCluster k f).part i = s.part i := rfl
@[simp] theorem State.die_updCluster (s : State) (k i : Nat) (f : Cluster → Cluster) : (s.updCluster k f).die i = s.die i := rfl
@[simp] theorem State.member_updCluster (s : State) (k i : Nat) (f : Cluster → Cluster) : (s.updCluster k f).member i = s.member i := rfl
@[simp] theorem State.lnk_updCluster (s : State) (k i : Nat) (f : Cluster → Cluster) : (s.updCluster k f).lnk i = s.lnk i := rfl
@[simp] theorem State.line_updCluster (s : State) (k i : Nat) (f : Cluster → Cluster) : (s.updCluster k f).line i = s.line i := rfl
@[simp] theorem State.serve_updCluster (s : State) (k i : Nat) (f : Cluster → Cluster) : (s.updCluster k f).serve i = s.serve i := rfl
@[simp] theorem State.near_updCluster (s : State) (k i : Nat) (f : Cluster → Cluster) : (s.updCluster k f).near i = s.near i := rfl
@[simp] theorem State.chan_updCluster (s : State) (k i : Nat) (f : Cluster → Cluster) : (s.updCluster k f).chan i = s.chan i := rfl
@[simp] theorem State.rail_updCluster (s : State) (k i : Nat) (f : Cluster → Cluster) : (s.updCluster k f).rail i = s.rail i := rfl
@[simp] theorem State.ctx_updCluster (s : State) (k : Nat) (p : At) (f : Cluster → Cluster) : (s.updCluster k f).ctx p = s.ctx p := rfl
@[simp] theorem State.core_updDie (s : State) (k i : Nat) (f : Die → Die) : (s.updDie k f).core i = s.core i := rfl
@[simp] theorem State.part_updDie (s : State) (k i : Nat) (f : Die → Die) : (s.updDie k f).part i = s.part i := rfl
@[simp] theorem State.cluster_updDie (s : State) (k i : Nat) (f : Die → Die) : (s.updDie k f).cluster i = s.cluster i := rfl
@[simp] theorem State.member_updDie (s : State) (k i : Nat) (f : Die → Die) : (s.updDie k f).member i = s.member i := rfl
@[simp] theorem State.lnk_updDie (s : State) (k i : Nat) (f : Die → Die) : (s.updDie k f).lnk i = s.lnk i := rfl
@[simp] theorem State.line_updDie (s : State) (k i : Nat) (f : Die → Die) : (s.updDie k f).line i = s.line i := rfl
@[simp] theorem State.serve_updDie (s : State) (k i : Nat) (f : Die → Die) : (s.updDie k f).serve i = s.serve i := rfl
@[simp] theorem State.near_updDie (s : State) (k i : Nat) (f : Die → Die) : (s.updDie k f).near i = s.near i := rfl
@[simp] theorem State.chan_updDie (s : State) (k i : Nat) (f : Die → Die) : (s.updDie k f).chan i = s.chan i := rfl
@[simp] theorem State.rail_updDie (s : State) (k i : Nat) (f : Die → Die) : (s.updDie k f).rail i = s.rail i := rfl
@[simp] theorem State.ctx_updDie (s : State) (k : Nat) (p : At) (f : Die → Die) : (s.updDie k f).ctx p = s.ctx p := rfl
@[simp] theorem State.core_updMember (s : State) (k i : Nat) (f : Member → Member) : (s.updMember k f).core i = s.core i := rfl
@[simp] theorem State.part_updMember (s : State) (k i : Nat) (f : Member → Member) : (s.updMember k f).part i = s.part i := rfl
@[simp] theorem State.cluster_updMember (s : State) (k i : Nat) (f : Member → Member) : (s.updMember k f).cluster i = s.cluster i := rfl
@[simp] theorem State.die_updMember (s : State) (k i : Nat) (f : Member → Member) : (s.updMember k f).die i = s.die i := rfl
@[simp] theorem State.lnk_updMember (s : State) (k i : Nat) (f : Member → Member) : (s.updMember k f).lnk i = s.lnk i := rfl
@[simp] theorem State.line_updMember (s : State) (k i : Nat) (f : Member → Member) : (s.updMember k f).line i = s.line i := rfl
@[simp] theorem State.serve_updMember (s : State) (k i : Nat) (f : Member → Member) : (s.updMember k f).serve i = s.serve i := rfl
@[simp] theorem State.near_updMember (s : State) (k i : Nat) (f : Member → Member) : (s.updMember k f).near i = s.near i := rfl
@[simp] theorem State.chan_updMember (s : State) (k i : Nat) (f : Member → Member) : (s.updMember k f).chan i = s.chan i := rfl
@[simp] theorem State.rail_updMember (s : State) (k i : Nat) (f : Member → Member) : (s.updMember k f).rail i = s.rail i := rfl
@[simp] theorem State.ctx_updMember (s : State) (k : Nat) (p : At) (f : Member → Member) : (s.updMember k f).ctx p = s.ctx p := rfl
@[simp] theorem State.core_updLnk (s : State) (k i : Nat) (f : Link → Link) : (s.updLnk k f).core i = s.core i := rfl
@[simp] theorem State.part_updLnk (s : State) (k i : Nat) (f : Link → Link) : (s.updLnk k f).part i = s.part i := rfl
@[simp] theorem State.cluster_updLnk (s : State) (k i : Nat) (f : Link → Link) : (s.updLnk k f).cluster i = s.cluster i := rfl
@[simp] theorem State.die_updLnk (s : State) (k i : Nat) (f : Link → Link) : (s.updLnk k f).die i = s.die i := rfl
@[simp] theorem State.member_updLnk (s : State) (k i : Nat) (f : Link → Link) : (s.updLnk k f).member i = s.member i := rfl
@[simp] theorem State.line_updLnk (s : State) (k i : Nat) (f : Link → Link) : (s.updLnk k f).line i = s.line i := rfl
@[simp] theorem State.serve_updLnk (s : State) (k i : Nat) (f : Link → Link) : (s.updLnk k f).serve i = s.serve i := rfl
@[simp] theorem State.near_updLnk (s : State) (k i : Nat) (f : Link → Link) : (s.updLnk k f).near i = s.near i := rfl
@[simp] theorem State.chan_updLnk (s : State) (k i : Nat) (f : Link → Link) : (s.updLnk k f).chan i = s.chan i := rfl
@[simp] theorem State.rail_updLnk (s : State) (k i : Nat) (f : Link → Link) : (s.updLnk k f).rail i = s.rail i := rfl
@[simp] theorem State.ctx_updLnk (s : State) (k : Nat) (p : At) (f : Link → Link) : (s.updLnk k f).ctx p = s.ctx p := rfl
@[simp] theorem State.core_updLine (s : State) (k i : Nat) (f : Line → Line) : (s.updLine k f).core i = s.core i := rfl
@[simp] theorem State.part_updLine (s : State) (k i : Nat) (f : Line → Line) : (s.updLine k f).part i = s.part i := rfl
@[simp] theorem State.cluster_updLine (s : State) (k i : Nat) (f : Line → Line) : (s.updLine k f).cluster i = s.cluster i := rfl
@[simp] theorem State.die_updLine (s : State) (k i : Nat) (f : Line → Line) : (s.updLine k f).die i = s.die i := rfl
@[simp] theorem State.member_updLine (s : State) (k i : Nat) (f : Line → Line) : (s.updLine k f).member i = s.member i := rfl
@[simp] theorem State.lnk_updLine (s : State) (k i : Nat) (f : Line → Line) : (s.updLine k f).lnk i = s.lnk i := rfl
@[simp] theorem State.serve_updLine (s : State) (k i : Nat) (f : Line → Line) : (s.updLine k f).serve i = s.serve i := rfl
@[simp] theorem State.near_updLine (s : State) (k i : Nat) (f : Line → Line) : (s.updLine k f).near i = s.near i := rfl
@[simp] theorem State.chan_updLine (s : State) (k i : Nat) (f : Line → Line) : (s.updLine k f).chan i = s.chan i := rfl
@[simp] theorem State.rail_updLine (s : State) (k i : Nat) (f : Line → Line) : (s.updLine k f).rail i = s.rail i := rfl
@[simp] theorem State.ctx_updLine (s : State) (k : Nat) (p : At) (f : Line → Line) : (s.updLine k f).ctx p = s.ctx p := rfl
@[simp] theorem State.core_updServe (s : State) (k i : Nat) (f : Serve → Serve) : (s.updServe k f).core i = s.core i := rfl
@[simp] theorem State.part_updServe (s : State) (k i : Nat) (f : Serve → Serve) : (s.updServe k f).part i = s.part i := rfl
@[simp] theorem State.cluster_updServe (s : State) (k i : Nat) (f : Serve → Serve) : (s.updServe k f).cluster i = s.cluster i := rfl
@[simp] theorem State.die_updServe (s : State) (k i : Nat) (f : Serve → Serve) : (s.updServe k f).die i = s.die i := rfl
@[simp] theorem State.member_updServe (s : State) (k i : Nat) (f : Serve → Serve) : (s.updServe k f).member i = s.member i := rfl
@[simp] theorem State.lnk_updServe (s : State) (k i : Nat) (f : Serve → Serve) : (s.updServe k f).lnk i = s.lnk i := rfl
@[simp] theorem State.line_updServe (s : State) (k i : Nat) (f : Serve → Serve) : (s.updServe k f).line i = s.line i := rfl
@[simp] theorem State.near_updServe (s : State) (k i : Nat) (f : Serve → Serve) : (s.updServe k f).near i = s.near i := rfl
@[simp] theorem State.chan_updServe (s : State) (k i : Nat) (f : Serve → Serve) : (s.updServe k f).chan i = s.chan i := rfl
@[simp] theorem State.rail_updServe (s : State) (k i : Nat) (f : Serve → Serve) : (s.updServe k f).rail i = s.rail i := rfl
@[simp] theorem State.ctx_updServe (s : State) (k : Nat) (p : At) (f : Serve → Serve) : (s.updServe k f).ctx p = s.ctx p := rfl
@[simp] theorem State.core_updNear (s : State) (k i : Nat) (f : MemSt → MemSt) : (s.updNear k f).core i = s.core i := rfl
@[simp] theorem State.part_updNear (s : State) (k i : Nat) (f : MemSt → MemSt) : (s.updNear k f).part i = s.part i := rfl
@[simp] theorem State.cluster_updNear (s : State) (k i : Nat) (f : MemSt → MemSt) : (s.updNear k f).cluster i = s.cluster i := rfl
@[simp] theorem State.die_updNear (s : State) (k i : Nat) (f : MemSt → MemSt) : (s.updNear k f).die i = s.die i := rfl
@[simp] theorem State.member_updNear (s : State) (k i : Nat) (f : MemSt → MemSt) : (s.updNear k f).member i = s.member i := rfl
@[simp] theorem State.lnk_updNear (s : State) (k i : Nat) (f : MemSt → MemSt) : (s.updNear k f).lnk i = s.lnk i := rfl
@[simp] theorem State.line_updNear (s : State) (k i : Nat) (f : MemSt → MemSt) : (s.updNear k f).line i = s.line i := rfl
@[simp] theorem State.serve_updNear (s : State) (k i : Nat) (f : MemSt → MemSt) : (s.updNear k f).serve i = s.serve i := rfl
@[simp] theorem State.chan_updNear (s : State) (k i : Nat) (f : MemSt → MemSt) : (s.updNear k f).chan i = s.chan i := rfl
@[simp] theorem State.rail_updNear (s : State) (k i : Nat) (f : MemSt → MemSt) : (s.updNear k f).rail i = s.rail i := rfl
@[simp] theorem State.ctx_updNear (s : State) (k : Nat) (p : At) (f : MemSt → MemSt) : (s.updNear k f).ctx p = s.ctx p := rfl
@[simp] theorem State.core_updChan (s : State) (k i : Nat) (f : MemSt → MemSt) : (s.updChan k f).core i = s.core i := rfl
@[simp] theorem State.part_updChan (s : State) (k i : Nat) (f : MemSt → MemSt) : (s.updChan k f).part i = s.part i := rfl
@[simp] theorem State.cluster_updChan (s : State) (k i : Nat) (f : MemSt → MemSt) : (s.updChan k f).cluster i = s.cluster i := rfl
@[simp] theorem State.die_updChan (s : State) (k i : Nat) (f : MemSt → MemSt) : (s.updChan k f).die i = s.die i := rfl
@[simp] theorem State.member_updChan (s : State) (k i : Nat) (f : MemSt → MemSt) : (s.updChan k f).member i = s.member i := rfl
@[simp] theorem State.lnk_updChan (s : State) (k i : Nat) (f : MemSt → MemSt) : (s.updChan k f).lnk i = s.lnk i := rfl
@[simp] theorem State.line_updChan (s : State) (k i : Nat) (f : MemSt → MemSt) : (s.updChan k f).line i = s.line i := rfl
@[simp] theorem State.serve_updChan (s : State) (k i : Nat) (f : MemSt → MemSt) : (s.updChan k f).serve i = s.serve i := rfl
@[simp] theorem State.near_updChan (s : State) (k i : Nat) (f : MemSt → MemSt) : (s.updChan k f).near i = s.near i := rfl
@[simp] theorem State.rail_updChan (s : State) (k i : Nat) (f : MemSt → MemSt) : (s.updChan k f).rail i = s.rail i := rfl
@[simp] theorem State.ctx_updChan (s : State) (k : Nat) (p : At) (f : MemSt → MemSt) : (s.updChan k f).ctx p = s.ctx p := rfl
@[simp] theorem State.core_updRail (s : State) (k i : Nat) (f : Rail → Rail) : (s.updRail k f).core i = s.core i := rfl
@[simp] theorem State.part_updRail (s : State) (k i : Nat) (f : Rail → Rail) : (s.updRail k f).part i = s.part i := rfl
@[simp] theorem State.cluster_updRail (s : State) (k i : Nat) (f : Rail → Rail) : (s.updRail k f).cluster i = s.cluster i := rfl
@[simp] theorem State.die_updRail (s : State) (k i : Nat) (f : Rail → Rail) : (s.updRail k f).die i = s.die i := rfl
@[simp] theorem State.member_updRail (s : State) (k i : Nat) (f : Rail → Rail) : (s.updRail k f).member i = s.member i := rfl
@[simp] theorem State.lnk_updRail (s : State) (k i : Nat) (f : Rail → Rail) : (s.updRail k f).lnk i = s.lnk i := rfl
@[simp] theorem State.line_updRail (s : State) (k i : Nat) (f : Rail → Rail) : (s.updRail k f).line i = s.line i := rfl
@[simp] theorem State.serve_updRail (s : State) (k i : Nat) (f : Rail → Rail) : (s.updRail k f).serve i = s.serve i := rfl
@[simp] theorem State.near_updRail (s : State) (k i : Nat) (f : Rail → Rail) : (s.updRail k f).near i = s.near i := rfl
@[simp] theorem State.chan_updRail (s : State) (k i : Nat) (f : Rail → Rail) : (s.updRail k f).chan i = s.chan i := rfl
@[simp] theorem State.ctx_updRail (s : State) (k : Nat) (p : At) (f : Rail → Rail) : (s.updRail k f).ctx p = s.ctx p := rfl
@[simp] theorem State.part_updCore (s : State) (k i : Nat) (f : Core → Core) : (s.updCore k f).part i = s.part i := rfl
@[simp] theorem State.part_updCtx (s : State) (p : At) (i : Nat) (f : Ctx → Ctx) : (s.updCtx p f).part i = s.part i := rfl
@[simp] theorem State.cluster_updCore (s : State) (k i : Nat) (f : Core → Core) : (s.updCore k f).cluster i = s.cluster i := rfl
@[simp] theorem State.cluster_updCtx (s : State) (p : At) (i : Nat) (f : Ctx → Ctx) : (s.updCtx p f).cluster i = s.cluster i := rfl
@[simp] theorem State.die_updCore (s : State) (k i : Nat) (f : Core → Core) : (s.updCore k f).die i = s.die i := rfl
@[simp] theorem State.die_updCtx (s : State) (p : At) (i : Nat) (f : Ctx → Ctx) : (s.updCtx p f).die i = s.die i := rfl
@[simp] theorem State.member_updCore (s : State) (k i : Nat) (f : Core → Core) : (s.updCore k f).member i = s.member i := rfl
@[simp] theorem State.member_updCtx (s : State) (p : At) (i : Nat) (f : Ctx → Ctx) : (s.updCtx p f).member i = s.member i := rfl
@[simp] theorem State.lnk_updCore (s : State) (k i : Nat) (f : Core → Core) : (s.updCore k f).lnk i = s.lnk i := rfl
@[simp] theorem State.lnk_updCtx (s : State) (p : At) (i : Nat) (f : Ctx → Ctx) : (s.updCtx p f).lnk i = s.lnk i := rfl
@[simp] theorem State.line_updCore (s : State) (k i : Nat) (f : Core → Core) : (s.updCore k f).line i = s.line i := rfl
@[simp] theorem State.line_updCtx (s : State) (p : At) (i : Nat) (f : Ctx → Ctx) : (s.updCtx p f).line i = s.line i := rfl
@[simp] theorem State.serve_updCore (s : State) (k i : Nat) (f : Core → Core) : (s.updCore k f).serve i = s.serve i := rfl
@[simp] theorem State.serve_updCtx (s : State) (p : At) (i : Nat) (f : Ctx → Ctx) : (s.updCtx p f).serve i = s.serve i := rfl
@[simp] theorem State.near_updCore (s : State) (k i : Nat) (f : Core → Core) : (s.updCore k f).near i = s.near i := rfl
@[simp] theorem State.near_updCtx (s : State) (p : At) (i : Nat) (f : Ctx → Ctx) : (s.updCtx p f).near i = s.near i := rfl
@[simp] theorem State.chan_updCore (s : State) (k i : Nat) (f : Core → Core) : (s.updCore k f).chan i = s.chan i := rfl
@[simp] theorem State.chan_updCtx (s : State) (p : At) (i : Nat) (f : Ctx → Ctx) : (s.updCtx p f).chan i = s.chan i := rfl
@[simp] theorem State.rail_updCore (s : State) (k i : Nat) (f : Core → Core) : (s.updCore k f).rail i = s.rail i := rfl
@[simp] theorem State.rail_updCtx (s : State) (p : At) (i : Nat) (f : Ctx → Ctx) : (s.updCtx p f).rail i = s.rail i := rfl

/-! Registers of a context -/

@[simp] theorem Ctx.getS_zero (c : Ctx) : c.getS 0 = 0 := by simp [Ctx.getS]
@[simp] theorem Ctx.setS_zero (c : Ctx) (v : Word) : c.setS 0 v = c := by simp [Ctx.setS]
theorem Ctx.getS_setS (c : Ctx) (r q : BitVec 5) (v : Word) :
    (c.setS r v).getS q = if q = 0 then 0 else if q = r then v else c.getS q := by
  unfold Ctx.setS Ctx.getS
  by_cases hq : q = 0
  · rw [if_pos hq, if_pos hq]
  rw [if_neg hq, if_neg hq]
  by_cases e : q = r
  · subst e
    rw [if_neg hq, if_pos rfl]
    exact Tab.get_set_same _ _ _ _
  · rw [if_neg e, if_neg hq]
    have ht : q.toNat ≠ r.toNat := fun h => e (BitVec.eq_of_toNat_eq h)
    split
    · rfl
    · exact Tab.get_set_ne _ _ _ ht
theorem Ctx.getV_setV (c : Ctx) (r q : BitVec 4) (v : VReg) : (c.setV r v).getV q = if q = r then v else c.getV q := by
  unfold Ctx.setV Ctx.getV
  by_cases e : q = r
  · subst e; simp
  · have : q.toNat ≠ r.toNat := fun h => e (BitVec.eq_of_toNat_eq h)
    simp [e, Tab.get_set_ne _ _ _ this]
theorem Ctx.getA_setA (c : Ctx) (r q : BitVec 2) (v : TileAcc) : (c.setA r v).getA q = if q = r then v else c.getA q := by
  unfold Ctx.setA Ctx.getA
  by_cases e : q = r
  · subst e; simp
  · have : q.toNat ≠ r.toNat := fun h => e (BitVec.eq_of_toNat_eq h)
    simp [e, Tab.get_set_ne _ _ _ this]
/-- A scalar write changes the scalar registers and nothing else of its context. -/
theorem Ctx.setS_eq (c : Ctx) (r : BitVec 5) (v : Word) : c.setS r v = { c with s := (c.setS r v).s } := by
  unfold Ctx.setS; split <;> rfl
@[simp] theorem State.ctx_setS_same (s : State) (p : At) (r : BitVec 5) (v : Word) : (s.setS p r v).ctx p = (s.ctx p).setS r v := by
  simp [State.setS]

end Sys2Proof.Machine
end

