-- ==== Sys2Proof/Laws/Memory.lean ====
section
/-! SUPPORT. Memory: a byte reads as it was written last, every other byte as before, and every operation that writes
bytes keeps the canonical form. -/

namespace Sys2Proof.Machine

/-! ### One byte -/

@[simp] theorem Memory.get_put_same (m : List Host.Cell) (k : Nat) (b : Byte) (h : Memory.wf m = true) :
    Memory.get (Memory.put m k b) k = b := by
  induction m with
  | nil => by_cases hb : b = 0#8 <;> simp [Memory.put, Memory.get, hb]
  | cons x t ih =>
    obtain ⟨j, c⟩ := x
    simp only [Memory.wf, List.pairwise_cons, Bool.and_eq_true, decide_eq_true_eq, List.all_cons] at h
    obtain ⟨⟨hj, ht⟩, hc, ha⟩ := h
    have hw : Memory.wf t = true := by simp [Memory.wf, ht]; simpa using ha
    have gt : ∀ i, i ≤ j → Memory.get t i = 0 := by
      intro i hi
      clear ih hw ht ha
      induction t with
      | nil => rfl
      | cons y u ihu =>
        have := hj y (by simp)
        have hn : y.1 ≠ i := by omega
        simp only [Memory.get, hn, if_false]
        exact ihu (fun z hz => hj z (by simp [hz]))
    unfold Memory.put
    split
    · rename_i hlt
      have hne : j ≠ k := by omega
      by_cases hb : b = 0#8
      · simp [hb, Memory.get, hne, gt k (by omega)]
      · simp [hb, Memory.get]
    · split
      · rename_i _ he
        by_cases hb : b = 0#8
        · simp [hb, gt k (by omega)]
        · simp [hb, Memory.get]
      · rename_i _ hne
        simp [Memory.get, Ne.symm hne, ih hw]

theorem Memory.get_put_ne (m : List Host.Cell) {k i : Nat} (b : Byte) (h : i ≠ k) :
    Memory.get (Memory.put m k b) i = Memory.get m i := by
  induction m with
  | nil => by_cases hb : b = 0#8 <;> simp [Memory.put, Memory.get, hb, Ne.symm h]
  | cons x t ih =>
    obtain ⟨j, c⟩ := x
    unfold Memory.put
    split
    · by_cases hb : b = 0#8 <;> simp [hb, Memory.get, Ne.symm h]
    · split
      · rename_i _ he
        by_cases hb : b = 0#8
        · simp [hb, Memory.get, ← he, Ne.symm h]
        · simp [hb, Memory.get, ← he, Ne.symm h]
      · simp [Memory.get, ih]

/-- Writing a byte lists no address that was not listed, the written one apart. -/
theorem Memory.mem_put (m : List Host.Cell) (k : Nat) (b : Byte) (x : Host.Cell) (h : x ∈ Memory.put m k b) :
    x ∈ m ∨ x = (k, b) ∧ b ≠ 0 := by
  induction m with
  | nil =>
    by_cases hb : b = 0#8
    · simp [Memory.put, hb] at h
    · simp [Memory.put, hb] at h; exact Or.inr ⟨h, hb⟩
  | cons y t ih =>
    obtain ⟨j, c⟩ := y
    unfold Memory.put at h
    by_cases hb : b = 0#8
    · simp only [hb] at h ih ⊢
      split at h
      · exact Or.inl (by simpa using h)
      · split at h
        · exact Or.inl (List.mem_cons_of_mem _ (by simpa using h))
        · rcases List.mem_cons.mp h with h | h
          · exact Or.inl (by simp [h])
          · rcases ih h with h | h
            · exact Or.inl (List.mem_cons_of_mem _ h)
            · exact absurd rfl h.2
    · simp only [if_neg (show ¬ b = 0 from hb)] at h
      split at h
      · rcases List.mem_cons.mp h with h | h
        · exact Or.inr ⟨h, hb⟩
        · exact Or.inl h
      · split at h
        · rcases List.mem_cons.mp h with h | h
          · exact Or.inr ⟨h, hb⟩
          · exact Or.inl (List.mem_cons_of_mem _ h)
        · rcases List.mem_cons.mp h with h | h
          · exact Or.inl (by simp [h])
          · rcases ih h with h | h
            · exact Or.inl (List.mem_cons_of_mem _ h)
            · exact Or.inr h

theorem Memory.wf_iff (m : List Host.Cell) :
    Memory.wf m = true ↔ m.Pairwise (fun a b => a.1 < b.1) ∧ ∀ x ∈ m, x.2 ≠ 0 := by
  simp [Memory.wf]

theorem Memory.wf_put (m : List Host.Cell) (k : Nat) (b : Byte) (h : Memory.wf m = true) :
    Memory.wf (Memory.put m k b) = true := by
  rw [Memory.wf_iff] at h ⊢
  refine ⟨?_, fun x hx => ?_⟩
  · obtain ⟨hp, -⟩ := h
    induction m with
    | nil => by_cases hb : b = 0#8 <;> simp [Memory.put, hb]
    | cons y t ih =>
      obtain ⟨j, c⟩ := y
      obtain ⟨hj, ht⟩ := List.pairwise_cons.mp hp
      unfold Memory.put
      split
      · by_cases hb : b = 0#8
        · simpa [hb] using hp
        · rw [if_neg (show ¬ b = 0 from hb)]
          refine List.pairwise_cons.mpr ⟨fun x hx => ?_, hp⟩
          rcases List.mem_cons.mp hx with hx | hx
          · subst hx; assumption
          · have := hj x hx; simp at this ⊢; omega
      · split
        · rename_i _ he
          by_cases hb : b = 0#8
          · simpa [hb] using ht
          · rw [if_neg (show ¬ b = 0 from hb)]
            exact List.pairwise_cons.mpr ⟨fun x hx => by have := hj x hx; simp at this ⊢; omega, ht⟩
        · rename_i h1 h2
          refine List.pairwise_cons.mpr ⟨fun x hx => ?_, ih ht⟩
          rcases Memory.mem_put t k b x hx with hx | hx
          · exact hj x hx
          · simp [hx.1]; omega
  · rcases Memory.mem_put m k b x hx with hx | hx
    · exact h.2 x hx
    · simpa [hx.1] using hx.2

/-! ### Many bytes -/

theorem Memory.wf_putAll (m : List Host.Cell) (l : List (Nat × Byte)) (h : Memory.wf m = true) :
    Memory.wf (Memory.putAll m l) = true := by
  unfold Memory.putAll
  induction l generalizing m with
  | nil => exact h
  | cons x t ih => exact ih _ (Memory.wf_put m x.1 x.2 h)

theorem Memory.get_putAll_ne (m : List Host.Cell) (l : List (Nat × Byte)) (k : Nat) (h : ∀ x ∈ l, x.1 ≠ k) :
    Memory.get (Memory.putAll m l) k = Memory.get m k := by
  unfold Memory.putAll
  induction l generalizing m with
  | nil => rfl
  | cons x t ih =>
    rw [List.foldl_cons, ih _ (fun y hy => h y (List.mem_cons_of_mem _ hy))]
    exact Memory.get_put_ne _ _ (Ne.symm (h x (by simp)))

theorem Memory.wf_filter (m : List Host.Cell) (f : Host.Cell → Bool) (h : Memory.wf m = true) :
    Memory.wf (m.filter f) = true := by
  rw [Memory.wf_iff] at h ⊢
  exact ⟨h.1.filter f, fun x hx => h.2 x (List.mem_of_mem_filter hx)⟩

/-! ### The operations that write bytes of the state -/

theorem State.lose_memOk (s : State) (k : Nat) (h : Memory.wf s.mem = true) : Memory.wf (s.lose k).mem = true :=
  Memory.wf_putAll _ _ h

theorem State.writeKeys_mem (s : State) (ks : List Nat) (data : List Byte) (blight : Bool) :
    (s.writeKeys ks data blight).mem = Memory.putAll s.mem (List.zip ks data) := by
  unfold State.writeKeys; split <;> rfl

@[simp] theorem State.markStale_mem (s : State) (n : Nat) (a : Word) (len : Nat) : (s.markStale n a len).mem = s.mem := by
  unfold State.markStale; split <;> rfl

@[simp] theorem State.refreshCopies_mem (s : State) (n t : Nat) (ks : List Nat) : (s.refreshCopies n t ks).mem = s.mem := rfl

/-- What a write of device bytes does to memory: the bytes at the keys of the address. -/
theorem State.writeDev_mem (s : State) (n core : Nat) (a : Word) (data : List Byte) (blight : Bool) :
    (s.writeDev n core a data blight).mem = Memory.putAll s.mem (List.zip (s.keysOf n core a data.length) data) := by
  have h : ∀ t : State, (t.markStale n a data.length).mem = t.mem := fun t => State.markStale_mem t n a data.length
  unfold State.writeDev
  simp only []
  split
  · split
    · rw [State.refreshCopies_mem, h, State.writeKeys_mem]
    · rw [h, State.writeKeys_mem]
  · rw [h, State.writeKeys_mem]

theorem State.writeDev_memOk (s : State) (n core : Nat) (a : Word) (data : List Byte) (blight : Bool)
    (h : Memory.wf s.mem = true) : Memory.wf (s.writeDev n core a data blight).mem = true := by
  rw [State.writeDev_mem]; exact Memory.wf_putAll _ _ h

/-- A byte outside the written ones reads as before. -/
theorem State.writeDev_get_ne (s : State) (n core : Nat) (a : Word) (data : List Byte) (blight : Bool) (k : Nat)
    (h : k ∉ s.keysOf n core a data.length) :
    Memory.get (s.writeDev n core a data blight).mem k = Memory.get s.mem k := by
  rw [State.writeDev_mem]
  refine Memory.get_putAll_ne _ _ _ (fun x hx e => h ?_)
  have := (List.of_mem_zip (a := x.1) (b := x.2) hx).1
  rwa [e] at this

/-! ### Writes do not look at cores, free values or power -/

section
variable (t : State) (c : Tab Core) (f : Nat) (w : PowerState)

theorem State.part_besides (n : Nat) : ({ t with cores := c, free := f, power := w } : State).part n = t.part n := rfl
theorem State.findObj_besides (n m : Nat) : ({ t with cores := c, free := f, power := w } : State).findObj n m = t.findObj n m := rfl
theorem State.linear_besides (n : Nat) (a : Word) : ({ t with cores := c, free := f, power := w } : State).linear n a = t.linear n a := by
  simp only [State.linear, State.findObj_besides]
theorem State.sharePlace_besides (n : Nat) (a : Word) (la : Nat) (b : Word) (lb : Nat) :
    ({ t with cores := c, free := f, power := w } : State).sharePlace n a la b lb = t.sharePlace n a la b lb := by
  simp only [State.sharePlace, State.linear_besides]
theorem State.objsAt_besides (n : Nat) (a : Word) (len : Nat) :
    ({ t with cores := c, free := f, power := w } : State).objsAt n a len = t.objsAt n a len := by
  simp only [State.objsAt, State.sharePlace_besides, State.part_besides]
theorem State.coverOf_besides (n : Nat) (a : Word) (len : Nat) :
    ({ t with cores := c, free := f, power := w } : State).coverOf n a len = t.coverOf n a len := by
  simp only [State.coverOf, State.objsAt_besides, State.sharePlace_besides, State.part_besides]
theorem State.keyOf_besides (n core : Nat) (a : Word) :
    ({ t with cores := c, free := f, power := w } : State).keyOf n core a = t.keyOf n core a := by
  simp only [State.keyOf, State.findObj_besides]
theorem State.keysOf_besides (n core : Nat) (a : Word) (len : Nat) :
    ({ t with cores := c, free := f, power := w } : State).keysOf n core a len = t.keysOf n core a len := by
  simp only [State.keysOf, State.keyOf_besides]
theorem State.readDev_besides (n core : Nat) (a : Word) (len : Nat) :
    ({ t with cores := c, free := f, power := w } : State).readDev n core a len = t.readDev n core a len := by
  simp only [State.readDev, State.readKeys, State.keysOf_besides]
theorem State.writeKeys_besides (ks : List Nat) (data : List Byte) (b : Bool) :
    ({ t with cores := c, free := f, power := w } : State).writeKeys ks data b
      = { t.writeKeys ks data b with cores := c, free := f, power := w } := by
  unfold State.writeKeys; simp only []; split <;> rfl
theorem State.markStale_besides (n : Nat) (a : Word) (len : Nat) :
    ({ t with cores := c, free := f, power := w } : State).markStale n a len
      = { t.markStale n a len with cores := c, free := f, power := w } := by
  unfold State.markStale
  rw [State.coverOf_besides]
  split <;> rfl

/-- Writing device bytes neither reads nor changes cores, free values and power. -/
theorem State.writeDev_besides (n core : Nat) (a : Word) (data : List Byte) (b : Bool) :
    ({ t with cores := c, free := f, power := w } : State).writeDev n core a data b
      = { t.writeDev n core a data b with cores := c, free := f, power := w } := by
  unfold State.writeDev
  simp only []
  rw [State.keysOf_besides, State.writeKeys_besides, State.markStale_besides, State.part_besides]
  split
  · split <;> rfl
  · rfl
end

end Sys2Proof.Machine
end

