-- ==== Sys2Proof/Laws/Frames.lean ====
section
/-! SUPPORT. Everything that a report, an interrupt and a completion entry can change, said once; the bytes that an
address names depend on the layout of memory alone. -/

namespace Sys2Proof.Machine

/-! ### Reports -/

theorem BesidesReports.refl (s : State) : BesidesReports s s := rfl

theorem BesidesReports.trans {s t u : State} (h : BesidesReports s t) (k : BesidesReports t u) : BesidesReports s u := by
  unfold BesidesReports at *
  rw [k, h]

theorem BesidesReports.foldl {α : Type} {f : State → α → State} (hf : ∀ s a, BesidesReports s (f s a)) (l : List α) (s : State) :
    BesidesReports s (l.foldl f s) := by
  induction l generalizing s with
  | nil => exact .refl s
  | cons a l ih => exact (hf s a).trans (ih (f s a))

theorem send_reports (s : State) (o : Out) : BesidesReports s (s.send o) := rfl
theorem updFunc_reports (s : State) (f : FuncRef) (g : Func → Func) : BesidesReports s (s.updFunc f g) := rfl
theorem updQueue_reports (s : State) (q : QRef) (g : Queue → Queue) : BesidesReports s (s.updQueue q g) := rfl

theorem emit_reports (s : State) (f : FuncRef) (o : Out) : BesidesReports s (s.emit f o) := by
  unfold State.emit
  split
  · exact send_reports ..
  · exact updFunc_reports ..

theorem trySend_reports (s : State) (f : FuncRef) (v : Nat) : BesidesReports s (s.trySend f v) := by
  unfold State.trySend
  dsimp only
  repeat' split
  all_goals first
    | exact .refl s
    | exact (updFunc_reports ..).trans (emit_reports ..)

theorem raise_reports (s : State) (f : FuncRef) (v h : Nat) : BesidesReports s (s.raise f v h) :=
  (updFunc_reports ..).trans (trySend_reports ..)

theorem ringPost_reports (s : State) (f : FuncRef) (r : ErrRec) : BesidesReports s (s.ringPost f r) := by
  unfold State.ringPost
  simp only []
  repeat' split
  all_goals first
    | exact .refl s
    | exact ((updFunc_reports ..).trans (emit_reports ..)).trans (raise_reports ..)
    | exact (updFunc_reports ..).trans (emit_reports ..)

theorem post_reports (s : State) (r : ErrRec) (l : List Nat) : BesidesReports s (s.post r l) := by
  unfold State.post
  refine BesidesReports.trans (t := { s with errs := _ }) rfl (BesidesReports.foldl (fun u n => ?_) l _)
  split
  · exact ringPost_reports ..
  · exact .refl u

theorem discard_reports (s : State) (u : UnitRef) (c : Nat) (tag : Word) (tbl : Nat) (l : List Nat) :
    BesidesReports s (s.discard u c tag tbl l) := by
  unfold State.discard
  simp only []
  split
  · exact rfl
  · exact BesidesReports.trans (t := { s with errs := _ }) rfl (post_reports ..)

theorem postMerge_reports (s : State) (m : Merge) : BesidesReports s (s.postMerge m) := by
  unfold State.postMerge
  exact BesidesReports.trans (t := { s with errs := _ }) rfl (post_reports ..)

theorem flushMerges_reports (s : State) (n : Nat) : BesidesReports s (s.flushMerges n) :=
  BesidesReports.foldl postMerge_reports _ s

theorem complete_reports (s : State) (c : CmdRef) (a b : BitVec 16) (r : Word) : BesidesReports s (s.complete c a b r) := by
  unfold State.complete
  extract_lets q n v w x y
  have h : BesidesReports s v := by
    clear_value n
    cases n
    · exact .refl s
    · exact flushMerges_reports ..
  have k : BesidesReports s y := ((h.trans (updQueue_reports v _ _)).trans (updFunc_reports w _ _)).trans (emit_reports x _ _)
  split
  · exact k.trans (raise_reports ..)
  · exact k

/-! ### The layout of memory -/

theorem objKey_map {q r : Part} (ho : q.objects = r.objects) (ht : q.tables = r.tables) (num : Nat) (o : Obj) (x : Nat) :
    objKey q num o x = objKey r num o x := by
  have hs : ∀ t, q.salted t = r.salted t := fun t => by simp only [Part.salted, ho]
  have hf : ∀ t n g, saltFor q t n g = saltFor r t n g := fun t n g => by simp only [saltFor, hs]
  have hh : ∀ i, rowHome q num o i = rowHome r num o i := fun i => by simp only [rowHome, hf, ht]
  simp only [objKey, hh, ht]

theorem SameMap.findObj {s u : State} (h : SameMap s u) (n num : Nat) :
    (s.findObj n num).map (fun x => (x.1.objects, x.1.tables, x.2)) = (u.findObj n num).map (fun x => (x.1.objects, x.1.tables, x.2)) := by
  unfold State.findObj
  simp only [(h n).1, (h n).2.2]
  cases hf : (u.part n).objects.find num with
  | some o =>
    simp only []
    cases o.mirrorOf with
    | none => simp [h n]
    | some src => dsimp only; split <;> simp [Option.map_map, Function.comp_def, (h _).1, (h _).2.1]
  | none =>
    simp only []
    split <;> simp [Option.map_map, Function.comp_def, (h _).1, (h _).2.1]

theorem SameMap.keyOf {s u : State} (h : SameMap s u) (n core : Nat) (a : Word) : s.keyOf n core a = u.keyOf n core a := by
  have k : ∀ num x, (s.findObj n num).bind (fun y => objKey y.1 num y.2 x) = (u.findObj n num).bind (fun y => objKey y.1 num y.2 x) := by
    intro num x
    have e := h.findObj n num
    cases ha : s.findObj n num <;> cases hb : u.findObj n num <;> rw [ha, hb] at e <;> simp at e ⊢
    rename_i y z
    rw [e.2.2, objKey_map e.1 e.2.1]
  simp only [State.keyOf, k]

theorem SameMap.keysOf {s u : State} (h : SameMap s u) (n core : Nat) (a : Word) (len : Nat) : s.keysOf n core a len = u.keysOf n core a len := by
  simp only [State.keysOf, h.keyOf]

theorem SameMap.readDev {s u : State} (h : SameMap s u) (hm : s.mem = u.mem) (hp : s.poison = u.poison) (n core : Nat) (a : Word) (len : Nat) :
    s.readDev n core a len = u.readDev n core a len := by
  simp only [State.readDev, State.readKeys, h.keysOf, hm, hp]

/-! ### Queues -/

/-- Every function keeps its queues and its Bus Master Enable, and what has left the module stays there. -/
structure KeepsQueues (s t : State) : Prop where
  queues : ∀ f, (t.func f).queues = (s.func f).queues
  master : ∀ f, (t.func f).busMaster = (s.func f).busMaster
  out : ∀ o ∈ s.out, o ∈ t.out

theorem KeepsQueues.refl (s : State) : KeepsQueues s s := ⟨fun _ => rfl, fun _ => rfl, fun _ h => h⟩

theorem KeepsQueues.trans {s t u : State} (h : KeepsQueues s t) (k : KeepsQueues t u) : KeepsQueues s u :=
  ⟨fun f => (k.1 f).trans (h.1 f), fun f => (k.2 f).trans (h.2 f), fun o m => k.3 o (h.3 o m)⟩

theorem KeepsQueues.foldl {α : Type} {f : State → α → State} (hf : ∀ s a, KeepsQueues s (f s a)) (l : List α) (s : State) :
    KeepsQueues s (l.foldl f s) := by
  induction l generalizing s with
  | nil => exact .refl s
  | cons a l ih => exact (hf s a).trans (ih (f s a))

/-- The first state may differ beside its functions and what has left. -/
theorem KeepsQueues.of_same {s v t : State} (k : KeepsQueues v t) (h : v.host = s.host) (o : v.out = s.out) : KeepsQueues s t := by
  refine ⟨fun f => (k.1 f).trans ?_, fun f => (k.2 f).trans ?_, fun x m => k.3 x (by rw [o]; exact m)⟩ <;> simp only [State.func, h]

theorem func_updFunc (s : State) (f h : FuncRef) (g : Func → Func) : (s.updFunc f g).func h = if fnKey h = fnKey f then g (s.func f) else s.func h := by
  unfold State.updFunc State.func
  split
  · rename_i e; simp [e]
  · rename_i e; exact Tab.get_set_ne _ _ _ e

theorem updFunc_keepsQueues (s : State) (f : FuncRef) (g : Func → Func) (hq : (g (s.func f)).queues = (s.func f).queues)
    (hb : (g (s.func f)).busMaster = (s.func f).busMaster) : KeepsQueues s (s.updFunc f g) := by
  have e : ∀ h, fnKey h = fnKey f → s.func h = s.func f := fun h e => by unfold State.func; rw [e]
  refine ⟨fun h => ?_, fun h => ?_, fun _ m => m⟩ <;> rw [func_updFunc] <;> split <;> simp_all

theorem emit_keepsQueues (s : State) (f : FuncRef) (o : Out) : KeepsQueues s (s.emit f o) := by
  unfold State.emit
  split
  · exact ⟨fun _ => rfl, fun _ => rfl, fun _ m => List.mem_append_left _ m⟩
  · exact updFunc_keepsQueues _ _ _ rfl rfl

theorem trySend_keepsQueues (s : State) (f : FuncRef) (v : Nat) : KeepsQueues s (s.trySend f v) := by
  unfold State.trySend
  dsimp only
  repeat' split
  all_goals first
    | exact .refl s
    | exact (updFunc_keepsQueues _ _ _ rfl rfl).trans (emit_keepsQueues ..)

theorem raise_keepsQueues (s : State) (f : FuncRef) (v h : Nat) : KeepsQueues s (s.raise f v h) :=
  (updFunc_keepsQueues _ _ _ rfl rfl).trans (trySend_keepsQueues ..)

theorem ringPost_keepsQueues (s : State) (f : FuncRef) (r : ErrRec) : KeepsQueues s (s.ringPost f r) := by
  unfold State.ringPost
  simp only []
  repeat' split
  all_goals first
    | exact .refl s
    | exact ((updFunc_keepsQueues _ _ _ rfl rfl).trans (emit_keepsQueues ..)).trans (raise_keepsQueues ..)
    | exact (updFunc_keepsQueues _ _ _ rfl rfl).trans (emit_keepsQueues ..)

theorem post_keepsQueues (s : State) (r : ErrRec) (l : List Nat) : KeepsQueues s (s.post r l) := by
  unfold State.post
  refine KeepsQueues.of_same (KeepsQueues.foldl (fun u n => ?_) l _) rfl rfl
  split
  · exact ringPost_keepsQueues ..
  · exact .refl u

theorem flushMerges_keepsQueues (s : State) (n : Nat) : KeepsQueues s (s.flushMerges n) :=
  KeepsQueues.foldl (fun s m => by
    unfold State.postMerge
    exact KeepsQueues.of_same (post_keepsQueues ..) rfl rfl) _ s

theorem queue_updQueue_same (s : State) (q : QRef) (g : Queue → Queue) : (s.updQueue q g).queue q = g (s.queue q) := by
  unfold State.updQueue State.queue
  rw [func_updFunc]
  simp

/-- A queue that does not start afresh keeps its completion tail as it settles. -/
theorem Queue.settle_cqTail (q : Queue) (h : q.restarts = false) : q.settle.cqTail = q.cqTail := by
  unfold Queue.settle
  split
  · rename_i e
    have n : q.nextCfg.getLsbD 31 = false := by
      simp only [Queue.restarts, Bool.and_eq_false_iff] at h
      simp only [Bool.and_eq_true] at e
      rcases h with h | h
      · rw [e.1] at h; cases h
      · exact h
    simp only [Queue.setCfg, n, Bool.false_and, Bool.false_eq_true, if_false]
  · rfl

/-- A completion entry is produced at the tail of its queue and leaves where the function may write (R437, R447). -/
theorem complete_answers (u : State) (c : HostCmd) (a b : BitVec 16) (r : Word) : Answers u (u.complete c.ref a b r) c a b r := by
  refine ⟨complete_reports .., ?_⟩
  unfold State.complete
  extract_lets q n v w x y
  have hv : KeepsQueues u v := by
    clear_value n
    cases n
    · exact .refl u
    · exact flushMerges_keepsQueues ..
  have hq : v.queue c.ref.q = q := by simp only [State.queue, hv.1, q]
  have hw : q.restarts = false → (w.queue c.ref.q).cqTail = q.cqTail + 1 := by
    intro e
    simp only [w, queue_updQueue_same, hq]
    exact Queue.settle_cqTail _ e
  have hb : (w.func (qFunc c.ref.q)).busMaster = (u.func (qFunc c.ref.q)).busMaster := by
    simp only [w, State.updQueue, func_updFunc, if_true, hv.2]
  have hx : KeepsQueues w x := updFunc_keepsQueues _ _ _ rfl rfl
  have hy : KeepsQueues w y := hx.trans (emit_keepsQueues ..)
  have ho : (u.func (qFunc c.ref.q)).busMaster = true → Out.completion c.ref.q (q.cqTail % 2 ^ q.sizeLog2) c.ref.seq c.ref.id r a b (phaseBit q.cqTail q.sizeLog2) ∈ y.out := by
    intro h
    have e : (x.func (qFunc c.ref.q)).busMaster = true := by rw [hx.2, hb, h]
    simp only [y, State.emit, e, if_true, State.send]
    exact List.mem_append_right _ (List.mem_singleton.2 rfl)
  have fin : ∀ z, KeepsQueues y z → (q.restarts = false → (z.queue c.ref.q).cqTail = q.cqTail + 1) ∧
      ((u.func (qFunc c.ref.q)).busMaster = true → Out.completion c.ref.q (q.cqTail % 2 ^ q.sizeLog2) c.ref.seq c.ref.id r a b (phaseBit q.cqTail q.sizeLog2) ∈ z.out) := by
    intro z hz
    refine ⟨fun e => ?_, fun h => hz.3 _ (ho h)⟩
    rw [← hw e]
    simp only [State.queue, (hy.trans hz).1]
  split
  · exact fin _ (raise_keepsQueues ..)
  · exact fin _ (.refl y)

/-- Where a host command runs, its row does what the command does (R434, R437 to R439). -/
theorem hostRow_runs {s u : State} {q : QRef} {op n : Nat} {c : HostCmd} (h : HostRuns s q op n u c) (k : State → Nat → HostCmd → State) :
    hostRow q op s k = .next (k u n c) := by
  obtain ⟨hl, hb, ho, ⟨f, rest, h1, h2, h3, h4, h5, h6, h7⟩ | ⟨st, b, h1, h2, h6, h7⟩⟩ := h
  · subst h6
    have e : opcodeOf f.desc = op := ho
    have hb' : u.boundPart (qFunc q) = some n := by rw [h7]; exact hb
    unfold hostRow runCmd
    simp only [h1, h2, h3, h4, h5, e]
    simp only [decide_true, Bool.true_or, Bool.and_self, Bool.not_true, Bool.false_eq_true, if_false]
    rw [← h7]
    simp [State.mayCommand, refOf, hb']
  · subst h6
    have e : opcodeOf st.desc = op := ho
    have hb' : u.boundPart (qFunc q) = some n := by rw [h7]; exact hb
    unfold hostRow runCmd
    simp only [h1, h2, hl, e]
    simp only [decide_true, Bool.and_self, if_true]
    rw [← h7]
    simp [State.mayCommand, refOf, hb']

end Sys2Proof.Machine
end

