-- ==== Sys2Proof/Laws/Bytes.lean ====
section
/-! SUPPORT. The operations that leave memory and the saved copies of the loss set as they are, one lemma each. -/

namespace Sys2Proof.Machine

theorem foldl_bytes {α : Type} {f : State → α → State} (l : List α) (s : State)
    (hf : ∀ s a, (f s a).mem = s.mem ∧ (f s a).power.copies = s.power.copies) :
    (l.foldl f s).mem = s.mem ∧ (l.foldl f s).power.copies = s.power.copies := by
  induction l generalizing s with
  | nil => exact ⟨rfl, rfl⟩
  | cons a l ih => exact ⟨(ih _).1.trans (hf s a).1, (ih _).2.trans (hf s a).2⟩

theorem BesidesReports.bytes {s t : State} (h : BesidesReports s t) : t.mem = s.mem ∧ t.power.copies = s.power.copies := by
  rw [h]
  exact ⟨rfl, rfl⟩

@[simp] theorem State.updCore_bytes (s : State) (k : Nat) (f : Core → Core) : (State.updCore s k f).mem = s.mem ∧ (State.updCore s k f).power.copies = s.power.copies := by
  exact ⟨rfl, rfl⟩

@[simp] theorem State.updCtx_bytes (s : State) (p : At) (f : Ctx → Ctx) : (State.updCtx s p f).mem = s.mem ∧ (State.updCtx s p f).power.copies = s.power.copies := by
  exact ⟨rfl, rfl⟩

@[simp] theorem State.updPart_bytes (s : State) (n : Nat) (f : Part → Part) : (State.updPart s n f).mem = s.mem ∧ (State.updPart s n f).power.copies = s.power.copies := by
  exact ⟨rfl, rfl⟩

@[simp] theorem State.updCluster_bytes (s : State) (c : Nat) (f : Cluster → Cluster) : (State.updCluster s c f).mem = s.mem ∧ (State.updCluster s c f).power.copies = s.power.copies := by
  exact ⟨rfl, rfl⟩

@[simp] theorem State.updDie_bytes (s : State) (d : Nat) (f : Die → Die) : (State.updDie s d f).mem = s.mem ∧ (State.updDie s d f).power.copies = s.power.copies := by
  exact ⟨rfl, rfl⟩

@[simp] theorem State.updMember_bytes (s : State) (n : Nat) (f : Member → Member) : (State.updMember s n f).mem = s.mem ∧ (State.updMember s n f).power.copies = s.power.copies := by
  exact ⟨rfl, rfl⟩

@[simp] theorem State.updLnk_bytes (s : State) (k : Nat) (f : Link → Link) : (State.updLnk s k f).mem = s.mem ∧ (State.updLnk s k f).power.copies = s.power.copies := by
  exact ⟨rfl, rfl⟩

@[simp] theorem State.updLine_bytes (s : State) (k : Nat) (f : Line → Line) : (State.updLine s k f).mem = s.mem ∧ (State.updLine s k f).power.copies = s.power.copies := by
  exact ⟨rfl, rfl⟩

@[simp] theorem State.updFunc_bytes (s : State) (f : FuncRef) (g : Func → Func) : (State.updFunc s f g).mem = s.mem ∧ (State.updFunc s f g).power.copies = s.power.copies := by
  exact ⟨rfl, rfl⟩

@[simp] theorem State.updQueue_bytes (s : State) (q : QRef) (g : Queue → Queue) : (State.updQueue s q g).mem = s.mem ∧ (State.updQueue s q g).power.copies = s.power.copies := by
  exact ⟨rfl, rfl⟩

@[simp] theorem State.updServe_bytes (s : State) (n : Nat) (f : Serve → Serve) : (State.updServe s n f).mem = s.mem ∧ (State.updServe s n f).power.copies = s.power.copies := by
  exact ⟨rfl, rfl⟩

@[simp] theorem State.updNear_bytes (s : State) (k : Nat) (f : MemSt → MemSt) : (State.updNear s k f).mem = s.mem ∧ (State.updNear s k f).power.copies = s.power.copies := by
  exact ⟨rfl, rfl⟩

@[simp] theorem State.updChan_bytes (s : State) (k : Nat) (f : MemSt → MemSt) : (State.updChan s k f).mem = s.mem ∧ (State.updChan s k f).power.copies = s.power.copies := by
  exact ⟨rfl, rfl⟩

@[simp] theorem State.updRail_bytes (s : State) (d : Nat) (f : Rail → Rail) : (State.updRail s d f).mem = s.mem ∧ (State.updRail s d f).power.copies = s.power.copies := by
  exact ⟨rfl, rfl⟩

@[simp] theorem State.fresh_bytes (s : State) : (State.fresh s).mem = s.mem ∧ (State.fresh s).power.copies = s.power.copies := by
  exact ⟨rfl, rfl⟩

@[simp] theorem State.markStale_bytes (s : State) (n : Nat) (a : Word) (len : Nat) : (State.markStale s n a len).mem = s.mem ∧ (State.markStale s n a len).power.copies = s.power.copies := by
  unfold State.markStale
  split <;> simp

@[simp] theorem State.refreshCopies_bytes (s : State) (n t : Nat) (ks : List Nat) : (State.refreshCopies s n t ks).mem = s.mem ∧ (State.refreshCopies s n t ks).power.copies = s.power.copies := by
  exact ⟨rfl, rfl⟩

@[simp] theorem State.markSubst_bytes (s : State) (ks : List Nat) (subst : Bool) : (State.markSubst s ks subst).mem = s.mem ∧ (State.markSubst s ks subst).power.copies = s.power.copies := by
  unfold State.markSubst
  split <;> simp

@[simp] theorem State.send_bytes (s : State) (o : Out) : (State.send s o).mem = s.mem ∧ (State.send s o).power.copies = s.power.copies := by
  exact ⟨rfl, rfl⟩

@[simp] theorem State.emit_bytes (s : State) (f : FuncRef) (o : Out) : (State.emit s f o).mem = s.mem ∧ (State.emit s f o).power.copies = s.power.copies := by
  unfold State.emit
  split <;> simp

@[simp] theorem State.trySend_bytes (s : State) (f : FuncRef) (v : Nat) : (State.trySend s f v).mem = s.mem ∧ (State.trySend s f v).power.copies = s.power.copies := by
  unfold State.trySend
  simp [apply_ite State.mem, apply_ite State.power, apply_ite PowerState.copies]

@[simp] theorem State.raise_bytes (s : State) (f : FuncRef) (v holdoff : Nat) : (State.raise s f v holdoff).mem = s.mem ∧ (State.raise s f v holdoff).power.copies = s.power.copies := by
  simp [State.raise]

@[simp] theorem State.ringPost_bytes (s : State) (f : FuncRef) (r : ErrRec) : (State.ringPost s f r).mem = s.mem ∧ (State.ringPost s f r).power.copies = s.power.copies := by
  unfold State.ringPost
  dsimp only
  (repeat' split) <;> simp

@[simp] theorem State.post_bytes (s : State) (r : ErrRec) (l : List Nat) : (s.post r l).mem = s.mem ∧ (s.post r l).power.copies = s.power.copies :=
  (post_reports s r l).bytes

@[simp] theorem State.discard_bytes (s : State) (u : UnitRef) (cause : Nat) (tag : Word) (tbl : Nat) (parts : List Nat) : (State.discard s u cause tag tbl parts).mem = s.mem ∧ (State.discard s u cause tag tbl parts).power.copies = s.power.copies := by
  unfold State.discard
  dsimp only
  split <;> simp

@[simp] theorem State.postMerge_bytes (s : State) (m : Merge) : (State.postMerge s m).mem = s.mem ∧ (State.postMerge s m).power.copies = s.power.copies := by
  simp [State.postMerge]

@[simp] theorem State.flushMerges_bytes (s : State) (n : Nat) : (State.flushMerges s n).mem = s.mem ∧ (State.flushMerges s n).power.copies = s.power.copies := by
  simp [State.flushMerges, foldl_bytes]

@[simp] theorem State.served_bytes (s : State) (ks : List Nat) (cls : Nat) : (State.served s ks cls).mem = s.mem ∧ (State.served s ks cls).power.copies = s.power.copies := by
  simp [State.served, foldl_bytes]

@[simp] theorem State.notePool_bytes (s : State) (ch : Nat) : (State.notePool s ch).mem = s.mem ∧ (State.notePool s ch).power.copies = s.power.copies := by
  unfold State.notePool
  simp [apply_ite State.mem, apply_ite State.power, apply_ite PowerState.copies]

@[simp] theorem State.notePools_bytes (s : State) (ks : List Nat) : (State.notePools s ks).mem = s.mem ∧ (State.notePools s ks).power.copies = s.power.copies := by
  simp [State.notePools, foldl_bytes]

@[simp] theorem State.complete_bytes (s : State) (c : CmdRef) (a b : BitVec 16) (r : Word) :
    (s.complete c a b r).mem = s.mem ∧ (s.complete c a b r).power.copies = s.power.copies := (complete_reports s c a b r).bytes

@[simp] theorem State.wakeSatisfied_bytes (s : State) : (State.wakeSatisfied s).mem = s.mem ∧ (State.wakeSatisfied s).power.copies = s.power.copies := by
  exact ⟨rfl, rfl⟩

@[simp] theorem State.addPair_bytes (s : State) (id n : Nat) (consumed : Bool) : (State.addPair s id n consumed).mem = s.mem ∧ (State.addPair s id n consumed).power.copies = s.power.copies := by
  unfold State.addPair
  simp [apply_ite State.mem, apply_ite State.power, apply_ite PowerState.copies]

@[simp] theorem State.putFlag_bytes (s : State) (id : Nat) (v : Bool) : (State.putFlag s id v).mem = s.mem ∧ (State.putFlag s id v).power.copies = s.power.copies := by
  exact ⟨rfl, rfl⟩

@[simp] theorem State.sendSync_bytes (s : State) (op : SyncOp) : (State.sendSync s op).mem = s.mem ∧ (State.sendSync s op).power.copies = s.power.copies := by
  exact ⟨rfl, rfl⟩

@[simp] theorem State.action_bytes (s : State) (n : Nat) (tag : Word) (ck : BitVec 2) (ct : BitVec 17) : (State.action s n tag ck ct).mem = s.mem ∧ (State.action s n tag ck ct).power.copies = s.power.copies := by
  unfold State.action
  dsimp only
  split <;> simp

@[simp] theorem State.updSw_bytes (s : State) (c : Nat) (f : SwCount → SwCount) : (State.updSw s c f).mem = s.mem ∧ (State.updSw s c f).power.copies = s.power.copies := by
  exact ⟨rfl, rfl⟩

@[simp] theorem State.gateWaited_bytes (s : State) (num : Nat) : (State.gateWaited s num).mem = s.mem ∧ (State.gateWaited s num).power.copies = s.power.copies := by
  unfold State.gateWaited
  (repeat' split) <;> simp [foldl_bytes]

@[simp] theorem State.dropTx_bytes (s : State) (num : Nat) : (State.dropTx s num).mem = s.mem ∧ (State.dropTx s num).power.copies = s.power.copies := by
  exact State.gateWaited_bytes s num

@[simp] theorem State.abortTx_bytes (s : State) (p : At) : (State.abortTx s p).mem = s.mem ∧ (State.abortTx s p).power.copies = s.power.copies := by
  unfold State.abortTx
  dsimp only
  (repeat' split) <;> simp

@[simp] theorem State.releaseWhenDrained_bytes (s : State) (p : At) (op : SyncOp) : (State.releaseWhenDrained s p op).mem = s.mem ∧ (State.releaseWhenDrained s p op).power.copies = s.power.copies := by
  unfold State.releaseWhenDrained
  split <;> simp

@[simp] theorem State.faultCtx_bytes (s : State) (p : At) (cause : BitVec 8) :
    (State.faultCtx s p cause).mem = s.mem ∧ (State.faultCtx s p cause).power.copies = s.power.copies := by
  unfold State.faultCtx
  dsimp only
  split <;> simp

@[simp] theorem State.idleCtx_bytes (s : State) (p : At) : (State.idleCtx s p).mem = s.mem ∧ (State.idleCtx s p).power.copies = s.power.copies := by
  simp [State.idleCtx]

@[simp] theorem State.goOn_bytes (s : State) (p : At) : (State.goOn s p).mem = s.mem ∧ (State.goOn s p).power.copies = s.power.copies := by
  exact ⟨rfl, rfl⟩

@[simp] theorem State.slot_bytes (s : State) (p : At) : (State.slot s p).mem = s.mem ∧ (State.slot s p).power.copies = s.power.copies := by
  exact ⟨rfl, rfl⟩

@[simp] theorem State.issued_bytes (s : State) (p : At) : (State.issued s p).mem = s.mem ∧ (State.issued s p).power.copies = s.power.copies := by
  exact ⟨rfl, rfl⟩

@[simp] theorem State.afterRetire_bytes (s : State) (p : At) : (State.afterRetire s p).mem = s.mem ∧ (State.afterRetire s p).power.copies = s.power.copies := by
  unfold State.afterRetire
  split <;> simp

@[simp] theorem State.afterDrain_bytes (s : State) (p : At) :
    (State.afterDrain s p).mem = s.mem ∧ (State.afterDrain s p).power.copies = s.power.copies := by
  unfold State.afterDrain
  dsimp only
  (repeat' split) <;> simp [foldl_bytes]

@[simp] theorem State.unstall_bytes (s : State) (k : Nat) : (State.unstall s k).mem = s.mem ∧ (State.unstall s k).power.copies = s.power.copies := by
  exact ⟨rfl, rfl⟩

@[simp] theorem State.beat_bytes (s : State) (k : Nat) : (State.beat s k).mem = s.mem ∧ (State.beat s k).power.copies = s.power.copies := by
  exact ⟨rfl, rfl⟩

@[simp] theorem State.active_bytes (s : State) (u : UnitRef) : (State.active s u).mem = s.mem ∧ (State.active s u).power.copies = s.power.copies := by
  exact ⟨rfl, rfl⟩

@[simp] theorem State.issueFault_bytes (s : State) (p : At) (cause : BitVec 8) : (State.issueFault s p cause).mem = s.mem ∧ (State.issueFault s p cause).power.copies = s.power.copies := by
  simp [State.issueFault]

@[simp] theorem State.setS_bytes (s : State) (p : At) (r : BitVec 5) (v : Word) : (State.setS s p r v).mem = s.mem ∧ (State.setS s p r v).power.copies = s.power.copies := by
  exact ⟨rfl, rfl⟩

@[simp] theorem State.updTxn_bytes (s : State) (num : Nat) (f : Tx → Tx) : (State.updTxn s num f).mem = s.mem ∧ (State.updTxn s num f).power.copies = s.power.copies := by
  exact ⟨rfl, rfl⟩

@[simp] theorem State.txWrite_bytes (s : State) (num : Nat) (a : Word) (data : List Byte) (blight subst : Bool) : (State.txWrite s num a data blight subst).mem = s.mem ∧ (State.txWrite s num a data blight subst).power.copies = s.power.copies := by
  unfold State.txWrite
  dsimp only
  (repeat' split) <;> simp

@[simp] theorem State.noteSlot_bytes (s : State) (p : At) (a : Word) : (State.noteSlot s p a).mem = s.mem ∧ (State.noteSlot s p a).power.copies = s.power.copies := by
  unfold State.noteSlot
  dsimp only
  split <;> simp

@[simp] theorem State.countLate_bytes (s : State) (c n : Nat) (tag : Word) : (State.countLate s c n tag).mem = s.mem ∧ (State.countLate s c n tag).power.copies = s.power.copies := by
  simp [State.countLate]

@[simp] theorem State.toBeat_bytes (s : State) (k b : Nat) : (State.toBeat s k b).mem = s.mem ∧ (State.toBeat s k b).power.copies = s.power.copies := by
  exact ⟨rfl, rfl⟩

@[simp] theorem State.tick_bytes (s : State) : (State.tick s).mem = s.mem ∧ (State.tick s).power.copies = s.power.copies := by
  unfold State.tick
  dsimp only
  (repeat' split) <;> simp [foldl_bytes]

@[simp] theorem State.vecBeats_bytes (s : State) (k n : Nat) : (State.vecBeats s k n).mem = s.mem ∧ (State.vecBeats s k n).power.copies = s.power.copies := by
  exact ⟨rfl, rfl⟩

@[simp] theorem State.turfBytes_bytes (s : State) (k : Nat) (a : Word) (n : Nat) : (State.turfBytes s k a n).mem = s.mem ∧ (State.turfBytes s k a n).power.copies = s.power.copies := by
  unfold State.turfBytes
  split <;> simp

@[simp] theorem State.turfRuns_bytes (s : State) (k : Nat) (l : List (Word × Nat)) :
    (State.turfRuns s k l).mem = s.mem ∧ (State.turfRuns s k l).power.copies = s.power.copies := by
  unfold State.turfRuns
  exact foldl_bytes _ _ (fun s a => by simp)

@[simp] theorem State.turfSide_bytes (s : State) (k : Nat) (d : TDesc) :
    (State.turfSide s k d).mem = s.mem ∧ (State.turfSide s k d).power.copies = s.power.copies := by
  unfold State.turfSide
  dsimp only
  split <;> simp [State.fresh]

@[simp] theorem State.turfOperand_bytes (s : State) (k : Nat) (a : Word) (t : Tile) :
    (State.turfOperand s k a t).mem = s.mem ∧ (State.turfOperand s k a t).power.copies = s.power.copies := by
  simp [State.turfOperand]

@[simp] theorem State.turfHead_bytes (s : State) (k : Nat) (a : Word) (t : Tile) :
    (State.turfHead s k a t).mem = s.mem ∧ (State.turfHead s k a t).power.copies = s.power.copies := by
  simp [State.turfHead]

@[simp] theorem State.descheduled_bytes (s : State) (k : Nat) : (State.descheduled s k).mem = s.mem ∧ (State.descheduled s k).power.copies = s.power.copies := by
  exact ⟨rfl, rfl⟩

@[simp] theorem State.request_bytes (t s : State) (p : At) (d : LoadDest) (a : Word) : (State.request t s p d a).mem = t.mem ∧ (State.request t s p d a).power.copies = t.power.copies := by
  exact ⟨rfl, rfl⟩

@[simp] theorem startLoad_bytes (s t : State) (p : At) (a : Word) (size : Nat) (d : LoadDest) : (startLoad s t p a size d).mem = t.mem ∧ (startLoad s t p a size d).power.copies = t.power.copies := by
  unfold startLoad
  dsimp only
  split <;> simp

@[simp] theorem jumpTo_bytes (s t : State) (p : At) (sd : BitVec 5) (target : Word) :
    (jumpTo s t p sd target).mem = t.mem ∧ (jumpTo s t p sd target).power.copies = t.power.copies := by
  simp [jumpTo]

@[simp] theorem putV_bytes (t : State) (p : At) (vd : BitVec 4) (lanes : List (BitVec 32)) (m : Marks) (beats : Nat) : (putV t p vd lanes m beats).mem = t.mem ∧ (putV t p vd lanes m beats).power.copies = t.power.copies := by
  exact ⟨rfl, rfl⟩

@[simp] theorem State.reportDamage_bytes (s : State) (n core : Nat) (d : TDesc) (idx : Nat) : (State.reportDamage s n core d idx).mem = s.mem ∧ (State.reportDamage s n core d idx).power.copies = s.power.copies := by
  unfold State.reportDamage
  split <;> simp

@[simp] theorem State.reportTile_bytes (s : State) (n core : Nat) (t : Tile) : (State.reportTile s n core t).mem = s.mem ∧ (State.reportTile s n core t).power.copies = s.power.copies := by
  unfold State.reportTile
  simp [foldl_bytes, apply_ite State.mem, apply_ite State.power, apply_ite PowerState.copies]

@[simp] theorem State.holdAt_bytes (s : State) (p : At) (pc : Word) (w : Stall) : (State.holdAt s p pc w).mem = s.mem ∧ (State.holdAt s p pc w).power.copies = s.power.copies := by
  exact ⟨rfl, rfl⟩

@[simp] theorem State.finishMove_bytes (s : State) (p : At) (m : Move) : (State.finishMove s p m).mem = s.mem ∧ (State.finishMove s p m).power.copies = s.power.copies := by
  simp [State.finishMove]

@[simp] theorem State.deliverLoad_bytes (s : State) (p : At) (i : Nat) (l : List Byte) (b u : Bool) : (State.deliverLoad s p i l b u).mem = s.mem ∧ (State.deliverLoad s p i l b u).power.copies = s.power.copies := by
  unfold State.deliverLoad
  dsimp only
  (repeat' split) <;> simp

@[simp] theorem State.endWait_bytes (s : State) (p : At) : (State.endWait s p).mem = s.mem ∧ (State.endWait s p).power.copies = s.power.copies := by
  exact ⟨rfl, rfl⟩

@[simp] theorem State.deschedule_bytes (s : State) (p : At) (pc : Word) (w : WaitCond) : (State.deschedule s p pc w).mem = s.mem ∧ (State.deschedule s p pc w).power.copies = s.power.copies := by
  exact ⟨rfl, rfl⟩

@[simp] theorem waitOp_bytes (s t : State) (p : At) (die : Nat) (w : WaitCond) :
    (waitOp s t p die w).mem = t.mem ∧ (waitOp s t p die w).power.copies = t.power.copies := by
  unfold waitOp
  split <;> simp

@[simp] theorem arrive_bytes (s t : State) (p : At) (l n : Nat) :
    (arrive s t p l n).mem = t.mem ∧ (arrive s t p l n).power.copies = t.power.copies := by
  simp [arrive]

@[simp] theorem State.awaitRelease_bytes (s : State) (p : At) (pc : Word) (l : Nat) (ph : BitVec 32) : (State.awaitRelease s p pc l ph).mem = s.mem ∧ (State.awaitRelease s p pc l ph).power.copies = s.power.copies := by
  exact ⟨rfl, rfl⟩

@[simp] theorem State.watchdog_bytes (s : State) (p : At) : (State.watchdog s p).mem = s.mem ∧ (State.watchdog s p).power.copies = s.power.copies := by
  unfold State.watchdog
  dsimp only
  (repeat' split) <;> simp

@[simp] theorem State.linkCount_bytes (s : State) (k i : Nat) : (State.linkCount s k i).mem = s.mem ∧ (State.linkCount s k i).power.copies = s.power.copies := by
  exact ⟨rfl, rfl⟩

@[simp] theorem State.transmit_bytes (s : State) (k : Nat) (f : Flit) : (State.transmit s k f).mem = s.mem ∧ (State.transmit s k f).power.copies = s.power.copies := by
  exact ⟨rfl, rfl⟩

@[simp] theorem State.pump_bytes (s : State) (k n : Nat) : (s.pump k n).mem = s.mem ∧ (s.pump k n).power.copies = s.power.copies := by
  induction n generalizing s with
  | zero => exact ⟨rfl, rfl⟩
  | succ n ih =>
    unfold State.pump
    dsimp only
    (repeat' split) <;> simp [ih]

@[simp] theorem State.sendOn_bytes (s : State) (k job : Nat) (f : Flit) : (State.sendOn s k job f).mem = s.mem ∧ (State.sendOn s k job f).power.copies = s.power.copies := by
  simp [State.sendOn]

@[simp] theorem State.sendFlit_bytes (s : State) (k : Nat) (f : Flit) : (State.sendFlit s k f).mem = s.mem ∧ (State.sendFlit s k f).power.copies = s.power.copies := by
  simp [State.sendFlit]

@[simp] theorem State.xuCount_bytes (s : State) (n i k : Nat) : (State.xuCount s n i k).mem = s.mem ∧ (State.xuCount s n i k).power.copies = s.power.copies := by
  exact ⟨rfl, rfl⟩

@[simp] theorem State.stale_bytes (s : State) (n src : Nat) (srcId : Option Word) (link : Nat) : (State.stale s n src srcId link).mem = s.mem ∧ (State.stale s n src srcId link).power.copies = s.power.copies := by
  unfold State.stale
  dsimp only
  (repeat' split) <;> simp

@[simp] theorem State.takeData_bytes (s : State) (n : Nat) (f : Flit) : (State.takeData s n f).mem = s.mem ∧ (State.takeData s n f).power.copies = s.power.copies := by
  unfold State.takeData
  dsimp only
  (repeat' split) <;> simp

@[simp] theorem State.dataFlit_bytes (s : State) (k n : Nat) (f : Flit) : (State.dataFlit s k n f).mem = s.mem ∧ (State.dataFlit s k n f).power.copies = s.power.copies := by
  unfold State.dataFlit
  dsimp only
  split <;> simp

@[simp] theorem State.routeFlit_bytes (s : State) (n : Nat) (f : Flit) : (State.routeFlit s n f).mem = s.mem ∧ (State.routeFlit s n f).power.copies = s.power.copies := by
  unfold State.routeFlit
  dsimp only
  (repeat' split) <;> simp [foldl_bytes]

@[simp] theorem State.releaseLine_bytes (s : State) (l : Nat) (late : Bool) : (State.releaseLine s l late).mem = s.mem ∧ (State.releaseLine s l late).power.copies = s.power.copies := by
  exact ⟨rfl, rfl⟩

@[simp] theorem State.settleLine_bytes (s : State) (l : Nat) : (State.settleLine s l).mem = s.mem ∧ (State.settleLine s l).power.copies = s.power.copies := by
  unfold State.settleLine
  dsimp only
  (repeat' split) <;> simp

@[simp] theorem State.lineReport_bytes (s : State) (line member : Nat) (epoch phase : BitVec 32) (t : Nat) : (State.lineReport s line member epoch phase t).mem = s.mem ∧ (State.lineReport s line member epoch phase t).power.copies = s.power.copies := by
  unfold State.lineReport
  dsimp only
  (repeat' split) <;> simp

@[simp] theorem State.tellLine_bytes (s : State) (l i : Nat) (phase : BitVec 32) : (State.tellLine s l i phase).mem = s.mem ∧ (State.tellLine s l i phase).power.copies = s.power.copies := by
  unfold State.tellLine
  dsimp only
  split <;> simp

@[simp] theorem State.lineFull_bytes (s : State) (l : Nat) : (State.lineFull s l).mem = s.mem ∧ (State.lineFull s l).power.copies = s.power.copies := by
  unfold State.lineFull
  dsimp only
  (repeat' split) <;> simp [foldl_bytes]

@[simp] theorem State.countTable_bytes (s : State) (n t i k : Nat) : (State.countTable s n t i k).mem = s.mem ∧ (State.countTable s n t i k).power.copies = s.power.copies := by
  exact ⟨rfl, rfl⟩

@[simp] theorem State.redigest_bytes (s : State) (n : Nat) (l : List Nat) : (State.redigest s n l).mem = s.mem ∧ (State.redigest s n l).power.copies = s.power.copies := by
  unfold State.redigest
  simp [foldl_bytes, apply_ite State.mem, apply_ite State.power, apply_ite PowerState.copies]

@[simp] theorem State.txView_bytes (s : State) (t : Tx) : (State.txView s t).mem = s.mem ∧ (State.txView s t).power.copies = s.power.copies := by
  unfold State.txView
  split <;> simp

@[simp] theorem State.prepareTx_bytes (s : State) (t : Tx) : (State.prepareTx s t).mem = s.mem ∧ (State.prepareTx s t).power.copies = s.power.copies := by
  exact ⟨rfl, rfl⟩

@[simp] theorem State.openTx_bytes (s : State) (n coord cluster : Nat) (step : Word) (o : TxOrigin) (l : List JEntry) (checks : List (Word × Nat)) : (State.openTx s n coord cluster step o l checks).mem = s.mem ∧ (State.openTx s n coord cluster step o l checks).power.copies = s.power.copies := by
  exact ⟨rfl, rfl⟩

@[simp] theorem State.endTx_bytes (s : State) (p : At) (sd : BitVec 5) (num code : Nat) : (State.endTx s p sd num code).mem = s.mem ∧ (State.endTx s p sd num code).power.copies = s.power.copies := by
  unfold State.endTx
  split <;> simp

@[simp] theorem State.placeRec_bytes (s : State) (r : JRec) : (State.placeRec s r).mem = s.mem ∧ (State.placeRec s r).power.copies = s.power.copies := by
  exact ⟨rfl, rfl⟩

@[simp] theorem State.updRecs_bytes (s : State) (num : Nat) (f : JRec → JRec) : (State.updRecs s num f).mem = s.mem ∧ (State.updRecs s num f).power.copies = s.power.copies := by
  exact ⟨rfl, rfl⟩

@[simp] theorem State.sweepCounts_bytes (s : State) (t : Tx) (e : Nat) : (State.sweepCounts s t e).mem = s.mem ∧ (State.sweepCounts s t e).power.copies = s.power.copies := by
  simp [State.sweepCounts, foldl_bytes]

@[simp] theorem State.committed_bytes (s : State) (t : Tx) : (State.committed s t).mem = s.mem ∧ (State.committed s t).power.copies = s.power.copies := by
  unfold State.committed
  split <;> simp

@[simp] theorem State.failTx_bytes (s : State) (t : Tx) (code : Nat) : (State.failTx s t code).mem = s.mem ∧ (State.failTx s t code).power.copies = s.power.copies := by
  unfold State.failTx
  split <;> simp

@[simp] theorem State.freeRecs_bytes (s : State) (num : Nat) : (State.freeRecs s num).mem = s.mem ∧ (State.freeRecs s num).power.copies = s.power.copies := by
  exact ⟨rfl, rfl⟩

@[simp] theorem State.importNext_bytes (s : State) (n : Nat) : (State.importNext s n).mem = s.mem ∧ (State.importNext s n).power.copies = s.power.copies := by
  unfold State.importNext
  dsimp only
  (repeat' split) <;> simp [foldl_bytes]

@[simp] theorem State.retireTx_bytes (s : State) (t : Tx) : (State.retireTx s t).mem = s.mem ∧ (State.retireTx s t).power.copies = s.power.copies := by
  unfold State.retireTx
  (repeat' split) <;> simp

@[simp] theorem State.blightTargets_bytes (s : State) (n : Nat) (l : List JEntry) : (State.blightTargets s n l).mem = s.mem ∧ (State.blightTargets s n l).power.copies = s.power.copies := by
  exact ⟨rfl, rfl⟩

@[simp] theorem State.recoverTx_bytes (s : State) (t : Tx) : (State.recoverTx s t).mem = s.mem ∧ (State.recoverTx s t).power.copies = s.power.copies := by
  unfold State.recoverTx
  constructor <;> (repeat' split) <;> simp

@[simp] theorem State.countKinds_bytes (s : State) (own t : Nat) (fs : Tab Fetch) : (State.countKinds s own t fs).mem = s.mem ∧ (State.countKinds s own t fs).power.copies = s.power.copies := by
  exact ⟨rfl, rfl⟩

@[simp] theorem State.submitRow_bytes (s t : State) (p : At) (a : Word) (grad : Bool) :
    (State.submitRow s t p a grad).mem = t.mem ∧ (State.submitRow s t p a grad).power.copies = t.power.copies := by
  unfold State.submitRow
  dsimp only
  split <;> simp

@[simp] theorem State.sketchInc_bytes (s : State) (die t r : Nat) : (State.sketchInc s die t r).mem = s.mem ∧ (State.sketchInc s die t r).power.copies = s.power.copies := by
  exact ⟨rfl, rfl⟩

@[simp] theorem State.fillRick_bytes (s : State) (own t r : Nat) (bytes : List Byte) : (State.fillRick s own t r bytes).mem = s.mem ∧ (State.fillRick s own t r bytes).power.copies = s.power.copies := by
  unfold State.fillRick
  dsimp only
  (repeat' split) <;> simp

@[simp] theorem State.updFetch_bytes (s : State) (job i : Nat) (f : Fetch → Fetch) : (State.updFetch s job i f).mem = s.mem ∧ (State.updFetch s job i f).power.copies = s.power.copies := by
  exact ⟨rfl, rfl⟩

@[simp] theorem State.countPressure_bytes (s : State) (c : Nat × Nat) (own t : Nat) : (State.countPressure s c own t).mem = s.mem ∧ (State.countPressure s c own t).power.copies = s.power.copies := by
  exact ⟨rfl, rfl⟩

@[simp] theorem State.preload_bytes (s : State) (own t r : Nat) : (State.preload s own t r).mem = s.mem ∧ (State.preload s own t r).power.copies = s.power.copies := by
  unfold State.preload
  dsimp only
  (repeat' split) <;> simp

@[simp] theorem State.pressure_bytes (s : State) (tier ch imb : Nat) (top : List (Nat × Nat)) : (State.pressure s tier ch imb top).mem = s.mem ∧ (State.pressure s tier ch imb top).power.copies = s.power.copies := by
  simp [State.pressure, foldl_bytes]

@[simp] theorem State.forgetWait_bytes (s : State) (p : At) : (State.forgetWait s p).mem = s.mem ∧ (State.forgetWait s p).power.copies = s.power.copies := by
  exact ⟨rfl, rfl⟩

@[simp] theorem State.stopCtx_bytes (s : State) (p : At) : (State.stopCtx s p).mem = s.mem ∧ (State.stopCtx s p).power.copies = s.power.copies := by
  unfold State.stopCtx
  dsimp only
  (repeat' split) <;> simp

@[simp] theorem State.startCtx_bytes (s : State) (p : At) (pc : Word) (flag : Option (BitVec 17)) (by_ : Controller) : (State.startCtx s p pc flag by_).mem = s.mem ∧ (State.startCtx s p pc flag by_).power.copies = s.power.copies := by
  exact ⟨rfl, rfl⟩

@[simp] theorem State.serveCount_bytes (s : State) (n i k : Nat) : (State.serveCount s n i k).mem = s.mem ∧ (State.serveCount s n i k).power.copies = s.power.copies := by
  exact ⟨rfl, rfl⟩

@[simp] theorem State.rejectServe_bytes (s : State) (n port status : Nat) (id : Word) (route : List Byte) : (State.rejectServe s n port status id route).mem = s.mem ∧ (State.rejectServe s n port status id route).power.copies = s.power.copies := by
  exact ⟨rfl, rfl⟩

@[simp] theorem State.sendFallback_bytes (s : State) (n status : Nat) (x : Slot) : (State.sendFallback s n status x).mem = s.mem ∧ (State.sendFallback s n status x).power.copies = s.power.copies := by
  simp [State.sendFallback]

@[simp] theorem State.setHoldPoint_bytes (s : State) (n : Nat) : (State.setHoldPoint s n).mem = s.mem ∧ (State.setHoldPoint s n).power.copies = s.power.copies := by
  unfold State.setHoldPoint
  split <;> simp

@[simp] theorem State.countHold_bytes (s : State) (n : Nat) : (State.countHold s n).mem = s.mem ∧ (State.countHold s n).power.copies = s.power.copies := by
  unfold State.countHold
  constructor <;> (repeat' split) <;> simp [foldl_bytes]

@[simp] theorem State.suspect_bytes (s : State) (n member reason link : Nat) : (State.suspect s n member reason link).mem = s.mem ∧ (State.suspect s n member reason link).power.copies = s.power.copies := by
  simp [State.suspect]

@[simp] theorem State.suspects_bytes (s : State) (reason link : Nat) (f : MemImage → Nat → Bool) : (State.suspects s reason link f).mem = s.mem ∧ (State.suspects s reason link f).power.copies = s.power.copies := by
  unfold State.suspects
  simp [foldl_bytes, apply_ite State.mem, apply_ite State.power, apply_ite PowerState.copies]

@[simp] theorem State.searchOn_bytes (s : State) (k : Nat) (m : SearchMsg) : (State.searchOn s k m).mem = s.mem ∧ (State.searchOn s k m).power.copies = s.power.copies := by
  simp [State.searchOn]

@[simp] theorem State.sendSearch_bytes (s : State) (ks : List Nat) (m : SearchMsg) : (State.sendSearch s ks m).mem = s.mem ∧ (State.sendSearch s ks m).power.copies = s.power.copies := by
  simp [State.sendSearch, foldl_bytes]

@[simp] theorem State.beginSearch_bytes (s : State) (gen restarts : Nat) : (State.beginSearch s gen restarts).mem = s.mem ∧ (State.beginSearch s gen restarts).power.copies = s.power.copies := by
  simp [State.beginSearch]

@[simp] theorem State.linkUp_bytes (s : State) (k : Nat) (lanes : BitVec 5) (peer : Word) (peerLink : Nat) : (State.linkUp s k lanes peer peerLink).mem = s.mem ∧ (State.linkUp s k lanes peer peerLink).power.copies = s.power.copies := by
  exact ⟨rfl, rfl⟩

@[simp] theorem State.flitBody_bytes (s : State) (k : Nat) (f : Flit) : (State.flitBody s k f).mem = s.mem ∧ (State.flitBody s k f).power.copies = s.power.copies := by
  unfold State.flitBody
  simp [apply_ite State.mem, apply_ite State.power, apply_ite PowerState.copies]

@[simp] theorem State.updColl_bytes (s : State) (num : Nat) (f : Coll → Coll) : (State.updColl s num f).mem = s.mem ∧ (State.updColl s num f).power.copies = s.power.copies := by
  exact ⟨rfl, rfl⟩

@[simp] theorem State.sendVals_bytes (s : State) (c : Coll) (peer size fmt : Nat) (blight : Bool) (l : List (Nat × Nat)) : (State.sendVals s c peer size fmt blight l).mem = s.mem ∧ (State.sendVals s c peer size fmt blight l).power.copies = s.power.copies := by
  unfold State.sendVals
  dsimp only
  (repeat' split) <;> simp [foldl_bytes]

@[simp] theorem State.spreadVals_bytes (s : State) (c : Coll) (blight : Bool) (l : List (Nat × Nat)) : (State.spreadVals s c blight l).mem = s.mem ∧ (State.spreadVals s c blight l).power.copies = s.power.copies := by
  simp [State.spreadVals, foldl_bytes]

@[simp] theorem State.putSw_bytes (s : State) (c : Nat) (x : SwState) : (State.putSw s c x).mem = s.mem ∧ (State.putSw s c x).power.copies = s.power.copies := by
  exact ⟨rfl, rfl⟩

@[simp] theorem State.allSw_bytes (s : State) (n : Nat) (x : SwState) : (State.allSw s n x).mem = s.mem ∧ (State.allSw s n x).power.copies = s.power.copies := by
  simp [State.allSw, foldl_bytes]

@[simp] theorem State.settleSw_bytes (s : State) (n : Nat) : (State.settleSw s n).mem = s.mem ∧ (State.settleSw s n).power.copies = s.power.copies := by
  unfold State.settleSw
  split <;> simp

@[simp] theorem State.fnCount_bytes (s : State) (f : FuncRef) (i : Nat) : (State.fnCount s f i).mem = s.mem ∧ (State.fnCount s f i).power.copies = s.power.copies := by
  exact ⟨rfl, rfl⟩

@[simp] theorem State.queueError_bytes (s : State) (q : QRef) (cause : BitVec 8) : (State.queueError s q cause).mem = s.mem ∧ (State.queueError s q cause).power.copies = s.power.copies := by
  simp [State.queueError]

@[simp] theorem State.writeTail_bytes (s : State) (q : QRef) (value : Word) : (State.writeTail s q value).mem = s.mem ∧ (State.writeTail s q value).power.copies = s.power.copies := by
  unfold State.writeTail
  simp [apply_ite State.mem, apply_ite State.power, apply_ite PowerState.copies]

@[simp] theorem State.writeHead_bytes (s : State) (q : QRef) (value : Word) : (State.writeHead s q value).mem = s.mem ∧ (State.writeHead s q value).power.copies = s.power.copies := by
  unfold State.writeHead
  dsimp only
  split <;> simp

@[simp] theorem State.writeQueueCfg_bytes (s : State) (q : QRef) (v : BitVec 32) : (State.writeQueueCfg s q v).mem = s.mem ∧ (State.writeQueueCfg s q v).power.copies = s.power.copies := by
  unfold State.writeQueueCfg
  simp [apply_ite State.mem, apply_ite State.power]

@[simp] theorem State.fail_bytes (s : State) (c : HostCmd) (status detail : Nat) : (State.fail s c status detail).mem = s.mem ∧ (State.fail s c status detail).power.copies = s.power.copies := by
  simp [State.fail]

@[simp] theorem State.done_bytes (s : State) (c : HostCmd) (result : Word) : (State.done s c result).mem = s.mem ∧ (State.done s c result).power.copies = s.power.copies := by
  simp [State.done]

@[simp] theorem State.checkpointReads_bytes (s : State) (n : Nat) : (State.checkpointReads s n).mem = s.mem ∧ (State.checkpointReads s n).power.copies = s.power.copies := by
  refine foldl_bytes _ _ (fun s e => ?_)
  split <;> simp

@[simp] theorem State.updStream_bytes (s : State) (n k : Nat) (f : Stream → Stream) : (State.updStream s n k f).mem = s.mem ∧ (State.updStream s n k f).power.copies = s.power.copies := by
  unfold State.updStream
  split <;> simp

@[simp] theorem State.streamCount_bytes (s : State) (n i : Nat) : (State.streamCount s n i).mem = s.mem ∧ (State.streamCount s n i).power.copies = s.power.copies := by
  exact ⟨rfl, rfl⟩

@[simp] theorem State.sendCredit_bytes (s : State) (n k : Nat) : (State.sendCredit s n k).mem = s.mem ∧ (State.sendCredit s n k).power.copies = s.power.copies := by
  unfold State.sendCredit
  dsimp only
  (repeat' split) <;> simp

@[simp] theorem State.tearStream_bytes (s : State) (n k seq : Nat) : (State.tearStream s n k seq).mem = s.mem ∧ (State.tearStream s n k seq).power.copies = s.power.copies := by
  simp [State.tearStream]

@[simp] theorem State.updUnit_bytes (s : State) (u : UnitRef) (f : UnitBuf → UnitBuf) : (State.updUnit s u f).mem = s.mem ∧ (State.updUnit s u f).power.copies = s.power.copies := by
  exact ⟨rfl, rfl⟩

@[simp] theorem State.discardMsg_bytes (s : State) (u : UnitRef) (m : Msg) (cause : Nat) : (State.discardMsg s u m cause).mem = s.mem ∧ (State.discardMsg s u m cause).power.copies = s.power.copies := by
  simp [State.discardMsg]

@[simp] theorem State.absorb_bytes (s : State) (u : UnitRef) (k : Nat) (n : Option Nat) : (State.absorb s u k n).mem = s.mem ∧ (State.absorb s u k n).power.copies = s.power.copies := by
  unfold State.absorb
  dsimp only
  (repeat' split) <;> simp [foldl_bytes]

@[simp] theorem State.absorbHeld_bytes (s : State) (u : UnitRef) (n : Option Nat) : (State.absorbHeld s u n).mem = s.mem ∧ (State.absorbHeld s u n).power.copies = s.power.copies := by
  unfold State.absorbHeld
  dsimp only
  split <;> simp

@[simp] theorem State.absorbRows_bytes (s : State) (c : Nat) : (State.absorbRows s c).mem = s.mem ∧ (State.absorbRows s c).power.copies = s.power.copies := by
  simp [State.absorbRows]

@[simp] theorem State.needRecovery_bytes (s : State) (n : Nat) (c : Nat) : (State.needRecovery s n c).mem = s.mem ∧ (State.needRecovery s n c).power.copies = s.power.copies := by
  exact ⟨rfl, rfl⟩

@[simp] theorem State.abortChange_bytes (s : State) (n : Nat) : (State.abortChange s n).mem = s.mem ∧ (State.abortChange s n).power.copies = s.power.copies := by
  unfold State.abortChange
  constructor <;> (repeat' split) <;> simp

@[simp] theorem State.endCmds_bytes (s : State) (n : Nat) (silent : Bool) : (State.endCmds s n silent).mem = s.mem ∧ (State.endCmds s n silent).power.copies = s.power.copies := by
  unfold State.endCmds
  dsimp only
  (repeat' split) <;> simp [foldl_bytes]

@[simp] theorem State.closeStreams_bytes (s : State) (n : Nat) : (State.closeStreams s n).mem = s.mem ∧ (State.closeStreams s n).power.copies = s.power.copies := by
  exact ⟨rfl, rfl⟩

@[simp] theorem State.clearCounts_bytes (s : State) (c : Nat) : (State.clearCounts s c).mem = s.mem ∧ (State.clearCounts s c).power.copies = s.power.copies := by
  simp [State.clearCounts, foldl_bytes]

@[simp] theorem State.snapshot_bytes (s : State) (who : Accessor) (b : Block) : (State.snapshot s who b).mem = s.mem ∧ (State.snapshot s who b).power.copies = s.power.copies := by
  exact ⟨rfl, rfl⟩

@[simp] theorem State.clearBlock_bytes (s : State) (b : Block) : (s.clearBlock b).mem = s.mem ∧ (s.clearBlock b).power.copies = s.power.copies := by
  unfold State.clearBlock
  split
  all_goals first
    | exact foldl_bytes _ _ (fun _ _ => by simp)
    | simp [foldl_bytes]

@[simp] theorem State.cntCtrl_bytes (s : State) (who : Accessor) (b : Block) (v : Word) :
    (s.cntCtrl who b v).mem = s.mem ∧ (s.cntCtrl who b v).power.copies = s.power.copies := by
  unfold State.cntCtrl
  dsimp only
  (repeat' split) <;> simp

@[simp] theorem State.writeCnt_bytes (s : State) (who : Accessor) (b : Block) (v : Word) : (State.writeCnt s who b v).mem = s.mem ∧ (State.writeCnt s who b v).power.copies = s.power.copies := by
  unfold State.writeCnt
  simp [apply_ite State.mem, apply_ite State.power, apply_ite PowerState.copies]

@[simp] theorem State.runDeferred_bytes (s : State) : (State.runDeferred s).mem = s.mem ∧ (State.runDeferred s).power.copies = s.power.copies := by
  simp [State.runDeferred, foldl_bytes]

@[simp] theorem State.badAccess_bytes (s : State) (b : Block) (off : Nat) : (State.badAccess s b off).mem = s.mem ∧ (State.badAccess s b off).power.copies = s.power.copies := by
  exact ⟨rfl, rfl⟩

@[simp] theorem State.dieOff_bytes (s : State) (d : Nat) : (State.dieOff s d).mem = s.mem ∧ (State.dieOff s d).power.copies = s.power.copies := by
  exact ⟨rfl, rfl⟩

@[simp] theorem State.fixDomains_bytes (s : State) : (State.fixDomains s).mem = s.mem ∧ (State.fixDomains s).power.copies = s.power.copies := by
  unfold State.fixDomains
  simp [foldl_bytes, apply_ite State.mem, apply_ite State.power, apply_ite PowerState.copies]

@[simp] theorem State.countCorrected_bytes (s : State) (u : UnitRef) (k : Nat) : (State.countCorrected s u k).mem = s.mem ∧ (State.countCorrected s u k).power.copies = s.power.copies := by
  exact ⟨rfl, rfl⟩

@[simp] theorem State.retireDone_bytes (s : State) (kind : RetireKind) (number choice : Nat) : (State.retireDone s kind number choice).mem = s.mem ∧ (State.retireDone s kind number choice).power.copies = s.power.copies := by
  unfold State.retireDone
  split <;> simp

@[simp] theorem State.writeRetire_bytes (s : State) (v : BitVec 32) : (State.writeRetire s v).mem = s.mem ∧ (State.writeRetire s v).power.copies = s.power.copies := by
  unfold State.writeRetire
  simp [apply_ite State.mem, apply_ite State.power]

@[simp] theorem State.restartRows_bytes (s : State) (c : Nat) : (State.restartRows s c).mem = s.mem ∧ (State.restartRows s c).power.copies = s.power.copies := by
  exact ⟨rfl, rfl⟩

@[simp] theorem State.linkDomains_bytes (s : State) : (State.linkDomains s).mem = s.mem ∧ (State.linkDomains s).power.copies = s.power.copies := by
  exact ⟨rfl, rfl⟩

@[simp] theorem State.licenseLinks_bytes (s : State) : (State.licenseLinks s).mem = s.mem ∧ (State.licenseLinks s).power.copies = s.power.copies := by
  simp [State.licenseLinks, foldl_bytes]

@[simp] theorem State.tryLicence_bytes (s : State) : (State.tryLicence s).mem = s.mem ∧ (State.tryLicence s).power.copies = s.power.copies := by
  unfold State.tryLicence
  simp [apply_ite State.mem, apply_ite State.power, apply_ite PowerState.copies]

@[simp] theorem State.writeApply_bytes (s : State) (n : Nat) (v : BitVec 32) : (State.writeApply s n v).mem = s.mem ∧ (State.writeApply s n v).power.copies = s.power.copies := by
  unfold State.writeApply
  dsimp only
  split <;> simp

@[simp] theorem State.applyDone_bytes (s : State) (n : Nat) (code : BitVec 8) : (State.applyDone s n code).mem = s.mem ∧ (State.applyDone s n code).power.copies = s.power.copies := by
  simp [State.applyDone]

@[simp] theorem State.control_bytes (s : State) (n : Nat) (u : Participant) (what : Nat) : (State.control s n u what).mem = s.mem ∧ (State.control s n u what).power.copies = s.power.copies := by
  exact ⟨rfl, rfl⟩

@[simp] theorem State.abortPrepare_bytes (s : State) (n : Nat) (h : Change) : (State.abortPrepare s n h).mem = s.mem ∧ (State.abortPrepare s n h).power.copies = s.power.copies := by
  unfold State.abortPrepare
  dsimp only
  (repeat' split) <;> simp [foldl_bytes]

@[simp] theorem State.zeroSync_bytes (s : State) (c : Nat) : (State.zeroSync s c).mem = s.mem ∧ (State.zeroSync s c).power.copies = s.power.copies := by
  exact ⟨rfl, rfl⟩

@[simp] theorem State.joinCluster_bytes (s : State) (n : Nat) (c : PartCfg) (plan : Bool) (e : BitVec 12) (k : Nat) : (State.joinCluster s n c plan e k).mem = s.mem ∧ (State.joinCluster s n c plan e k).power.copies = s.power.copies := by
  exact ⟨rfl, rfl⟩

@[simp] theorem State.dropCopies_bytes (s : State) (n t : Nat) : (State.dropCopies s n t).mem = s.mem ∧ (State.dropCopies s n t).power.copies = s.power.copies := by
  exact ⟨rfl, rfl⟩

@[simp] theorem State.runMemApply_bytes (s : State) : (State.runMemApply s).mem = s.mem ∧ (State.runMemApply s).power.copies = s.power.copies := by
  simp [State.runMemApply]

@[simp] theorem State.writeMemCtrl_bytes (s : State) (v : BitVec 32) : (State.writeMemCtrl s v).mem = s.mem ∧ (State.writeMemCtrl s v).power.copies = s.power.copies := by
  unfold State.writeMemCtrl
  simp [apply_ite State.mem, apply_ite State.power, apply_ite PowerState.copies]

@[simp] theorem State.noteShed_bytes (s : State) (near : Bool) (i : Nat) (a b : MemSt) : (State.noteShed s near i a b).mem = s.mem ∧ (State.noteShed s near i a b).power.copies = s.power.copies := by
  unfold State.noteShed
  split <;> simp

@[simp] theorem State.fwRecord_bytes (s : State) (cause version : Nat) : (State.fwRecord s cause version).mem = s.mem ∧ (State.fwRecord s cause version).power.copies = s.power.copies := by
  exact ⟨rfl, rfl⟩

@[simp] theorem State.tryHandover_bytes (s : State) : (State.tryHandover s).mem = s.mem ∧ (State.tryHandover s).power.copies = s.power.copies := by
  unfold State.tryHandover
  split <;> simp

@[simp] theorem State.writeFw_bytes (s : State) (v : BitVec 32) : (State.writeFw s v).mem = s.mem ∧ (State.writeFw s v).power.copies = s.power.copies := by
  unfold State.writeFw
  simp [apply_ite State.mem, apply_ite State.power, apply_ite PowerState.copies]

@[simp] theorem State.reapply_bytes (s : State) (c : LossSet) : (State.reapply s c).mem = s.mem ∧ (State.reapply s c).power.copies = s.power.copies := by
  unfold State.reapply
  simp [foldl_bytes, apply_ite State.mem, apply_ite State.power, apply_ite PowerState.copies]

@[simp] theorem State.idleVacant_bytes (s : State) (c : Nat) : (s.idleVacant c).mem = s.mem ∧ (s.idleVacant c).power.copies = s.power.copies := by
  unfold State.idleVacant
  simp only [State.updCluster_bytes, and_self]
  exact foldl_bytes _ _ (fun s p => by simp)

@[simp] theorem State.loseCluster_bytes (s : State) (core : Bool) (c : Nat) (l : List Nat) : (s.loseCluster core c l).mem = s.mem ∧ (s.loseCluster core c l).power.copies = s.power.copies := by
  simp [State.loseCluster]

@[simp] theorem State.useCore_bytes (s : State) (n : Nat) (l : List Nat) : (s.useCore n l).mem = s.mem ∧ (s.useCore n l).power.copies = s.power.copies := by
  simp [State.useCore]

@[simp] theorem State.useCluster_bytes (s : State) (b : Bool) (c : Nat) (l : List Nat) : (s.useCluster b c l).mem = s.mem ∧ (s.useCluster b c l).power.copies = s.power.copies := by
  simp [State.useCluster]

@[simp] theorem State.bringupRetire_bytes (s : State) (kind : RetireKind) (n : Nat) :
    (s.bringupRetire kind n).mem = s.mem ∧ (s.bringupRetire kind n).power.copies = s.power.copies := by
  unfold State.bringupRetire
  dsimp only
  (repeat' split) <;> simp

@[simp] theorem State.setMap_bytes (s : State) (d : Nat) (m : DieMap) : (State.setMap s d m).mem = s.mem ∧ (State.setMap s d m).power.copies = s.power.copies := by
  unfold State.setMap
  refine foldl_bytes _ _ (fun s i => ?_)
  split <;> simp

@[simp] theorem State.keepMap_bytes (s : State) (d : Nat) (old : Die) (m : DieMap) : (State.keepMap s d old m).mem = s.mem ∧ (State.keepMap s d old m).power.copies = s.power.copies := by
  unfold State.keepMap
  refine foldl_bytes _ _ (fun s i => ?_)
  split <;> simp

@[simp] theorem State.trainStacks_bytes (s : State) (r : StageInput) : (State.trainStacks s r).mem = s.mem ∧ (State.trainStacks s r).power.copies = s.power.copies := by
  simp [State.trainStacks, foldl_bytes]

@[simp] theorem State.setKeep_bytes (s : State) (n : Nat) (v : Word) : (State.setKeep s n v).mem = s.mem ∧ (State.setKeep s n v).power.copies = s.power.copies := by
  unfold State.setKeep
  dsimp only
  (repeat' split) <;> simp

@[simp] theorem State.setStage_bytes (s : State) (n : Nat) (v : Word) : (State.setStage s n v).mem = s.mem ∧ (State.setStage s n v).power.copies = s.power.copies := by
  unfold State.setStage
  dsimp only
  split <;> simp

@[simp] theorem State.gatedWrite_bytes (s : State) (n : Nat) (keep : Bool) (v : Word) : (State.gatedWrite s n keep v).mem = s.mem ∧ (State.gatedWrite s n keep v).power.copies = s.power.copies := by
  unfold State.gatedWrite
  simp [apply_ite State.mem, apply_ite State.power, apply_ite PowerState.copies]

@[simp] theorem State.loseInput_bytes (s : State) : (State.loseInput s).mem = s.mem ∧ (State.loseInput s).power.copies = s.power.copies := by
  unfold State.loseInput
  split <;> simp

@[simp] theorem State.updScrub_bytes (s : State) (t : Nat) (f : Scrub → Scrub) : (State.updScrub s t f).mem = s.mem ∧ (State.updScrub s t f).power.copies = s.power.copies := by
  unfold State.updScrub
  simp [apply_ite State.mem, apply_ite State.power]

@[simp] theorem State.offView_bytes (s : State) (b : Block) : (State.offView s b).mem = s.mem ∧ (State.offView s b).power.copies = s.power.copies := by
  unfold State.offView
  split <;> simp

@[simp] theorem State.writeLine_bytes (s : State) (k : Nat) (v : BitVec 32) : (State.writeLine s k v).mem = s.mem ∧ (State.writeLine s k v).power.copies = s.power.copies := by
  exact ⟨rfl, rfl⟩

@[simp] theorem State.writeSync_bytes (s : State) (n : Nat) (v : BitVec 32) : (State.writeSync s n v).mem = s.mem ∧ (State.writeSync s n v).power.copies = s.power.copies := by
  simp [State.writeSync, foldl_bytes]

@[simp] theorem State.writeStrict_bytes (s : State) (n : Nat) (v : BitVec 32) : (State.writeStrict s n v).mem = s.mem ∧ (State.writeStrict s n v).power.copies = s.power.copies := by
  unfold State.writeStrict
  dsimp only
  split <;> simp

@[simp] theorem State.writePwr_bytes (s : State) (off : Nat) (w : Word) : (State.writePwr s off w).mem = s.mem ∧ (State.writePwr s off w).power.copies = s.power.copies := by
  unfold State.writePwr
  simp [apply_ite State.mem, apply_ite State.power, apply_ite PowerState.copies]

@[simp] theorem State.writeId_bytes (s : State) (off width : Nat) (w : Word) : (State.writeId s off width w).mem = s.mem ∧ (State.writeId s off width w).power.copies = s.power.copies := by
  unfold State.writeId
  simp [apply_ite State.mem, apply_ite State.power, apply_ite PowerState.copies]

@[simp] theorem State.writeRsv_bytes (s : State) (near : Bool) (off : Nat) (w : Word) : (State.writeRsv s near off w).mem = s.mem ∧ (State.writeRsv s near off w).power.copies = s.power.copies := by
  unfold State.writeRsv
  simp [apply_ite State.mem, apply_ite State.power]

@[simp] theorem State.writeNp_bytes (s : State) (who : Accessor) (off : Nat) (w : Word) : (State.writeNp s who off w).mem = s.mem ∧ (State.writeNp s who off w).power.copies = s.power.copies := by
  unfold State.writeNp
  dsimp only
  (repeat' split) <;> simp

@[simp] theorem State.writeErrHead_bytes (s : State) (f : FuncRef) (w : Word) : (State.writeErrHead s f w).mem = s.mem ∧ (State.writeErrHead s f w).power.copies = s.power.copies := by
  unfold State.writeErrHead
  simp [apply_ite State.mem, apply_ite State.power, apply_ite PowerState.copies]

@[simp] theorem State.writeVec_bytes (s : State) (f : FuncRef) (i : Nat) (second : Bool) (w : Word) : (State.writeVec s f i second w).mem = s.mem ∧ (State.writeVec s f i second w).power.copies = s.power.copies := by
  simp [State.writeVec]

@[simp] theorem State.writeHq_bytes (s : State) (f : FuncRef) (off : Nat) (w : Word) : (State.writeHq s f off w).mem = s.mem ∧ (State.writeHq s f off w).power.copies = s.power.copies := by
  unfold State.writeHq
  dsimp only
  (repeat' split) <;> simp

@[simp] theorem State.respond_bytes (s : State) (who : Accessor) (v : Word) : (State.respond s who v).mem = s.mem ∧ (State.respond s who v).power.copies = s.power.copies := by
  exact ⟨rfl, rfl⟩

@[simp] theorem State.mctp_bytes (s : State) (l : List Byte) : (State.mctp s l).mem = s.mem ∧ (State.mctp s l).power.copies = s.power.copies := by
  exact ⟨rfl, rfl⟩

@[simp] theorem State.vendor_bytes (s : State) (command tag status : Nat) (data : List Byte) : (State.vendor s command tag status data).mem = s.mem ∧ (State.vendor s command tag status data).power.copies = s.power.copies := by
  exact ⟨rfl, rfl⟩

@[simp] theorem State.updConn_bytes (s : State) (n k : Nat) (f : Conn → Conn) : (State.updConn s n k f).mem = s.mem ∧ (State.updConn s n k f).power.copies = s.power.copies := by
  unfold State.updConn
  split <;> simp

@[simp] theorem State.spdm_bytes (s : State) (v : SpdmVia) (l : List Byte) : (State.spdm s v l).mem = s.mem ∧ (State.spdm s v l).power.copies = s.power.copies := by
  unfold State.spdm
  constructor <;> (repeat' split) <;> simp

@[simp] theorem State.bypass_bytes (s : State) (tdi : List Bool) : (State.bypass s tdi).mem = s.mem ∧ (State.bypass s tdi).power.copies = s.power.copies := by
  exact ⟨rfl, rfl⟩

@[simp] theorem State.awaitRuns_bytes (t s : State) (p : At) (dest : Nat → LoadDest) (runs : List (Word × Nat)) :
    (State.awaitRuns t s p dest runs).mem = t.mem ∧ (State.awaitRuns t s p dest runs).power.copies = t.power.copies := by
  simp [State.awaitRuns, State.servedRuns]

@[simp] theorem State.chooseParent_bytes (s : State) : (State.chooseParent s).mem = s.mem ∧ (State.chooseParent s).power.copies = s.power.copies := by
  exact ⟨rfl, rfl⟩

@[simp] theorem State.fetchView_bytes (s : State) (own tn : Nat) (f : Fetch) : (State.fetchView s own tn f).mem = s.mem ∧ (State.fetchView s own tn f).power.copies = s.power.copies := by
  unfold State.fetchView
  split <;> simp

@[simp] theorem State.keepOld_bytes (s : State) (n : Nat) (hit : Nat → Table → Bool) (follow : Table → Bool) : (State.keepOld s n hit follow).mem = s.mem ∧ (State.keepOld s n hit follow).power.copies = s.power.copies := by
  exact ⟨rfl, rfl⟩

@[simp] theorem State.reportSwept_bytes (s : State) (n c : Nat) (step : Word) (l : List (Word × Nat)) : (State.reportSwept s n c step l).mem = s.mem ∧ (State.reportSwept s n c step l).power.copies = s.power.copies := by
  simp [State.reportSwept, foldl_bytes]

@[simp] theorem State.lostRec_bytes (s : State) (r : JRec) : (State.lostRec s r).mem = s.mem ∧ (State.lostRec s r).power.copies = s.power.copies := by
  simp [State.lostRec]

@[simp] theorem State.reroute_bytes (s : State) (n : Nat) : (State.reroute s n).mem = s.mem ∧ (State.reroute s n).power.copies = s.power.copies := by
  unfold State.reroute
  refine foldl_bytes _ _ (fun s k => ?_)
  split
  · simp
  · simp [foldl_bytes]

@[simp] theorem State.rowErrors_bytes (s : State) (stack row n : Nat) : (State.rowErrors s stack row n).mem = s.mem ∧ (State.rowErrors s stack row n).power.copies = s.power.copies := by
  exact ⟨rfl, rfl⟩

@[simp] theorem State.sendDigest_bytes (s : State) (n : Nat) (w : Sweep) : (State.sendDigest s n w).mem = s.mem ∧ (State.sendDigest s n w).power.copies = s.power.copies := by
  unfold State.sendDigest
  dsimp only
  (repeat' split) <;> simp [foldl_bytes]

@[simp] theorem State.takePlan_bytes (s : State) (n : Nat) (pl : Plan) : (State.takePlan s n pl).mem = s.mem ∧ (State.takePlan s n pl).power.copies = s.power.copies := by
  exact ⟨rfl, rfl⟩

@[simp] theorem State.planTurn_bytes (s : State) (n : Nat) : (State.planTurn s n).mem = s.mem ∧ (State.planTurn s n).power.copies = s.power.copies := by
  unfold State.planTurn
  split <;> simp

@[simp] theorem State.tookTurn_bytes (s : State) (cl : Nat) (q : FetchQueue) : (State.tookTurn s cl q).mem = s.mem ∧ (State.tookTurn s cl q).power.copies = s.power.copies := by
  unfold State.tookTurn
  split <;> simp

@[simp] theorem State.withFetchWord_bytes (s : State) (nbits w : Nat) : (State.withFetchWord s nbits w).mem = s.mem ∧ (State.withFetchWord s nbits w).power.copies = s.power.copies := by
  unfold State.withFetchWord
  split <;> simp

end Sys2Proof.Machine
end

