-- ==== Sys2Proof/Laws/BytesOk.lean ====
section
/-! SUPPORT. Every operation that writes memory, or a copy of the loss set, keeps both in canonical form. -/

namespace Sys2Proof.Machine

/-- Memory and the saved copies are in canonical form. -/
def BytesOk (m : List Host.Cell) (l : List LossSet) : Prop := Memory.wf m = true ∧ ∀ c ∈ l, Memory.wf c.mem = true

theorem State.bytesOk_of {s t : State} (e : t.mem = s.mem ∧ t.power.copies = s.power.copies) (h : s.bytesOk) : t.bytesOk := by
  unfold State.bytesOk State.memOk at *
  rwa [e.1, e.2]

/-- As a predicate of states, so that no projection stands before a conditional whose test holds a large number. -/
theorem ite_bytesOk {c : Prop} [Decidable c] {a b : State} (ha : a.bytesOk) (hb : b.bytesOk) : (if c then a else b).bytesOk := by
  split
  · exact ha
  · exact hb

theorem foldl_bytesOk {α : Type} {f : State → α → State} (l : List α) (s : State) (hf : ∀ s a, s.bytesOk → (f s a).bytesOk) (h : s.bytesOk) :
    (l.foldl f s).bytesOk := by
  induction l generalizing s with
  | nil => exact h
  | cons a l ih => exact ih _ (hf s a h)

theorem ite_ok {c : Prop} [Decidable c] {a b : State} (ha : BytesOk a.mem a.power.copies) (hb : BytesOk b.mem b.power.copies) :
    BytesOk (if c then a else b).mem (if c then a else b).power.copies := by
  split
  · exact ha
  · exact hb

theorem foldl_ok {α : Type} {f : State → α → State} (l : List α) (s : State)
    (hf : ∀ s a, BytesOk s.mem s.power.copies → BytesOk (f s a).mem (f s a).power.copies) (h : BytesOk s.mem s.power.copies) :
    BytesOk (l.foldl f s).mem (l.foldl f s).power.copies := by
  induction l generalizing s with
  | nil => exact h
  | cons a l ih => exact ih _ (hf s a h)

@[simp] theorem State.lose_ok (s : State) (k : Nat) (h : BytesOk s.mem s.power.copies) : BytesOk (s.lose k).mem (s.lose k).power.copies :=
  ⟨s.lose_memOk k h.1, h.2⟩

theorem State.writeKeys_copies (s : State) (ks : List Nat) (data : List Byte) (b : Bool) : (s.writeKeys ks data b).power.copies = s.power.copies := by
  unfold State.writeKeys
  dsimp only
  split <;> rfl

@[simp] theorem State.writeKeys_ok (s : State) (ks : List Nat) (data : List Byte) (b : Bool) (h : BytesOk s.mem s.power.copies) :
    BytesOk (s.writeKeys ks data b).mem (s.writeKeys ks data b).power.copies := by
  rw [State.writeKeys_mem, State.writeKeys_copies]
  exact ⟨Memory.wf_putAll _ _ h.1, h.2⟩

@[simp] theorem State.writeDev_ok (s : State) (n core : Nat) (a : Word) (data : List Byte) (b : Bool) (h : BytesOk s.mem s.power.copies) :
    BytesOk (s.writeDev n core a data b).mem (s.writeDev n core a data b).power.copies := by
  unfold State.writeDev
  dsimp only
  (repeat' split) <;> simp [h]

@[simp] theorem State.writeMarked_ok (s : State) (n core : Nat) (a : Word) (data : List Byte) (b u : Bool) (h : BytesOk s.mem s.power.copies) :
    BytesOk (s.writeMarked n core a data b u).mem (s.writeMarked n core a data b u).power.copies := by
  simp [State.writeMarked, h]

@[simp] theorem State.store_ok (s : State) (p : At) (a : Word) (data : List Byte) (b u : Bool) (h : BytesOk s.mem s.power.copies) :
    BytesOk (State.store s p a data b u).mem (State.store s p a data b u).power.copies := by
  unfold State.store
  split
  · simp [h]
  · cases (s.ctx p).tx <;> simp [h]

@[simp] theorem State.putArea_ok (s : State) (n core : Nat) (a : Word) (l : List Byte) (m : Marks) (h : BytesOk s.mem s.power.copies) :
    BytesOk (s.putArea n core a l m).mem (s.putArea n core a l m).power.copies := by
  simp [State.putArea, h]

@[simp] theorem vqWrite_ok (s : State) (n core : Nat) (d : TDesc) (m : Marks) (vals : List Val) (h : BytesOk s.mem s.power.copies) :
    BytesOk (vqWrite s n core d m vals).mem (vqWrite s n core d m vals).power.copies := by
  unfold vqWrite
  extract_lets outs w s1 s2 e q s3 s4 s5 s6
  have h3 : BytesOk s3.mem s3.power.copies := by
    dsimp only [s3, s2, s1]
    split <;> simp (maxDischargeDepth := 20) [h]
  clear_value s3
  have h4 : BytesOk s4.mem s4.power.copies := by
    dsimp only [s4]
    split
    · exact h3
    · simp [h3]
  clear_value s4
  have h5 : BytesOk s5.mem s5.power.copies := foldl_ok _ _ (fun s a h => foldl_ok _ _ (fun s a h => by
    split
    · simp [h]
    · exact h) h) h4
  clear_value s5
  have h6 : BytesOk s6.mem s6.power.copies := by
    dsimp only [s6]
    split
    · simp [h5]
    · exact h5
  simp [h6]

@[simp] theorem State.putTile_ok (s : State) (n core : Nat) (t : Tile) (f : Nat → Partial) (m : Marks) (h : BytesOk s.mem s.power.copies) :
    BytesOk (s.putTile n core t f m).mem (s.putTile n core t f m).power.copies := by
  unfold State.putTile
  exact foldl_ok _ _ (fun s a h => by simp [h]) h

@[simp] theorem State.overflowAll_ok (s : State) (n core : Nat) (d : TDesc) (h : BytesOk s.mem s.power.copies) : BytesOk (State.overflowAll s n core d).mem (State.overflowAll s n core d).power.copies := by
  unfold State.overflowAll
  exact foldl_ok _ _ (fun s a h => by simp [h]) h

@[simp] theorem startMove_ok (s t : State) (p : At) (src : Option Word) (dst : Word) (len : Nat) (ck : BitVec 2) (ct : BitVec 17) (h : BytesOk t.mem t.power.copies) : BytesOk (startMove s t p src dst len ck ct).mem (startMove s t p src dst len ck ct).power.copies := by
  unfold startMove
  dsimp only
  (repeat' split) <;> simp [h]

@[simp] theorem State.demandBad_ok (s : State) (p : At) (a tag : Word) (h : BytesOk s.mem s.power.copies) :
    BytesOk (s.demandBad p a tag).mem (s.demandBad p a tag).power.copies := by
  unfold State.demandBad
  cases s.keyOf (s.partNum p.core) p.core a with
  | none => exact h
  | some k =>
    dsimp only
    split <;> simp [h]

@[simp] theorem State.writeEntries_ok (s : State) (n : Nat) (l : List JEntry) (h : BytesOk s.mem s.power.copies) : BytesOk (State.writeEntries s n l).mem (State.writeEntries s n l).power.copies := by
  unfold State.writeEntries
  exact foldl_ok _ _ (fun s a h => by simp [h]) h

@[simp] theorem State.writeMirrors_ok (s : State) (n : Nat) (e : JEntry) (h : BytesOk s.mem s.power.copies) :
    BytesOk (State.writeMirrors s n e).mem (State.writeMirrors s n e).power.copies := by
  refine foldl_ok _ _ (fun s num h => ?_) h
  cases (s.part n).objects.find num with
  | none => exact h
  | some o =>
    refine foldl_ok _ _ (fun s m h => ?_) h
    split
    · exact h
    · exact foldl_ok _ _ (fun s x h => by simp [h]) h

@[simp] theorem State.applyTx_ok (s : State) (t : Tx) (l : List JEntry) (h : BytesOk s.mem s.power.copies) :
    BytesOk (s.applyTx t l).mem (s.applyTx t l).power.copies := by
  unfold State.applyTx
  extract_lets s1 ks s2 s3 g s4 t1 s5 cover
  have h3 : BytesOk s3.mem s3.power.copies := foldl_ok _ _ (fun s e h => by simp [h]) (by simp [s2, s1, h])
  clear_value s3
  have h4 : BytesOk t1.mem t1.power.copies := h3
  have h5 : BytesOk s5.mem s5.power.copies := foldl_ok _ _ (fun s e h => by simp [h]) h4
  clear_value s5
  split <;> simp [h5]

@[simp] theorem State.makeDurable_ok (s : State) (t : Tx) (h : BytesOk s.mem s.power.copies) :
    BytesOk (State.makeDurable s t).mem (State.makeDurable s t).power.copies := by
  simp [State.makeDurable, h]

@[simp] theorem State.replayRec_ok (s : State) (r : JRec) (h : BytesOk s.mem s.power.copies) :
    BytesOk (s.replayRec r).mem (s.replayRec r).power.copies := by
  unfold State.replayRec
  extract_lets ks s1 s2
  have h1 : BytesOk s1.mem s1.power.copies := foldl_ok _ _ (fun s e h => by simp [h]) (by simp [h])
  exact foldl_ok _ _ (fun s e h => by simp [h]) (by simp [s2, h1])

@[simp] theorem State.recoverRec_ok (l : List RecRead) (s : State) (r : JRec) (h : BytesOk s.mem s.power.copies) :
    BytesOk (State.recoverRec l s r).mem (State.recoverRec l s r).power.copies := by
  unfold State.recoverRec
  dsimp only
  (repeat' split) <;> simp [h]

@[simp] theorem State.fetchBad_ok (s : State) (j : RowJob) (k : Nat) (a : Word) (h : BytesOk s.mem s.power.copies) :
    BytesOk (State.fetchBad s j k a).mem (State.fetchBad s j k a).power.copies := by
  unfold State.fetchBad
  split <;> simp [h]

@[simp] theorem State.fetchHome_ok (s : State) (j : RowJob) (f : Fetch) (i own r : Nat) (bad : Bool) (h : BytesOk s.mem s.power.copies) :
    BytesOk (State.fetchHome s j f i own r bad).mem (State.fetchHome s j f i own r bad).power.copies := by
  unfold State.fetchHome
  extract_lets t v
  clear_value v
  cases v.rowAt own t r with
  | none => dsimp only; split <;> simp [h]
  | some x =>
    obtain ⟨w, num, o⟩ := x
    dsimp only
    have h1 : ∀ u : State, BytesOk u.mem u.power.copies → BytesOk (if bad then u.fetchBad j ((rowKeys (v.part w) num o r).headD 0)
        (rowAddr num o ((v.part w).tables.get {} o.table) r) else u).mem (if bad then u.fetchBad j ((rowKeys (v.part w) num o r).headD 0)
        (rowAddr num o ((v.part w).tables.get {} o.table) r) else u).power.copies := by
      intro u hu
      cases bad <;> simp [hu]
    have h2 := h1 (if (keyChannel ((rowKeys (v.part w) num o r).headD 0)).1 = 0 then s else (s.countPressure (keyChannel ((rowKeys (v.part w) num o r).headD 0)) own t).countTable own t
      (if (keyChannel ((rowKeys (v.part w) num o r).headD 0)).1 = 1 then 3 else 4) 1) (by split <;> simp [h])
    (repeat' split) <;> simp_all

@[simp] theorem State.writeOutputs_ok (s : State) (j : RowJob) (t : Table) (rows : List OutRow) (h : BytesOk s.mem s.power.copies) :
    BytesOk (State.writeOutputs s j t rows).mem (State.writeOutputs s j t rows).power.copies := by
  unfold State.writeOutputs
  extract_lets g rb s1
  have h1 : BytesOk s1.mem s1.power.copies := foldl_ok _ _ (fun s i h => by cases rows[i]? <;> simp [h]) h
  clear_value s1
  split
  · exact foldl_ok _ _ (fun s i h => by cases rows[i]? <;> simp [h]) h1
  · exact h1

@[simp] theorem State.reportRows_ok (s : State) (own : Nat) (j : RowJob) (h : BytesOk s.mem s.power.copies) :
    BytesOk (s.reportRows own j).mem (s.reportRows own j).power.copies := by
  unfold State.reportRows
  exact foldl_ok _ _ (fun s x h => by dsimp only; split <;> simp [h]) h

@[simp] theorem State.finishJob_ok (s : State) (j : RowJob) (b u : Bool) (marks : List Byte) (h : BytesOk s.mem s.power.copies) :
    BytesOk (State.finishJob s j b u marks).mem (State.finishJob s j b u marks).power.copies := by
  unfold State.finishJob
  extract_lets t1 s1 s2 s3
  have h3 : BytesOk s3.mem s3.power.copies := by simp [s3, s2, s1, h]
  clear_value s3
  have h4 := foldl_ok (f := fun s i => s.unstall (coreCluster j.p.core * 15 + i)) (List.range 15) s3 (fun s i h => by simp [h]) h3
  simp [h4]

@[simp] theorem State.putRowAcc_ok (s : State) (n : Nat) (a : Word) (x : RowAcc) (h : BytesOk s.mem s.power.copies) : BytesOk (State.putRowAcc s n a x).mem (State.putRowAcc s n a x).power.copies := by
  unfold State.putRowAcc
  simp [h]

@[simp] theorem State.overflowSlots_ok (s : State) (n : Nat) (x : RowAcc) (t : Table) (h : BytesOk s.mem s.power.copies) :
    BytesOk (State.overflowSlots s n x t).mem (State.overflowSlots s n x t).power.copies := by
  refine foldl_ok _ _ (fun s d h => ?_) h
  exact foldl_ok _ _ (fun s i h => by dsimp only; split <;> simp [h]) h

@[simp] theorem State.contribute_ok (s : State) (j : RowJob) (t : Table) (e : PlanEntry) (o : Obj) (r i : Nat) (h : BytesOk s.mem s.power.copies) :
    BytesOk (State.contribute s j t e o r i).mem (State.contribute s j t e o r i).power.copies := by
  unfold State.contribute
  extract_lets n x d
  cases s.findSlot n x t j.cmd.table d r with
  | none => simp [h]
  | some y =>
    dsimp only
    split <;> simp (maxDischargeDepth := 20) [h]

@[simp] theorem State.putServe_ok (s : State) (n : Nat) (a : Word) (l : List Byte) (h : BytesOk s.mem s.power.copies) : BytesOk (State.putServe s n a l).mem (State.putServe s n a l).power.copies := by
  unfold State.putServe
  simp [h]

@[simp] theorem State.place_ok (s : State) (n : Nat) (bytes route : List Byte) (port arrived deadline : Nat) (h : BytesOk s.mem s.power.copies) :
    BytesOk (State.place s n bytes route port arrived deadline).mem (State.place s n bytes route port arrived deadline).power.copies := by
  unfold State.place
  extract_lets v i S id slot P base list s1 s2 s3
  have h1 : BytesOk s1.mem s1.power.copies := by
    dsimp only [s1]
    exact State.putServe_ok s n _ bytes h
  clear_value s1 list base P
  have h2 : BytesOk s2.mem s2.power.copies := by
    dsimp only [s2]
    exact State.putServe_ok s1 n _ _ h1
  clear_value s2
  have h3 : BytesOk s3.mem s3.power.copies := by
    dsimp only [s3]
    exact State.putServe_ok s2 n _ _ h2
  clear_value s3
  simpa only [State.addPair_bytes, State.serveCount_bytes, State.updServe_bytes] using h3

@[simp] theorem State.freeSlot_ok (s : State) (n i : Nat) (h : BytesOk s.mem s.power.copies) : BytesOk (State.freeSlot s n i).mem (State.freeSlot s n i).power.copies := by
  unfold State.freeSlot
  simp [h]

@[simp] theorem State.sendReply_ok (s : State) (n : Nat) (x : Slot) (h : BytesOk s.mem s.power.copies) : BytesOk (State.sendReply s n x).mem (State.sendReply s n x).power.copies := by
  unfold State.sendReply
  dsimp only
  (repeat' split) <;> simp [h]

@[simp] theorem State.placeQueued_ok (s : State) (n k : Nat) (h : BytesOk s.mem s.power.copies) :
    BytesOk (s.placeQueued n k).mem (s.placeQueued n k).power.copies := by
  induction k generalizing s with
  | zero => exact h
  | succ k ih =>
    unfold State.placeQueued
    split
    · exact h
    · split
      · exact ih _ (State.place_ok _ _ _ _ _ _ _ (by simpa only [State.updServe_bytes] using h))
      · exact h

@[simp] theorem State.serveReplies_ok (s : State) (n : Nat) (h : BytesOk s.mem s.power.copies) :
    BytesOk (s.serveReplies n).mem (s.serveReplies n).power.copies := by
  have h1 := foldl_ok (f := fun s x => if State.slotState s n x.index = 2 then s.sendReply n x else s) (s.serve n).slots s
    (fun s x h => by
      split
      · simp [h]
      · exact h) h
  simp [State.serveReplies, h1]

@[simp] theorem State.serveHook_ok (s : State) (id : Nat) (c : Bool) (h : BytesOk s.mem s.power.copies) :
    BytesOk (State.serveHook s id c).mem (State.serveHook s id c).power.copies := by
  exact foldl_ok _ _ (fun s n h => by dsimp only; (repeat' split) <;> simp [h]) h

@[simp] theorem State.endHold_ok (s : State) (n : Nat) (h : BytesOk s.mem s.power.copies) :
    BytesOk (State.endHold s n).mem (State.endHold s n).power.copies := by
  exact foldl_ok _ _ (fun s n h => by
    split
    · simp [h]
    · exact h) h

@[simp] theorem State.serveReset_ok (s : State) (n : Nat) (h : BytesOk s.mem s.power.copies) :
    BytesOk (State.serveReset s n).mem (State.serveReset s n).power.copies := by
  unfold State.serveReset
  extract_lets v s1 s2
  have h1 : BytesOk s1.mem s1.power.copies := foldl_ok _ _ (fun s x h => by split <;> simp (maxDischargeDepth := 20) [h]) h
  have h2 : BytesOk s2.mem s2.power.copies := foldl_ok _ _ (fun s x h => by simp [h]) h1
  simp [h2]

@[simp] theorem State.endSearch_ok (s : State) (status detail : BitVec 16) (publish : Bool) (h : BytesOk s.mem s.power.copies) : BytesOk (State.endSearch s status detail publish).mem (State.endSearch s status detail publish).power.copies := by
  unfold State.endSearch
  dsimp only
  (repeat' split) <;> simp [h]

@[simp] theorem State.searchReady_ok (s : State) (h : BytesOk s.mem s.power.copies) : BytesOk (State.searchReady s).mem (State.searchReady s).power.copies := by
  unfold State.searchReady
  dsimp only
  (repeat' split) <;> (repeat first | (refine foldl_ok _ _ (fun s a h => ?_) ?_; dsimp only) | split) <;> simp [h]

@[simp] theorem State.restartSearch_ok (s : State) (h : BytesOk s.mem s.power.copies) : BytesOk (State.restartSearch s).mem (State.restartSearch s).power.copies := by
  unfold State.restartSearch
  dsimp only
  (repeat' split) <;> simp [h]

@[simp] theorem State.searchDisturbed_ok (s : State) (h : BytesOk s.mem s.power.copies) : BytesOk (State.searchDisturbed s).mem (State.searchDisturbed s).power.copies := by
  unfold State.searchDisturbed
  dsimp only
  (repeat' split) <;> (repeat first | (refine foldl_ok _ _ (fun s a h => ?_) ?_; dsimp only) | split) <;> simp [h]

@[simp] theorem State.goDown_ok (s : State) (k : Nat) (h : BytesOk s.mem s.power.copies) :
    BytesOk (s.goDown k).mem (s.goDown k).power.copies := by
  unfold State.goDown
  dsimp only
  split <;> simp [h]

@[simp] theorem State.replayFrom_ok (s : State) (k : Nat) (seq : BitVec 12) (h : BytesOk s.mem s.power.copies) :
    BytesOk (State.replayFrom s k seq).mem (State.replayFrom s k seq).power.copies := by
  unfold State.replayFrom
  extract_lets fs times s1
  have h1 : BytesOk s1.mem s1.power.copies := h
  clear_value s1
  split
  · exact State.goDown_ok _ _ h1
  · exact foldl_ok _ _ (fun s x h => by simp [h]) h1

@[simp] theorem State.endColl_ok (s : State) (c : Coll) (status : BitVec 8) (stalled : BitVec 32) (h : BytesOk s.mem s.power.copies) : BytesOk (State.endColl s c status stalled).mem (State.endColl s c status stalled).power.copies := by
  unfold State.endColl
  simp [h]

@[simp] theorem State.endColls_ok (s : State) (n : Nat) (status : BitVec 8) (h : BytesOk s.mem s.power.copies) : BytesOk (State.endColls s n status).mem (State.endColls s n status).power.copies := by
  unfold State.endColls
  exact foldl_ok _ _ (fun s a h => by simp [h]) h

@[simp] theorem State.abortColl_ok (s : State) (n : Nat) (f : Flit) (h : BytesOk s.mem s.power.copies) :
    BytesOk (s.abortColl n f).mem (s.abortColl n f).power.copies := by
  unfold State.abortColl
  split <;> simp [h]

@[simp] theorem State.sendAbort_ok (s : State) (c : Coll) (x i : Nat) (h : BytesOk s.mem s.power.copies) :
    BytesOk (s.sendAbort c x i).mem (s.sendAbort c x i).power.copies := by
  unfold State.sendAbort
  dsimp only
  split <;> simp [h]

@[simp] theorem State.sendAborts_ok (s : State) (c : Coll) (x : Nat) (h : BytesOk s.mem s.power.copies) :
    BytesOk (s.sendAborts c x).mem (s.sendAborts c x).power.copies := by
  unfold State.sendAborts
  dsimp only
  split
  · exact h
  · exact foldl_ok _ _ (fun s i h => by simp [h]) h

@[simp] theorem State.jobFlit_ok (s : State) (k n : Nat) (f : Flit) (h : BytesOk s.mem s.power.copies) :
    BytesOk (s.jobFlit k n f).mem (s.jobFlit k n f).power.copies := by
  unfold State.jobFlit
  dsimp only
  (repeat' split) <;> simp [h]

@[simp] theorem State.putOut_ok (s : State) (c : Coll) (i v : Nat) (blight : Bool) (h : BytesOk s.mem s.power.copies) : BytesOk (State.putOut s c i v blight).mem (State.putOut s c i v blight).power.copies := by
  unfold State.putOut
  dsimp only
  (repeat' split) <;> simp [h]

@[simp] theorem State.finish_ok (s : State) (c : Coll) (e v : Nat) (blight : Bool) (h : BytesOk s.mem s.power.copies) : BytesOk (State.finish s c e v blight).mem (State.finish s c e v blight).power.copies := by
  unfold State.finish
  dsimp only
  (repeat' split) <;> (repeat first | (refine foldl_ok _ _ (fun s a h => ?_) ?_; dsimp only) | split) <;> simp [h]

@[simp] theorem State.summed_ok (s : State) (c : Coll) (e : Nat) (p : Partial) (b : Bool) (h : BytesOk s.mem s.power.copies) :
    BytesOk (State.summed s c e p b).mem (State.summed s c e p b).power.copies := by
  unfold State.summed
  split <;> simp [h]

@[simp] theorem State.startReduce_ok (s : State) (c : Coll) (h : BytesOk s.mem s.power.copies) :
    BytesOk (State.startReduce s c).mem (State.startReduce s c).power.copies := by
  unfold State.startReduce
  extract_lets M i firsts b outs nexts s1
  have h1 : BytesOk s1.mem s1.power.copies := foldl_ok _ _ (fun s d h => by simp [h]) h
  exact foldl_ok _ _ (fun s d h => by simp [h]) h1

@[simp] theorem State.startGather_ok (s : State) (c : Coll) (h : BytesOk s.mem s.power.copies) :
    BytesOk (State.startGather s c).mem (State.startGather s c).power.copies := by
  unfold State.startGather
  split
  · extract_lets i vs b s1
    have h1 : BytesOk s1.mem s1.power.copies := foldl_ok _ _ (fun s d h => by simp [h]) h
    simp [h1]
  · simp [h]

@[simp] theorem State.startDirect_ok (s : State) (c : Coll) (h : BytesOk s.mem s.power.copies) :
    BytesOk (State.startDirect s c).mem (State.startDirect s c).power.copies := by
  unfold State.startDirect
  extract_lets grp me sz cs
  refine foldl_ok _ _ (fun s j h => ?_) h
  dsimp only
  split
  · exact foldl_ok _ _ (fun s d h => by simp [h]) h
  · simp [h]

@[simp] theorem State.addCarried_ok (s : State) (num : Nat) (a : Bool) (e v : Nat) (b : Bool) (h : BytesOk s.mem s.power.copies) :
    BytesOk (State.addCarried s num a e v b).mem (State.addCarried s num a e v b).power.copies := by
  unfold State.addCarried
  split
  · exact h
  · extract_lets p j s1
    have h1 : BytesOk s1.mem s1.power.copies := h
    clear_value s1
    split
    · exact h1
    · exact State.summed_ok _ _ _ _ _ h1

@[simp] theorem State.putImage_ok (s : State) (n : Nat) (img : MemImage) (h : BytesOk s.mem s.power.copies) :
    BytesOk (State.putImage s n img).mem (State.putImage s n img).power.copies := by
  unfold State.putImage
  extract_lets old s1 s2 s3 s4 s5
  have h1 : BytesOk s1.mem s1.power.copies := by
    dsimp only [s1]
    split <;> simp [h]
  have h3 : BytesOk s3.mem s3.power.copies := foldl_ok _ _ (fun s d h => by simp [h]) (by simp [s2, h1])
  have h4 : BytesOk s4.mem s4.power.copies := foldl_ok _ _ (fun s d h => by split <;> simp [h]) h3
  clear_value s4 old
  cases old.pendCmd <;> simp [s5, h4]

@[simp] theorem State.atBoundary_ok (s : State) (n : Nat) (st : BitVec 16) (h : BytesOk s.mem s.power.copies) :
    BytesOk (State.atBoundary s n st).mem (State.atBoundary s n st).power.copies := by
  unfold State.atBoundary
  extract_lets s1 s2
  have h1 : BytesOk s1.mem s1.power.copies := h
  clear_value s1
  have h2 : BytesOk s2.mem s2.power.copies := by
    dsimp only [s2]
    cases (s1.member n).pending <;> simp [h1]
  simp [h2]

@[simp] theorem State.skipFull_ok (s : State) (n : Nat) (e : PlanEntry) (tag : Word) (h : BytesOk s.mem s.power.copies) :
    BytesOk (State.skipFull s n e tag).mem (State.skipFull s n e tag).power.copies := by
  unfold State.skipFull
  extract_lets t x c s1 s2
  have h1 : BytesOk s1.mem s1.power.copies := by simp [s1, h]
  clear_value s1
  have h2 : BytesOk s2.mem s2.power.copies := foldl_ok _ _ (fun s d h => foldl_ok _ _ (fun s d h => by simp [h]) h) h1
  clear_value s2
  (repeat' split) <;> simp [h, h1, h2]

@[simp] theorem State.emptyAccs_ok (s : State) (n : Nat) (h : BytesOk s.mem s.power.copies) :
    BytesOk (State.emptyAccs s n).mem (State.emptyAccs s n).power.copies := by
  unfold State.emptyAccs
  split
  · exact foldl_ok _ _ (fun s d h => by split <;> simp [h]) h
  · exact h

@[simp] theorem State.writeStats_ok (s : State) (n : Nat) (w : Sweep) (h : BytesOk s.mem s.power.copies) :
    BytesOk (s.writeStats n w).mem (s.writeStats n w).power.copies := by
  unfold State.writeStats
  split
  · refine foldl_ok _ _ (fun s i h => foldl_ok _ _ (fun s k h => ?_) h) h
    split <;> simp [h]
  · exact h

@[simp] theorem State.endSweep_ok (s : State) (n : Nat) (w : Sweep) (h : BytesOk s.mem s.power.copies) :
    BytesOk (s.endSweep n w).mem (s.endSweep n w).power.copies := by
  unfold State.endSweep
  extract_lets q s1 s2 s3
  have h3 : BytesOk s3.mem s3.power.copies := by
    clear_value q
    dsimp only [s3, s2, s1]
    cases q.plan <;> simp [h]
  clear_value s3
  simp [h3]

@[simp] theorem State.captureDone_bytes (s : State) (n : Nat) (r : Replay) (f : Bool) :
    (s.captureDone n r f).mem = s.mem ∧ (s.captureDone n r f).power.copies = s.power.copies := by
  unfold State.captureDone
  cases r.cmd <;> cases f <;> simp

@[simp] theorem State.writeCapture_ok (s : State) (n : Nat) (w : Sweep) (r : Replay) (h : BytesOk s.mem s.power.copies) :
    BytesOk (State.writeCapture s n w r).mem (State.writeCapture s n w r).power.copies := by
  have k : (State.writeCapture s n w r).bytesOk := by
    unfold State.writeCapture
    extract_lets v dig l
    clear_value l
    cases (s.part n).objects.find r.object with
    | none => exact h
    | some o => exact State.bytesOk_of (State.captureDone_bytes ..) (State.writeDev_ok s n 0 _ _ false h)
  exact k

theorem runCmd_ok (s : State) (c : HostCmd) (k : State → Nat → HostCmd → State) (h : BytesOk s.mem s.power.copies)
    (hk : ∀ n, BytesOk (k s n c).mem (k s n c).power.copies) : BytesOk (runCmd s c k).mem (runCmd s c k).power.copies := by
  unfold runCmd
  split
  · exact hk _
  · simp [h]

@[simp] theorem State.clearAccs_ok (s : State) (n : Nat) (f : Nat → Bool) (h : BytesOk s.mem s.power.copies) :
    BytesOk (State.clearAccs s n f).mem (State.clearAccs s n f).power.copies := by
  unfold State.clearAccs
  split
  · exact h
  · refine foldl_ok _ _ (fun s d h => ?_) h
    dsimp only
    split
    · exact h
    · split
      · refine State.writeDev_ok _ _ _ _ _ _ ?_
        exact foldl_ok _ _ (fun s d h => by simp [h]) h
      · refine State.putRowAcc_ok _ _ _ _ ?_
        exact foldl_ok _ _ (fun s d h => foldl_ok _ _ (fun s d h => by simp [h]) h) h

@[simp] theorem State.putRing_ok (s : State) (n : Nat) (x : Stream) (pos : Nat) (l : List Byte) (h : BytesOk s.mem s.power.copies) : BytesOk (State.putRing s n x pos l).mem (State.putRing s n x pos l).power.copies := by
  unfold State.putRing
  simp [h]

@[simp] theorem State.publish_ok (s : State) (n k : Nat) (x : Stream) (r : PartialRec) (h : BytesOk s.mem s.power.copies) :
    BytesOk (State.publish s n k x r).mem (State.publish s n k x r).power.copies := by
  unfold State.publish
  extract_lets s1 s2
  have h1 : BytesOk s1.mem s1.power.copies := by
    dsimp only [s1]
    split
    · exact h
    · exact State.putRing_ok _ _ _ _ _ h
  clear_value s1
  have h2 : BytesOk s2.mem s2.power.copies := by
    dsimp only [s2]
    simpa only [State.flushMerges_bytes] using State.putRing_ok _ _ _ _ _ h1
  clear_value s2
  simpa only [State.sendSync_bytes, State.streamCount_bytes] using h2

@[simp] theorem State.publishAll_ok (s : State) (n k : Nat) (h : BytesOk s.mem s.power.copies) :
    BytesOk (State.publishAll s n k).mem (State.publishAll s n k).power.copies := by
  unfold State.publishAll
  split
  · exact h
  · split
    · exact foldl_ok _ _ (fun s d h => by simp [h]) (by simp [h])
    · exact h

@[simp] theorem State.streamHook_ok (s : State) (id : Nat) (h : BytesOk s.mem s.power.copies) :
    BytesOk (State.streamHook s id).mem (State.streamHook s id).power.copies := by
  have k : (State.streamHook s id).bytesOk := by
    rw [State.streamHook]
    exact foldl_bytesOk _ _ (fun s d h => ite_bytesOk (State.bytesOk_of (State.sendCredit_bytes ..) h) h) h
  exact k

@[simp] theorem State.takeFrag_ok (s : State) (n k : Nat) (x : Stream) (r : PartialRec) (f : Frag) (data : List Byte) (h : BytesOk s.mem s.power.copies) :
    BytesOk (State.takeFrag s n k x r f data).mem (State.takeFrag s n k x r f data).power.copies := by
  unfold State.takeFrag
  dsimp only
  split <;> simp [h]

@[simp] theorem State.applySync_ok (s : State) (op : SyncOp) (h : BytesOk s.mem s.power.copies) :
    BytesOk (State.applySync s op).mem (State.applySync s op).power.copies := by
  unfold State.applySync
  cases op.act <;> cases op.src <;> dsimp only <;> (repeat' split) <;> simp [h]

@[simp] theorem State.processMsg_ok (s : State) (u : UnitRef) (m : Msg) (e : BitVec 12) (h : BytesOk s.mem s.power.copies) : BytesOk (State.processMsg s u m e).mem (State.processMsg s u m e).power.copies := by
  unfold State.processMsg
  dsimp only
  (repeat' split) <;> simp [h]

@[simp] theorem State.judgeMsg_ok (s : State) (u : UnitRef) (m : Msg) (h : BytesOk s.mem s.power.copies) : BytesOk (State.judgeMsg s u m).mem (State.judgeMsg s u m).power.copies := by
  unfold State.judgeMsg
  dsimp only
  (repeat' split) <;> (repeat first | (refine foldl_ok _ _ (fun s a h => ?_) ?_; dsimp only) | split) <;> simp [h]

@[simp] theorem State.releaseHeld_ok (s : State) (h : BytesOk s.mem s.power.copies) :
    BytesOk (State.releaseHeld s).mem (State.releaseHeld s).power.copies := by
  refine foldl_ok _ _ (fun s d h => ?_) h
  split
  · exact h
  · exact foldl_ok _ _ (fun s d h => by split <;> simp [h]) (by simp [h])

@[simp] theorem State.drainCtx_ok (s : State) (p : At) (h : BytesOk s.mem s.power.copies) : BytesOk (State.drainCtx s p).mem (State.drainCtx s p).power.copies := by
  unfold State.drainCtx
  exact foldl_ok _ _ (fun s a h => by dsimp only; (repeat' split) <;> simp [h]) h

@[simp] theorem State.resetCtx_ok (s : State) (p : At) (h : BytesOk s.mem s.power.copies) :
    BytesOk (s.resetCtx p).mem (s.resetCtx p).power.copies := by
  unfold State.resetCtx
  extract_lets s1 s2 s3 c reads t1 s5 s6
  have h2 : BytesOk s2.mem s2.power.copies := by
    have := foldl_ok (f := State.sendSync) (s1.ctx p).owed s1 (fun s d h => by simp [h]) (by simp [s1, h])
    simp [s2, this]
  clear_value s2
  simp [s6, s5, s3, h2]

@[simp] theorem State.resetCore_ok (s : State) (k : Nat) (h : BytesOk s.mem s.power.copies) :
    BytesOk (State.resetCore s k).mem (State.resetCore s k).power.copies := by
  have h1 := foldl_ok (f := fun s i => if ((s.core k).ctxs.find i).isSome then s.resetCtx ⟨k, i⟩ else s) (List.range 8) s
    (fun s d h => by
      split
      · simp [h]
      · exact h) h
  simp [State.resetCore, h1]

@[simp] theorem State.resetCluster_ok (s : State) (c : Nat) (h : BytesOk s.mem s.power.copies) :
    BytesOk (State.resetCluster s c).mem (State.resetCluster s c).power.copies := by
  unfold State.resetCluster
  dsimp only
  refine foldl_ok _ _ (fun s d h => by simp [h]) ?_
  have h1 := foldl_ok (f := fun s i => State.resetCore s (15 * c + i)) (List.range 15) s (fun s d h => by simp [h]) h
  simp [h1]

@[simp] theorem State.resetSync_ok (s : State) (n : Nat) (h : BytesOk s.mem s.power.copies) :
    BytesOk (State.resetSync s n).mem (State.resetSync s n).power.copies := by
  unfold State.resetSync
  dsimp only
  exact foldl_ok _ _ (fun s d h => by simp [h]) h

@[simp] theorem State.resetColls_ok (s : State) (n : Nat) (h : BytesOk s.mem s.power.copies) : BytesOk (State.resetColls s n).mem (State.resetColls s n).power.copies := by
  unfold State.resetColls
  exact foldl_ok _ _ (fun s a h => by simp [h]) h

@[simp] theorem State.resetPart_ok (s : State) (n : Nat) (silent : Bool) (h : BytesOk s.mem s.power.copies) :
    BytesOk (s.resetPart n silent).mem (s.resetPart n silent).power.copies := by
  unfold State.resetPart
  extract_lets q s1 s2 s3 s4 s5 s6 s7
  have h2 : BytesOk s2.mem s2.power.copies := by
    dsimp only [s2, s1]
    split <;> simp [h]
  clear_value s2
  have h3 : BytesOk s3.mem s3.power.copies := foldl_ok _ _ (fun s d h => by simp [h]) h2
  clear_value s3
  have h7 : BytesOk s7.mem s7.power.copies := foldl_ok _ _ (fun s d h => by simp [h]) (by simp [s6, s5, s4, h3])
  exact foldl_ok _ _ (fun s d h => by simp [h]) h7

theorem State.resetParts_ok (s : State) (h : s.bytesOk) : s.resetParts.bytesOk :=
  foldl_bytesOk _ s (fun s n h => State.resetPart_ok s n false h) h

theorem State.sendResetNotes_ok (s : State) (h : s.bytesOk) : s.sendResetNotes.bytesOk := by
  unfold State.sendResetNotes
  exact foldl_bytesOk _ s (fun s d h => State.bytesOk_of (State.sendFlit_bytes s d _) h) h

theorem State.clearAllCounts_ok (s : State) (h : s.bytesOk) : s.clearAllCounts.bytesOk :=
  foldl_bytesOk _ s (fun s d h => State.bytesOk_of (State.clearCounts_bytes s d) h) h

theorem State.clearRowLinks_ok (s : State) (h : s.bytesOk) : s.clearRowLinks.bytesOk := State.bytesOk_of ⟨rfl, rfl⟩ h

@[simp] theorem State.leaveCluster_ok (s : State) (k : Nat) (work : Bool) (h : BytesOk s.mem s.power.copies) :
    BytesOk (State.leaveCluster s k work).mem (State.leaveCluster s k work).power.copies := by
  unfold State.leaveCluster
  dsimp only
  split <;> simp [h]

@[simp] theorem State.applyAt_ok (s : State) (n : Nat) (x : Change) (u : Participant) (h : BytesOk s.mem s.power.copies) :
    BytesOk (s.applyAt n x u).mem (s.applyAt n x u).power.copies := by
  unfold State.applyAt
  split
  · simp [h]
  · exact foldl_ok _ _ (fun s c h => by simp [h]) h
  · split <;> simp [h]

@[simp] theorem State.participantApplies_ok (s : State) (n : Nat) (u : Participant) (h : BytesOk s.mem s.power.copies) :
    BytesOk (s.participantApplies n u).mem (s.participantApplies n u).power.copies := by
  unfold State.participantApplies
  split <;> simp [h]

@[simp] theorem State.resetParticipant_ok (s : State) (u : Participant) (h : BytesOk s.mem s.power.copies) :
    BytesOk (s.resetParticipant u).mem (s.resetParticipant u).power.copies := by
  unfold State.resetParticipant
  refine foldl_ok _ _ (fun s n h => ?_) h
  (repeat' split) <;> simp [h]

theorem State.resetCompute_ok (s : State) (h : s.bytesOk) : s.resetCompute.bytesOk := by
  unfold State.resetCompute
  exact foldl_bytesOk _ _ (fun s u h => State.resetParticipant_ok s u h)
    (State.clearRowLinks_ok _ (State.clearAllCounts_ok _ (State.resetParts_ok _ (State.sendResetNotes_ok _ h))))

theorem State.needRecoveries_ok (s : State) (o : Option Nat) (c : Nat) (h : s.bytesOk) :
    (match o with | some n => s.needRecovery n c | none => s).bytesOk := by
  cases o
  · exact h
  · exact State.bytesOk_of (State.needRecovery_bytes ..) h

@[simp] theorem State.runReset_ok (s : State) (level target : Nat) (h : BytesOk s.mem s.power.copies) :
    BytesOk (State.runReset s level target).mem (State.runReset s level target).power.copies := by
  have k : (State.runReset s level target).bytesOk := by
    unfold State.runReset
    split
    · exact State.needRecoveries_ok _ _ _ (State.resetCore_ok s target h)
    · exact State.needRecoveries_ok _ _ _ (State.resetParticipant_ok (s.resetCluster target) (.cluster target) (State.resetCluster_ok s target h))
    · exact State.resetPart_ok _ _ _ h
    · exact State.resetCompute_ok _ h
  exact k

@[simp] theorem State.askReset_ok (s : State) (level target : Nat) (h : BytesOk s.mem s.power.copies) :
    BytesOk (State.askReset s level target).mem (State.askReset s level target).power.copies := by
  unfold State.askReset
  dsimp only
  (repeat' split) <;> simp [h]

@[simp] theorem State.waitedReset_ok (s : State) (h : BytesOk s.mem s.power.copies) :
    BytesOk (State.waitedReset s).mem (State.waitedReset s).power.copies := by
  unfold State.waitedReset
  dsimp only
  split <;> simp [h]

@[simp] theorem State.flr_ok (s : State) (f : FuncRef) (h : BytesOk s.mem s.power.copies) :
    BytesOk (State.flr s f).mem (State.flr s f).power.copies := by
  unfold State.flr
  extract_lets fs out lates parts s1
  have h1 : BytesOk s1.mem s1.power.copies := foldl_ok _ _ (fun s d h => by simp [h]) h
  exact foldl_ok _ _ (fun s d h => by simp [h]) h1

@[simp] theorem State.hostDown_ok (s : State) (port : Nat) (h : BytesOk s.mem s.power.copies) :
    BytesOk (State.hostDown s port).mem (State.hostDown s port).power.copies := by
  simp [State.hostDown, h]

@[simp] theorem State.vacate_bytes (s : State) (core : Bool) (c : Nat) : (s.vacate core c).mem = s.mem ∧ (s.vacate core c).power.copies = s.power.copies := by
  unfold State.vacate
  extract_lets part s1 s2
  have h1 : s1.mem = s.mem ∧ s1.power.copies = s.power.copies := by
    dsimp only [s1]
    refine foldl_bytes _ _ (fun s p => ?_)
    split
    · simp only [State.updCtx_bytes, and_self]
    · simp only [State.faultCtx_bytes, State.forgetWait_bytes, and_self]
  clear_value s1
  have h2 : s2.mem = s.mem ∧ s2.power.copies = s.power.copies := by
    simpa only [s2, State.loseCluster_bytes, State.absorbRows_bytes, State.updCluster_bytes] using h1
  clear_value s2 part
  cases part
  · exact h2
  · simpa only [State.needRecovery_bytes] using h2

@[simp] theorem State.beginRetire_bytes (s : State) (kind : RetireKind) (number : Nat) :
    (s.beginRetire kind number).mem = s.mem ∧ (s.beginRetire kind number).power.copies = s.power.copies := by
  unfold State.beginRetire
  extract_lets c die m core cores r s1
  have h1 : s1.mem = s.mem ∧ s1.power.copies = s.power.copies := foldl_bytes _ _ (fun s d => by simp)
  clear_value s1
  split
  · simp only [State.retireDone_bytes, and_self]
  · split
    · simp only [State.retireDone_bytes, State.vacate_bytes, and_self]
    · simpa only [State.fixDomains_bytes] using h1

@[simp] theorem State.nextRetire_bytes (s : State) (n : Nat) : (s.nextRetire n).mem = s.mem ∧ (s.nextRetire n).power.copies = s.power.copies := by
  induction n generalizing s with
  | zero => exact ⟨rfl, rfl⟩
  | succ n ih =>
    unfold State.nextRetire
    split
    · exact ⟨rfl, rfl⟩
    · split
      · exact ⟨rfl, rfl⟩
      · simp only [ih, State.beginRetire_bytes, and_self]

@[simp] theorem State.finishRetire_bytes (s : State) (r : Retiring) : (s.finishRetire r).mem = s.mem ∧ (s.finishRetire r).power.copies = s.power.copies := by
  unfold State.finishRetire
  extract_lets c s1 e s2 s3 s4 s5
  have h1 : s1.mem = s.mem ∧ s1.power.copies = s.power.copies := foldl_bytes _ _ (fun s d => by simp)
  have h2 : s2.mem = s.mem ∧ s2.power.copies = s.power.copies := h1
  clear_value s2
  have h4 : s4.mem = s.mem ∧ s4.power.copies = s.power.copies := by
    dsimp only [s4]
    split
    · simpa only [State.useCore_bytes] using h2
    · cases r.part <;> simpa only [s3, State.needRecovery_bytes, State.restartRows_bytes, State.useCluster_bytes] using h2
  simpa only [s5, State.nextRetire_bytes, State.fixDomains_bytes, State.retireDone_bytes, State.runDeferred_bytes] using h4

@[simp] theorem State.commitChange_ok (s : State) (n : Nat) (c : Change) (h : BytesOk s.mem s.power.copies) :
    BytesOk (s.commitChange n c).mem (s.commitChange n c).power.copies := by
  unfold State.commitChange
  extract_lets off gone s1 s2 x1 s3
  have h2 : BytesOk s2.mem s2.power.copies := by
    dsimp only [s2]
    split
    · exact State.resetPart_ok _ _ _ h
    · exact h
  clear_value s2
  have h3 : BytesOk s3.mem s3.power.copies := by
    dsimp only [s3]
    split <;> exact h2
  exact foldl_ok _ _ (fun s d h => by simp [h]) h3

@[simp] theorem State.zeroRuns_ok (s : State) (rs : List Run) (h : BytesOk s.mem s.power.copies) :
    BytesOk (s.zeroRuns rs).mem (s.zeroRuns rs).power.copies := by
  exact ⟨Memory.wf_filter _ _ h.1, h.2⟩

@[simp] theorem State.placeObj_ok (s : State) (n num : Nat) (o : Obj) (h : BytesOk s.mem s.power.copies) :
    BytesOk (s.placeObj n num o).mem (s.placeObj n num o).power.copies := by
  unfold State.placeObj
  dsimp only
  split <;> (try split) <;> simp [h]

@[simp] theorem State.republish_ok (s : State) (n k : Nat) (h : BytesOk s.mem s.power.copies) :
    BytesOk (State.republish s n k).mem (State.republish s n k).power.copies := by
  unfold State.republish
  split
  · extract_lets rs s1
    split
    · exact h
    · refine foldl_ok _ _ (fun s d h => ?_) h
      split
      · exact h
      · simp [h]
  · exact h

@[simp] theorem State.doPut_ok (s : State) (i : Nat) (x : FallowPut) (h : BytesOk s.mem s.power.copies) : BytesOk (State.doPut s i x).mem (State.doPut s i x).power.copies := by
  unfold State.doPut
  dsimp only
  (repeat' split) <;> simp [h]

@[simp] theorem State.afterHandover_ok (s : State) (h : BytesOk s.mem s.power.copies) :
    BytesOk (State.afterHandover s).mem (State.afterHandover s).power.copies := by
  unfold State.afterHandover
  extract_lets s1 s2 s3
  have h2 : BytesOk s2.mem s2.power.copies := by simp [s2, s1, h]
  clear_value s2
  have h3 : BytesOk s3.mem s3.power.copies := by
    dsimp only [s3]
    split <;> simp [h2]
  simp [h3]

@[simp] theorem State.keepCopy_ok (s : State) (c : LossSet) (h : BytesOk s.mem s.power.copies) (hc : Memory.wf c.mem = true) :
    BytesOk (s.keepCopy c).mem (s.keepCopy c).power.copies := by
  refine ⟨h.1, ?_⟩
  unfold State.keepCopy
  dsimp only
  split
  · rename_i a b e
    rw [e] at h
    intro x hx
    have := h.2
    by_cases hab : a.age < b.age <;> simp [hab] at hx <;> rcases hx with rfl | rfl <;> simp_all
  · intro x hx
    rcases List.mem_append.1 hx with hx | hx
    · exact h.2 x hx
    · simp at hx
      rwa [hx]

theorem State.lossSet_wf (s : State) (w : Bool) (h : Memory.wf s.mem = true) : Memory.wf (s.lossSet w).mem = true := by
  cases w
  · exact Memory.wf_filter _ _ h
  · rfl

@[simp] theorem State.hardReset_ok (s : State) (k : Bool) (h : BytesOk s.mem s.power.copies) :
    BytesOk (s.hardReset k).mem (s.hardReset k).power.copies := by
  cases k
  · exact ⟨rfl, h.2⟩
  · exact ⟨Memory.wf_filter _ _ h.1, h.2⟩

@[simp] theorem State.runModuleReset_ok (s : State) (h : BytesOk s.mem s.power.copies) :
    BytesOk (State.runModuleReset s).mem (State.runModuleReset s).power.copies := by
  unfold State.runModuleReset
  dsimp only
  (repeat' split) <;> simp [h, State.lossSet_wf _ _ h.1]

@[simp] theorem State.askModuleReset_ok (s : State) (k : Bool) (h : BytesOk s.mem s.power.copies) :
    BytesOk (State.askModuleReset s k).mem (State.askModuleReset s k).power.copies := by
  unfold State.askModuleReset
  split <;> simp [h]

@[simp] theorem State.pinReset_ok (s : State) (h : BytesOk s.mem s.power.copies) : BytesOk (State.pinReset s).mem (State.pinReset s).power.copies := by
  unfold State.pinReset
  dsimp only
  (repeat' split) <;> simp [h]

@[simp] theorem State.restoreCold_ok (s : State) (c : LossSet) (h : BytesOk s.mem s.power.copies) (hc : Memory.wf c.mem = true) :
    BytesOk (s.restoreCold c).mem (s.restoreCold c).power.copies := ⟨hc, h.2⟩

theorem State.newestCopy_wf (s : State) (c : LossSet) (h : BytesOk s.mem s.power.copies) (hc : s.newestCopy = some c) : Memory.wf c.mem = true := by
  unfold State.newestCopy at hc
  split at hc
  · rename_i a b e
    rw [e] at h
    have := h.2
    simp at hc
    split at hc <;> subst hc <;> simp_all
  · rename_i l _
    exact h.2 c (List.mem_of_mem_head? hc)

@[simp] theorem State.stageWork_ok (s : State) (stage : Nat) (r : StageInput) (h : BytesOk s.mem s.power.copies) :
    BytesOk (s.stageWork stage r).mem (s.stageWork stage r).power.copies := by
  unfold State.stageWork
  dsimp only
  split
  · exact h
  · exact h
  · split <;> exact h
  · simpa only [State.linkDomains_bytes] using h
  · split
    · refine foldl_ok _ _ (fun s x h => by simpa only [State.bringupRetire_bytes] using h) ?_
      exact foldl_ok _ _ (fun s d h => by split <;> simpa only [State.keepMap_bytes, State.setMap_bytes] using h) h
    · exact foldl_ok _ _ (fun s d h => by split <;> simpa only [State.keepMap_bytes, State.setMap_bytes] using h) h
  · exact foldl_ok _ _ (fun s x h => by split <;> simpa only [State.bringupRetire_bytes] using h) h
  · simpa only [State.trainStacks_bytes] using h
  · have h1 : ∀ u : State, BytesOk u.mem u.power.copies → BytesOk (match if u.boot.coldHold = true then s.newestCopy else none with
          | some c => u.restoreCold c
          | none => u).mem (match if u.boot.coldHold = true then s.newestCopy else none with
          | some c => u.restoreCold c
          | none => u).power.copies := by
      intro u hu
      split
      · rename_i c hc
        refine State.restoreCold_ok _ _ hu (s.newestCopy_wf c h ?_)
        split at hc
        · exact hc
        · cases hc
      · exact hu
    exact h1 _ (foldl_ok _ _ (fun s d h => h) h)
  · exact h
  · exact foldl_ok _ _ (fun s d h => by
      split
      · exact h
      · split
        · simpa only [State.linkUp_bytes] using h
        · simpa only [State.updLnk_bytes] using h) (by simpa only [State.licenseLinks_bytes] using h)
  · exact foldl_ok _ _ (fun s d h => h) (foldl_ok _ _ (fun s d h => h) h)
  · simp only [State.fixDomains_bytes]
    split
    · simpa only [State.reapply_bytes] using h
    · exact h
  · exact h

@[simp] theorem State.writeReset_ok (s : State) (v : BitVec 32) (h : BytesOk s.mem s.power.copies) :
    BytesOk (State.writeReset s v).mem (State.writeReset s v).power.copies := by
  unfold State.writeReset
  dsimp only
  (repeat' split) <;> simp [h]

@[simp] theorem State.writeMgt_ok (s : State) (off : Nat) (w : Word) (h : BytesOk s.mem s.power.copies) :
    BytesOk (State.writeMgt s off w).mem (State.writeMgt s off w).power.copies := by
  unfold State.writeMgt
  dsimp only
  (repeat' split) <;> simp [h]

@[simp] theorem State.writeCo_ok (s : State) (who : Accessor) (k off : Nat) (w : Word) (h : BytesOk s.mem s.power.copies) :
    BytesOk (State.writeCo s who k off w).mem (State.writeCo s who k off w).power.copies := by
  unfold State.writeCo
  (repeat' split) <;> simp [h]

@[simp] theorem State.putReg_ok (s : State) (who : Accessor) (b : Block) (off width : Nat) (w : Word) (h : BytesOk s.mem s.power.copies) :
    BytesOk (State.putReg s who b off width w).mem (State.putReg s who b off width w).power.copies := by
  unfold State.putReg
  (repeat' split) <;> simp [h]

@[simp] theorem State.writeReg_ok (s : State) (who : Accessor) (a width : Nat) (w : Word) (h : BytesOk s.mem s.power.copies) :
    BytesOk (State.writeReg s who a width w).mem (State.writeReg s who a width w).power.copies := by
  unfold State.writeReg
  dsimp only
  (repeat' split) <;> simp [h]

@[simp] theorem State.takeAccErr_bytes (s : State) (b : Block) :
    (s.takeAccErr b).1.mem = s.mem ∧ (s.takeAccErr b).1.power.copies = s.power.copies := by
  unfold State.takeAccErr
  split <;> exact ⟨rfl, rfl⟩

@[simp] theorem State.readReg_bytes (s : State) (who : Accessor) (a width : Nat) :
    (s.readReg who a width).1.mem = s.mem ∧ (s.readReg who a width).1.power.copies = s.power.copies := by
  unfold State.readReg
  dsimp only
  (repeat' split) <;> simp only [State.takeAccErr_bytes, State.badAccess_bytes, and_self]

@[simp] theorem State.readCommon_bytes (s : State) (x : Accessor × Block × Nat × Nat) :
    (s.readCommon x).mem = s.mem ∧ (s.readCommon x).power.copies = s.power.copies := by
  simp [State.readCommon]

@[simp] theorem State.stallRead_bytes (s : State) (x : Accessor × Block × Nat × Nat) :
    (s.stallRead x).mem = s.mem ∧ (s.stallRead x).power.copies = s.power.copies := by
  unfold State.stallRead
  split <;> simp

@[simp] theorem State.drainReads_bytes (s : State) : (s.drainReads).mem = s.mem ∧ (s.drainReads).power.copies = s.power.copies := by
  unfold State.drainReads
  exact foldl_bytes _ _ (fun s x => by simp)

@[simp] theorem State.logRead_bytes (s : State) (tag count : Nat) (first : Word) :
    (s.logRead tag count first).mem = s.mem ∧ (s.logRead tag count first).power.copies = s.power.copies := by
  unfold State.logRead
  dsimp only
  (repeat' split) <;> simp

@[simp] theorem State.retireCause_ok (s : State) (kind : RetireKind) (number : Nat) (why : RetireWhy) (h : BytesOk s.mem s.power.copies) :
    BytesOk (s.retireCause kind number why).mem (s.retireCause kind number why).power.copies := by
  unfold State.retireCause
  dsimp only
  (repeat' split) <;> simp [h]

@[simp] theorem State.mgmtRun_ok (s : State) (c : MgmtCmd) (h : BytesOk s.mem s.power.copies) :
    BytesOk (s.mgmtRun c).mem (s.mgmtRun c).power.copies := by
  unfold State.mgmtRun
  dsimp only
  (repeat' split) <;> simp [h]

/-- Requests that waited keep the bytes canonical. -/
@[simp] theorem State.mgmtDrain_ok (s : State) (k : Nat) (h : BytesOk s.mem s.power.copies) :
    BytesOk (s.mgmtDrain k).mem (s.mgmtDrain k).power.copies := by
  induction k generalizing s with
  | zero => exact h
  | succ k ih =>
    unfold State.mgmtDrain
    split
    · exact h
    · split
      · exact ih _ (State.mgmtRun_ok _ _ h)
      · exact h

theorem State.rdmaPut_ok (s : State) (r : RdmaReq) (k : State → State) (h : BytesOk s.mem s.power.copies)
    (hk : ∀ t, BytesOk t.mem t.power.copies → BytesOk (k t).mem (k t).power.copies) :
    BytesOk (s.rdmaPut r k).mem (s.rdmaPut r k).power.copies := by
  unfold State.rdmaPut
  split
  · simp [h]
  · dsimp only
    split
    · exact h
    · simpa using hk _ (by simp [h])

@[simp] theorem State.mgmtRequest_ok (s : State) (c : MgmtCmd) (h : BytesOk s.mem s.power.copies) :
    BytesOk (s.mgmtRequest c).mem (s.mgmtRequest c).power.copies := by
  unfold State.mgmtRequest
  (repeat' split) <;> simp [h]

/-! ### Rows of shared shape -/

theorem outcome_next_inj {s t : State} (e : (Host.Outcome.next s : Host.Outcome State Fault Refusal) = .next t) : s = t := by injection e

/-- What issues keeps the bytes canonical where its effect does. -/
theorem issue_ok {s t : State} {p : At} {u : Uses} {room : Room} {check : Option (BitVec 8)} {eff : State → State}
    (k : ∀ v, BytesOk v.mem v.power.copies → BytesOk (eff v).mem (eff v).power.copies) (h : BytesOk s.mem s.power.copies)
    (e : issue s p u room check eff = .next t) : BytesOk t.mem t.power.copies := by
  unfold issue at e
  split at e
  · rw [← outcome_next_inj e]; exact h
  · split at e
    · rw [← outcome_next_inj e]; simp [h]
    · split at e
      · rw [← outcome_next_inj e]; simp [h]
      · split at e
        · split at e <;> (rw [← outcome_next_inj e]; simp [h])
        · split at e
          · rw [← outcome_next_inj e]; simp [h]
          · split at e
            · rw [← outcome_next_inj e]; simp [h]
            · rw [← outcome_next_inj e]; exact k _ (by simp [h])

/-- A host command keeps the bytes canonical where what it does on its partition does. -/
theorem hostRow_ok {s t : State} {q : QRef} {op : Nat} {k : State → Nat → HostCmd → State}
    (hk : ∀ u n c, BytesOk u.mem u.power.copies → BytesOk (k u n c).mem (k u n c).power.copies) (h : BytesOk s.mem s.power.copies)
    (e : hostRow q op s k = .next t) : BytesOk t.mem t.power.copies := by
  unfold hostRow at e
  have e := outcome_next_inj e
  subst e
  dsimp only
  repeat' split
  all_goals first
    | exact h
    | (simp [h]; done)
    | exact runCmd_ok _ _ _ (by simp [h]) (fun n => hk _ _ _ (by simp [h]))

end Sys2Proof.Machine
end

