-- ==== Sys2Proof/Laws/Issue.lean ====
section
/-! SUPPORT. The issue of an instruction: everything `issue` can answer, said once, and what the issue bookkeeping
touches. -/

namespace Sys2Proof.Machine

/-- When an instruction issues, it answers its effect on the state after the bookkeeping. -/
theorem issue_next {s : State} {p : At} {u : Uses} {room : Room} {check : Option (BitVec 8)} (eff : State → State)
    (h : Issues s p u room check) : issue s p u room check eff = .next (eff (s.issued p)) := by
  simp [issue, h.can, h.fetch, h.ready, h.ok, h.room, h.hold]

/-- Everything that `issue` can answer: nothing, the fault of the fetch, a stall for operands, a freeze, a stall for room,
the fault of a check, a hold, or the effect. -/
theorem issue_cases {s t : State} {p : At} {u : Uses} {room : Room} {check : Option (BitVec 8)} {eff : State → State}
    (h : issue s p u room check eff = .next t) :
    (s.canIssue p = false ∧ t = s)
    ∨ (∃ c, fetchFault (s.ctx p).pc = some c ∧ t = s.issueFault p c)
    ∨ (s.ready p u = false ∧ t = s.updCtx p (fun c => { c with state := .stalled, stalledOn := some .operand }))
    ∨ (room.full = true ∧ t = s.updCore p.core (fun c => { c with frozen := some (.full p.ctx) }))
    ∨ (room.full = true ∧ t = ((s.beat p.core).updCore p.core (fun c => { c with cnt := { c.cnt with qstallBeats := sat64 (c.cnt.qstallBeats + 1) } })).updCtx p
        (fun c => { c with state := .stalled, stalledOn := some .unitFull }))
    ∨ (∃ c, check = some c ∧ t = s.issueFault p c)
    ∨ (∃ w, room.hold = some w ∧ t = s.updCtx p (fun c => { c with state := .stalled, stalledOn := some w }))
    ∨ (Issues s p u room check ∧ t = eff (s.issued p)) := by
  unfold issue at h
  by_cases h1 : s.canIssue p = true
  · simp only [h1, Bool.not_true, Bool.false_eq_true, if_false] at h
    cases h2 : fetchFault (s.ctx p).pc with
    | some c => simp only [h2] at h; exact Or.inr (Or.inl ⟨c, rfl, by injection h with h; exact h.symm⟩)
    | none =>
      simp only [h2] at h
      refine Or.inr (Or.inr ?_)
      by_cases h3 : s.ready p u = true
      · simp only [h3, Bool.not_true, Bool.false_eq_true, if_false] at h
        refine Or.inr ?_
        by_cases h5 : room.full = true
        · simp only [h5, if_true] at h
          split at h
          · exact Or.inl ⟨h5, by injection h with h; exact h.symm⟩
          · exact Or.inr (Or.inl ⟨h5, by injection h with h; exact h.symm⟩)
        · simp only [h5, Bool.false_eq_true, if_false] at h
          refine Or.inr (Or.inr ?_)
          cases h4 : check with
          | some c => simp only [h4] at h; exact Or.inl ⟨c, rfl, by injection h with h; exact h.symm⟩
          | none =>
            simp only [h4] at h
            cases h6 : room.hold with
            | some w => simp only [h6] at h; exact Or.inr (Or.inl ⟨w, rfl, by injection h with h; exact h.symm⟩)
            | none =>
              simp only [h6] at h
              exact Or.inr (Or.inr ⟨⟨h1, h2, h3, rfl, h6, by simpa using h5⟩, by injection h with h; exact h.symm⟩)
      · exact Or.inl ⟨by simpa using h3, by simp [h3] at h; exact h.symm⟩
  · exact Or.inl ⟨by simpa using h1, by simp [h1] at h; exact h.symm⟩

/-! ### What the bookkeeping touches -/

@[simp] theorem State.ctx_fresh (s : State) (p : At) : s.fresh.ctx p = s.ctx p := rfl
@[simp] theorem State.ctx_beat (s : State) (k : Nat) (p : At) : (s.beat k).ctx p = s.ctx p := by
  rw [State.beat, State.ctx_fresh, State.ctx_updCore _ _ _ rfl]
@[simp] theorem State.ctx_active (s : State) (u : UnitRef) (p : At) : (s.active u).ctx p = s.ctx p := rfl
@[simp] theorem State.ctx_slot (s : State) (q p : At) : (s.slot q).ctx p = s.ctx p := by
  rw [State.slot, State.ctx_updCore _ _ _ rfl, State.ctx_active, State.ctx_beat]
@[simp] theorem State.ctx_issued_same (s : State) (p : At) : (s.issued p).ctx p = (s.ctx p).advanced := by
  rw [State.issued, State.ctx_updCtx_same, State.ctx_updCore _ _ _ rfl, State.ctx_slot]; rfl
theorem State.ctx_issued_ne (s : State) {p q : At} (h : q ≠ p) : (s.issued p).ctx q = s.ctx q := by
  rw [State.issued, State.ctx_updCtx_ne _ _ h, State.ctx_updCore _ _ _ rfl, State.ctx_slot]

/-- A context update leaves the units, freeze, entry points and counters of every core. -/
theorem State.core_updCtx (s : State) (p : At) (f : Ctx → Ctx) (k : Nat) :
    ((s.updCtx p f).core k).tiles = (s.core k).tiles ∧ ((s.updCtx p f).core k).frozen = (s.core k).frozen
      ∧ ((s.updCtx p f).core k).entries = (s.core k).entries ∧ ((s.updCtx p f).core k).cnt = (s.core k).cnt
      ∧ ((s.updCtx p f).core k).lastIssued = (s.core k).lastIssued := by
  by_cases h : k = p.core
  · subst h; simp [State.updCtx]
  · simp [State.updCtx, State.core_updCore_ne _ _ _ h]

/-- A core update that leaves the units leaves them in every core. -/
theorem State.core_updCore_units (s : State) (k : Nat) (f : Core → Core) (i : Nat)
    (h : (f (s.core k)).tiles = (s.core k).tiles ∧ (f (s.core k)).frozen = (s.core k).frozen ∧ (f (s.core k)).entries = (s.core k).entries) :
    ((s.updCore k f).core i).tiles = (s.core i).tiles ∧ ((s.updCore k f).core i).frozen = (s.core i).frozen
      ∧ ((s.updCore k f).core i).entries = (s.core i).entries := by
  by_cases e : i = k
  · subst e; simpa using h
  · simp [State.core_updCore_ne _ _ _ e]

theorem State.units_issued (s : State) (p : At) (k : Nat) :
    ((s.issued p).core k).tiles = (s.core k).tiles ∧ ((s.issued p).core k).frozen = (s.core k).frozen
      ∧ ((s.issued p).core k).entries = (s.core k).entries := by
  have h1 := State.core_updCtx ((s.slot p).updCore p.core (fun c => { c with cnt := { c.cnt with issued := sat64 (c.cnt.issued + 1) } })) p
    (fun c => { c with state := .ready, stalledOn := none, pc := c.pc + 8 }) k
  have h2 := State.core_updCore_units (s.slot p) p.core (fun c => { c with cnt := { c.cnt with issued := sat64 (c.cnt.issued + 1) } }) k ⟨rfl, rfl, rfl⟩
  have h3 := State.core_updCore_units ((s.beat p.core).active ⟨.core, p.core⟩) p.core (fun c => { c with lastIssued := p.ctx }) k ⟨rfl, rfl, rfl⟩
  have h4 := State.core_updCore_units s p.core (fun c => { c with cnt := { c.cnt with beats := sat64 (c.cnt.beats + 1 + s.beatsBefore p.core) } }) k ⟨rfl, rfl, rfl⟩
  exact ⟨h1.1.trans (h2.1.trans (h3.1.trans h4.1)), h1.2.1.trans (h2.2.1.trans (h3.2.1.trans h4.2.1)),
    h1.2.2.1.trans (h2.2.2.trans (h3.2.2.trans h4.2.2))⟩

theorem State.cnt_issued (s : State) (p : At) :
    ((s.issued p).core p.core).cnt = { (s.core p.core).cnt with
      beats := sat64 ((s.core p.core).cnt.beats + 1 + s.beatsBefore p.core)
      issued := sat64 ((s.core p.core).cnt.issued + 1) } := by
  unfold State.issued State.slot
  rw [(State.core_updCtx _ _ _ _).2.2.2.1]
  simp [State.beat, State.active, State.fresh, State.core, State.updCore]

theorem State.core_issued_ne (s : State) (p : At) {k : Nat} (h : k ≠ p.core) : (s.issued p).core k = s.core k := by
  rw [State.issued, State.slot, State.updCtx]
  rw [State.core_updCore_ne _ _ _ h, State.core_updCore_ne _ _ _ h, State.core_updCore_ne _ _ _ h]
  exact State.core_updCore_ne s p.core (fun c => { c with cnt := { c.cnt with beats := sat64 (c.cnt.beats + 1 + s.beatsBefore p.core) } }) h

/-- The bookkeeping alone touches only its context. -/
theorem OnlyContext.of_issued (s : State) (p : At) : OnlyContext s (s.issued p) p where
  rest := rfl
  others := fun _ h => State.ctx_issued_ne s h
  cores := fun _ h => State.core_issued_ne s p h
  units := State.units_issued s p p.core
  issued := by rw [State.cnt_issued]

/-- A further update of the same context keeps the frame. -/
theorem BesidesIssue.then_updCtx {s u t : State} {p : At} (h : BesidesIssue s u t p) (f : Ctx → Ctx) :
    BesidesIssue s u (t.updCtx p f) p where
  rest := by
    have := h.rest
    calc t.updCtx p f = { t with cores := (t.updCtx p f).cores } := rfl
      _ = _ := by rw [this]; rfl
  others := fun q hq => by rw [State.ctx_updCtx_ne _ _ hq, h.others q hq]
  cores := fun k hk => by rw [State.updCtx, State.core_updCore_ne _ _ _ hk, h.cores k hk]
  units := by
    have := State.core_updCtx t p f p.core
    exact ⟨this.1.trans h.units.1, this.2.1.trans h.units.2.1, this.2.2.1.trans h.units.2.2⟩
  issued := by rw [(State.core_updCtx t p f p.core).2.2.2.1, h.issued]

/-- What a scalar instruction leaves: the bookkeeping and one scalar register. -/
theorem WritesScalar.of_setS (s : State) (p : At) (r : BitVec 5) (v : Word) : WritesScalar s ((s.issued p).setS p r v) p r v where
  only := (OnlyContext.of_issued s p).then_updCtx _
  regs := fun q => by rw [State.ctx_setS_same, State.ctx_issued_same, Ctx.getS_setS]; rfl
  frame := by rw [State.ctx_setS_same, State.ctx_issued_same]; exact Ctx.setS_eq _ _ _

end Sys2Proof.Machine
end

