-- ==== Sys2Proof/WellFormed.lean ====
section
/-! DEFINITION. What makes a command well formed: numbers in the ranges the spec gives (cores, dies,
ports, queues, links, lines), byte counts of fixed-size payloads, and the form that the row of JAL
and JALR fixes. A command that is not well formed names nothing on this part. -/

namespace Sys2Proof

/-- A core of R15 and a context of R100. -/
def wfAt (p : At) : Bool := p.core < 1200 && p.ctx < 8
/-- A partition of R38. -/
def wfPart (n : Nat) : Bool := n < 8
/-- A function of R40. -/
def wfFunc (f : FuncRef) : Bool := f.port < 4 && f.fn ≤ 16
/-- A queue of R436: 64 of a physical and 8 of a virtual function. -/
def wfQ (q : QRef) : Bool := q.port < 4 && q.fn ≤ 16 && q.q < (if q.fn = 0 then 64 else 8)
/-- An accessor of R557. -/
def wfAcc : Accessor → Bool
  | .mgmt => true
  | .host f => wfFunc f
/-- A register block of R545. -/
def wfBlock : Block → Bool
  | .hq f => wfFunc f
  | .fd d => d < 8
  | .cl c => c < 80
  | .co k => k < 1200
  | .hub => true
  | .mgt => true
  | .pwr => true
  | .ident => true
  | .ns => true
  | .ft => true
  | .pl => true
  | .xu => true
  | .np => true
  | .hqGlobal => true
/-- How many units of a kind the part has. -/
def unitCount : UnitKind → Nat
  | .core => 1200
  | .cluster => 80
  | .rowEngine => 80
  | .swath => 80
  | .exchange => 8
  | .dieSteward => 8
  | .turf => 1200
  | .near => 16
  | .fallow => 32
  | .barrow => 1
  | .link => 24
  | .netPort => 8
  | .hostPort => 4
  | .hub => 9
  | .power => 1
  | .software => 1
/-- A unit by its logical number (R468). -/
def wfUnit (u : UnitRef) : Bool := u.index < unitCount u.kind
/-- A participant of R324. -/
def wfParticipant : Participant → Bool
  | .die d => d < 8
  | .cluster c => c < 80
  | .hub => true
/-- A near stack or fallow channel (R265). -/
def wfMemUnit : MemUnit → Bool
  | .stack n => n < 16
  | .channel n => n < 32
/-- A submission entry of R438, 512 bytes. -/
def wfHostRead : HostRead → Bool
  | .data b => b.length = 512
  | .failed => true
/-- An indirect block of R438, 1 byte to 1 MiB. -/
def wfBlockRead : HostRead → Bool
  | .data b => 1 ≤ b.length && b.length ≤ 2 ^ 20
  | .failed => true
/-- A datagram: addresses of 4 or 16 bytes by its IP version, a MAC of 6. -/
def wfDatagram (d : Datagram) : Bool :=
  (d.ipv = 4 || d.ipv = 6) && d.clientIp.length = (if d.ipv = 4 then 4 else 16)
    && d.ownIp.length = d.clientIp.length && d.mac.length = 6
/-- A message's data fits a write. -/
def wfMsg (m : Msg) : Bool := m.write || m.data = []
/-- A flit's header fields in their widths (R338); the elements of a data flit fit its payload (R337, R364). -/
def wfFlit (f : Flit) : Bool :=
  f.dst < 16384 && f.src < 16384 && f.part < 8 && f.status < 2 && (f.type ≠ 1 || f.vals.length * f.size ≤ 232)
/-- The kinds of R480. -/
def wfRetire : RetireKind → Nat → Bool
  | .core, n => n < 1200
  | .cluster, n => n < 80
/-- The context that a core's error names (R100, R480). -/
def wfWhy : RetireWhy → Bool
  | .stateError c => c < 8
  | .registerError c _ => c < 8
  | .corrections _ => true
  | .scratchError off => off < 2 ^ 20
  | .request => true
  | .logicFault => true
  | .coreShareUsed => true
/-- One power-control reading covers eight dies. -/
def wfReading (r : PowerReading) : Bool := r.dieTemp.length = 8 && r.dieW.length = 8 && r.railMv.length = 8
/-- A register address of the map's width. -/
def wfWidth (w : Nat) : Bool := w = 4 || w = 8

/-- Whether a command is well formed. -/
def Instr.wf : Instr → Bool
  | .add p _ => wfAt p
  | .sub p _ => wfAt p
  | .and p _ => wfAt p
  | .or p _ => wfAt p
  | .xor p _ => wfAt p
  | .shl p _ => wfAt p
  | .shr p _ => wfAt p
  | .sar p _ => wfAt p
  | .mul p _ => wfAt p
  | .mulhu p _ => wfAt p
  | .min p _ => wfAt p
  | .max p _ => wfAt p
  | .minu p _ => wfAt p
  | .maxu p _ => wfAt p
  | .slt p _ => wfAt p
  | .sltu p _ => wfAt p
  | .lih p _ => wfAt p
  | .ld p _ _ => wfAt p
  | .st p _ _ => wfAt p
  | .beq p _ => wfAt p
  | .bne p _ => wfAt p
  | .blt p _ => wfAt p
  | .bge p _ => wfAt p
  | .bltu p _ => wfAt p
  | .bgeu p _ => wfAt p
  | .jal p f => wfAt p && decide (f.i = 1)
  | .jalr p f => wfAt p && decide (f.i = 0)
  | .gets p _ _ => wfAt p
  | .vadd p _ => wfAt p
  | .vsub p _ => wfAt p
  | .vmul p _ => wfAt p
  | .vfma p _ => wfAt p
  | .vmin p _ => wfAt p
  | .vmax p _ => wfAt p
  | .vabs p _ => wfAt p
  | .vneg p _ => wfAt p
  | .vsel p _ => wfAt p
  | .vclt p _ => wfAt p
  | .vceq p _ => wfAt p
  | .vgmax p _ => wfAt p
  | .vgsum p _ => wfAt p
  | .vcvt p _ => wfAt p
  | .vexp2 p _ => wfAt p
  | .vlog2 p _ => wfAt p
  | .vrcp p _ => wfAt p
  | .vrsqrt p _ => wfAt p
  | .vsqrt p _ => wfAt p
  | .vrsum p _ => wfAt p
  | .vrsumf p _ => wfAt p
  | .vrmax p _ => wfAt p
  | .vrmaxa p _ => wfAt p
  | .vld p _ => wfAt p
  | .vst p _ => wfAt p
  | .vq p _ => wfAt p
  | .vdq p _ => wfAt p
  | .vbcast p _ => wfAt p
  | .vext p _ => wfAt p
  | .vrng p _ => wfAt p
  | .tmul p _ => wfAt p
  | .tclr p _ => wfAt p
  | .tmovv p _ => wfAt p
  | .tlda p _ => wfAt p
  | .tsta p _ => wfAt p
  | .taddm p _ => wfAt p
  | .tileProductComplete core => decide (core < 1200)
  | .rgath p _ => wfAt p
  | .rgrad p _ => wfAt p
  | .rprel p _ => wfAt p
  | .rstat p _ => wfAt p
  | .rsalt p _ => wfAt p
  | .mov p _ => wfAt p
  | .movz p _ => wfAt p
  | .moveComplete p _ => wfAt p
  | .mfence p _ => wfAt p
  | .operandDataReturn p _ _ => wfAt p
  | .fset p _ => wfAt p
  | .fclr p _ => wfAt p
  | .fwait p _ => wfAt p
  | .fwaitc p _ => wfAt p
  | .cprod p _ => wfAt p
  | .ccons p _ => wfAt p
  | .cwaitr p _ => wfAt p
  | .cwaita p _ => wfAt p
  | .cread p _ => wfAt p
  | .harr p _ => wfAt p
  | .hwait p _ => wfAt p
  | .hbar p _ => wfAt p
  | .syncStoreOperation die _ => decide (die < 8)
  | .wake p => wfAt p
  | .contextWaitWatchdog p => wfAt p
  | .powerLending u => wfUnit u
  | .hedgerowArrival _ => true
  | .lineReportReceive line _ _ _ _ => decide (line < 64)
  | .jobWideRelease line => decide (line < 64)
  | .txb p _ => wfAt p
  | .txc p _ => wfAt p
  | .txa p _ => wfAt p
  | .xcoll p _ => wfAt p
  | .xlag p _ => wfAt p
  | .tstep p _ => wfAt p
  | .tget p _ => wfAt p
  | .tstat p _ => wfAt p
  | .mepoch p _ => wfAt p
  | .stepb p _ => wfAt p
  | .nop p _ => wfAt p
  | .halt p _ => wfAt p
  | .cstart p _ => wfAt p
  | .cstop p _ => wfAt p
  | .cstate p _ => wfAt p
  | .epost p _ => wfAt p
  | .ifence p _ => wfAt p
  | .ill p => wfAt p
  | .strictOperandDelivery p _ => wfAt p
  | .freezeResume core => decide (core < 1200)
  | .strictWaitWake p => wfAt p
  | .messageReceipt u m => wfUnit u && wfMsg m
  | .applyWrite by_ part _ => wfAcc by_ && wfPart part
  | .applyRun => true
  | .prepare part => wfPart part
  | .prepareReceive part u _ => wfPart part && wfParticipant u
  | .prepareTimeout part => wfPart part
  | .prepareAbortReceive part u => wfPart part && wfParticipant u
  | .stepHoldTimeout part => wfPart part
  | .modeCommit c => wfPart c.part && wfParticipant c.unit
  | .commitLineRelease part => wfPart part
  | .rowFetch _ _ _ => true
  | .rickCacheFetch _ _ _ => true
  | .sketchDecay die => decide (die < 8)
  | .windrowCopy _ => true
  | .gatherSegmentDone _ _ => true
  | .gatherDeadline _ => true
  | .gatherComplete _ => true
  | .pressureInterval => true
  | .resaltGroupMigrate part _ => wfPart part
  | .gradientContribution _ => true
  | .sweepStart part => wfPart part
  | .sweepRowBlock part _ _ => wfPart part
  | .sweepComplete part => wfPart part
  | .digestExchange part _ => wfPart part
  | .journalRecordPlace die => decide (die < 8)
  | .txPrepared _ die _ => decide (die < 8)
  | .txDurablePoint _ => true
  | .txRetire _ => true
  | .recovery r => wfPart r.part && r.found.all (fun x => decide (x.die < 8))
  | .exportRun part => wfPart part
  | .memApply by_ _ => wfAcc by_
  | .reservationWindow => true
  | .throttleTempChange u _ _ _ => wfMemUnit u
  | .fallowWrite _ => true
  | .fallowChunkWaitEnd channel => decide (channel < 32)
  | .fallowRead p _ => wfAt p
  | .rowRemap stack _ _ _ _ => decide (stack < 16)
  | .scrubGranule tier _ _ => decide (tier < 3)
  | .scrubRepair _ _ => true
  | .scrubSweepStart tier => decide (tier < 3)
  | .correctedSummary => true
  | .discardMergeIntervalEnd u _ => wfUnit u
  | .retirement kind number why => wfRetire kind number && wfWhy why
  | .retirementDrained => true
  | .retirementCopied => true
  | .retireRequest by_ _ => wfAcc by_
  | .fwImageWrite _ _ _ _ => true
  | .fwActivate by_ _ => wfAcc by_
  | .fwControllerSwitch _ => true
  | .fwPointerFlip => true
  | .fwRevert _ => true
  | .powerControlPeriod r => wfReading r
  | .thermalCut die _ _ => decide (die ≤ 8)
  | .holdupGateOpen _ => true
  | .inputLoss => true
  | .inputOvervoltage => true
  | .lossSetSaveComplete => true
  | .holdEnergyExhausted _ => true
  | .inputReturn => true
  | .qualificationComplete => true
  | .bringupStage r => r.failed.all (fun x => decide (x.2 < (if x.1 = .core then 1200 else 80)))
  | .coreReset target => decide (target < 1200)
  | .clusterReset target => decide (target < 80)
  | .partitionReset target => wfPart target
  | .computeReset => true
  | .moduleReset _ => true
  | .modResetNAssert => true
  | .modResetNRelease => true
  | .hostPerst port => decide (port < 4)
  | .functionLevelReset f => wfFunc f
  | .busMasterDisable f => wfFunc f
  | .busMasterEnable f => wfFunc f
  | .sqTailWrite q _ => wfQ q
  | .cqHeadWrite q _ => wfQ q
  | .queueEnable q _ => wfQ q
  | .queueDisable q _ => wfQ q
  | .sqeFetch q r => wfQ q && wfHostRead r
  | .hostNop q => wfQ q
  | .hostWrite q => wfQ q
  | .hostRead q => wfQ q
  | .signal q => wfQ q
  | .programLoad q => wfQ q
  | .launch q => wfQ q
  | .stop q => wfQ q
  | .installTable q => wfQ q
  | .installObject q => wfQ q
  | .remove q => wfQ q
  | .removeTakeEffect part => wfPart part
  | .installSweepPlan q => wfQ q
  | .installMirror q => wfQ q
  | .mirrorCopy part _ => wfPart part
  | .installMembership q => wfQ q
  | .topologySearch q => wfQ q
  | .searchFlitReceive link _ => decide (link < 24)
  | .exportCmd q => wfQ q
  | .importCmd q => wfQ q
  | .replayStart q => wfQ q
  | .replayEnd q => wfQ q
  | .registerRegion q => wfQ q
  | .deregisterRegion q => wfQ q
  | .connect q => wfQ q
  | .disconnect q => wfQ q
  | .openStream q => wfQ q
  | .closeStream q => wfQ q
  | .msixHoldoffExpiry f vector => wfFunc f && decide (vector < 256)
  | .msixUnmask f vector => wfFunc f && decide (vector < 256)
  | .rdmaWrite r => wfPart r.part
  | .rdmaWriteImmediate r _ => wfPart r.part
  | .rdmaRead r => wfPart r.part
  | .cnpReceive part _ => wfPart part
  | .rateRecoveryStep part _ => wfPart part
  | .serveRequest port d => decide (port < 8) && wfDatagram d
  | .serveBackstop part _ _ => wfPart part
  | .serveHoldBoundExpiry part => wfPart part
  | .recordFragment port d => decide (port < 8) && wfDatagram d
  | .partialRecordTimeout part _ => wfPart part
  | .creditTimer part _ => wfPart part
  | .flitReceive link f _ => decide (link < 24) && wfFlit f
  | .retryRequestReceive link _ => decide (link < 24)
  | .keepaliveTimer link => decide (link < 24)
  | .linkDownTimeout link => decide (link < 24)
  | .linkRetrain link _ => decide (link < 24)
  | .laneFailure link lane => decide (link < 24) && decide (lane < 5)
  | .timeFlitExchange link _ => decide (link < 24)
  | .fencedReplyReceive part _ => wfPart part
  | .newerEpochHoldExpiry part => wfPart part
  | .collectivePhaseStart _ _ => true
  | .collectivePieceReceive _ => true
  | .permutePieceCommit _ => true
  | .ringStepWatchdog _ => true
  | .abortFlitReceive link f => decide (link < 24) && wfFlit f
  | .collectiveComplete _ => true
  | .licenceApply by_ _ => wfAcc by_
  | .stageWrite by_ part _ => wfAcc by_ && wfPart part
  | .keepWrite by_ part _ => wfAcc by_ && wfPart part
  | .syncWrite by_ part _ => wfAcc by_ && wfPart part
  | .strictWrite by_ part _ => wfAcc by_ && wfPart part
  | .errHeadWrite f _ => wfFunc f
  | .counterSnapshot by_ b _ => wfAcc by_ && wfBlock b
  | .counterClear by_ b _ => wfAcc by_ && wfBlock b
  | .accErrRead by_ b width => wfAcc by_ && wfBlock b && wfWidth width
  | .nowRead by_ b width => wfAcc by_ && wfBlock b && wfWidth width
  | .registerWrite by_ _ width _ => wfAcc by_ && wfWidth width
  | .mgmtRegisterRead _ => true
  | .mgmtRegisterWrite _ _ => true
  | .mgmtLogRead _ _ _ => true
  | .setEndpointId _ => true
  | .getEndpointId => true
  | .getMctpVersionSupport _ => true
  | .getMessageTypeSupport => true
  | .pldmBase _ => true
  | .pldmSensorRead _ => true
  | .spdmGetVersion _ => true
  | .spdmGetCapabilities _ => true
  | .spdmNegotiateAlgorithms _ => true
  | .spdmGetDigests _ => true
  | .spdmGetCertificate _ _ _ _ => true
  | .spdmChallenge _ _ => true
  | .spdmGetMeasurements _ _ _ => true
  | .tapBypass _ _ => true
  | .tapIdcode => true
  | .tapSamplePreload _ _ => true
  | .tapExtest _ => true
  | .tapClamp _ => true
  | .tapHighz _ => true
  | .tapReset => true
  | .indirectBlockRead q r => wfQ q && wfBlockRead r
  | .writeVisible p => wfAt p
  | .digestRecompute part _ => wfPart part
  | .hotReset port => decide (port < 4)
  | .hostLinkDown port => decide (port < 4)
  | .hostLinkUp port _ width => decide (port < 4) && decide (1 ≤ width) && decide (width ≤ 8)
  | .networkLinkDown port _ => decide (port < 8)
  | .networkLinkUp port _ => decide (port < 8)

end Sys2Proof
end

