-- ==== Sys2Proof/Tests/Slice0.lean ====
section
/-! SUPPORT. The model's own tests: what WellFormed refuses, results worked out by hand from the spec, and for every
statement with hypotheses a concrete state and operands that meet them. -/

namespace Sys2Proof.Tests

open Sys2Proof.Machine

/-! ### Well-formedness: each check refuses a term -/

/-- A layout S word of zeros. -/
def zS : LayS := ⟨0, 0, 0, 0, 0⟩
/-- A layout V word of zeros. -/
def zV : LayV := ⟨0, 0, 0, 0, 0, 0, 0, 0⟩
/-- A layout T word of zeros. -/
def zT : LayT := ⟨0, 0, 0, 0, 0, 0, 0⟩
/-- A layout A word of zeros. -/
def zA : LayA := ⟨0, 0, 0⟩
/-- A layout M word of zeros. -/
def zM : LayM := ⟨0, 0, 0, 0, 0, 0⟩
/-- A layout Y word of zeros. -/
def zY : LayY := ⟨0, 0, 0, 0, 0⟩
/-- A layout Z word of zeros. -/
def zZ : LayZ := ⟨0, 0, 0, 0, 0, 0⟩
/-- Context 0 of core 0. -/
def p0 : At := ⟨0, 0⟩
/-- A flit of zeros. -/
def flit0 : Flit := ⟨0, 0, 0, 0, 0, 0, 0, 0, 0, 0, false, false, 0, 0, 0, [], 0, [], 8⟩
/-- A datagram of IPv4. -/
def dgram0 (payload : List Byte) : Datagram := ⟨false, 4, 0, 0, 0, [0, 0, 0, 0], [0, 0, 0, 0], [0, 0, 0, 0, 0, 0], payload⟩
/-- Queue 0 of physical function 0. -/
def q0 : QRef := ⟨0, 0, 0⟩
/-- Physical function 0. -/
def f0 : FuncRef := ⟨0, 0⟩

theorem test_wf_core_range : Instr.wf (.add ⟨1200, 0⟩ zS) = false ∧ Instr.wf (.add ⟨1199, 7⟩ zS) = true := by decide
theorem test_wf_context_range : Instr.wf (.vadd ⟨0, 8⟩ zV) = false := by decide
theorem test_wf_jal_needs_i : Instr.wf (.jal p0 zS) = false := by decide
theorem test_wf_jalr_refuses_i : Instr.wf (.jalr p0 { zS with i := 1 }) = false := by decide
theorem test_wf_tile_core : Instr.wf (.tileProductComplete 1200) = false := by decide
theorem test_wf_sync_die : Instr.wf (.syncStoreOperation 8 0) = false := by decide
theorem test_wf_line : Instr.wf (.lineReportReceive 64 0 0 0 0) = false ∧ Instr.wf (.jobWideRelease 64) = false := by decide
theorem test_wf_unit : Instr.wf (.powerLending ⟨.turf, 1200⟩) = false ∧ Instr.wf (.powerLending ⟨.near, 16⟩) = false := by decide
theorem test_wf_message_data : Instr.wf (.messageReceipt ⟨.core, 0⟩ ⟨0, false, 0, [1]⟩) = false := by decide
theorem test_wf_partition : Instr.wf (.prepare 8) = false := by decide
theorem test_wf_participant : Instr.wf (.prepareReceive 0 (.cluster 80) false) = false := by decide
theorem test_wf_accessor_port : Instr.wf (.memApply (.host ⟨4, 0⟩) 0) = false := by decide
theorem test_wf_accessor_function : Instr.wf (.memApply (.host ⟨0, 17⟩) 0) = false := by decide
theorem test_wf_sketch_die : Instr.wf (.sketchDecay 8) = false := by decide
theorem test_wf_mem_unit : Instr.wf (.throttleTempChange (.channel 32) 0 0 0) = false := by decide
theorem test_wf_channel : Instr.wf (.fallowChunkWaitEnd 32) = false := by decide
theorem test_wf_stack : Instr.wf (.rowRemap 16 0 .uncorrectable true []) = false := by decide
/-- What a stage finds: a core that failed. -/
def stageOf (core : Nat) : StageInput := ⟨1, 0, 1, false, [], [], [], [(.core, core)], [], [], [], []⟩
theorem test_wf_stage_unit : Instr.wf (.bringupStage (stageOf 1200)) = false ∧ Instr.wf (.bringupStage (stageOf 1199)) = true := by decide
theorem test_wf_tier : Instr.wf (.scrubSweepStart 3) = false := by decide
theorem test_wf_retired_cluster : Instr.wf (.retirement .cluster 80 .request) = false := by decide
theorem test_wf_reading : Instr.wf (.powerControlPeriod ⟨[], 0, 0, 0, [], [], 0, 0⟩) = false := by decide
theorem test_wf_thermal_die : Instr.wf (.thermalCut 9 0 0) = false := by decide
theorem test_wf_core_reset : Instr.wf (.coreReset 1200) = false ∧ Instr.wf (.clusterReset 80) = false := by decide
theorem test_wf_host_port : Instr.wf (.hostPerst 4) = false ∧ Instr.wf (.hostLinkUp 0 0 9) = false ∧ Instr.wf (.hostLinkUp 0 0 8) = true := by decide
theorem test_wf_function : Instr.wf (.functionLevelReset ⟨0, 17⟩) = false := by decide
theorem test_wf_queue_of_virtual : Instr.wf (.signal ⟨0, 1, 8⟩) = false ∧ Instr.wf (.signal ⟨0, 0, 63⟩) = true := by decide
theorem test_wf_descriptor_bytes : Instr.wf (.sqeFetch q0 (.data [0])) = false := by decide
theorem test_wf_block_bytes : Instr.wf (.indirectBlockRead q0 (.data [])) = false := by decide
theorem test_wf_vector : Instr.wf (.msixUnmask f0 256) = false := by decide
theorem test_wf_datagram : Instr.wf (.serveRequest 0 { dgram0 [] with ipv := 6 }) = false := by decide
theorem test_wf_network_port : Instr.wf (.recordFragment 8 (dgram0 [])) = false := by decide
theorem test_wf_flit : Instr.wf (.flitReceive 0 { flit0 with dst := 16384 } 0) = false ∧ Instr.wf (.flitReceive 0 flit0 0) = true := by decide
theorem test_wf_link : Instr.wf (.keepaliveTimer 24) = false ∧ Instr.wf (.laneFailure 0 5) = false := by decide
theorem test_wf_block : Instr.wf (.counterSnapshot .mgmt (.cl 80) 1) = false := by decide
theorem test_wf_width : Instr.wf (.registerWrite .mgmt 0 2 0) = false := by decide

/-! ### States to start from -/

/-- Whether an instruction issues, for `decide`. -/
def issuesB (s : State) (p : At) (u : Uses) (room : Room) (check : Option (BitVec 8)) : Bool :=
  s.canIssue p && (fetchFault (s.ctx p).pc).isNone && s.ready p u && check.isNone && room.hold.isNone && !room.full
theorem issues_of {s : State} {p : At} {u : Uses} {room : Room} {check : Option (BitVec 8)}
    (h : issuesB s p u room check = true) : Issues s p u room check := by
  simp only [issuesB, Bool.and_eq_true, Option.isNone_iff_eq_none, Bool.not_eq_true'] at h
  exact ⟨h.1.1.1.1.1, h.1.1.1.1.2, h.1.1.1.2, h.1.1.2, h.1.2, h.2⟩

/-- A ready context with scalar registers. -/
def readyCtx (regs : Tab Word) : Ctx := { state := .ready, s := regs }
/-- The applied configuration that puts partition 0 on cluster 0. -/
def cfg0 : PartCfg := { enable := true, clusters := [0] }
/-- The module up, with partition 0 on cluster 0 and context 0 of core 0 as given. -/
def run (c : Ctx) : State :=
  { cores := [(0, { ctxs := [(0, c)] })], clusters := [(0, { part := some 0 })], parts := [(0, { cfg := cfg0 })],
    boot := { state := 1 }, power := { domains := [0, 8, 16, 18, 21, 23], bankJ := 100000 } }
/-- The start of the turf slice of core 0. -/
def turf0 : Word := 0x1000000000000000
/-- Scalar registers: s1 = 0x100, s2 = −1, s3 the turf slice, s4 = 0x200, s5 = 0x80. -/
def regs0 : Tab Word := [(1, 0x100), (2, 0xFFFFFFFFFFFFFFFF), (3, turf0), (4, 0x200), (5, 0x80)]
/-- A running context with these registers. -/
def base : State := run (readyCtx regs0)

/-! ### Scalar and vector instructions -/

theorem wit_ScalarArithmeticResults :
    Issues base p0 { s := [1, 2, 5] } {} (if (0 : BitVec 1) = 1 then must ((5 : BitVec 5) = 0) 0x03 else must ((0 : BitVec 32) = 0) 0x03)
    ∧ Issues base p0 { s := [0, 2, 0] } {} (if (1 : BitVec 1) = 1 then must ((0 : BitVec 5) = 0) 0x03 else must ((7 : BitVec 32) = 0) 0x03) :=
  ⟨issues_of (by decide), issues_of (by decide)⟩

theorem test_sub_wraps : ∃ t, exec (.sub p0 ⟨6, 0, 1, 0, 0⟩) base = .next t ∧ (t.ctx p0).getS 6 = 0xFFFFFFFFFFFFFF00 := ⟨_, rfl, by decide⟩
theorem test_sar_keeps_sign : ∃ t, exec (.sar p0 ⟨6, 2, 0, 1, 63⟩) base = .next t ∧ (t.ctx p0).getS 6 = 0xFFFFFFFFFFFFFFFF := ⟨_, rfl, by decide⟩
theorem test_mulhu_of_ones : ∃ t, exec (.mulhu p0 ⟨6, 2, 2, 0, 0⟩) base = .next t ∧ (t.ctx p0).getS 6 = 0xFFFFFFFFFFFFFFFE := ⟨_, rfl, by decide⟩
theorem test_write_to_s0_is_discarded : ∃ t, exec (.add p0 ⟨0, 1, 1, 0, 0⟩) base = .next t ∧ (t.ctx p0).getS 0 = 0 := ⟨_, rfl, by decide⟩

theorem wit_BranchesAndJumps :
    Issues base p0 { s := [1, 2] } {} (must ((0 : BitVec 5) = 0 && (0 : BitVec 1) = 0) 0x03)
    ∧ Issues base p0 { s := [0] } {} (must ((0 : BitVec 5) = 0 && (0 : BitVec 5) = 0) 0x03)
    ∧ Issues base p0 { s := [31, 1] } {} (must ((0 : BitVec 5) = 0 && (0 : BitVec 32) = 0) 0x03) :=
  ⟨issues_of (by decide), issues_of (by decide), issues_of (by decide)⟩

theorem wit_ScalarLoadsAndStores :
    Issues base p0 { s := [6, 1] } (base.lsuRoom p0)
        (firstFault [must ((7 : BitVec 8).toNat < 8 && (0 : BitVec 5) = 0 && (0 : BitVec 1) = 0) 0x03, base.accessFault 0 .load 0x100 8 8])
    ∧ Issues base p0 { s := [6, 3] } (base.lsuRoom p0)
        (firstFault [must ((0 : BitVec 8).toNat < 8 && (0 : BitVec 5) = 0 && (0 : BitVec 1) = 0) 0x03, base.accessFault 0 .load turf0 1 1])
    ∧ Issues base p0 { s := [1, 2] } (base.lsuRoom p0)
        (firstFault [must ((3 : BitVec 8).toNat < 4 && (0 : BitVec 5) = 0 && (0 : BitVec 1) = 0) 0x03, base.accessFault 0 .store 0x100 8 8])
    ∧ Issues base p0 { s := [3, 2] } (base.lsuRoom p0)
        (firstFault [must ((0 : BitVec 8).toNat < 4 && (0 : BitVec 5) = 0 && (0 : BitVec 1) = 0) 0x03, base.accessFault 0 .store turf0 1 1])
    ∧ (base.ctx p0).tx = none :=
  ⟨issues_of (by decide), issues_of (by decide), issues_of (by decide), issues_of (by decide), by decide⟩

theorem test_ld_sign_extends :
    ∃ t, exec (.ld p0 ⟨6, 1, 0, 0, 0⟩ 4) { base with mem := [(0x100, 0x80)] } = .next t ∧ (t.ctx p0).getS 6 = 0xFFFFFFFFFFFFFF80 := ⟨_, rfl, by decide⟩
theorem test_st_stores_the_low_bytes :
    ∃ t, exec (.st p0 ⟨0, 5, 4, 0, 0⟩ 1) base = .next t ∧ Memory.get t.mem 0x81 = 0x02 := ⟨_, rfl, by decide⟩
theorem test_ld_misaligned_faults :
    ∃ t, exec (.ld p0 ⟨6, 1, 0, 0, 1⟩ 3) base = .next t ∧ (t.ctx p0).faultCause = 0x07 := ⟨_, rfl, by decide⟩

theorem wit_TagAndModeResults :
    Issues base p0 { s := [1] } {} (must ((0 : BitVec 5) = 0 && (0 : BitVec 5) = 0 && (0 : BitVec 1) = 0) 0x03)
    ∧ (∀ sel ∈ ([0, 5, 8] : List (BitVec 8)), Issues base p0 { s := [1] } {}
        (firstFault [must (sel.toNat ≤ 8) 0x02, must ((0 : BitVec 5) = 0 && (0 : BitVec 5) = 0 && (0 : BitVec 1) = 0 && (0 : BitVec 32) = 0) 0x03]))
    ∧ Issues base p0 { s := [1] } {} (must ((0 : BitVec 5) = 0 && (0 : BitVec 46) = 0) 0x03) := by
  refine ⟨issues_of (by decide), fun sel h => issues_of ?_, issues_of (by decide)⟩
  revert sel
  decide

theorem wit_VectorLanewiseResults : ∀ fmt ∈ ([0x10, 0x11] : List (BitVec 6)),
    Issues base p0 { v := [15, 0, 1] } (base.vecRoom p0) (firstFault [must ((0 : BitVec 4) = 0 && (0 : BitVec 5) = 0 && (0 : BitVec 5) = 0 && (0 : BitVec 16) = 0) 0x03, vfmt fmt])
    ∧ Issues base p0 { v := [15, 0, 1, 2] } (base.vecRoom p0) (firstFault [must ((0 : BitVec 5) = 0 && (0 : BitVec 5) = 0 && (0 : BitVec 16) = 0) 0x03, vfmt fmt])
    ∧ Issues base p0 { v := [15, 0] } (base.vecRoom p0) (firstFault [must ((0 : BitVec 4) = 0 && (0 : BitVec 4) = 0 && (0 : BitVec 5) = 0 && (0 : BitVec 5) = 0 && (0 : BitVec 16) = 0) 0x03, vfmt fmt]) := by
  intro fmt h
  refine ⟨issues_of ?_, issues_of ?_, issues_of ?_⟩ <;> revert fmt <;> decide

/-- A state with a context whose v0 holds 1.0 and v1 the largest finite FP32 value in lane 0. -/
def vecState : State := run { readyCtx regs0 with v := [(0, { lanes := [0x3F800000] }), (1, { lanes := [0x7F7FFFFF] })] }
theorem test_vadd_overflows_to_infinity :
    ∃ t, exec (.vadd p0 ⟨2, 1, 1, 0, 0, 0, 0x11, 0⟩) vecState = .next t ∧ ((t.ctx p0).getV 2).lane 0 = 0x7F800000 := ⟨_, rfl, by decide⟩
theorem test_vneg_of_one :
    ∃ t, exec (.vneg p0 ⟨2, 0, 0, 0, 0, 0, 0x11, 0⟩) vecState = .next t ∧ ((t.ctx p0).getV 2).lane 0 = 0xBF800000 := ⟨_, rfl, by decide⟩

theorem wit_VectorReductionsAndMoves :
    (∀ fmt ∈ ([0x10, 0x11] : List (BitVec 6)),
      Issues base p0 { v := [15, 0] } (base.vecRoom p0) (firstFault [must ((0 : BitVec 4) = 0 && (0 : BitVec 4) = 0 && (0 : BitVec 5) = 0 && (0 : BitVec 5) = 0 && (0 : BitVec 16) = 0) 0x03, vfmt fmt])
      ∧ Issues base p0 { v := [15, 0] } (base.vecRoom p0) (firstFault [must ((0 : BitVec 4) = 0 && (0 : BitVec 4) = 0 && (0 : BitVec 5) = 0 && (0 : BitVec 5) = 0 && (1 : BitVec 16).toNat < 2) 0x03, vfmt fmt]))
    ∧ Issues base p0 { s := [2], v := [1] } (base.vecRoom p0) (must ((0 : BitVec 4) = 0 && (0 : BitVec 4) = 0 && (0 : BitVec 4) = 0 && (0 : BitVec 5) = 0 && (0 : BitVec 6) = 0 && (0 : BitVec 16) = 0) 0x03)
    ∧ Issues base p0 { s := [6], v := [1] } (base.vecRoom p0) (must ((0 : BitVec 4) = 0 && (0 : BitVec 4) = 0 && (0 : BitVec 4) = 0 && (0 : BitVec 5) = 0 && (0 : BitVec 6) = 0 && (127 : BitVec 16).toNat < 128) 0x03)
    ∧ (∀ fmt ∈ ([0, 0x11] : List (BitVec 6)), Issues base p0 { s := [1], v := [1] } (base.vecRoom p0)
          (firstFault [must ((0 : BitVec 4) = 0 && (0 : BitVec 4) = 0 && (0 : BitVec 4) = 0 && (0 : BitVec 5) = 0 && (0 : BitVec 16) = 0) 0x03, must (fmt = 0 || fmt = 0x11) 0x04,
            base.accessFault 0 .block 0x100 32 32])) := by
  refine ⟨fun fmt h => ⟨issues_of ?_, issues_of ?_⟩, issues_of (by decide), issues_of (by decide), fun fmt h => issues_of ?_⟩ <;> revert fmt <;> decide

/-- A state whose descriptor at s1 = 0x100 is a kind 0 tensor of format 1 with one row of eight blocks, its areas at 0. -/
def tensorMem : List Host.Cell := [(0x130, 1), (0x138, 8), (0x140, 1)]
theorem wit_VectorMemoryResults :
    (∀ sb ∈ ([1, 3] : List (BitVec 5)), Issues base p0 { s := [sb], v := [1] } (base.lsuRoom p0)
        (firstFault [must ((0 : BitVec 4) = 0 && (0 : BitVec 4) = 0 && (0 : BitVec 4) = 0 && (0 : BitVec 5) = 0 && (0 : BitVec 6) = 0) 0x03,
          base.accessFault 0 .load ((base.ctx p0).getS sb) 512 64]))
    ∧ (∀ sb ∈ ([1, 3] : List (BitVec 5)), Issues base p0 { s := [sb], v := [1] } (base.lsuRoom p0)
        (firstFault [must ((0 : BitVec 4) = 0 && (0 : BitVec 4) = 0 && (0 : BitVec 4) = 0 && (0 : BitVec 5) = 0 && (0 : BitVec 6) = 0) 0x03,
          base.accessFault 0 .store ((base.ctx p0).getS sb) 512 64])) ∧ (base.ctx p0).tx = none := by
  refine ⟨fun sb h => issues_of ?_, fun sb h => issues_of ?_, by decide⟩ <;> revert sb <;> decide
set_option maxRecDepth 20000 in
theorem wit_VectorMemoryResults_quantised :
    let s : State := { base with mem := tensorMem }
    let d := s.desc 0 0 0x100
    Issues s p0 { s := [1], v := [2] } (s.vecRoom p0)
        (firstFault [must ((0 : BitVec 4) = 0 && (0 : BitVec 4) = 0 && (0 : BitVec 4) = 0 && (0 : BitVec 5) = 0 && (0 : BitVec 16) = 0) 0x03, vfmt 0x10,
          vqFault s 0 0 0x100 (((s.ctx p0).getV 2).blight || d.2) (vvals 0x10 ((s.ctx p0).getV 2))])
    ∧ Issues s p0 { s := [0, 1], v := [1] } (s.areaRoom 0 (s.vecRoom p0) [d.1.code, d.1.scale, d.1.esc, d.1.prom, d.1.outl])
        (firstFault [must ((0 : BitVec 4) = 0 && (0 : BitVec 4) = 0 && (0 : BitVec 4) = 0 && (0 : BitVec 16) = 0) 0x03, vfmt 0x10,
          s.descFault 0 0x100, must (d.1.legal && d.1.kind = 0) 0x05, must (s.blocksOk 0 d.1 0 8) 0x06]) :=
  ⟨issues_of (by decide), issues_of (by decide)⟩

/-! ### Tile engine -/

/-- The tensor of `tensorMem` and a tile reference at s4 = 0x200 to its first row, one step of 32. -/
def tileState : State := { base with mem := tensorMem ++ [(0x201, 1), (0x218, 1)] }
/-- The same reference to a W96 tensor. -/
def w96State : State := { base with mem := [(0x130, 1), (0x138, 1), (0x140, 0x20), (0x144, 0x60), (0x201, 1), (0x218, 1)] }
/-- The areas of the tile that the reference at s4 names. -/
def tileAreas : List Word :=
  let t := tileState.tile 0 0 0x200
  [t.d.code, t.d.scale, t.d.esc, t.d.prom, t.d.outl]
set_option maxRecDepth 20000 in
theorem wit_TileProducts :
    Issues tileState p0 { s := [4, 4], a := [3] } (tileState.areaRoom 0 (tileState.tileRoom 0) (tileAreas ++ tileAreas))
        (firstFault [tmulShape ⟨3, 0, 0, 4, 4, 0x20, 0⟩, tmulFault tileState 0 0 0x200 0x200 false])
    ∧ Issues tileState p0 { s := [4, 4], v := regsFrom 8 0x10 } (tileState.areaRoom 0 (tileState.tileRoom 0) (tileAreas ++ tileAreas))
        (firstFault [tmulShape ⟨0, 1, 8, 4, 4, 0x10, 0⟩, tmulFault tileState 0 0 0x200 0x200 true]) :=
  ⟨issues_of (by decide), issues_of (by decide)⟩
/-- A product of context 0 of core 0. -/
def productJob (num : Nat) (dest : TileDest) : TileJob := { p := p0, num := num, dest := dest, beats := 16, side := 0, blight := false, subst := false }
/-- Two products in the engine of core 0. -/
def productState : State := { base with cores := [(0, { ctxs := [(0, readyCtx regs0)], tiles := [productJob 0 (.acc 1 [] 32), productJob 1 (.vec 0 [])] })] }
theorem wit_TileProducts_completion : productState.live = true ∧ (productState.core 0).frozen = none
    ∧ (productState.core 0).tiles = productJob 0 (.acc 1 [] 32) :: [productJob 1 (.vec 0 [])]
    ∧ productState.productWaits (productJob 0 (.acc 1 [] 32)) = false ∧ (productState.ctx p0).stalledOn ≠ some .stopping := by decide

theorem wit_TileAccumulators :
    Issues base p0 { s := [1], a := [3] } (base.tileRoom 0)
      (must ((0 : BitVec 33) = 0 && (0 : BitVec 1) = 0 && (0 : BitVec 4) = 0 && (0 : BitVec 5) = 0 && (0 : BitVec 6) = 0) 0x03)
    ∧ Issues base p0 { a := [3], v := regsFrom 8 0x10 } (base.tileRoom 0)
        (firstFault [must ((0 : BitVec 33) = 0 && (0 : BitVec 1) = 0 && (0 : BitVec 5) = 0 && (0 : BitVec 5) = 0 && ((8 : BitVec 4) = 0 || (8 : BitVec 4) = 8)) 0x03, vfmt 0x10])
    ∧ Issues w96State p0 { s := [4], a := [0] } (w96State.tileRoom 0) (firstFault [w96Shape ⟨0, 0, 0, 4, 0, 0, 0⟩, w96Fault w96State 0 0 0x200 {} false]) :=
  ⟨issues_of (by decide), issues_of (by decide), issues_of (by decide)⟩
theorem wit_TileStores :
    Issues w96State p0 { s := [4], a := [0] } (w96State.tileRoom 0) (firstFault [w96Shape ⟨0, 0, 0, 4, 0, 0, 0⟩, w96Fault w96State 0 0 0x200 {} true]) :=
  issues_of (by decide)
theorem test_tclr_takes_the_low_ten_bits :
    ∃ t, exec (.tclr p0 ⟨1, 0, 0, 2, 0, 0, 0⟩) base = .next t ∧ ((t.ctx p0).getA 1).anchor = 0x3FF := ⟨_, rfl, by decide⟩

/-! ### Commands of the row engine and the exchange unit -/

/-- Partition 0 with an installed table 0. -/
def tablePart : Part := { cfg := cfg0, tables := [(0, {})] }
/-- A gather block at s1 = 0x100: FP32 out, offsets at 0x200, no indices, completion to flag 0. -/
def gatherState : State := { base with mem := [(0x105, 0x44), (0x111, 2), (0x13C, 1)], parts := [(0, tablePart)] }
/-- A block of RSTAT or RSALT at s1 with its completion to flag 0; as a block of RPREL, `prelState`. -/
def saltState : State := { base with mem := [(0x118, 1)], parts := [(0, tablePart)] }
def prelState : State := { base with mem := [(0x114, 1)], parts := [(0, tablePart)] }
theorem rowRoom_free (s : State) (h : s.row.jobs = []) : (s.rowRoom p0).full = false := by simp [State.rowRoom, h]
theorem collRoom_free (s : State) (h : s.link.colls = []) : (s.collRoom p0).full = false := by simp [State.collRoom, h]
/-- `issues_of` with the room apart. -/
theorem issues_room {s : State} {p : At} {u : Uses} {room : Room} {check : Option (BitVec 8)}
    (h : issuesB s p u {} check = true) (hh : room.hold = none) (hr : room.full = false) : Issues s p u room check := by
  have i := issues_of h
  exact ⟨i.can, i.fetch, i.ready, i.ok, hh, hr⟩
theorem wit_RowCommandsSubmitted :
    (∀ g ∈ [false, true], Issues gatherState p0 { s := [1] } (gatherState.rowRoom p0)
      (firstFault [must ((0 : BitVec 5) = 0 && (0 : BitVec 46) = 0) 0x03, gatherFault gatherState p0 0x100 g]))
    ∧ (let l := (prelState.readDev 0 0 0x100 32).1
       let w := leAt l 0 8
       Issues prelState p0 { s := [1] } (prelState.rowRoom p0) (firstFault [must ((0 : BitVec 5) = 0 && (0 : BitVec 46) = 0) 0x03,
          prelState.accessFault 0 .block 0x100 32 32,
          must (fld w 51 49 = 0 && fld w 47 0 = 0 && ckWordOk (leAt l 0x14 4) && leAt l 0x18 8 = 0 && (prelState.findTable 0 (fld w 63 52)).isSome) 0x05,
          firstFault [prelState.spanFault 0 .load (addrAt l 8) ((if bitAt w 48 then 4 else 8) * leAt l 0x10 4),
            must (prelState.ctOwned 0 (BitVec.ofNat 2 (leAt l 0x14 4)) (BitVec.ofNat 17 (fld (leAt l 0x14 4) 18 2))) 0x06]]))
    ∧ Issues saltState p0 { s := [1] } (saltState.rowRoom p0)
        (firstFault [must ((0 : BitVec 5) = 0 && (0 : BitVec 46) = 0) 0x03, saltFault saltState p0 0x100 true false 128])
    ∧ saltState.findTable 0 0 = some (0, {})
    ∧ Issues saltState p0 { s := [1] } (saltState.rowRoom p0)
        (firstFault [must ((0 : BitVec 5) = 0 && (0 : BitVec 46) = 0) 0x03, saltFault saltState p0 0x100 false (saltState.part 0).cfg.serve 1]) := by
  refine ⟨fun g h => issues_room ?_ rfl (rowRoom_free _ rfl), issues_room (by decide) rfl (rowRoom_free _ rfl),
    issues_room (by decide) rfl (rowRoom_free _ rfl), by decide, issues_room (by decide) rfl (rowRoom_free _ rfl)⟩
  revert g
  decide

/-- A block of an all-reduce of no elements at s1, in a group of one member. -/
def collState : State :=
  { base with mem := [(0x104, 0x88), (0x105, 0x22), (0x138, 2), (0x139, 1), (0x13B, 1), (0x13C, 1)]
              link := { members := [(0, { installed := true, image := { members := [(1, 2)], groups := [[0]] } })] } }
theorem wit_ExchangeCommands :
    Issues collState p0 { s := [1] } (collState.collRoom p0) (firstFault [must ((0 : BitVec 5) = 0 && (0 : BitVec 46) = 0) 0x03, collFault collState p0 0x100])
    ∧ (collState.member 0).quarantined = false
    ∧ Issues base p0 { s := [1] } {} (firstFault [must ((0 : BitVec 5) = 0 && (0 : BitVec 46) = 0) 0x03, base.accessFault 0 .block 0x100 512 1]) :=
  ⟨issues_room (by decide) rfl (collRoom_free _ rfl), by decide, issues_of (by decide)⟩

/-! ### Transactions of contexts, system instructions, context faults -/

/-- Context 0 of core 0 with an open transaction 5. -/
def txState (big : Bool) : State :=
  { run { readyCtx regs0 with tx := some 5, txid := 9 } with
    tx := { txs := [{ num := 5, part := 0, coord := 0, txid := 9, origin := .context p0, overSize := big }], nextTx := 6 } }
theorem wit_ContextTransactions :
    Issues base p0 { s := [6] } {} (firstFault [must ((0 : BitVec 5) = 0 && (0 : BitVec 46) = 0) 0x03, must (!(base.part 0).cfg.serve) 0x06, must (base.ctx p0).tx.isNone 0x09])
    ∧ (∀ b ∈ [false, true], ((txState b).ctx p0).tx = some 5 ∧ ((txState b).txn 5).isSome = true ∧ ((txState b).ctx p0).txMoves = false
        ∧ Issues (txState b) p0 { s := [6] } {} (firstFault [must ((0 : BitVec 5) = 0 && (0 : BitVec 46) = 0) 0x03, must ((txState b).ctx p0).tx.isSome 0x09])
        ∧ (∀ x ∈ (txState b).tx.txs, x.num = 5 → x.phase = .opened)
        ∧ Issues (txState b) p0 {} {} (firstFault [must ((0 : BitVec 5) = 0 && (0 : BitVec 5) = 0 && (0 : BitVec 46) = 0) 0x03, must ((txState b).ctx p0).tx.isSome 0x09])) := by
  refine ⟨issues_of (by decide), fun b h => ?_⟩
  have : ∀ b, ((txState b).ctx p0).tx = some 5 ∧ ((txState b).txn 5).isSome = true ∧ ((txState b).ctx p0).txMoves = false
    ∧ (∀ x ∈ (txState b).tx.txs, x.num = 5 → x.phase = .opened) := by decide
  exact ⟨(this b).1, (this b).2.1, (this b).2.2.1, issues_of (by revert b; decide), (this b).2.2.2, issues_of (by revert b; decide)⟩
theorem wit_ContextTransactions_moves :
    let s := run { readyCtx regs0 with tx := some 5, moves := [{ num := 2, src := none, dst := turf0 + 64, len := 1, ck := 0, ct := 0, tx := some 5 }] }
    s.canIssue p0 = true ∧ (s.ctx p0).txMoves = true := by decide
theorem wit_ContextTransactions_codes :
    (∃ x ∈ (txState false).tx.txs, (txState false).txCode x = none) ∧ (∃ x ∈ (txState true).tx.txs, (txState true).txCode x = some 2) := by decide

/-- Context 0, ready, and context 7 of core 0 in a given state. -/
def twoState (c : Ctx) : State := { base with cores := [(0, { ctxs := [(0, readyCtx regs0), (7, c)] })] }
theorem wit_SystemInstructions :
    Issues base p0 {} {} (must ((0 : BitVec 5) = 0 && (0 : BitVec 5) = 0 && (0 : BitVec 5) = 0 && (0 : BitVec 5) = 0 && (0 : BitVec 33) = 0 && (0 : BitVec 3) = 0) 0x03)
    ∧ (base.ctx p0).tx = none
    ∧ Issues base p0 { s := [1] } {} (must ((0 : BitVec 5) = 0 && (0 : BitVec 5) = 0 && (0 : BitVec 5) = 0 && (0 : BitVec 33) = 0 && (0 : BitVec 3) = 0) 0x03)
    ∧ base.errs.log.length < 2 ^ 29
    ∧ Issues base p0 { s := [6, 0, 1, 0] } {} (must ((0 : BitVec 33) = 0) 0x03)
    ∧ (⟨0, 7⟩ : At) ≠ p0
    ∧ Issues base p0 { s := [6, 0] } {} (must ((0 : BitVec 5) = 0 && (0 : BitVec 5) = 0 && (0 : BitVec 33) = 0) 0x03)
    ∧ base.inPart (base.partNum 0) 0 = true ∧ base.leadOf 0 = p0 :=
  ⟨issues_of (by decide), by decide, issues_of (by decide), by decide, issues_of (by decide), by decide, issues_of (by decide), by decide⟩
theorem wit_SystemInstructions_boundary :
    Issues (twoState (readyCtx [])) p0 {} {} (firstFault [must ((0 : BitVec 5) = 0 && (0 : BitVec 5) = 0 && (0 : BitVec 46) = 0) 0x03,
      must (!((twoState (readyCtx [])).part 0).cfg.serve) 0x06])
    ∧ ((((twoState (readyCtx [])).issued p0).updPart 0 (fun q => { q with stepbs := [(p0, 0)] })).boundary 0 0) = false :=
  ⟨issues_of (by decide), by decide⟩
/-- Context 0 of core 0 with a load on its way to s6. -/
def loadState : State := run { readyCtx regs0 with loads := [{ dest := .scalar 6 8 false, addr := turf0 }] }
theorem wit_SystemInstructions_stalls :
    State.reset.canIssue p0 = false
    ∧ loadState.canIssue p0 = true ∧ fetchFault (loadState.ctx p0).pc = none ∧ loadState.ready p0 { s := [6, 1, 1] } = false := by decide
theorem test_cstart_of_a_running_context :
    ∃ t, exec (.cstart p0 ⟨6, 0, 1, 0, 0, 7⟩) (twoState (readyCtx [])) = .next t ∧ (t.ctx p0).getS 6 = 1 := ⟨_, rfl, by decide⟩
theorem test_cstart_starts :
    ∃ t, exec (.cstart p0 ⟨6, 0, 1, 0, 0, 7⟩) base = .next t ∧ (t.ctx ⟨0, 7⟩).pc = 0x100 ∧ (t.ctx ⟨0, 7⟩).state = .ready := ⟨_, rfl, by decide⟩

/-- Context 0 of core 0 at a pc, with fault flag 3. -/
def pcState (pc : Word) : State := run { readyCtx regs0 with pc := pc, faultFlag := some 3 }
theorem wit_FailedChecksFault :
    (pcState 0x100000).canIssue p0 = true ∧ (pcState 0x100000).errs.log.length < 2 ^ 29 ∧ fetchFault ((pcState 0x100000).ctx p0).pc = some 0x06
    ∧ fetchFault ((pcState 0xFFFFC).ctx p0).pc = some 0x07
    ∧ fetchFault ((pcState 0xFFFF8).ctx p0).pc = none
    ∧ ((pcState 0).lsuRoom p0).full = false ∧ ((pcState 0).vecRoom p0).full = false ∧ (pcState 0).ready p0 { v := [1, 2] } = true
    ∧ firstFault [must ((1 : BitVec 4) = 0) 0x03, vfmt 0x11] = some 0x03 ∧ firstFault [none, vfmt 0x12] = some 0x04
    ∧ (pcState 0).ready p0 { s := [6] } = true ∧ firstFault [none, none, must ((txState false).ctx p0).tx.isNone 0x09] = some 0x09
    ∧ (pcState 0).ready p0 { s := [6, 2] } = true ∧ (pcState 0).accessFault 0 .load (((pcState 0).ctx p0).getS 2 + (0 : BitVec 32).signExtend 64) 1 1 = some 0x06 := by decide
theorem wit_FailedChecksFault_gather : ((pcState 0).rowRoom p0).full = false ∧ (gatherFault (pcState 0) p0 0x101 false).isSome = true :=
  ⟨rowRoom_free _ rfl, by decide⟩
theorem test_undefined_fields_fault :
    ∃ t, exec (.add p0 ⟨6, 1, 1, 0, 1⟩) (pcState 0) = .next t ∧ (t.ctx p0).faultCause = 0x03 ∧ (t.ctx p0).state = .faulted := ⟨_, rfl, by decide⟩

/-! ### Moves, operands, synchronisation -/

theorem wit_MovesStart :
    Issues base p0 { s := [1, 4, 5] } (base.lsuRoom p0) (firstFault [must ((0 : BitVec 22) = 0) 0x03, moveFault base p0 (some 0x200) 0x100 0x80 0 0])
    ∧ Issues base p0 { s := [3, 1, 5] } (base.lsuRoom p0) (firstFault [must ((0 : BitVec 22) = 0) 0x03, moveFault base p0 (some 0x100) turf0 0x80 1 3])
    ∧ Issues base p0 { s := [1, 5] } (base.lsuRoom p0) (firstFault [must ((0 : BitVec 22) = 0 && (0 : BitVec 5) = 0) 0x03, moveFault base p0 none 0x100 0x80 0 0])
    ∧ Issues base p0 { s := [3, 0] } (base.lsuRoom p0) (firstFault [must ((0 : BitVec 22) = 0 && (0 : BitVec 5) = 0) 0x03, moveFault base p0 none turf0 0 0 0]) :=
  ⟨issues_of (by decide), issues_of (by decide), issues_of (by decide), issues_of (by decide)⟩
/-- Context 0 with a store and two moves of one byte on their way, the second in a transaction. -/
def writesState (ck : BitVec 2) : State :=
  run { readyCtx regs0 with
    tx := some 5
    stores := [{ num := 9, addr := turf0 + 8, data := [1] }]
    moves := [{ num := 1, src := none, dst := turf0, len := 1, ck := ck, ct := 3, bytes := some [7] },
              { num := 2, src := none, dst := turf0 + 64, len := 1, ck := 0, ct := 0, bytes := some [7], tx := some 5 }] }
theorem wit_WritesBecomeVisible :
    Issues base p0 {} {} (must ((0 : BitVec 5) = 0 && (0 : BitVec 5) = 0 && (0 : BitVec 5) = 0 && (0 : BitVec 2) = 0 && (0 : BitVec 17) = 0 && (0 : BitVec 22) = 0) 0x03)
    ∧ (∀ ck : BitVec 2, let s := writesState ck
        Issues s p0 {} {} (must ((0 : BitVec 5) = 0 && (0 : BitVec 5) = 0 && (0 : BitVec 5) = 0 && (0 : BitVec 2) = 0 && (0 : BitVec 17) = 0 && (0 : BitVec 22) = 0) 0x03)
        ∧ s.live = true ∧ (∃ m ∈ (s.ctx p0).moves[0]?, m.bytes = some [7] ∧ m.queued = false ∧ s.olderOverlap p0 m.num m.dst m.len = false
          ∧ (m.ck = 0 ∨ (s.ctx p0).nothingBefore m.num = true) ∧ s.heldObj 0 m.dst = false ∧ m.tx = none ∧ spaceOf m.dst ≠ 5)
        ∧ (∃ m ∈ (s.ctx p0).moves[1]?, m.bytes = some [7] ∧ m.queued = false ∧ s.olderOverlap p0 m.num m.dst m.len = false
          ∧ m.ck = 0 ∧ s.heldObj 0 m.dst = false ∧ m.tx = some 5)
        ∧ (∃ w ∈ (s.ctx p0).stores.head?, s.olderOverlap p0 w.num w.addr w.data.length = false ∧ s.heldObj 0 w.addr = false)) := by
  refine ⟨issues_of (by decide), fun ck => ⟨issues_of (by revert ck; decide), ?_⟩⟩
  revert ck
  decide
theorem wit_WritesBecomeVisible_fallow : let m : Move := { num := 1, src := none, dst := 0x5000000000000000, len := 1, ck := 0, ct := 0, bytes := some [7] }
    let s := run { readyCtx [] with moves := [m] }
    (s.ctx p0).moves[0]? = some m ∧ s.live = true ∧ m.queued = false ∧ s.olderOverlap p0 m.num m.dst m.len = false ∧ s.heldObj 0 m.dst = false
      ∧ m.tx = none ∧ spaceOf m.dst = 5 ∧ (s.moveBytes p0 m).1 ≠ [] := by decide
theorem test_move_complete_writes_and_sets_its_flag :
    ∃ t, exec (.moveComplete p0 0) (writesState 1) = .next t ∧ Memory.get t.mem (turfKey 0) = 7 ∧ t.sync.inflight.length = 1 := ⟨_, rfl, by decide⟩

/-- The cluster of `run` in strict order mode. -/
def strictly (s : State) : State := { s with clusters := [(0, { part := some 0, strict := true })] }
theorem wit_OperandsDelivered :
    (∃ x ∈ (loadState.ctx p0).loads[0]?, x.data = none ∧ loadState.heldObj 0 x.addr = false) ∧ loadState.live = true ∧ loadState.strictCore 0 = false
    ∧ (strictly loadState).strictCore 0 = true ∧ ((strictly loadState).core 0).frozen = none
    ∧ (∃ x ∈ ((run { readyCtx [] with loads := [{ dest := .vector 15, addr := turf0, data := some ([], true, false) }] }).ctx p0).loads[0]?,
        x.data = some ([], true, false)) := by decide
theorem test_strict_load_without_data_freezes :
    ∃ t, exec (.strictOperandDelivery p0 0) (strictly loadState) = .next t ∧ (t.core 0).frozen = some (.load 0) := ⟨_, rfl, by decide⟩

/-- Core 0, strict, frozen or not, its context 0 in a wait. -/
def waitState (f : Option Freeze) (w : Wait) : State :=
  { strictly base with cores := [(0, { ctxs := [(0, { readyCtx regs0 with state := .waiting, wait := some w })], frozen := f })], now := 5000000000 }
theorem wit_StrictWaitsAndFreezes :
    (waitState (some (.full 0)) ⟨.flag 3 true, 0, 0, 64, false⟩).live = true
    ∧ ((waitState (some (.full 0)) ⟨.flag 3 true, 0, 0, 64, false⟩).core 0).frozen = some (.full 0)
    ∧ ((waitState (some (.full 0)) ⟨.flag 3 true, 0, 0, 64, false⟩).lsuRoom p0).full = false
    ∧ (∃ x ∈ (({ strictly base with cores := [(0, { ctxs := [(0, { readyCtx [] with loads :=
          [{ dest := .scalar 6 8 false, addr := turf0 }, { dest := .vector 2, addr := turf0, due := true, data := some ([1], true, false) }] })], frozen := some (.load 0) })] } : State).ctx p0).loads[1]?,
        x.due = true ∧ x.data = some ([1], true, false))
    ∧ ((waitState (some (.wait 0)) ⟨.flag 3 true, 0, 0, 64, true⟩).core 0).frozen = some (.wait p0.ctx)
    ∧ ((waitState (some (.wait 0)) ⟨.flag 3 true, 0, 0, 64, true⟩).ctx p0).wait = some ⟨.flag 3 true, 0, 0, 64, true⟩
    ∧ (∀ b ∈ [false, true], (waitState none ⟨.flag 3 true, 0, 0, 64, b⟩).strictCore 0 = true
        ∧ ((waitState none ⟨.flag 3 true, 0, 0, 64, b⟩).core 0).frozen = none
        ∧ ((waitState none ⟨.flag 3 true, 0, 0, 64, b⟩).ctx p0).wait = some ⟨.flag 3 true, 0, 0, 64, b⟩) := by decide

theorem wit_SyncOperationsSent :
    Issues base p0 {} {} (firstFault [must ((0 : BitVec 5) = 0 && (0 : BitVec 1) = 0 && (0 : BitVec 32) = 0 && (0 : BitVec 1) = 0) 0x03,
      must (base.flagPart (1535 : BitVec 17).toNat = some 0) 0x06])
    ∧ Issues (writesState 0) p0 {} {} (firstFault [must ((0 : BitVec 5) = 0 && (0 : BitVec 1) = 0 && (0 : BitVec 32) = 0 && (0 : BitVec 1) = 0) 0x03,
      must ((writesState 0).flagPart (0 : BitVec 17).toNat = some 0) 0x06])
    ∧ Issues base p0 { s := [0] } {} (firstFault [must ((if (1 : BitVec 1) = 1 then (0 : BitVec 5) = 0 else (0xFFFFFFFF : BitVec 32) = 0)
        && (0 : BitVec 1) = 0 && fld (383 : BitVec 17).toNat 13 12 = 0 && (0xFFFFFFFF : BitVec 32).toNat < 2 ^ 32) 0x03, must (base.pairPart (383 : BitVec 17).toNat = some 0) 0x06])
    ∧ Issues base p0 { s := [6] } {} (firstFault [must ((0 : BitVec 1) = 0 && (0 : BitVec 32) = 0 && fld (0 : BitVec 17).toNat 13 12 = 0) 0x03,
        must (base.pairPart (0 : BitVec 17).toNat = some 0) 0x06]) :=
  ⟨issues_of (by decide), issues_of (by decide), issues_of (by decide), issues_of (by decide)⟩
/-- Operations on their way to the store of die 0. -/
def syncState (l : List SyncOp) : State := { base with sync := { inflight := l, flags := [7], pairs := [(3, 2 ^ 64 - 1, 2)] } }
theorem wit_SyncStoreOutcomes :
    ∀ a ∈ ([.setFlag 1535, .clearFlag 7, .produce 3 1, .consume 3 1, .read 3 true 6, .wait (.flag 7 true), .wait (.flag 7 false)] : List SyncDo),
      ((syncState [⟨.ctx p0, 1, .setFlag 0, 0⟩, ⟨.ctx p0, 0, a, 0⟩]).sync.inflight.filter (fun o => o.die = 0))[0]? = some ⟨.ctx p0, 0, a, 0⟩
      ∧ (((syncState [⟨.ctx p0, 1, .setFlag 0, 0⟩, ⟨.ctx p0, 0, a, 0⟩]).sync.inflight.filter (fun o => o.die = 0)).take 0).any (fun o => o.src = .ctx p0) = false
      ∧ (syncState [⟨.ctx p0, 1, .setFlag 0, 0⟩, ⟨.ctx p0, 0, a, 0⟩]).live = true := by decide
theorem test_produce_is_held_at_the_limit :
    ∃ t, exec (.syncStoreOperation 0 0) (syncState [⟨.ctx p0, 0, .produce 3 1, 0⟩]) = .next t ∧ t.pair 3 = (2 ^ 64 - 1, 2) := ⟨_, rfl, by decide⟩

theorem wit_WaitsDeschedule :
    Issues base p0 {} {} (firstFault [must ((0 : BitVec 5) = 0 && (0 : BitVec 1) = 0 && (0 : BitVec 32) = 0 && (0 : BitVec 1) = 0) 0x03,
      must (base.flagPart (1535 : BitVec 17).toNat = some 0) 0x06])
    ∧ Issues base p0 { s := [4] } {} (firstFault [must ((if (0 : BitVec 1) = 1 then (4 : BitVec 5) = 0 else (0 : BitVec 32) = 0) && (0 : BitVec 1) = 0
        && fld (383 : BitVec 17).toNat 13 12 = 0) 0x03, must (base.pairPart (383 : BitVec 17).toNat = some 0) 0x06]) :=
  ⟨issues_of (by decide), issues_of (by decide)⟩
theorem wit_WakesWatchdogAndLending :
    (∀ b ∈ [false, true], let s : State := { waitState none ⟨.flag 3 true, 0, 0, 64, false⟩ with
        clusters := [(0, { part := some 0, strict := b })], sync := { wakes := [p0] } }
      s.live = true ∧ p0 ∈ s.sync.wakes ∧ (s.ctx p0).state = .waiting ∧ (s.ctx p0).wait = some ⟨.flag 3 true, 0, 0, 64, false⟩
        ∧ 0 + 1000000 * (s.part 0).ctxWaitMs < s.now)
    ∧ (let s : State := { base with now := 20001, power := { domains := [0], activeAt := [(⟨.rowEngine, 79⟩, 0)] } }
       (∀ u ∈ ([⟨.rowEngine, 79⟩, ⟨.swath, 0⟩, ⟨.exchange, 7⟩, ⟨.core, 1⟩] : List UnitRef), s.idleUnit u = true
        ∧ (((s.power.activeAt.find? (fun x => x.1 = u)).map (·.2)).getD 0) + 20000 < s.now)) := by decide

/-! ### Hedgerow lines -/

/-- A line id with its count in the immediate. -/
def lineY (l : BitVec 17) (n : BitVec 32) : LayY := ⟨l, 0, 1, 0, n⟩
theorem wit_HedgerowInstructions :
    Issues base p0 { s := [0] } {} (arriveFault base p0 (lineY 7 120))
    ∧ (∀ a ∈ ([[], [(7, 0)], [(7, 5)]] : List (Tab (BitVec 32))), Issues (run { readyCtx [] with arrivals := a }) p0 {} {}
        (firstFault [must ((0 : BitVec 5) = 0 && (0 : BitVec 1) = 0 && (0 : BitVec 32) = 0 && (0 : BitVec 1) = 0 && fld (7 : BitVec 17).toNat 16 6 = 0) 0x03,
        must ((7 : BitVec 17).toNat / 8 = (run { readyCtx [] with arrivals := a }).partNum 0) 0x06])) := by
  refine ⟨issues_of (by decide), fun a h => issues_of ?_⟩
  revert a
  decide
/-- Line 7 open with one of two arrivals, a second one on its way; line 6 due for release. -/
def lineState (jobWide : Bool) : State :=
  { base with now := 100
              sync := { lines := [(6, { releaseAt := some 100 }), (7, { opened := true, expected := 2, arrived := 1, curJobWide := jobWide })]
                        arrivals := [⟨p0, 7, 2, 0, 0⟩, ⟨⟨1, 0⟩, 0, 120, 0, 0⟩] } }
theorem wit_HedgerowLines :
    (lineState false).live = true ∧ (∀ i ∈ [0, 1], ∃ a ∈ (lineState false).sync.arrivals[i]?, ∀ b ∈ (lineState false).sync.arrivals.take i, b.p.core ≠ a.p.core)
    ∧ ((lineState false).line 7).expected = 2 ∧ ((lineState false).line 0).opened = false
    ∧ ((lineState false).line 7).ownT = none ∧ ((lineState false).line 6).releaseAt = some 100 ∧ 100 ≤ (lineState false).now
    ∧ ((lineState false).member (6 / 8)).quarantined = false := by decide
theorem test_last_arrival_releases :
    ∃ t, exec (.hedgerowArrival 0) (lineState false) = .next t ∧ (t.line 7).phase = 1 ∧ (t.line 7).arrived = 0 := ⟨_, rfl, by decide⟩

/-! ### Tagged messages and mode changes -/

/-- A message of partition `n` with an epoch and a class. -/
def msgOf (n epoch cls : Nat) : Msg := ⟨BitVec.ofNat 64 (n * 2 ^ 61 + epoch * 2 ^ 49 + cls * 2 ^ 6), false, 0x1000000000000000, []⟩
theorem wit_MessageEpochVerdicts :
    base.live = true ∧ base.accepts ⟨.cluster, 0⟩ (msgOf 1 0 0) = false
    ∧ ∀ x ∈ ([(0, 0), (1, 0), (2047, 0), (2048, 0), (4094, 0), (4095, 0), (7, 5)] : List (Nat × Nat)),
        base.accepts ⟨.cluster, 0⟩ (msgOf 0 x.1 x.2) = true
        ∧ (base.unitBuf ⟨.cluster, 0⟩).held.any (fun m => tagClass m.tag = tagClass (msgOf 0 x.1 x.2).tag) = false
        ∧ fmtKnown (tagFmt (msgOf 0 x.1 x.2).tag) = true
        ∧ (tagEpoch (msgOf 0 x.1 x.2).tag - base.unitEpoch ⟨.cluster, 0⟩ 0).toNat = x.1 ∧ tagClass (msgOf 0 x.1 x.2).tag = x.2 := by decide
theorem test_stale_message_is_counted :
    ∃ t, exec (.messageReceipt ⟨.cluster, 0⟩ (msgOf 0 2048 0)) base = .next t ∧ (t.unitBuf ⟨.cluster, 0⟩).discards = 1 := ⟨_, rfl, by decide⟩

/-- A captured apply in front: partition 1 on cluster 1 with function 1, or on cluster 0, which partition 0 has. -/
def applyState (k : Nat) : State := { base with applyQ := [(1, { cfg0 with clusters := [k], fn := 1 }, false)] }
theorem wit_AppliesCapturedAndChecked :
    base.live = true ∧ (0xFFFFFFFF : BitVec 32).getLsbD 31 = true ∧ (base.part 7).busy = false
    ∧ (∀ k ∈ [0, 1], (applyState k).up = true ∧ (applyState k).errs.handover = none ∧ (∀ q ∈ (applyState k).parts, q.2.change = none))
    ∧ ({ applyState 1 with applyQ := [] } : State).applyCode 1 { cfg0 with clusters := [1], fn := 1 } false = 0x01
    ∧ ({ applyState 0 with applyQ := [] } : State).applyCode 1 { cfg0 with clusters := [0], fn := 1 } false = 0x02 := by decide

/-- A change of partition 0 in a phase, sent at 0, with its participants and those that have staged it. -/
def changeState (ph : ChangePhase) (staged : List Participant) (hold : Bool) : State :=
  { base with now := 30000000000
              parts := [(0, { change := some { cfg := cfg0, phase := ph, members := [.hub, .die 0, .cluster 0], staged := staged, hold := hold } })] }
theorem wit_PrepareAndAbort :
    (changeState .waiting [] false).live = true ∧ ((changeState .waiting [] false).part 0).change.map (·.phase) = some .waiting
    ∧ Participant.cluster 0 ∈ (((changeState .prepared [.hub] false).part 0).change.map (·.members)).getD []
    ∧ (let h : Change := { cfg := cfg0, phase := .prepared, members := [.hub, .die 0, .cluster 0], staged := [.hub], hold := true }
       ((changeState .prepared [.hub] true).part 0).change = some h ∧ h.retire = false ∧ h.sentAt + 10000000 ≤ (changeState .prepared [.hub] true).now
        ∧ h.members.all (· ∈ h.staged) = false ∧ ((changeState .prepared [.hub] true).part 0).stepHoldS ≠ 0
        ∧ h.sentAt + 1000000000 * ((changeState .prepared [.hub] true).part 0).stepHoldS ≤ (changeState .prepared [.hub] true).now)
    ∧ ((changeState .aborting [.hub] false).part 0).change.map (·.phase) = some .aborting := by decide
/-- A change of partition 0 to cluster 0 from clusters 0 and 1, as far as it has come. -/
def leaving (ph : ChangePhase) (applied : List Participant) : Change :=
  { cfg := cfg0, old := { cfg0 with clusters := [0, 1] }, phase := ph, members := [.hub, .die 0, .cluster 0, .cluster 1],
    staged := [.hub, .die 0, .cluster 0, .cluster 1], applied := applied }
theorem wit_CommitAndEpoch :
    (∀ x ∈ ([(.prepared, []), (.committed, [.hub])] : List (ChangePhase × List Participant)), let h := leaving x.1 x.2
      let s : State := { base with parts := [(0, { cfg := cfg0, change := some h })] }
      s.live = true ∧ (s.part 0).change = some h ∧ h.retire = false
        ∧ (h.phase = .prepared ∧ h.hold = false ∧ h.members.all (· ∈ h.staged) = true ∧ (h.old.enable = true → h.cfg.enable = true)
            ∨ h.phase = .committed ∧ Participant.cluster 1 ∉ h.applied ∧ Participant.cluster 0 ∉ h.applied)
        ∧ Participant.cluster 0 ∈ h.members ∧ Participant.cluster 1 ∈ h.members ∧ Participant.hub ∈ h.members ∧ h.cfg.enable = true
        ∧ 0 ∈ h.cfg.clusters ∧ 1 ∉ h.cfg.clusters ∧ s.units = [])
    ∧ (let h := leaving .committed [.hub, .die 0, .cluster 0, .cluster 1]
       h.phase = .committed ∧ h.retire = false ∧ h.members.all (· ∈ h.applied) = true) := by decide

/-! ### Row engines -/

/-- Partition 0 with table 0 of one row of 32 elements in near object 1 on stack 0. -/
def rowsPart : Part :=
  { cfg := cfg0, tables := [(0, { rows := 1, width := 32, fmt := 1, objs := [1] })],
    objects := [(1, { tier := 1, kind := 1, table := 0, mask := 1, rowCount := 1, size := 8192, verOff := 4096 })] }
/-- A gather 4 of that table with one fetch. -/
def gatherJob (f : Fetch) : RowJob := { num := 4, p := p0, part := 0, cmd := { count := 1, deadline := 10, ck := 1, outFmt := 0x11 }, fetches := [(0, f)] }
def jobState (j : RowJob) : State := { base with now := 10, parts := [(0, rowsPart)], row := { jobs := [j], nextJob := 5 } }
theorem wit_GathersRun_fetches :
    (let f : Fetch := { kind := .row 0 }
     (jobState (gatherJob f)).fetchAt 4 0 = some (gatherJob f, f, 0, 0) ∧ (jobState (gatherJob f)).servesNext (gatherJob f) f 0 0 0 = true
      ∧ (jobState (gatherJob f)).masterKeys 0 0 0 ≠ []
      ∧ 4 ≤ keyRegion (((jobState (gatherJob f)).masterKeys 0 0 0).headD 0))
    ∧ (let f : Fetch := { kind := .row 0, source := 2 }
       let s := jobState (gatherJob f)
       s.fetchAt 4 0 = some (gatherJob f, f, 0, 0) ∧ s.servesNext (gatherJob f) f 0 0 0 = true ∧ s.replicaFor (gatherJob f) f 0 0 = none
        ∧ ((s.fetchView 0 0 f).rowAt 0 0 0).isSome = true ∧ (s.masterKeys 0 0 0).any s.copying = false)
    ∧ (let f : Fetch := { kind := .row 0, source := 1 }
       let s : State := { jobState (gatherJob f) with row := { jobs := [gatherJob f], nextJob := 5, windrow := [{ die := 0, part := 0, table := 0, set := 0, way := 0, row := 0, bytes := [] }] } }
       s.fetchAt 4 0 = some (gatherJob f, f, 0, 0) ∧ s.servesNext (gatherJob f) f 0 0 0 = true ∧ (s.replicaFor (gatherJob f) f 0 0).isSome = true) := by decide
theorem wit_GathersRun_segments :
    ∀ f ∈ ([{ kind := .row 0, bytes := some [] }, { kind := .row 0, source := 3 }] : List Fetch),
      (jobState (gatherJob f)).job 4 = some (gatherJob f) ∧ (gatherJob f).fetches.find 0 = some f
        ∧ ((jobState (gatherJob f)).jobTable (gatherJob f)).isSome = true ∧ (jobState (gatherJob f)).live = true ∧ f.outcome = .pending
        ∧ (f.bytes.isSome = true ∨ (f.bytes = none ∧ 3 ≤ f.source)) := by decide
theorem wit_GathersRun_ends :
    (let j := gatherJob { kind := .row 0 }
     j.grad = false ∧ j.cmd.deadline ≠ 0 ∧ ((jobState j).part 0).cfg.strict = false ∧ j.issuedAt + j.cmd.deadline ≤ (jobState j).now)
    ∧ ({ gatherJob { kind := .row 0 } with rejected := true } : RowJob).rejected = true
    ∧ (let j : RowJob := { gatherJob { kind := .row 0 } with grad := true, next := 1 }
       (jobState j).job 4 = some j ∧ j.rejected = false ∧ j.grad = true ∧ j.cmd.count ≤ j.next)
    ∧ (let j := gatherJob { kind := .row 0, bytes := some [], outcome := .delivered }
       (jobState j).job 4 = some j ∧ j.rejected = false ∧ j.grad = false ∧ ∀ x ∈ j.fetches, x.2.outcome ≠ .pending) := by decide

/-- A partition whose table 0 has windrow object 2 on stack 0, with a copy of row 0 due. -/
def copyState : State :=
  { base with now := 100000000
              parts := [(0, { rowsPart with tables := [(0, { rows := 1, width := 32, fmt := 1, objs := [1], windrowObj := 2 })]
                                            objects := rowsPart.objects ++ [(2, { tier := 1, kind := 2, mask := 1, size := 4096 })] })]
              row := { copies := [⟨0, 0, 0, 0⟩], sketchIncs := [(7, 2 ^ 24)] } }
theorem wit_CachesAndMonitor :
    copyState.live = true ∧ 2 ^ 24 ≤ copyState.row.sketchIncs.get 0 7
    ∧ (let c : RowCopy := ⟨0, 0, 0, 0⟩
       let ks := copyState.masterKeys 0 0 0
       let tb := (copyState.part 0).tables.get {} 0
       let k := windSets ((copyState.part 0).objects.get {} tb.windrowObj) tb c.die
       let ws := inOrder (waysOf copyState.row.windrow c.die c.part c.table (setOf c.table c.row k))
       copyState.row.copies[0]? = some c ∧ c.part ∉ copyState.tx.recovering ∧ (copyState.readKeys ks).2 = false ∧ ks ≠ [] ∧ k ≠ 0
        ∧ ws.any (fun w => w.row = c.row) = false ∧ emptyWay ws = some 0)
    ∧ copyState.row.monitor.since + 100000000 ≤ copyState.now := by decide

/-- Table 0 of partition 0 in a re-salt at a cursor; the table has one group. -/
def resaltState (cursor : Nat) : State :=
  { base with parts := [(0, { rowsPart with tables := [(0, { rows := 1, width := 32, fmt := 1, objs := [1], resalting := true, newSalt := 9, cursor := cursor })]
                                            plan := some { entries := [{ valid := true, table := 0 }] } })]
              row := { resalts := [{ part := 0, table := 0, p := p0, status := none, ck := 1, ct := 3 }] } }
theorem wit_ResaltAndContributions :
    (∀ cur ∈ [0, 1], let s := resaltState cur
      s.live = true ∧ (s.row.resalts.find? (fun x => x.part = 0 && x.table = 0)).isSome = true ∧ ((s.part 0).tables.get {} 0).resalting = true
        ∧ 0 ∉ s.tx.recovering ∧ s.tx.txs.any (fun x => x.part = 0 && x.origin = .resalt 0 cur) = false
        ∧ (groupAt ((s.part 0).salted ((s.part 0).tables.get {} 0)) cur).isSome = decide (cur = 0))
    ∧ (∀ kind ∈ [FetchKind.row 0, .missing], let j : RowJob := { gatherJob { kind := kind } with grad := true }
       let s := { jobState j with parts := (resaltState 0).parts }
       s.job 4 = some j ∧ j.grad = true ∧ j.next < j.cmd.count ∧ j.rejected = false ∧ (j.fetches.find j.next).map (·.kind) = some kind
        ∧ ((s.part 0).rowObj 0 0).isSome = true ∧ ((s.part 0).entryOf 0).isSome = true)
    ∧ (∀ pb ∈ [(0, false), (1, true)], let j : RowJob := { gatherJob { kind := .row 0 } with grad := true, cmd := { pooling := pb.1, count := 1, outFmt := 0x11 } }
       ((jobState j).gradTerms j (((resaltState 0).part 0).tables.get {} 0) 0).1.all (·.isNone) = pb.2) := by decide

/-! ### Sweeps and transactions -/

/-- Partition 0 with a dense plan entry whose tensor descriptor stands at 0x100 of the lead core's scratchpad. -/
def sweepState (q : Part) : State :=
  { base with mem := tensorMem
              parts := [(0, { q with cfg := cfg0, plan := some { entries := [{ valid := true, dense := true, wDesc := 0x100 }], ck := 1, ct := 3, period := 2 } })] }
theorem wit_SweepsStart :
    ∀ b ∈ [false, true], let s := sweepState { sweepDue := [7], started := b, lastStarted := if b then 6 else 0 }
      s.live = true ∧ s.nextSweep 0 = some 7 ∧ s.mayStart 0 7 = true ∧ s.holdsMet 0 = true := by decide
set_option maxRecDepth 20000 in
theorem wit_RowBlocksSwept :
    ∀ r ∈ ([none, some { step := 7, object := 0 }] : List (Option Replay)), let s := sweepState { sweep := some { step := 7 }, replay := r }
      let e := (((s.part 0).plan.map (·.entries)).getD []).getD 0 {}
      s.live = true ∧ (s.part 0).sweep = some { step := 7 } ∧ 0 ∉ s.tx.recovering ∧ (s.entryBlocks 0 e)[0]? = some (0, 1, 0)
        ∧ ({ step := 7 } : Sweep).suspended = false ∧ ({ step := 7 } : Sweep).opened = [] ∧ s.blockDue 0 e (0, 1, 0) = true ∧ e.dense = true := by decide
set_option maxRecDepth 20000 in
theorem wit_SweepsComplete : let w : Sweep := { step := 7, opened := [(0, 0)], committed := [(0, 0)] }
    let s := sweepState { sweep := some w }
    s.live = true ∧ (s.part 0).sweep = some w ∧ w.suspended = false ∧ w.digestDue = false ∧ 0 ∉ s.tx.recovering ∧ s.sweepDone 0 w = true
      ∧ (s.part 0).replay = none ∧ (s.part 0).plan.map (·.ck) = some 1 ∧ (s.part 0).plan.map (·.ct) = some 3 := by decide
set_option maxRecDepth 20000 in
theorem wit_SweepsComplete_at_the_period : let w : Sweep := { step := 8, opened := [(0, 0)], committed := [(0, 0)] }
    let s := sweepState { sweep := some w }
    (s.part 0).sweep = some w ∧ s.sweepDone 0 w = true ∧ ((s.part 0).plan.map (·.period)).getD 0 = 2 := by decide
theorem wit_SweepsComplete_digests : (∀ st ∈ [[], [0]], let w : Sweep := { step := 8, digestDue := true }
      let s := sweepState { sweep := some w, stale := st }
      (s.part 0).sweep = some w ∧ w.digestDue = true ∧ (s.part 0).plan.isSome = true ∧ 0 ∉ s.tx.recovering ∧ (s.part 0).replay = none
        ∧ (∀ m < 8, (s.serve m).queue = []))
    ∧ 0 ∈ ((sweepState { stale := [0] }).part 0).stale := by decide

/-- A transaction 3 of partition 0 with its records in a state and what its bank holds. -/
def commitState (x : Tx) (st : JState) (bank : Nat) : State :=
  { base with power := { domains := [0], bankJ := bank }
              tx := { txs := [x], nextTx := 4, journal := [{ die := 7, tx := 3, part := 0, type := 1, state := st, len := 64 }] } }
set_option maxRecDepth 20000 in
theorem wit_TransactionPhases :
    (let r : JRec := { die := 7, tx := 3, part := 0, type := 1, len := 128 }
     let s : State := { base with tx := { waiting := [r], heads := [(7, 2 ^ 28 - 64)], journal := [{ r with tx := 2, len := 64, off := 2 ^ 28 - 128 }] } }
     s.live = true ∧ s.tx.waiting.filter (fun x => x.die = 7) = r :: [] ∧ s.hasRoom r = true ∧ r.len ≤ ringBytes)
    ∧ (let x : Tx := { num := 3, part := 0, coord := 7, origin := .background, phase := .preparing }
       let s := commitState x .writing 0
       s.tx.journal.any (fun r => r.tx = 3 && r.die = 7 && r.type ≤ 2 && r.state = .writing) = true)
    ∧ (∀ c ∈ [[], [((0x100 : Word), 0)], [((0x100 : Word), 1)]], ∀ bank ∈ [0, 100000],
       let x : Tx := { num := 3, part := 0, coord := 7, origin := .background, phase := .preparing, checks := c }
       let s := commitState x .prepared bank
       s.txn 3 = some x ∧ x.part ∉ s.tx.recovering ∧ s.allPrepared x = true ∧ s.txMustWait x = false ∧ x.badRedo = false
        ∧ (x.checks.any (fun y => s.commitCount x.part y.1 ≠ y.2) = decide (c = [((0x100 : Word), 1)])) ∧ s.txFits x = true
        ∧ s.gateOpen = decide (bank = 100000) ∧ x.origin = .background ∧ (∀ m < 8, (s.part m).objects.any (fun o => o.2.mirrorOf.isSome) = false))
    ∧ (let x : Tx := { num := 3, part := 0, coord := 7, origin := .background, phase := .durable }
       (commitState x .durable 0).txn 3 = some x ∧ x.phase = .durable) := by decide
theorem wit_TransactionPhases_redo :
    (let x : Tx := { num := 3, part := 0, coord := 7, origin := .imported, phase := .preparing, badRedo := true }
     let s := commitState x .prepared 0
     s.txn 3 = some x ∧ s.allPrepared x = true ∧ s.txMustWait x = false ∧ x.origin = .imported ∧ x.badRedo = true)
    ∧ (let x : Tx := { num := 3, part := 0, coord := 7, origin := .context p0, phase := .preparing, overSize := true }
       let s := commitState x .prepared 0
       s.txn 3 = some x ∧ s.allPrepared x = true ∧ s.txMustWait x = false ∧ x.checks = [] ∧ s.txCode x = some 2)
    ∧ (let x : Tx := { num := 3, part := 0, coord := 7, origin := .context p0, phase := .preparing }
       (commitState x .prepared 0).txCode x = none) := by decide
theorem wit_RecoveryReplays_records : ∀ f ∈ ([[], [⟨7, 0, true⟩], [⟨7, 0, false⟩]] : List (List RecRead)),
    let r : JRec := { die := 7, tx := 3, part := 0, type := 1, state := .durable }
    let s : State := { base with tx := { recovering := [0], journal := [r] } }
    ((List.range 8).map (fun d => s.tx.journal.filter (fun r => r.die = d && r.part = 0))).flatten = [r]
      ∧ s.readable f r = decide (f ≠ [⟨7, 0, false⟩]) ∧ (f = [⟨7, 0, true⟩] → r.passes f = false) := by decide
theorem recovery_record_passes : ∃ c, ({ die := 7, tx := 3, part := 0, type := 1, state := .durable, crc := c } : JRec).passes [] = true :=
  ⟨crc32 [], by decide⟩
theorem wit_RecoveryReplays :
    let s : State := { base with tx := { recovering := [0], journal := [{ die := 7, tx := 3, part := 0, type := 1, state := .durable }] } }
    s.live = true ∧ 0 ∈ s.tx.recovering ∧ (s.tx.txs.filter (fun x => x.part = 0)) = [] := by decide

/-! ### Memory tiers -/

theorem wit_ReservationsAndThrottling :
    base.live = true ∧ (0xFFFFFFFF : BitVec 32).getLsbD 31 = true ∧ base.tiers.memBusy = false ∧ base.errs.handover = none
    ∧ (∀ p ∈ [none, some ({} : RsvTable)], let s : State := { base with now := 100000, tiers := { pending := p } }
        s.live = true ∧ s.tiers.lastWindow < s.now / 100000) := by decide
theorem test_share_of_505_is_refused :
    ∃ t, exec (.memApply .mgmt 0x80000000) { base with parts := [(0, { cfg := cfg0, rickStaged := 505 })] } = .next t ∧ t.tiers.memResult = 6 := ⟨_, rfl, by decide⟩
theorem test_throttle_enters_at_its_point :
    ∃ t, exec (.throttleTempChange (.stack 15) 85 85 95) base = .next t ∧ (t.near 15).nextLevel = 1 ∧ (t.near 14).nextLevel = 0 := ⟨_, rfl, by decide⟩

/-- A fallow write at channel 31, whose pool has some chunks in use; it has waited or not. -/
def fallowPut (waits : Bool) : FallowPut := { channel := 31, bale := 5, offset := 8, data := [1], blight := false, p := p0, move := 0, waits := waits }
def fallowState (used : List Nat) (waits : Bool) : State :=
  { base with tiers := { fallowQ := [fallowPut waits], dir := [(31 * 2 ^ 28, { chunks := used })] } }
set_option maxRecDepth 20000 in
theorem wit_FallowAndRemaps_may_go : let s := fallowState [] true
    let x := fallowPut true
    s.tiers.fallowQ[0]? = some x ∧ x.waits = true ∧ x.channel = 31 ∧ s.putBlocked 0 x = false ∧ s.partNum x.p.core ∉ s.tx.recovering
      ∧ s.fallowFits x.keys x.data = true ∧ x.keys = [fallowKey 31 (5 * 2048 + 8)] := by decide
theorem wit_FallowAndRemaps :
    (∀ u ∈ [[], [0, 1]], let s := fallowState u false
      let x := fallowPut false
      s.live = true ∧ s.tiers.fallowQ[0]? = some x ∧ s.putBlocked 0 x = false ∧ s.partNum x.p.core ∉ s.tx.recovering)
    ∧ (let m : Move := { num := 1, src := some 0x5000000000000000, dst := 0x100, len := 64, ck := 0, ct := 0 }
       let s := run { readyCtx regs0 with moves := [m] }
       (s.ctx p0).moves[0]? = some m ∧ m.src = some 0x5000000000000000 ∧ spaceOf 0x5000000000000000 = 5 ∧ m.bytes = none
        ∧ s.heldObj (s.partNum 0) 0x5000000000000000 = false ∧ s.olderOverlap p0 m.num 0x5000000000000000 m.len = false)
    ∧ (base.near 15).outOfService = false ∧ (({ base with tiers := { nears := [(15, { remapsFree := 1 })] } } : State).near 15).remapsFree = 1
    ∧ 7 ∉ (base.near 15).pendingRows ∧ 4 ≤ (({ base with tiers := { nears := [(15, { rowErrs := [(7, 3)] })] } } : State).near 15).rowErrs.get 0 7 + 1
    ∧ (base.near 15).rowErrs.get 0 7 + 1 < 4 := by decide
set_option maxRecDepth 20000 in
theorem fallow_needs_a_chunk : ((([31 * 2 ^ 28 + 5] : List Nat).filter (fun b => baleChan b = 31)).map (fun b =>
    (balePack (baleBytes (Memory.putAll [] (List.zip [fallowKey 31 (5 * 2048 + 8)] [1])) b)).1)).sum = 1 := by decide
theorem fallow_full (u : List Nat) (h : u.length = 0x1E000000) : (fallowState u false).fallowFits [fallowKey 31 (5 * 2048 + 8)] [1] = false := by
  have hb : balesIn [fallowKey 31 (5 * 2048 + 8)] = [31 * 2 ^ 28 + 5] := by decide
  have hm : (fallowState u false).mem = [] := rfl
  have hu : (usedChunks (fallowState u false).tiers.dir 31).length = 0x1E000000 := by
    simpa [usedChunks, fallowState, baleChan] using h
  have hp : poolChunks (fallowState u false).ident.variant = 0x1E000000 := rfl
  have hs : (fallowState u false).shortOn 31 [fallowKey 31 (5 * 2048 + 8)] [1] = true := by
    simp only [State.shortOn, hb, hm]
    rw [hu, hp, fallow_needs_a_chunk]
    simp
  simp only [State.fallowFits, hb]
  refine List.all_eq_false.mpr ⟨31, by decide, ?_⟩
  rw [hs]
  decide
theorem wit_FallowAndRemaps_full : ∃ u, (fallowState u false).fallowFits [fallowKey 31 (5 * 2048 + 8)] [1] = false :=
  ⟨List.replicate 0x1E000000 0, fallow_full _ (List.length_replicate ..)⟩

/-! ### Errors, repair, retirement, firmware -/

/-- Granule 0 of near stack 0 lost and due for repair, with table rows in it and in the rick cache, or not in it. -/
def repairState (ways : List Way) (seen : List Nat := []) : State :=
  { base with poison := [nearKey 0 0]
              errs := { repairs := [nearKey 0 0, nearKey 0 64], scrub1 := { periodH := 1, active := true, seen := seen }, merges := [{ unit := ⟨.swath, 0⟩, cause := 4, until_ := 0, count := 1 }] }
              now := 3600000000000
              parts := [(0, { rowsPart with objects := [(1, { tier := 1, kind := 1, table := 0, mask := 1, rowCount := 2, size := 8192, verOff := 4096 })] })]
              row := { rick := ways } }
/-- The two rows of that granule in the rick cache. -/
def cachedRows : List Way :=
  [{ die := 0, part := 0, table := 0, set := 0, way := 0, row := 0, bytes := List.replicate 32 1 },
   { die := 0, part := 0, table := 0, set := 0, way := 1, row := 1, bytes := List.replicate 32 2 }]
theorem wit_ScrubbingAndMerging :
    (repairState []).live = true ∧ (repairState []).errs.hourMark < (repairState []).now / 3600000000000
    ∧ (∃ m ∈ (repairState []).errs.merges.find? (fun m => m.unit = ⟨.swath, 0⟩ && m.cause = 4), m.until_ ≤ (repairState []).now)
    ∧ (∀ tier < 3, ((repairState []).scrub tier).enable = true)
    ∧ ((repairState []).scrub 2).active = false ∧ ((repairState []).scrub 1).active = true
    ∧ ((repairState []).scrub 1).startedAt + ((repairState []).scrub 1).periodH * 3600000000000 ≤ (repairState []).now
    ∧ (repairState []).sweptAll 1 = false ∧ (repairState [] [nearKey 0 0]).sweptAll 1 = true
    ∧ nearKey 0 0 ∈ ((repairState [] [nearKey 0 0]).scrub 1).seen ∧ nearKey 0 64 ∉ ((repairState []).scrub 1).seen
    ∧ keyRegion (nearKey 0 64) = tierRegion 1 ∧ granule (nearKey 0 64) = nearKey 0 64
    ∧ nearKey 0 64 ∉ (repairState []).poison ∧ nearKey 0 64 ∈ (repairState []).errs.repairs
    ∧ nearKey 0 0 ∈ (repairState []).poison ∧ nearKey 0 0 ∈ (repairState []).errs.repairs ∧ (((repairState []).objAt (nearKey 0 0)).map (·.part)) = some 0
    ∧ 0 ∉ (repairState []).tx.recovering ∧ (repairState []).gateOpen = true := by decide
set_option maxRecDepth 20000 in
theorem wit_ScrubbingAndMerging_no_source :
    (repairState []).repairSource 0 ((repairState []).addrOf (nearKey 0 0)) ((List.range 64).map (nearKey 0 0 + ·)) none = none := by decide
set_option maxRecDepth 20000 in
theorem wit_ScrubbingAndMerging_source :
    ((repairState cachedRows).repairSource 0 ((repairState cachedRows).addrOf (nearKey 0 0)) ((List.range 64).map (nearKey 0 0 + ·)) none).map (·.1) = some 1
    ∧ (repairState cachedRows).fallowFits ((List.range 64).map (nearKey 0 0 + ·)) (List.replicate 64 0) = true := by decide

/-- Die 0 with its cluster 0 mapped, with a good spare core or a spare cluster or none, with a retirement in a phase. -/
def retireState (r : Option Retiring) (spare : List Nat := [0]) (free : Nat := 0) : State :=
  { base with dies := [(0, { maps := [(0, { valid := true, unusedCore := 15 })], spareOk := spare, clustersFree := free })], errs := { retiring := r } }
theorem wit_RetirementsRun :
    base.live = true ∧ base.errs.retireAsk = none ∧ ((0x800004B0 : BitVec 32).getLsbD 31 = true ∧ fld (0x800004B0 : BitVec 32).toNat 10 0 = 1200)
    ∧ ((0xA000004F : BitVec 32).getLsbD 31 = true ∧ (0xA000004F : BitVec 32).getLsbD 29 = true ∧ fld (0xA000004F : BitVec 32).toNat 10 0 = 79)
    ∧ (∀ x ∈ ([([0], 0), ([], 1), ([], 0)] : List (List Nat × Nat)), let s := retireState none x.1 x.2
       s.errs.retireQ = [] ∧ s.errs.retiring = none ∧ s.errs.handover = none ∧ 0 = coreCluster 14
        ∧ ((s.die (clusterDie 0)).maps.get {} (0 % 10)).valid = true ∧ (0 % 10 ∈ (s.die (clusterDie 0)).spareOk ↔ x.1 = [0])
        ∧ ((s.die (clusterDie 0)).clustersFree ≠ 0 ↔ x.2 = 1))
    ∧ (let s : State := { retireState none with errs := { retireAsk := some (.core, 14) } }
       s.errs.retireQ = [] ∧ s.errs.retiring = none ∧ s.errs.retireAsk = some (.core, 14))
    ∧ (let r : Retiring := ⟨.core, 14, 1, some 0, .fenced, [14], []⟩
       (retireState (some r)).errs.retiring = some r ∧ r.phase = .fenced ∧ (∀ k ∈ r.cores, ((retireState (some r)).core k).drained = true))
    ∧ (let r : Retiring := ⟨.core, 14, 1, some 0, .drained, [14], []⟩
       (retireState (some r)).errs.retiring = some r ∧ r.phase = .drained ∧ r.part = some 0 ∧ ((retireState (some r)).part 0).change = none)
    ∧ (let r : Retiring := ⟨.core, 14, 1, none, .drained, [14], [(14, none)]⟩
       (retireState (some r)).errs.retiring = some r ∧ r.phase = .drained ∧ r.part = none ∧ r.choice = 1 ∧ r.kind = .core
        ∧ (retireState (some r)).errs.retireQ = [] ∧ r.wasFrozen.map (·.1) = r.cores) := by decide

/-- A handover with controller 3 switched. -/
def fwState (idle : Bool) (h : Option Handover) : State := { base with errs := { fwB := { verified := idle }, handover := h } }
theorem wit_FirmwareHandover :
    (fwState true none).live = true ∧ (fwState true none).errs.handover = none ∧ (0x80000000 : BitVec 32).getLsbD 31 = true
    ∧ (∀ v ∈ [false, true], (fwState v none).errs.fwBusy = false ∧ (fwState v none).errs.handover = none ∧ (fwState v none).errs.idleFw.verified = v)
    ∧ (let s := fwState true (some { switched := [3] })
       s.errs.handover = some { switched := [3] } ∧ [3] ≠ ([] : List Nat) ∧ s.gateOpen = true ∧ s.boot.rstBusy = false ∧ s.errs.retireQ = []
        ∧ s.tiers.memBusy = false ∧ s.ident.busy = false) := by decide

/-! ### Power, bring-up, resets -/

/-- Die 0 powered at a voltage with a pace share; a partition's clusters do not matter to the period. -/
def railState (applied pace : Nat) : State := { base with power := { domains := [0, 23], rails := [(0, { applied := applied, paceShare := pace })] } }
theorem wit_PowerEvents_period :
    (railState 600 0).live = true
    ∧ (∀ x ∈ [(600, 0), (601, 0), (720, 3), (700, 0), (720, 0)], ((railState x.1 x.2).rail 0).applied = x.1 ∧ ((railState x.1 x.2).rail 0).paceShare = x.2)
    ∧ ((railState 700 0).rail 0).applied < ((railState 700 0).rail 0).target := by decide
/-- Hold latched, with what the bank's save has done, when the input returned, the domains and the cold-hold flag. -/
def holdState (done : Bool) (ret : Option Nat) (domains : List Nat) (cold : Bool) : State :=
  { base with now := 20000000, boot := { state := 1, stage := 12, coldHold := cold }, power := { hold := .saving, saveDone := done, returnedAt := ret, domains := domains } }
theorem wit_PowerEvents :
    base.live = true ∧ (115 : Nat) ≤ 115
    ∧ (let s : State := { base with power := { domains := [0], gated := [(7, true, 0x80000001)] } }
       s.power.gated = [(7, true, 0x80000001)] ∧ s.net.streams = [] ∧ s.ident.busy = false ∧ s.boot.rstBusy = false
        ∧ ({ s with power := { s.power with bankJ := 388, gated := [] } } : State).gateOpen = true)
    ∧ ((holdState false none [0, 23] false).live = false ∧ (holdState false none [0, 23] false).power.saveDone = false
        ∧ (holdState false none [0, 23] false).mgmt.modResetLow = false ∧ (50 : Nat) ≤ 50)
    ∧ ((holdState true none [0, 23] true).power.returnedAt = none
        ∧ ¬ ((holdState true none [0, 23] true).boot.coldHold = true ∧ (holdState true none [0, 23] true).power.domains = [23]))
    ∧ ((holdState true none [23] true).live = false ∧ (holdState true none [23] true).boot.coldHold = true ∧ (holdState true none [23] true).power.domains = [23]
        ∧ (holdState true none [23] true).mgmt.waiting = [] ∧ (holdState true none [23] true).regs.stalled = [])
    ∧ (let s := holdState true (some 0) [0, 23] false
       s.live = false ∧ s.power.returnedAt = some 0 ∧ s.power.saveDone = true ∧ 0 + 20000000 ≤ s.now ∧ (∀ k < 24, (s.lnk k).st ≠ .up) ∧ s.errs.retireQ = []
        ∧ s.mgmt.waiting = [] ∧ s.regs.stalled = [] ∧ 4 ≤ s.boot.stage.toNat) := by decide
theorem test_die_at_100_degrees_does_not_rise :
    ∃ t, exec (.powerControlPeriod ⟨[100, 0, 0, 0, 0, 0, 0, 0], 0, 0, 0, [0, 0, 0, 0, 0, 0, 0, 0], [0, 0, 0, 0, 0, 0, 0, 0], 0, 0⟩) (railState 700 0) = .next t
      ∧ (t.rail 0).applied = 700 := ⟨_, rfl, by decide⟩

/-- Bring-up after a stage; an input of an outcome. -/
def bootAt (stage : BitVec 8) : State := { power := { domains := [23], bankJ := 100000 }, boot := { stage := stage } }
/-- R481, R524: a slice that stage 0x06 cannot repair costs logical core 3 its physical core; the spare 15 closes up. -/
theorem test_stage_6_retires_a_core :
    ∃ t, exec (.bringupStage (stageOf 3)) { bootAt 5 with dies := [(0, { maps := [(0, { valid := true, unusedCore := 15 })], spareOk := [0] })] } = .next t
      ∧ ((t.die 0).maps.get {} 0).unusedCore = 3 ∧ (t.die 0).spareOk = [] ∧ (t.die 0).coresRetired = 1 := ⟨_, rfl, by decide⟩
theorem wit_BringupAndModuleReset :
    (∀ x ∈ ([(0, 1), (1, 2), (3, 4), (8, 9), (11, 12)] : List (BitVec 8 × Nat)), (bootAt x.1).live = true ∧ (bootAt x.1).mgmt.modResetLow = false
      ∧ (bootAt x.1).boot.state = 0 ∧ x.2 = (if (bootAt x.1).boot.stage = 0 then 1 else (bootAt x.1).boot.stage.toNat + 1) ∧ x.2 ≤ 12)
    ∧ base.live = true ∧ base.boot.rstBusy = false ∧ base.up = true ∧ base.gateOpen = true
    ∧ (holdState true none [23] false).power.saveDone = true
    ∧ ({ base with mgmt := { modResetLow := true } } : State).mgmt.modResetLow = true := by decide

/-- Core 0 with one idle context that holds registers. -/
def idleState : State := { base with cores := [(0, { ctxs := [(7, { s := regs0 })] })] }
theorem wit_ResetsAndPortLinks :
    idleState.live = true ∧ idleState.boot.rstBusy = false ∧ idleState.errs.handover = none
    ∧ (resetTargets 0 ≤ 1200 ∧ resetTargets 1 ≤ 80 ∧ resetTargets 2 ≤ 8 ∧ 1199 < resetTargets 0 ∧ 79 < resetTargets 1 ∧ 7 < resetTargets 2)
    ∧ (let x : Ctx := { s := regs0 }
       (idleState.core 0).ctxs = [(7, x)] ∧ x.stores = [] ∧ x.moves = [] ∧ x.owed = [] ∧ x.loads = [] ∧ x.stalledOn = none ∧ x.tx = none
        ∧ idleState.sync.inflight = [] ∧ (idleState.unitBuf ⟨.core, 0⟩).held = [])
    ∧ (idleState.cluster 0).part = some 0
    ∧ (∀ n < 8, idleState.funcOf n ≠ some ⟨3, 16⟩) ∧ (∀ n < 8, ∀ g ∈ resetFns ⟨3, 0⟩, idleState.funcOf n ≠ some g) := by decide

/-! ### Host commands -/

/-- A list of `n` bytes, zero but for those listed. -/
def bytesOf (n : Nat) (l : Tab Byte) : List Byte := (List.range n).map (fun i => l.get 0 i)
/-- A descriptor of an opcode and four arguments. -/
def hdesc (op a0 a1 a2 a3 : Nat) : List Byte :=
  leBytes 1 op ++ List.replicate 31 0 ++ leBytes 8 a0 ++ leBytes 8 a1 ++ leBytes 8 a2 ++ leBytes 8 a3
/-- Queue 0 of physical function 0 with a started command and its block. -/
def startedQueue (d b : List Byte) : Queue :=
  { enable := true, sizeLog2 := 4, state := .running, reserved := 1, running := [3], started := some { seq := 3, desc := d, block := some b } }
/-- A state with that queue, on the partition that function 0 is bound to. -/
def hostWith (s : State) (d b : List Byte) : State :=
  { s with host := { ports := [(0, { perm := 1 })], funcs := [(0, { busMaster := true, queues := [(0, startedQueue d b)] })] } }
/-- The state from which its command runs, and the command. -/
def hostAfter (s : State) (d b : List Byte) : State := (hostWith s d b).updQueue q0 (fun x => { x with started := none })
def hostCmd (d b : List Byte) : HostCmd := { ref := refOf q0 3 d, desc := d, block := b }
theorem runs_of {s : State} {d b : List Byte} {op n : Nat} (hl : s.live = true) (hp : (hostWith s d b).boundPart (qFunc q0) = some n)
    (ho : opcodeOf d = op) : HostRuns (hostWith s d b) q0 op n (hostAfter s d b) (hostCmd d b) :=
  ⟨hl, hp, ho, Or.inr ⟨{ seq := 3, desc := d, block := some b }, b, rfl, rfl, rfl, rfl⟩⟩
/-- A queue with one fetched entry. -/
def fetchedOf (op : Nat) (flags : Byte) : Fetched := { seq := 0, desc := bytesOf 512 [(0, BitVec.ofNat 8 op), (1, flags), (0x18, 64)] }
def fetchedQueue (op : Nat) (flags : Byte) : Queue :=
  { enable := true, sizeLog2 := 12, state := .running, head := 1, tail := 1, fetchSeq := 1, fetched := [fetchedOf op flags] }
def fetchedState (op : Nat) (flags : Byte) : State :=
  { base with host := { funcs := [(0, { busMaster := true, queues := [(0, fetchedQueue op flags)] })] } }
/-- Queue 0 with indices. -/
def queueState (x : Queue) : State := { base with host := { funcs := [(0, { busMaster := true, queues := [(0, x)] })] } }
theorem wit_QueuesAndInterrupts_indices :
    (let x : Queue := { enable := true, sizeLog2 := 4, state := .running, tail := 0, head := 0, cqTail := 1 }
     let s := queueState x
     s.live = true ∧ s.queue q0 = x ∧ (fld (15 : Word).toNat 11 0 < 16 ∧ (x.tail + 16 - x.head) % 16 + (fld (15 : Word).toNat 11 0 + 16 - x.tail) % 16 < 16)
      ∧ 16 ≤ fld (16 : Word).toNat 11 0 ∧ x.cqHead + (fld (1 : Word).toNat 11 0 + 16 - x.cqHead % 16) % 16 ≤ x.cqTail)
    ∧ ((0x90000000 : BitVec 32).getLsbD 31 = true ∧ (base.queue q0).enable = false ∧ (base.queue q0).stopping = false
        ∧ 4 ≤ fld (0x90000000 : BitVec 32).toNat 29 26 ∧ fld (0xB0000000 : BitVec 32).toNat 29 26 ≤ 12)
    ∧ (∀ r ∈ [[], [3]], ((queueState { enable := true, running := r }).queue q0).enable = true)
    ∧ (((queueState { stopping := true, running := [3] }).queue q0).enable = false ∧ ((queueState { stopping := true, running := [3] }).queue q0).stopping = true)
    ∧ (let s := queueState { enable := true, sizeLog2 := 4, state := .running, tail := 15, fetched := List.replicate 15 ⟨0, []⟩ }
       ((s.queue q0).tail + 2 ^ (s.queue q0).sizeLog2 - (s.queue q0).head) % 2 ^ (s.queue q0).sizeLog2 ≠ 0 ∧ (s.queue q0).fetched.length < 16
        ∧ (s.func (qFunc q0)).busMaster = true)
    ∧ (let s : State := { base with host := { funcs := [(0, { queues := [(0, { enable := true, state := .running, readsOut := 1 })] })] } }
       (s.queue q0).readsOut ≠ 0 ∧ (s.func (qFunc q0)).busMaster = false)
    ∧ (let s : State := { base with host := { funcs := [(0, { late := 1 })] } }
       (s.queue q0).reads (s.func (qFunc q0)).busMaster = 0 ∧ 0 < (s.func (qFunc q0)).late)
    ∧ ((queueState { started := some { seq := 3, desc := [] } }).queue q0).started = some { seq := 3, desc := [] } := by decide
theorem wit_QueuesAndInterrupts_vectors :
    (∀ m ∈ [false, true], let s : State := { base with now := 2000, host := { funcs := [(0, { busMaster := true, vectors := [(255, { pending := true, masked := m, lastSent := some 0, holdoff := 2 })] })] } }
      ((s.func f0).vectors.get {} 255).pending = true ∧ ((s.func f0).vectors.get {} 255).lastSent = some 0 ∧ 0 + 1000 * ((s.func f0).vectors.get {} 255).holdoff ≤ s.now
        ∧ (s.func f0).busMaster = true ∧ ((s.func f0).vectors.get {} 255).masked = m)
    ∧ (base.func f0).busMaster = false := by decide
set_option maxRecDepth 20000 in
theorem wit_QueuesAndInterrupts_commands :
    (let s := fetchedState 0x00 0
     let f := fetchedOf 0 0
     HostRuns s q0 0x00 0 ((s.updQueue q0 (fun x => { x with fetched := [], reserved := x.reserved + 1, running := x.running ++ [f.seq] })).fnCount (qFunc q0) 0)
        { ref := refOf q0 f.seq f.desc, desc := f.desc, block := slice f.desc 0x40 (leAt f.desc 2 2) }
      ∧ ∀ i < 4, HostCmd.arg { ref := refOf q0 0 f.desc, desc := f.desc, block := slice f.desc 0x40 (leAt f.desc 2 2) } i = 0)
    ∧ (let s := fetchedState 0x07 1
       let f := fetchedOf 0x07 1
       (s.queue q0).started = none ∧ (s.queue q0).fetched = [f] ∧ s.mayStartCmd q0 f.desc = true ∧ (s.boundPart (qFunc q0)).isSome = true ∧ opcodeOf f.desc = 0x07 ∧ headerOk f.desc = true
        ∧ takesIndirect f.desc = true) :=
  ⟨⟨⟨by decide, by decide, by decide, Or.inl ⟨fetchedOf 0 0, [], rfl, rfl, by decide, by decide, by decide, rfl, rfl⟩⟩, by decide⟩,
   ⟨rfl, rfl, by decide, by decide, by decide, by decide, by decide⟩⟩

/-- The descriptors of HostDataAndContexts in the order of its clauses. -/
def wHostWrite : List Byte := hdesc 0x01 (2 ^ 60) (4 * 3 + 1) 0 0
def wHostRead : List Byte := hdesc 0x02 (2 ^ 60) 0x1000 448 0
def wSignal : List Byte := hdesc 0x03 (4 * 3 + 1) 0 0 0
def wSlot : List Byte := hdesc 0x04 (2 ^ 64 - 1) (63 * 2 ^ 32) 0 0
def wLoad : List Byte := hdesc 0x04 (2 ^ 64 - 1) (2 ^ 16 + 14) 0 0
def wLaunch (op : Nat) : List Byte := hdesc op 0 (15 * 2 ^ 16) 0 0
/-- An empty program image with flags. -/
def image0 (flags : Byte) : List Byte := leBytes 4 0x50585231 ++ leBytes 2 1 ++ leBytes 1 flags.toNat ++ List.replicate 17 0 ++ List.replicate 32 0xFF ++ List.replicate 8 0
theorem wit_HostDataAndContexts_data :
    (HostRuns (hostWith base wHostWrite [1, 2]) q0 0x01 0 (hostAfter base wHostWrite [1, 2]) (hostCmd wHostWrite [1, 2])
      ∧ (let c := hostCmd wHostWrite [1, 2]
         let u := hostAfter base wHostWrite [1, 2]
         let a := BitVec.ofNat 64 (c.arg 0)
         descFlag c.desc 0 = false ∧ c.arg 1 < 2 ^ 19 ∧ ctShapeOk (argCk (c.arg 1)) (argCt (c.arg 1)) = true ∧ (c.arg 2 = 0 ∧ c.arg 3 = 0) ∧ spaceOf a ∈ [0, 1, 3]
          ∧ u.within 0 a c.block.length = true ∧ u.serveWriteOk 0 a = true ∧ u.ctOwned 0 (argCk (c.arg 1)) (argCt (c.arg 1)) = true))
    ∧ (HostRuns (hostWith base wHostRead []) q0 0x02 0 (hostAfter base wHostRead []) (hostCmd wHostRead [])
      ∧ (let c := hostCmd wHostRead []
         let a := BitVec.ofNat 64 (c.arg 0)
         0 < c.arg 2 ∧ c.arg 2 ≤ 448 ∧ c.arg 3 = 0 ∧ spaceOf a ∈ [0, 1, 2, 3] ∧ (hostAfter base wHostRead []).within 0 a (c.arg 2) = true))
    ∧ (HostRuns (hostWith base wSignal []) q0 0x03 0 (hostAfter base wSignal []) (hostCmd wSignal [])
      ∧ (let c := hostCmd wSignal []
         let v := c.arg 0
         v < 2 ^ 19 ∧ argCk v ≠ 0 ∧ ctShapeOk (argCk v) (argCt v) = true ∧ c.arg 1 = 0 ∧ (c.arg 2 = 0 ∧ c.arg 3 = 0)
          ∧ (hostAfter base wSignal []).ctOwned 0 (argCk v) (argCt v) = true)) :=
  ⟨⟨runs_of (by decide) (by decide) (by decide), by decide⟩, ⟨runs_of (by decide) (by decide) (by decide), by decide⟩,
   ⟨runs_of (by decide) (by decide) (by decide), by decide⟩⟩
set_option maxRecDepth 20000 in
theorem wit_HostDataAndContexts_programs :
    (HostRuns (hostWith base wSlot (image0 1)) q0 0x04 0 (hostAfter base wSlot (image0 1)) (hostCmd wSlot (image0 1))
      ∧ (let c := hostCmd wSlot (image0 1)
         let w := c.arg 1
         c.arg 0 = 2 ^ 64 - 1 ∧ fld w 15 11 = 0 ∧ fld w 31 27 = 0 ∧ fld w 63 38 = 0 ∧ (c.arg 2 = 0 ∧ c.arg 3 = 0)
          ∧ (∀ k ∈ targetCores w, (hostAfter base wSlot (image0 1)).inPart 0 k = true) ∧ ((hostAfter base wSlot (image0 1)).imageCode 0 c.block (targetCores w) false).1 = 0
          ∧ bitAt (leAt c.block 6 2) 0 = true))
    ∧ (HostRuns (hostWith (run {}) wLoad (image0 0)) q0 0x04 0 (hostAfter (run {}) wLoad (image0 0)) (hostCmd wLoad (image0 0))
      ∧ (let c := hostCmd wLoad (image0 0)
         let w := c.arg 1
         c.arg 0 = 2 ^ 64 - 1 ∧ fld w 15 11 = 0 ∧ fld w 31 27 = 0 ∧ fld w 63 38 = 0 ∧ (c.arg 2 = 0 ∧ c.arg 3 = 0)
          ∧ (∀ k ∈ targetCores w, (hostAfter (run {}) wLoad (image0 0)).inPart 0 k = true) ∧ ((hostAfter (run {}) wLoad (image0 0)).imageCode 0 c.block (targetCores w) false).1 = 0
          ∧ bitAt (leAt c.block 6 2) 0 = false ∧ targetCores w = [14])) :=
  ⟨⟨runs_of (by decide) (by decide) (by decide), by decide⟩, ⟨runs_of (by decide) (by decide) (by decide), by decide⟩⟩
theorem wit_HostDataAndContexts_contexts : ∀ op ∈ [0x05, 0x06],
    HostRuns (hostWith base (wLaunch op) []) q0 op 0 (hostAfter base (wLaunch op) []) (hostCmd (wLaunch op) [])
      ∧ (hostAfter base (wLaunch op) []).coresArg 0 (hostCmd (wLaunch op) []) = none := by
  intro op h
  refine ⟨runs_of ?_ ?_ ?_, ?_⟩ <;> revert op <;> decide
/-- Partition 0 with object 1048575, a region, a connection, a stream and a staging allotment. -/
def netState : State :=
  { base with parts := [(0, { cfg := cfg0, objects := [(1048575, {})], stageSize := 1 })]
              net := { regions := [(0xFFFFFFFF, { object := 1048575, write := true, read := true })], conns := [(1023, { params := [] })],
                       streams := [(4095, { die := 0, offset := 0, size := 64, pair := 0 })] } }
def wStream : List Byte := hdesc 0x16 0 (2 ^ 20 - 64) 64 383
theorem wit_HostDataAndContexts_network :
    (HostRuns (hostWith netState (hdesc 0x12 1048575 3 0 0) []) q0 0x12 0 (hostAfter netState (hdesc 0x12 1048575 3 0 0) []) (hostCmd (hdesc 0x12 1048575 3 0 0) [])
      ∧ ((hostAfter netState (hdesc 0x12 1048575 3 0 0) []).part 0).objects.find 1048575 = some {}
      ∧ ((hostAfter netState (hdesc 0x12 1048575 3 0 0) []).net.regions.filter (fun x => x.1 / 2 ^ 32 = 0)).length < 1024)
    ∧ (HostRuns (hostWith netState (hdesc 0x13 0xFFFFFFFF 0 0 0) []) q0 0x13 0 (hostAfter netState (hdesc 0x13 0xFFFFFFFF 0 0 0) []) (hostCmd (hdesc 0x13 0xFFFFFFFF 0 0 0) [])
      ∧ ((hostAfter netState (hdesc 0x13 0xFFFFFFFF 0 0 0) []).net.regions.find 0xFFFFFFFF).isSome = true)
    ∧ (let b := bytesOf 64 [(0, 7), (1, 6)]
       HostRuns (hostWith netState (hdesc 0x14 0 0 0 0) b) q0 0x14 0 (hostAfter netState (hdesc 0x14 0 0 0 0) b) (hostCmd (hdesc 0x14 0 0 0 0) b)
      ∧ 64 ≤ b.length ∧ leAt b 0 1 < 8 ∧ leAt b 1 1 = 6 ∧ zeroAt b 2 2 = true ∧ zeroAt b 0x1F 1 = true ∧ zeroAt b 0x25 27 = true
      ∧ (hostAfter netState (hdesc 0x14 0 0 0 0) b).net.conns.find 0 = none)
    ∧ (HostRuns (hostWith netState (hdesc 0x15 1023 0 0 0) []) q0 0x15 0 (hostAfter netState (hdesc 0x15 1023 0 0 0) []) (hostCmd (hdesc 0x15 1023 0 0 0) [])
      ∧ ((hostAfter netState (hdesc 0x15 1023 0 0 0) []).net.conns.find 1023).isSome = true)
    ∧ (HostRuns (hostWith netState wStream []) q0 0x16 0 (hostAfter netState wStream []) (hostCmd wStream [])
      ∧ (let u := hostAfter netState wStream []
         let c := hostCmd wStream []
         c.arg 0 < 2 ^ 15 ∧ c.arg 3 < 2 ^ 17 ∧ fld (c.arg 3) 13 12 = 0 ∧ c.arg 2 ≠ 0 ∧ c.arg 2 % 64 = 0 ∧ c.arg 1 % 64 = 0
          ∧ c.arg 1 + c.arg 2 ≤ (u.part 0).stageSize * 2 ^ 20 ∧ u.pairPart (c.arg 3) = some 0 ∧ u.stream 0 0 = none ∧ u.net.closed.find (streamKey 0 0) = none))
    ∧ (HostRuns (hostWith netState (hdesc 0x17 4095 0 0 0) []) q0 0x17 0 (hostAfter netState (hdesc 0x17 4095 0 0 0) []) (hostCmd (hdesc 0x17 4095 0 0 0) [])
      ∧ ((hostAfter netState (hdesc 0x17 4095 0 0 0) []).stream 0 4095).isSome = true) :=
  ⟨⟨runs_of (by decide) (by decide) (by decide), by decide⟩, ⟨runs_of (by decide) (by decide) (by decide), by decide⟩,
   ⟨runs_of (by decide) (by decide) (by decide), by decide⟩, ⟨runs_of (by decide) (by decide) (by decide), by decide⟩,
   ⟨runs_of (by decide) (by decide) (by decide), by decide⟩, ⟨runs_of (by decide) (by decide) (by decide), by decide⟩⟩

/-- Partition 0 with a turf object 7 of 4 KiB at the slice of core 0, and a program in update slot 0; an accumulator's
descriptor stands at 0x800. -/
def objPart : Part := { cfg := cfg0, objects := [(7, { size := 4096 })], slots := [(0, [])] }
def objState : State := { base with mem := tensorMem ++ [(0x830, 1), (0x838, 8), (0x840, 0x20), (0x844, 0x60)], parts := [(0, objPart)] }
/-- A table descriptor of one row of `width` elements (format 1) whose fallback row lies in object 7. -/
def tableBytes (width : Nat) : List Byte :=
  leBytes 8 1 ++ leBytes 8 (width * 2 ^ 31 + 2 ^ 25) ++ List.replicate 24 0 ++ leBytes 8 (3 * 2 ^ 60 + 7 * 2 ^ 40) ++ List.replicate 24 0 ++ leBytes 8 1
    ++ List.replicate 24 0 ++ leBytes 8 1 ++ List.replicate 16 0
/-- An object descriptor of a tier at byte 8192. -/
def objBytes (top : Byte) : List Byte := bytesOf 64 [(7, top), (0x18, 64), (0x29, 0x20)]
abbrev hostRuns (s : State) (d b : List Byte) (op : Nat) : Prop := HostRuns (hostWith s d b) q0 op 0 (hostAfter s d b) (hostCmd d b)
def wTable : List Byte := hdesc 0x07 4095 0 0 0
def wObj : List Byte := hdesc 0x08 1048575 0 0 0
set_option maxRecDepth 20000 in
theorem wit_InstallsAndRemoves_tables : ∀ wc ∈ [(16, 0), (8, 2)],
    hostRuns objState wTable (tableBytes wc.1) 0x07
    ∧ (let u := hostAfter objState wTable (tableBytes wc.1)
       let l := tableBytes wc.1
       let x := u.tableOf 0 (l.take 128)
       l.length = 128 ∧ u.tableReach 0 l x = true ∧ u.tableCode 0 4095 (l.take 128) x = wc.2) := by
  intro wc h
  refine ⟨runs_of ?_ ?_ ?_, ?_⟩ <;> revert wc <;> decide
set_option maxRecDepth 20000 in
theorem wit_InstallsAndRemoves_objects : ∀ wc ∈ ([(0x80, 0), (0xC0, 0), (0, 1)] : List (Byte × Nat)),
    hostRuns objState wObj (objBytes wc.1) 0x08
    ∧ (let u := hostAfter objState wObj (objBytes wc.1)
       (objBytes wc.1).length = 64 ∧ u.objCode 0 1048575 ((objBytes wc.1).take 64) (objOf (objBytes wc.1)) = wc.2) := by
  intro wc h
  refine ⟨runs_of ?_ ?_ ?_, ?_⟩ <;> revert wc <;> decide
/-- Partition 0 with table 4095, object 7 and a removal that waits. -/
def removeState (r : Removal) : State := { base with parts := [(0, { objPart with tables := [(4095, {})], removing := [r] })] }
def someCmd : CmdRef := { q := q0, seq := 3, id := 0, intr := false }
theorem wit_InstallsAndRemoves_removals : ∀ x ∈ [(2 ^ 63 + 4095, true, 4095), (7, false, 7)],
    hostRuns (removeState ⟨x.2.1, x.2.2, someCmd⟩) (hdesc 0x09 x.1 0 0 0) [] 0x09
    ∧ (let u := hostAfter (removeState ⟨x.2.1, x.2.2, someCmd⟩) (hdesc 0x09 x.1 0 0 0) []
       let num := (hostCmd (hdesc 0x09 x.1 0 0 0) []).arg 0
       bitAt num 63 = x.2.1 ∧ (if bitAt num 63 then fld num 62 12 else fld num 62 20) = 0
        ∧ (if bitAt num 63 then ((u.part 0).tables.find (fld num 11 0)).isSome else ((u.part 0).objects.find (fld num 19 0)).isSome)
        ∧ (if bitAt num 63 then (u.part 0).tableNamed (fld num 11 0) else u.objNamed 0 (fld num 19 0)) = false)
    ∧ (removeState ⟨x.2.1, x.2.2, someCmd⟩).live = true
    ∧ ((removeState ⟨x.2.1, x.2.2, someCmd⟩).part 0).removing.find? (fun r => !(removeState ⟨x.2.1, x.2.2, someCmd⟩).removalHeld 0 r) = some ⟨x.2.1, x.2.2, someCmd⟩ := by
  intro x h
  refine ⟨runs_of ?_ ?_ ?_, ?_⟩ <;> revert x <;> decide
/-- A plan of one dense entry with digest over the tensor at 0x100 and the accumulator at 0x800, completion to flag 3. -/
def planBytes : List Byte := bytesOf 192 [(0, 1), (4, 13), (71, 0xC2), (81, 1), (105, 8)]
def wPlan : List Byte := hdesc 0x0A 0 0 0 0
set_option maxRecDepth 20000 in
theorem wit_InstallsAndRemoves_plan :
    hostRuns objState wPlan planBytes 0x0A
    ∧ (let u := hostAfter objState wPlan planBytes
       let es := [planEntryOf (slice planBytes 64 128)]
       leAt planBytes 0 4 = 1 ∧ 64 + 128 * 1 ≤ planBytes.length ∧ ctShapeOk (argCk (leAt planBytes 4 4)) (argCt (leAt planBytes 4 4)) = true
        ∧ u.ctOwned 0 (argCk (leAt planBytes 4 4)) (argCt (leAt planBytes 4 4)) = true ∧ spaceOf (addrAt planBytes 0x10) = 0
        ∧ (∀ e ∈ es, e.valid = true ∧ e.dense = true ∧ e.digest = true ∧ u.entryReach 0 e = true) ∧ u.planCode 0 planBytes es = 0) :=
  ⟨runs_of (by decide) (by decide) (by decide), by decide⟩
/-- Serve partition 0 with source 1, whose object 5 it mirrors. -/
def mirrorState : State :=
  { base with parts := [(0, { cfg := { cfg0 with serve := true, src := 1 }, objects := [(2, { size := 64, mirrorOf := some 5, copied := false })] }),
                        (1, { cfg := { cfg0 with clusters := [1], fn := 1 }, objects := [(5, { size := 64, base := sliceBytes * 15 })] })] }
def wMirror : List Byte := hdesc 0x0B 3 5 0 0
set_option maxRecDepth 20000 in
theorem wit_InstallsAndRemoves_mirrors :
    hostRuns mirrorState wMirror (objBytes 0x80) 0x0B
    ∧ (let u := hostAfter mirrorState wMirror (objBytes 0x80)
       let o := objOf (objBytes 0x80)
       u.objCode 0 3 ((objBytes 0x80).take 64) o = 0 ∧ ((u.part 0).objects.filter (fun x => x.2.mirrorOf.isSome)).length < 64 ∧ o.tier = 0 ∧ u.slicesOk 0 o = true
        ∧ (u.part 0).cfg.serve = true ∧ ∃ x ∈ (u.part (u.part 0).cfg.src).objects.find 5, x.size = o.size ∧ x.kind = o.kind)
    ∧ mirrorState.live = true ∧ (∃ o ∈ (mirrorState.part 0).objects.find 2, o.mirrorOf = some 5 ∧ o.copied = false)
    ∧ ((mirrorState.part 1).objects.find 5).isSome = true ∧ 1 ∉ mirrorState.tx.recovering :=
  ⟨runs_of (by decide) (by decide) (by decide), by decide⟩
/-- A membership image of one member, whose identity is eight bytes. -/
def imageBytes (id : List Byte) : List Byte := leBytes 4 1 ++ leBytes 4 1 ++ List.replicate 56 0 ++ id ++ List.replicate 8 0 ++ [0xFF]
theorem imageOf_imageBytes (id : List Byte) (h : id.length = 8) :
    imageOf (imageBytes id) = some ({ epoch := 1, own := 0, members := [(BitVec.ofNat 64 (leNat id), 0)], groups := [], routes := [0xFF] }, true) := by
  match id, h with
  | [a, b, c, d, e, f, g, i], _ =>
    have hl : (imageBytes [a, b, c, d, e, f, g, i]).length = 81 := rfl
    have h0 : leAt (imageBytes [a, b, c, d, e, f, g, i]) 0 4 = 1 := by
      rw [leAt, show slice (imageBytes [a, b, c, d, e, f, g, i]) 0 4 = [1, 0, 0, 0] from rfl]; decide
    have h4 : leAt (imageBytes [a, b, c, d, e, f, g, i]) 4 4 = 1 := by
      rw [leAt, show slice (imageBytes [a, b, c, d, e, f, g, i]) 4 4 = [1, 0, 0, 0] from rfl]; decide
    have h8 : leAt (imageBytes [a, b, c, d, e, f, g, i]) 8 4 = 0 := by
      rw [leAt, show slice (imageBytes [a, b, c, d, e, f, g, i]) 8 4 = [0, 0, 0, 0] from rfl]; decide
    have hC : leAt (imageBytes [a, b, c, d, e, f, g, i]) 12 2 = 0 := by
      rw [leAt, show slice (imageBytes [a, b, c, d, e, f, g, i]) 12 2 = [0, 0] from rfl]; decide
    have hm : slice (imageBytes [a, b, c, d, e, f, g, i]) 64 8 = [a, b, c, d, e, f, g, i] := rfl
    have hp : leAt (imageBytes [a, b, c, d, e, f, g, i]) 72 1 = 0 := by
      rw [leAt, show slice (imageBytes [a, b, c, d, e, f, g, i]) 72 1 = [0] from rfl]; decide
    have hr : leAt (imageBytes [a, b, c, d, e, f, g, i]) 80 1 = 0xFF := by
      rw [leAt, show slice (imageBytes [a, b, c, d, e, f, g, i]) 80 1 = [0xFF] from rfl]; decide
    have ha : leAt (imageBytes [a, b, c, d, e, f, g, i]) 64 8 = leNat [a, b, c, d, e, f, g, i] := by rw [leAt, hm]
    simp [imageOf, addrAt, hl, h0, h4, h8, hC, hp, hr, ha]
/-- The image of a single-module job of this part. -/
def ownImage : List Byte := imageBytes (slice (sha384 Config.devicePublicKey) 0 8)
theorem ownImage_reads : imageOf ownImage = some ({ epoch := 1, own := 0, members := [(moduleId, 0)], groups := [], routes := [0xFF] }, true) :=
  imageOf_imageBytes _ (by simp [slice])
theorem ownImage_taken (s : State) (h : (s.member 0).installed = false) :
    s.imageReject 0 { epoch := 1, own := 0, members := [(moduleId, 0)], groups := [], routes := [0xFF] } true = 0 := by simp [State.imageReject, h]
def wMembers : List Byte := hdesc 0x0C 0 0 0 0
theorem wit_InstallsAndRemoves_membership : ∀ s ∈ [base, run {}],
    hostRuns s wMembers ownImage 0x0C
    ∧ (∃ img, imageOf ownImage = some (img, true) ∧ (hostAfter s wMembers ownImage).imageReject 0 img true = 0)
    ∧ ((hostAfter s wMembers ownImage).member 0).installed = false ∧ ((hostAfter s wMembers ownImage).member 0).held = []
    ∧ ((hostAfter s wMembers ownImage).member 0).heldReports = [] := by
  intro s h
  have hm : s.link = {} := by revert s; simp [base, run]
  have hu : (hostAfter s wMembers ownImage).link = s.link := rfl
  have hr : (hostAfter s wMembers ownImage).member 0 = {} := by simp only [State.member, hu, hm]; rfl
  refine ⟨runs_of ?_ ?_ rfl, ⟨_, ownImage_reads, ownImage_taken _ (by rw [hr])⟩, by rw [hr], by rw [hr], by rw [hr]⟩
  · revert s; decide
  · have hb : ∀ l, (hostWith s wMembers l).boundPart (qFunc q0) = (hostWith s wMembers []).boundPart (qFunc q0) := fun l => rfl
    rw [hb]
    clear hm hu hr hb
    revert s
    decide
theorem wit_InstallsAndRemoves_busy : (∀ l, (hostAfter base wMembers l).busyPart 0 = true) ∧ (∀ l, (hostAfter (run {}) wMembers l).busyPart 0 = false) :=
  ⟨fun l => show (hostAfter base wMembers []).busyPart 0 = true by decide, fun l => show (hostAfter (run {}) wMembers []).busyPart 0 = false by decide⟩
def wSearch : List Byte := hdesc 0x0D 7 0 0 0
theorem wit_InstallsAndRemoves_search :
    hostRuns { objState with link := { links := [(23, { st := .up })] } } wSearch [] 0x0D
    ∧ (let s : State := hostWith { objState with link := { links := [(23, { st := .up })] } } wSearch []
       let u : State := hostAfter { objState with link := { links := [(23, { st := .up })] } } wSearch []
       bitAt ((s.host.ports.get {} q0.port).perm.toNat) q0.fn = true ∧ (∃ o ∈ (u.part 0).objects.find 7, o.tier = 0) ∧ u.link.search.own = false ∧ u.upLinks = [23]) :=
  ⟨runs_of (by decide) (by decide) (by decide), by decide⟩

/-! ### Exports, imports, replays -/

/-- Partition 0 after the sweep of step 7, with an export of it that waits. -/
def exportOf : Export := ⟨7, some 15, 0, 0, 0, someCmd⟩
def exportPart : Part := { cfg := cfg0, started := true, lastStarted := 7, lastCompleted := 7, exports := [exportOf], objects := [(7, { size := 4096 })] }
def exportState (ck : Tab (List Byte)) : State := { base with parts := [(0, exportPart)], net := { ckpts := ck } }
def wExport : List Byte := hdesc 0x0E 8 (2 ^ 63 + 15) 0 0
theorem wit_ExportsAndReplays_exports :
    (hostRuns (exportState []) wExport [] 0x0E
      ∧ (let c := hostCmd wExport []
         let u := hostAfter (exportState []) wExport []
         bitAt (c.arg 1) 63 = true ∧ fld (c.arg 1) 62 4 = 0 ∧ c.arg 3 < 2 ^ 32 ∧ (u.part 0).replay = none
          ∧ ¬ ((u.part 0).started = true ∧ (BitVec.ofNat 64 (c.arg 0) : Word).toNat < (u.part 0).lastStarted.toNat)))
    ∧ (let s := exportState []
       let p := s.part 0
       p.exports.find? (fun x => p.started && x.step = p.lastCompleted) = some exportOf ∧ s.live = true ∧ p.sweep = none ∧ p.replay = none ∧ 0 ∉ s.tx.recovering
        ∧ exportOf.checkpoint = some 15 ∧ s.gateOpen = true
        ∧ s.checkpointBytes 0 15 + (s.streamOf 0 0x534C4758 7 p.shardDigest { all := true, blocks := [] }).length ≤ checkpointCap) :=
  ⟨⟨runs_of (by decide) (by decide) (by decide), by decide⟩, by decide⟩
theorem wit_ExportsAndReplays_late_and_remote :
    (hostRuns (exportState []) (hdesc 0x0E 6 (2 ^ 63 + 15) 0 0) [] 0x0E
      ∧ ((exportState []).part 0).started = true ∧ 6 < ((exportState []).part 0).lastStarted.toNat)
    ∧ (let s : State := { exportState [] with net := { conns := [(1023, { params := [] })] }, parts := [(0, { exportPart with exports := [⟨7, none, 1023, 0, 0, someCmd⟩] })] }
       hostRuns s (hdesc 0x0E 8 1023 0 0) [] 0x0E ∧ ((hostAfter s (hdesc 0x0E 8 1023 0 0) []).net.conns.find (0 * 4096 + 1023)).isSome = true
        ∧ (s.part 0).exports.find? (fun x => (s.part 0).started && x.step = (s.part 0).lastCompleted) = some ⟨7, none, 1023, 0, 0, someCmd⟩) :=
  ⟨⟨runs_of (by decide) (by decide) (by decide), by decide⟩, runs_of (by decide) (by decide) (by decide), by decide⟩
/-- The length of the stream that the export would write into slot 15. -/
def exportLen (l : List Byte) : Nat := ((exportState [(0, l)]).streamOf 0 0x534C4758 7 ((exportState [(0, l)]).part 0).shardDigest { all := true, blocks := [] }).length
theorem exports_no_room (l : List Byte) (h : l.length = 3800000000000) : checkpointCap < (exportState [(0, l)]).checkpointBytes 0 15 + exportLen l := by
  have e : (exportState [(0, l)]).checkpointBytes 0 15 = l.length := by simp [exportState, State.checkpointBytes]
  have p : 0 < exportLen l := by
    simp [exportLen, State.streamOf, exportState, exportPart, State.part, Tab.get, leBytes]
  rw [e, h, checkpointCap]
  omega
theorem wit_ExportsAndReplays_no_room : ∃ l, checkpointCap < (exportState [(0, l)]).checkpointBytes 0 15 + exportLen l :=
  ⟨List.replicate 3800000000000 0, exports_no_room _ (List.length_replicate ..)⟩
def wImport : List Byte := hdesc 0x0F (2 ^ 63 + 15) 0 0 0
theorem wit_ExportsAndReplays_imports : ∀ l ∈ [[], leBytes 4 0x534C4758 ++ leBytes 2 1 ++ List.replicate 58 0],
    (let s := { exportState [(15, l)] with cores := [] }
     hostRuns s wImport [] 0x0F ∧ (hostWith s wImport []).atRest 0 = true ∧ (hostWith s wImport []).gateOpen = true
      ∧ ((hostAfter s wImport []).part 0).replay = none ∧ (hostAfter s wImport []).net.ckpts.get [] 15 = l)
    ∧ bitAt ((hostCmd wImport []).arg 0) 63 = true ∧ fld ((hostCmd wImport []).arg 0) 62 4 = 0 ∧ fld ((hostCmd wImport []).arg 0) 3 0 = 15 := by
  intro l h
  refine ⟨⟨runs_of ?_ ?_ ?_, ?_⟩, ?_⟩ <;> revert l <;> decide
theorem wit_ExportsAndReplays_replays :
    (hostRuns (exportState []) (hdesc 0x10 3 7 0 0) [] 0x10
      ∧ (let u := hostAfter (exportState []) (hdesc 0x10 3 7 0 0) []
         (∃ o ∈ (u.part 0).objects.find 7, o.tier < 2) ∧ (u.part 0).replay = none ∧ (u.part 0).sweep = none))
    ∧ (let s : State := { base with parts := [(0, { exportPart with replay := some { step := 3, object := 7 } })] }
       hostRuns s (hdesc 0x11 0 0 0 0) [] 0x11 ∧ ((hostAfter s (hdesc 0x11 0 0 0 0) []).part 0).replay = some { step := 3, object := 7 }) :=
  ⟨⟨runs_of (by decide) (by decide) (by decide), by decide⟩, runs_of (by decide) (by decide) (by decide), by decide⟩

/-! ### Network ports, links, collectives -/

/-- A connection 1023 with a writable, readable region over object 7 and one that is neither. -/
def rdmaState : State :=
  { objState with net := { conns := [(1023, { params := [], rate := 32768, since := 0 })], regions := [(5, { object := 7, write := true, read := true }), (6, { object := 7, write := false, read := false })] }
                  now := 50000 }
/-- A request of 16 bytes at the end of that object. -/
def rdmaReq (rkey : BitVec 32) : RdmaReq := { part := 0, conn := 1023, rkey := rkey, offset := 4080, data := List.replicate 16 1, length := 16 }
theorem wit_NetworkTraffic_rdma_refused : rdmaState.rdmaOpen (rdmaReq 6) = true ∧ rdmaState.rdmaTarget (rdmaReq 6) true 16 = none
    ∧ rdmaState.rdmaTarget (rdmaReq 6) false 16 = none := by decide
theorem wit_NetworkTraffic_rdma : rdmaState.rdmaOpen (rdmaReq 5) = true ∧ (rdmaState.rdmaTarget (rdmaReq 5) true 16).isSome = true
    ∧ (rdmaState.rdmaTarget (rdmaReq 5) false 16).isSome = true
    ∧ rdmaState.fallowFits (rdmaState.keysOf 0 0 0x3000070000000FF0 16) (List.replicate 16 1) = true ∧ rdmaState.live = true ∧ ctShapeOk 1 3 = true ∧ rdmaState.ctOwned 0 1 3 = true := by decide
theorem wit_NetworkTraffic_rates : rdmaState.net.conns.find (connKey 0 1023) = some { params := [], rate := 32768, since := 0 } ∧ 32768 < 65536
    ∧ 0 + 50000 ≤ rdmaState.now := by decide
theorem test_rdma_write_beyond_the_object_is_refused :
    ∃ t, exec (.rdmaWrite { rdmaReq 5 with offset := 4081 }) rdmaState = .next t ∧ t.mem = rdmaState.mem ∧ t.out = [.rdmaReply 0 1023 false []] := ⟨_, rfl, by decide⟩
/-- Serve partition 0 with its intake open, a ring of one slot, its slots and queue. -/
def serveState (intake : Bool) (sl : List Slot) (qu : List Queued) (rec_ : List Nat) : State :=
  { base with parts := [(0, { cfg := { cfg0 with serve := true, src := 1 } })], now := 1000000
              net := { ports := [(7, { up := true, ip4 := 1 })], holdPoint := [(1, 0)]
                       serve := [(0, { intake := intake, held := true, ring := 0x1001000000000000, slots := sl, queue := qu })] }
              tx := { recovering := rec_ } }
/-- A serve request of no data for partition 0, of the shortest deadline. -/
def serveDgram (magic : Nat) : Datagram :=
  { dgram0 (leBytes 4 magic ++ leBytes 4 1 ++ List.replicate 8 0 ++ leBytes 4 10000 ++ List.replicate 44 0) with ownPort := 0x4C40, ownIp := [0, 0, 0, 1] }
def slot0 : Slot := { index := 0, seq := 0, id := 0, deadline := 1002000, step := 0, route := [], port := 7 }
def queued0 : Queued := { bytes := [], arrived := 0, deadline := 1002000, route := [], port := 7 }
set_option maxRecDepth 20000 in
theorem wit_NetworkTraffic_requests :
    (let s := serveState true [] [] []
     let d := serveDgram 0x534C5251
     s.live = true ∧ s.addressed 7 d (fld (s.nport 7).udp.toNat 31 16) = true ∧ d.fragmented = false ∧ requestOk d.payload = true ∧ fld (leAt d.payload 5 1) 2 0 = 0
      ∧ requestOk (serveDgram 0).payload = false ∧ (s.part 0).cfg.enable = true ∧ (s.part 0).cfg.serve = true ∧ (s.serve 0).intake = true
      ∧ ((serveState false [] [] []).serve 0).intake = false ∧ 0 ∈ (serveState true [] [] [0]).tx.recovering ∧ 0 ∉ s.tx.recovering ∧ (s.serve 0).queue = []
      ∧ ({ s with net := { s.net with holdPoint := [] } } : State).canPlace 0 = true ∧ s.canPlace 0 = false)
    ∧ ((serveState true [] (List.replicate 4096 queued0) []).serve 0).queue.length = 4096
    ∧ (let s := serveState true [slot0] [queued0] []
       (s.part 0).cfg.strict = false ∧ (s.serve 0).queue[0]? = some queued0 ∧ queued0.deadline ≤ s.now + (s.serve 0).guardNs ∧ (s.serve 0).slots[0]? = some slot0
        ∧ slot0.deadline ≤ s.now + (s.serve 0).guardNs ∧ slot0.expired = false ∧ ({ s with mem := [(turfKey 0, 1)] } : State).slotState 0 0 = 1
        ∧ s.net.holdPoint.find (s.part 0).cfg.src = some 0 ∧ (s.serve 0).held = true ∧ 0 + 1000 * (s.serve 0).holdUs ≤ s.now) := by
  refine ⟨by decide, List.length_replicate .., by decide⟩
/-- Stream 4095 of partition 0 with a part of record 9, or none. -/
def streamState (r : Option PartialRec) : State :=
  { base with parts := [(0, { cfg := cfg0, stageSize := 1 })], now := 50000000, power := { bankJ := 0, domains := [0] }
              net := { ports := [(7, { up := true, ip4 := 1 })], streams := [(4095, { die := 0, offset := 0, size := 512, pair := 0, partialRec := r, route := [1] })] } }
/-- A fragment of 64 bytes of record 9 at an offset of a record of some length. -/
def fragDgram (off len : Nat) : Datagram :=
  { dgram0 (leBytes 4 0x534C5253 ++ leBytes 4 1 ++ leBytes 4 4095 ++ leBytes 4 64 ++ leBytes 8 9 ++ leBytes 4 len ++ leBytes 4 off ++ List.replicate 32 0
      ++ List.replicate 64 7) with ownPort := 0x4C41, ownIp := [0, 0, 0, 1] }
def rec9 : PartialRec := { seq := 9, length := 192, next := 64, at_ := 0, first := 0, last := 0 }
set_option maxRecDepth 20000 in
theorem wit_NetworkTraffic_fragments :
    (let s := streamState (some rec9)
     let d := fragDgram 64 192
     let f := fragOf d.payload
     s.addressed 7 d (fld (s.nport 7).udp.toNat 15 0) = true ∧ d.fragmented = false ∧ fragOk d.payload = true ∧ f.stream = 4095 ∧ leAt d.payload 6 1 = 0
      ∧ f.seq = rec9.seq ∧ f.recLen = rec9.length ∧ f.off = rec9.next ∧ f.off + f.len < rec9.length
      ∧ (∃ x ∈ s.stream 0 4095, x.partialRec = some rec9 ∧ f.seq ∉ x.discarded ∧ x.route ≠ []) ∧ rec9.last + 50000000 ≤ s.now)
    ∧ (let s := streamState none
       let d := fragDgram 0 64
       let f := fragOf d.payload
       s.addressed 7 d (fld (s.nport 7).udp.toNat 15 0) = true ∧ fragOk d.payload = true ∧ f.off = 0 ∧ f.len = f.recLen ∧ s.gateOpen = false ∧ base.gateOpen = true
        ∧ (∃ x ∈ s.stream 0 4095, x.partialRec = none ∧ x.lastSeq = none ∧ f.recLen + 64 ≤ x.size ∧ x.entryAt f.recLen + entryLen f.recLen ≤ s.credit x)) := by
  constructor <;> decide

/-- Link 23 as given and a membership of partition 0. -/
def linkState (l : Link) : State :=
  { base with now := 10008000, link := { links := [(23, l)], members := [(0, { installed := true, image := { epoch := 5, own := 0, groups := [[0, 1]] } })], time := { locked := true } } }
def upLink : Link := { st := .up, lanes := 0x0F, width := 4, peer := 9 }
theorem wit_LinkEvents :
    (let s := linkState upLink
     let f : Flit := { flit0 with type := 1, epoch := 6 }
     s.live = true ∧ (s.lnk 23).st = .up ∧ (s.lnk 23).discarding = false ∧ ({ flit0 with seq := 1 } : Flit).seq ≠ (s.lnk 23).rxSeq
      ∧ f.seq = (s.lnk 23).rxSeq ∧ f.type = 1 ∧ (s.lnk 23).queued = [] ∧ (s.part 0).cfg.enable = true ∧ f.dst = (s.member 0).image.own ∧ epochCmp f.epoch (s.member 0).image.epoch = 1
      ∧ (s.lnk 23).retryTimes = [] ∧ ((s.lnk 23).replay.map (·.seq)).Nodup ∧ (s.lnk 23).replay.length < 2048
      ∧ (s.lnk 23).lastGood + 8000 ≤ s.now ∧ s.link.search.serving = false
      ∧ (3 < 5 ∧ 3 ∉ (s.lnk 23).failed ∧ (s.lnk 23).failed.length < 2 ∧ (s.lnk 23).lanes.getLsbD 3 = true ∧ (s.lnk 23).replay = []
          ∧ (List.range 5).find? (fun i => !(s.lnk 23).lanes.getLsbD i && i ∉ (s.lnk 23).failed ++ [3]) = some 4)
      ∧ s.link.time.locked = true ∧ s.link.time.inSync = false ∧ (∀ j < 24, j ≠ 23 → (s.lnk j).st ≠ .up)
      ∧ s.link.search.highest < 1 ∧ s.link.search.own = false
      ∧ (s.member 0).installed = true ∧ epochCmp 6 (s.member 0).image.epoch = 1 ∧ (∀ c ∈ s.link.colls, c.part ≠ 0))
    ∧ ({ linkState upLink with link := { links := [(0, upLink), (23, upLink)] } } : State).upLinks.filter (· ≠ 23) ≠ []
    ∧ ((linkState { st := .training }).lnk 23).st = .training
    ∧ (let l := (linkState { st := .down, downAt := 8000 }).lnk 23
       l.st = .down ∧ l.downAt + 10000000 ≤ (linkState { st := .down, downAt := 8000 }).now ∧ l.replay = [] ∧ l.queued = [])
    ∧ (3 ≤ lanesIn 0x07 ∧ lanesIn 0x0F ≤ 4) := by decide
theorem test_three_lanes_train :
    ∃ t, exec (.linkRetrain 23 ⟨true, 0x07, 9, 1⟩) (linkState { st := .training }) = .next t ∧ (t.lnk 23).st = .up ∧ (t.lnk 23).width = 3 := ⟨_, rfl, by decide⟩

/-- A collective 4 of two members, as given. -/
def xState (c : Coll) : State :=
  { base with now := 500000000, link := { colls := [c], members := [(0, { installed := true, image := { own := 0, groups := [[0, 1]] } })] } }
/-- An all-reduce of four elements in a phase, what has come in and what is here. -/
def xColl (ph : CollPhase) (inbox : List InFlit) (got : Tab Nat) : Coll :=
  { num := 4, part := 0, p := p0, phase := ph, inbox := inbox, got := got, cmd := { elems := 4, shards := 1, inFmt := 0x11, outFmt := 0x11 } }
/-- A permute of two elements in place. -/
def xPerm : Coll :=
  { num := 4, part := 0, p := p0, phase := .direct, got := [(0, 1), (1, 2)], counts := [2], cmd := { kind := 4, inPlace := true, inFmt := 0x11, outFmt := 0x11, bufSize := 1 } }
theorem wit_CollectivesRun :
    (∀ ph ∈ [CollPhase.submitted, .counts, .exponents], (xState (xColl ph [] [])).live = true
      ∧ (xState (xColl ph [] [])).link.colls.find? (fun c => c.num = 4) = some (xColl ph [] []) ∧ (xColl ph [] []).cmd.kind ≤ 1)
    ∧ (let f : Flit := { flit0 with src := 1, first := 1 }
       let c := xColl .gather [⟨0, 0, f⟩] []
       (xState c).link.colls.find? (fun c => c.num = 4) = some c ∧ f.vals = [] ∧ (xState c).endsStep c (((xState c).collGroup c).findIdx (· = f.src)) f = false)
    ∧ (let f : Flit := { flit0 with src := 1, first := 1, vals := [9] }
       let c := { xColl .reduce [⟨0, 0, f⟩] [] with cmd := { (xColl .reduce [] []).cmd with elems := 256 } }
       let s : State := { xState c with link := { colls := [c], members := [(0, { installed := true, image := { own := 0, groups := [List.range 66] } })] } }
       c.phase = .reduce ∧ c.sums.find 1 = none ∧ c.joined.get 0 1 + 1 < (reduceHop (s.collGroup c).length (s.ownerOf c 1) (s.collPos c)).1)
    ∧ ((xState xPerm).link.colls.find? (fun c => c.num = 4) = some xPerm ∧ xPerm.cmd.inPlace = true
        ∧ min (xPerm.counts.getD 0 0 - piecesEnd (xPerm.sentLocal.length + 1) 0 xPerm.sentLocal)
            (min (65536 * xPerm.cmd.bufSize / 232 * (232 / collSize xPerm.cmd.outFmt)) (2 ^ 26 / collSize xPerm.cmd.outFmt)) = 2
        ∧ ∀ i < 2, (xPerm.got.find i).isSome = true)
    ∧ (let c := xColl .gather [] []
       (xState c).awaited c ≠ [] ∧ ((xState c).awaited c).all (fun e => (c.got.find e).isSome) = false
        ∧ c.readyAt + 1000000 * c.stepMs ≤ (xState c).now)
    ∧ (let c := xColl .gather [] [(0, 0), (1, 0), (2, 0), (3, 0)]
       (xState c).collDone c = true)
    ∧ (let c := xColl .gather [] []
       let f : Flit := { flit0 with type := 4 }
       f.dst = ((xState c).member 0).image.own ∧ f.epoch = ((xState c).member 0).image.epoch ∧ (xState c).collOf 0 f = some c
        ∧ (xState c).collOf 0 { f with coll := 1 } = none ∧ epochCmp ({ f with epoch := 1 } : Flit).epoch ((xState c).member 0).image.epoch = 1) := by decide

/-! ### Registers, management, the test port -/

/-- Identity with a licence in the way or not: a handover makes an apply wait. -/
def licState (h : Option Handover) : State := { base with errs := { handover := h } }
set_option maxRecDepth 20000 in
theorem wit_RegisterCommands :
    base.live = true ∧ (0x80000000 : BitVec 32).getLsbD 31 = true ∧ base.ident.busy = false ∧ (licState (some {})).licenceWaits = true ∧ (licState none).licenceWaits = false
    ∧ (base.power.gated = [] ∧ base.gateOpen = true ∧ ({ base with power := { bankJ := 0 } } : State).gateOpen = false
        ∧ (base.part 7).cfg.enable = false ∧ fld (0x00EF0001 : BitVec 32).toNat 23 16 + fld (0x00EF0001 : BitVec 32).toNat 7 0 ≤ 240
        ∧ (∀ m < 8, m ≠ 7 → (base.part m).stageSize = 0))
    ∧ (∃ o ∈ (objState.part 0).objects.find (fld (0x8000000000000007 : Word).toNat 19 0), o.tier = 0 ∧ o.size ≤ 2 ^ 30)
    ∧ ((∀ p ∈ base.ctxsOf 0, (base.ctx p).state ≠ .waiting) ∧ fld (0x000FFFFF : BitVec 32).toNat 19 0 ≠ 0)
    ∧ (let s : State := { base with host := { funcs := [(0, { err := { sizeLog2 := 4, head := 15, tail := 17 } })] } }
       let e := (s.func f0).err
       (fld (1 : Word).toNat 11 0 < 16 ∧ (fld (1 : Word).toNat 11 0 + 16 - e.head % 16) % 16 ≠ 0 ∧ e.head + (fld (1 : Word).toNat 11 0 + 16 - e.head % 16) % 16 ≤ e.tail)
        ∧ 16 ≤ fld (16 : Word).toNat 11 0 ∧ e.tail < e.head + (fld (2 : Word).toNat 11 0 + 16 - e.head % 16) % 16) := by decide
theorem wit_RegisterCommands_counters :
    (∀ b ∈ [Block.co 0, .cl 0], base.cntReach .mgmt b = true ∧ base.cntReach (.host f0) b = true ∧ base.counters b ≠ [])
    ∧ (base.core 0).frozen ≠ some .retire ∧ (2 : BitVec 32).getLsbD 1 = true ∧ (2 : BitVec 32).getLsbD 0 = false ∧ (1 : BitVec 32).getLsbD 1 = false ∧ (1 : BitVec 32).getLsbD 0 = true
    ∧ mayClear (.host f0) (.cl 79) = true ∧ mayClear (.host f0) .xu = false ∧ base.cntReach (.host f0) .xu = true ∧ base.counters .xu ≠ []
    ∧ (∀ i ∈ [3, 4], ∀ b ∈ [Block.hub, .co 1199, .hq ⟨3, 16⟩], blockAt (commonAddr b i) = some (b, blockSize b - 0x40 + 8 * i)) ∧ base.blockOn .hub = true := by decide
theorem wit_RegisterCommands_hold : (holdState false none [0, 23] false).live = false
    ∧ ∀ b ∈ [Block.ft, .co 1199, .hq ⟨3, 16⟩, .xu], (blockDomain b).isSome = true := by decide
theorem wit_PowerRegisters : (4 : Nat) = 4 ∨ (4 : Nat) = 8 := Or.inl rfl
theorem test_power_limit_is_clamped :
    ∃ t, exec (.registerWrite .mgmt 0x20000 4 0xFFFF) base = .next t ∧ t.power.limitW = 4800 := ⟨_, rfl, by decide⟩
/-- A log of records 3 and 4 of which the newest is 4. -/
def logState : State := { base with errs := { log := [{ seq := 3 }, { seq := 4 }], nextSeq := 5 }, host := { ports := [(3, { up := true })] } }
/-- A state in which a request with tag 2 waits. -/
def busyBus : State := { base with mgmt := { waiting := [.read ⟨2, 8, 0x26000⟩] } }
theorem wit_ManagementAndAttestation_waiting :
    (∃ x ∈ busyBus.mgmt.waiting, x.tag = (MgmtCmd.log 2 1 0).tag) ∧ busyBus.mgmt.waiting ≠ [] ∧ (∀ x ∈ busyBus.mgmt.waiting, x.tag ≠ (MgmtCmd.log 3 1 0).tag)
    ∧ (MgmtCmd.log 3 1 0).ok = true ∧ base.mgmt.waiting = [] := by decide
theorem test_reused_tag_is_counted :
    ∃ t, exec (.mgmtLogRead 2 1 0) busyBus = .next t ∧ t.regs.accErr = [{ block := .mgt, count := 1, offset := 0 }] := ⟨_, rfl, by decide⟩
theorem wit_ManagementAndAttestation :
    (mgmtOk ⟨4, 4, 0⟩ = false ∧ mgmtOk ⟨3, 2, 0⟩ = false ∧ mgmtOk ⟨3, 8, 0x4000000⟩ = false ∧ mgmtOk ⟨3, 8, 0x3FFFFF8⟩ = true)
    ∧ (mgmtOk ⟨0, 4, 0x20000⟩ = true ∧ ∀ x ∈ viewAt .mgmt 0x20000, base.answers x.1 = true)
    ∧ ((base.errs.log.filter (fun r => 0 ≤ r.seq)).take 1 = [] ∧ (logState.errs.log.filter (fun r => 2 ≤ r.seq)).take 16 = [{ seq := 3 }, { seq := 4 }])
    ∧ ((8 : Byte) ≠ 0 ∧ (8 : Byte) ≠ 0xFF)
    ∧ (logState.live = true ∧ (logState.host.ports.get {} 3).up = true ∧ logState.errs.handover = none ∧ (licState (some {})).errs.handover.isSome = true)
    ∧ (∀ i ∈ [1, 5], (base.measurement i).isSome = true) := by
  refine ⟨by decide, by decide, by decide, by decide, by decide, ?_⟩
  intro i h
  simp only [List.mem_cons, List.not_mem_nil, or_false] at h
  rcases h with rfl | rfl <;> rfl
theorem wit_TestAccessPort : base.mgmt.modResetLow = false ∧ ({ base with mgmt := { modResetLow := true } } : State).mgmt.modResetLow = true := by decide
theorem wit_WindowedSumsIgnoreOrder : List.Perm [Val.zero, .inf true] [.inf true, Val.zero] ∧ Val.isFin .nan = false := ⟨List.Perm.swap .., rfl⟩
theorem wit_StepRunsFrontCommand : State.reset.pending = [] := rfl
theorem wit_StepKeepsBytesCanonical : State.reset.bytesOk ∧ ∃ t, step { base with pending := [.nop p0 zZ] } = .next t := ⟨⟨rfl, fun _ h => nomatch h⟩, _, rfl⟩
theorem test_step_takes_the_front_command :
    ∃ t, step { base with pending := [.lih p0 ⟨6, 0, 0, 0, 7⟩, .nop p0 zZ] } = .next t ∧ (t.ctx p0).getS 6 = 0x700000000 ∧ t.pending = [.nop p0 zZ] := ⟨_, rfl, by decide, rfl⟩
/-- R129 to R134, R159: one word of each class, its fields placed bit by bit; a word with a reserved class or sub-operation is ILL. -/
theorem test_words_decode :
    decodeTableWord 64 0x0028820100000000 = some (.sub p0 ⟨5, 2, 1, 0, 0⟩)
    ∧ decodeTableWord 64 0x02304005FFFFFFF8 = some (.ld p0 ⟨6, 1, 0, 0, 0xFFFFFFF8⟩ 5)
    ∧ decodeTableWord 64 0x05F8010000000002 = some (.jal p0 ⟨31, 0, 0, 1, 2⟩)
    ∧ decodeTableWord 64 0x2031230300110000 = some (.vfma p0 ⟨3, 1, 2, 3, 0, 0, 0x11, 0⟩)
    ∧ decodeTableWord 64 0x290100003800007F = some (.vext p0 ⟨0, 1, 0, 0, 7, 0, 0, 127⟩)
    ∧ decodeTableWord 64 0x40C042C000000000 = some (.tmul p0 ⟨3, 0, 0, 4, 5, 0x20, 0⟩)
    ∧ decodeTableWord 64 0x6300400000000000 = some (.rstat p0 ⟨0, 1, 0⟩)
    ∧ decodeTableWord 64 0x80090B005FC00000 = some (.mov p0 ⟨1, 4, 5, 2, 383, 0⟩)
    ∧ decodeTableWord 64 0xA900038200000078 = some (.harr p0 ⟨7, 0, 1, 0, 120⟩)
    ∧ decodeTableWord 64 0xC130000000000000 = some (.txc p0 ⟨6, 0, 0⟩)
    ∧ decodeTableWord 64 0xD000400000000000 = some (.xcoll p0 ⟨0, 1, 0⟩)
    ∧ decodeTableWord 64 0xE230000000000000 = some (.tstat p0 ⟨6, 0, 0⟩)
    ∧ decodeTableWord 64 0xF230020000000007 = some (.cstart p0 ⟨6, 0, 1, 0, 0, 7⟩)
    ∧ decodeTableWord 64 0xFFFFFFFFFFFFFFFF = some (.ill p0)
    ∧ decodeTableWord 64 0x1000000000000000 = some (.ill p0)
    ∧ decodeTableWord 64 0x0000001000000000 = some (.ill p0)
    ∧ decodeTableWord 32 0 = none := by decide

end Sys2Proof.Tests
end

section
/-! PROOFS. What the register commands leave (licences, gated writes, watchdog bounds, strict budgets, the error ring's
head, counters, the common registers), one lemma per operation of the model, and the statement assembled from them. -/

namespace Sys2Proof.Machine

theorem Completes.next {t : State} {P : State → Prop} (h : P t) : Completes (.next t) P := ⟨t, rfl, h⟩

/-! ### Licences (R539 to R541, R543) -/

/-- Licensing the links touches the link records alone. -/
theorem State.licenseLinks_eq (s : State) : s.licenseLinks = { s with link := s.licenseLinks.link } :=
  List.foldlRecOn (motive := fun t : State => t = { s with link := t.link }) (List.range 24) _ rfl (fun t ht k _ => by rw [ht]; rfl)

/-- The state in which a licence apply is under way. -/
def State.licenceBusy (s : State) : State := { s with ident := { s.ident with busy := true } }

/-- The identity fields that an accepted licence of bytes `l` leaves (R541). -/
def IdState.accept (i : IdState) (l : List Byte) : IdState :=
  let v := BitVec.ofNat 8 (leAt l 0x10 1)
  { i with busy := false, result := BitVec.ofNat 8 1, variant := v, seq := leAt l 4 4,
           stored := { seq := leAt l 4 4, variant := v, bytes := l } }

/-- Setting the link domains touches the power records alone. -/
theorem State.linkDomains_eq (s : State) : s.linkDomains = { s with power := s.linkDomains.power } := rfl

/-- An accepted licence in ID_LIC_DATA, before the links follow it (R540). -/
def State.licenceTaken (s : State) : State := ({ s with ident := s.ident.accept s.ident.licence } : State).linkDomains

/-- The state after the licence in ID_LIC_DATA was accepted (R540, R541). -/
def State.licensed (s : State) : State := s.licenceTaken.licenseLinks

/-- An accepted licence changes identity, power domains and links, and nothing else (R540, R541). -/
theorem State.licensed_eq (s : State) :
    s.licensed = { s with ident := s.ident.accept s.ident.licence, power := s.licenceTaken.power, link := s.licensed.link } := by
  calc s.licensed = { s.licenceTaken with link := s.licensed.link } := s.licenceTaken.licenseLinks_eq
    _ = _ := congrArg (fun t : State => { t with link := s.licensed.link })
      (State.linkDomains_eq { s with ident := s.ident.accept s.ident.licence })

theorem State.tryLicence_waits {s : State} (hw : s.licenceWaits = true) : s.licenceBusy.tryLicence = s.licenceBusy := by
  have hw' : s.licenceBusy.licenceWaits = true := hw
  simp [State.tryLicence, hw']

theorem State.tryLicence_accepted {s : State} (hw : s.licenceWaits = false) (hc : s.licenceCode s.ident.licence = 1) :
    s.licenceBusy.tryLicence = s.licensed := by
  have hw' : s.licenceBusy.licenceWaits = false := hw
  have hc' : s.licenceBusy.licenceCode s.licenceBusy.ident.licence = 1 := hc
  unfold State.tryLicence
  simp only [hw', hc']
  rfl

theorem State.tryLicence_refused {s : State} (hw : s.licenceWaits = false) (hc : s.licenceCode s.ident.licence ≠ 1) :
    s.licenceBusy.tryLicence
      = { s with ident := { s.ident with busy := false, result := BitVec.ofNat 8 (s.licenceCode s.ident.licence) } } := by
  have hw' : s.licenceBusy.licenceWaits = false := hw
  have hc' : s.licenceBusy.licenceCode s.licenceBusy.ident.licence ≠ 1 := hc
  unfold State.tryLicence
  simp only [hw', if_pos hc']
  rfl

theorem exec_licenceApply {s : State} {v : BitVec 32} (hl : s.live = true) (hv : v.getLsbD 31 = true) (hb : s.ident.busy = false) :
    exec (.licenceApply .mgmt v) s = .next s.licenceBusy.tryLicence := by
  change execLicenceApply .mgmt v s = _
  simp [execLicenceApply, hl, hv, hb, State.licenceBusy]

theorem licenceApply_waits {s : State} {v : BitVec 32} (hl : s.live = true) (hv : v.getLsbD 31 = true)
    (hb : s.ident.busy = false) (hw : s.licenceWaits = true) :
    Completes (exec (.licenceApply .mgmt v) s) (fun t => t = { s with ident := { s.ident with busy := true } }) := by
  rw [exec_licenceApply hl hv hb, State.tryLicence_waits hw]
  exact .next rfl

theorem licenceApply_runs {s : State} {v : BitVec 32} (hl : s.live = true) (hv : v.getLsbD 31 = true)
    (hb : s.ident.busy = false) (hw : s.licenceWaits = false) :
    let l := s.ident.licence
    Completes (exec (.licenceApply .mgmt v) s) (fun t => t.ident.result = BitVec.ofNat 8 (s.licenceCode l) ∧
      if s.licenceCode l = 1 then t = { s with ident := t.ident, power := t.power, link := t.link } ∧ t.ident.busy = false
        ∧ t.ident.variant = BitVec.ofNat 8 (leAt l 0x10 1) ∧ t.ident.seq = leAt l 4 4
        ∧ t.ident.stored = { seq := leAt l 4 4, variant := BitVec.ofNat 8 (leAt l 0x10 1), bytes := l }
      else t = { s with ident := { s.ident with result := t.ident.result } }) := by
  intro l
  rw [exec_licenceApply hl hv hb]
  by_cases hc : s.licenceCode l = 1
  · have hident : s.licensed.ident = s.ident.accept l := by rw [s.licensed_eq]
    have hpower : s.licensed.power = s.licenceTaken.power := by rw [s.licensed_eq]
    rw [State.tryLicence_accepted hw hc]
    refine .next ⟨?_, ?_⟩
    · rw [hident, hc]
      rfl
    · rw [if_pos hc, hident, hpower]
      exact ⟨s.licensed_eq, rfl, rfl, rfl, rfl⟩
  · rw [State.tryLicence_refused hw hc]
    have hbusy : ({ s.ident with busy := false } : IdState) = s.ident := by rw [← hb]
    refine .next ⟨rfl, ?_⟩
    rw [if_neg hc]
    exact congrArg (fun i : IdState => ({ s with ident := { i with result := BitVec.ofNat 8 (s.licenceCode l) } } : State)) hbusy

/-! ### Gated writes (R456, R513, R523) -/

theorem State.gatedWrite_closed {s : State} (n : Nat) (keep : Bool) (v : Word) (hg : s.gateOpen = false) :
    s.gatedWrite n keep v = { s with power := { s.power with gated := s.power.gated ++ [(n, keep, v)] } } := by
  simp [State.gatedWrite, hg]

theorem State.gatedWrite_open {s : State} (n : Nat) (keep : Bool) (v : Word) (hg : s.gateOpen = true) (he : s.power.gated = []) :
    s.gatedWrite n keep v = if keep then s.setKeep n v else s.setStage n v := by
  simp [State.gatedWrite, hg, he]

/-- A staging share that fits and overlaps no other partition's is set (R456). -/
theorem State.setStage_of_free {s : State} {n : Nat} {v : Word} (hd : (s.part n).cfg.enable = false)
    (hfit : fld v.toNat 23 16 + fld v.toNat 7 0 ≤ 240)
    (hfree : ∀ m, m < 8 → m ≠ n → fld v.toNat 7 0 = 0 ∨ (s.part m).stageSize = 0
      ∨ fld v.toNat 23 16 + fld v.toNat 7 0 ≤ (s.part m).stageBase ∨ (s.part m).stageBase + (s.part m).stageSize ≤ fld v.toNat 23 16) :
    s.setStage n v = s.updPart n (fun q => { q with stageBase := fld v.toNat 23 16, stageSize := fld v.toNat 7 0 }) := by
  have hclash : (List.range 8).any (fun m => m ≠ n && fld v.toNat 7 0 ≠ 0 && (s.part m).stageSize ≠ 0
      && fld v.toNat 23 16 < (s.part m).stageBase + (s.part m).stageSize
      && (s.part m).stageBase < fld v.toNat 23 16 + fld v.toNat 7 0) = false := by
    rw [List.any_eq_false]
    intro m hm hx
    simp only [Bool.and_eq_true, decide_eq_true_eq] at hx
    obtain ⟨⟨⟨⟨hne, hsize⟩, hother⟩, hbelow⟩, habove⟩ := hx
    have := hfree m (List.mem_range.mp hm) hne
    omega
  unfold State.setStage
  dsimp only
  rw [hclash, hd, if_neg (by simpa using hfit)]

/-- A turf object of at most 1 GiB is kept (R523). -/
theorem State.setKeep_of_turf {s : State} {n : Nat} {v : Word} {o : Obj} (ho : (s.part n).objects.find (fld v.toNat 19 0) = some o)
    (ht : o.tier = 0) (hs : o.size ≤ 2 ^ 30) :
    s.setKeep n v = s.updPart n (fun q => { q with keepValid := v.getLsbD 63, keepObj := fld v.toNat 19 0 }) := by
  have hsmall : (o.tier = 0 && o.size ≤ 2 ^ 30) = true := by simpa [ht] using hs
  unfold State.setKeep
  simp only [ho, hsmall, if_true]

theorem exec_stageWrite {s : State} {n : Nat} (v : BitVec 32) (hl : s.live = true) (hn : n < 8) :
    exec (.stageWrite .mgmt n v) s = .next (s.gatedWrite n false (v.setWidth 64)) := by
  change execStageWrite .mgmt n v s = _
  simp [execStageWrite, hl, hn]

theorem exec_keepWrite {s : State} {n : Nat} (v : Word) (hl : s.live = true) (hn : n < 8) :
    exec (.keepWrite .mgmt n v) s = .next (s.gatedWrite n true v) := by
  change execKeepWrite .mgmt n v s = _
  simp [execKeepWrite, hl, hn]

theorem toNat_setWidth_64 (v : BitVec 32) : (v.setWidth 64).toNat = v.toNat :=
  BitVec.toNat_setWidth_of_le (by decide)

theorem stageWrite_closed {s : State} {n : Nat} (v : BitVec 32) (hl : s.live = true) (hn : n < 8) (he : s.power.gated = [])
    (hg : s.gateOpen = false) :
    Completes (exec (.stageWrite .mgmt n v) s) (fun t => t = { s with power := { s.power with gated := [(n, false, v.setWidth 64)] } }) := by
  rw [exec_stageWrite v hl hn, State.gatedWrite_closed n false _ hg, he]
  exact .next rfl

theorem stageWrite_open {s : State} {n : Nat} {v : BitVec 32} (hl : s.live = true) (hn : n < 8) (he : s.power.gated = [])
    (hg : s.gateOpen = true) (hd : (s.part n).cfg.enable = false) (hfit : fld v.toNat 23 16 + fld v.toNat 7 0 ≤ 240)
    (hfree : ∀ m, m < 8 → m ≠ n → fld v.toNat 7 0 = 0 ∨ (s.part m).stageSize = 0
      ∨ fld v.toNat 23 16 + fld v.toNat 7 0 ≤ (s.part m).stageBase ∨ (s.part m).stageBase + (s.part m).stageSize ≤ fld v.toNat 23 16) :
    Completes (exec (.stageWrite .mgmt n v) s) (fun t =>
      t = s.updPart n (fun q => { q with stageBase := fld v.toNat 23 16, stageSize := fld v.toNat 7 0 })) := by
  rw [← toNat_setWidth_64 v] at hfit hfree ⊢
  rw [exec_stageWrite v hl hn, State.gatedWrite_open n false _ hg he]
  exact .next (State.setStage_of_free hd hfit hfree)

theorem keepWrite_open {s : State} {n : Nat} {v : Word} {o : Obj} (hl : s.live = true) (hn : n < 8) (he : s.power.gated = [])
    (hg : s.gateOpen = true) (ho : (s.part n).objects.find (fld v.toNat 19 0) = some o) (ht : o.tier = 0) (hs : o.size ≤ 2 ^ 30) :
    Completes (exec (.keepWrite .mgmt n v) s) (fun t =>
      t = s.updPart n (fun q => { q with keepValid := v.getLsbD 63, keepObj := fld v.toNat 19 0 })) := by
  rw [exec_keepWrite v hl hn, State.gatedWrite_open n true v hg he]
  exact .next (State.setKeep_of_turf ho ht hs)

/-! ### Watchdog bounds and strict budgets (R316, R332, R389) -/

theorem State.watchdog_of_not_waiting {s : State} {p : At} (h : (s.ctx p).state ≠ .waiting) : s.watchdog p = s := by
  unfold State.watchdog
  split
  · contradiction
  · rfl

/-- An update that leaves a partition's configuration leaves the list of its contexts. -/
theorem State.ctxsOf_updPart {s : State} {n : Nat} {f : Part → Part} (h : (f (s.part n)).cfg = (s.part n).cfg) :
    (s.updPart n f).ctxsOf n = s.ctxsOf n := by
  simp [State.ctxsOf, State.coresOf, h]

/-- The new bounds where no context of the partition waits: the watchdog finds nothing to fault (R316). -/
theorem State.writeSync_of_none_waiting {s : State} {n : Nat} (v : BitVec 32) (h : ∀ p ∈ s.ctxsOf n, (s.ctx p).state ≠ .waiting) :
    s.writeSync n v = s.updPart n (fun q =>
      { q with stepHoldS := fld v.toNat 23 16, ctxWaitMs := if fld v.toNat 15 0 = 0 then q.ctxWaitMs else fld v.toNat 15 0 }) := by
  unfold State.writeSync
  dsimp only
  rw [State.ctxsOf_updPart rfl]
  exact List.foldlRecOn (motive := fun t => t = _) _ _ rfl
    (fun t ht p hp => by rw [State.watchdog_of_not_waiting (by rw [ht]; exact h p hp), ht])

theorem syncWrite_completes {s : State} {n : Nat} (v : BitVec 32) (hl : s.live = true) (hn : n < 8)
    (h : ∀ p ∈ s.ctxsOf n, (s.ctx p).state ≠ .waiting) :
    Completes (exec (.syncWrite .mgmt n v) s) (fun t => t = s.updPart n (fun q =>
      { q with stepHoldS := fld v.toNat 23 16, ctxWaitMs := if fld v.toNat 15 0 = 0 then q.ctxWaitMs else fld v.toNat 15 0 })) := by
  have he : exec (.syncWrite .mgmt n v) s = .next (s.writeSync n v) := by
    change execSyncWrite .mgmt n v s = _
    simp [execSyncWrite, hl, hn]
  rw [he]
  exact .next (State.writeSync_of_none_waiting v h)

/-- A strict budget takes effect at once where the partition is disabled, serves, or runs no context (R389). -/
def State.strictAtOnce (s : State) (n : Nat) : Prop :=
  (s.part n).cfg.enable = false ∨ (s.part n).cfg.serve = true ∨ s.busyPart n = false

theorem State.writeStrict_atOnce {s : State} {n : Nat} {v : BitVec 32} (hv : fld v.toNat 19 0 ≠ 0) (h : s.strictAtOnce n) :
    s.writeStrict n v = s.updPart n (fun q => { q with budgetWritten := fld v.toNat 19 0, budget := fld v.toNat 19 0 }) := by
  have hb : (!(s.part n).cfg.enable || (s.part n).cfg.serve || !s.busyPart n) = true := by
    simpa [State.strictAtOnce, or_assoc] using h
  simp [State.writeStrict, hv, hb]

theorem State.writeStrict_later {s : State} {n : Nat} {v : BitVec 32} (hv : fld v.toNat 19 0 ≠ 0) (h : ¬ s.strictAtOnce n) :
    s.writeStrict n v = s.updPart n (fun q => { q with budgetWritten := fld v.toNat 19 0 }) := by
  have hb : (!(s.part n).cfg.enable || (s.part n).cfg.serve || !s.busyPart n) = false := by
    simpa [State.strictAtOnce, and_assoc] using h
  simp [State.writeStrict, hv, hb]

theorem strictWrite_completes {s : State} {n : Nat} {v : BitVec 32} (hl : s.live = true) (hn : n < 8) (hv : fld v.toNat 19 0 ≠ 0) :
    Completes (exec (.strictWrite .mgmt n v) s) (fun t =>
      (s.strictAtOnce n → t = s.updPart n (fun q => { q with budgetWritten := fld v.toNat 19 0, budget := fld v.toNat 19 0 }))
      ∧ (¬ s.strictAtOnce n → t = s.updPart n (fun q => { q with budgetWritten := fld v.toNat 19 0 }))) := by
  have he : exec (.strictWrite .mgmt n v) s = .next (s.writeStrict n v) := by
    change execStrictWrite .mgmt n v s = _
    simp [execStrictWrite, hl, hn]
  rw [he]
  exact .next ⟨State.writeStrict_atOnce hv, State.writeStrict_later hv⟩

/-! ### The head of an error ring (R473, R493) -/

theorem exec_errHeadWrite {s : State} (f : FuncRef) (v : Word) (hl : s.live = true) :
    exec (.errHeadWrite f v) s = .next (s.writeErrHead f v) := by
  change execErrHeadWrite f v s = _
  simp [execErrHeadWrite, hl]

theorem errHeadWrite_advances {s : State} {f : FuncRef} {v : Word} (hl : s.live = true) :
    let e := (s.func f).err
    let size := 2 ^ e.sizeLog2
    let h := fld v.toNat 11 0
    let adv := (h + size - e.head % size) % size
    h < size → adv ≠ 0 → e.head + adv ≤ e.tail → Completes (exec (.errHeadWrite f v) s) (fun t =>
      t = s.updFunc f (fun g => { g with err := { e with head := e.head + adv, overRec := none } })) := by
  intro e size h adv hh ha ht
  rw [exec_errHeadWrite f v hl]
  refine .next ?_
  have hok : ¬ (size ≤ h || e.tail < e.head + adv) = true := by simp [hh, ht]
  exact (if_neg hok).trans (if_neg ha)

theorem errHeadWrite_beyond {s : State} {f : FuncRef} {v : Word} (hl : s.live = true) :
    let e := (s.func f).err
    let size := 2 ^ e.sizeLog2
    let h := fld v.toNat 11 0
    let adv := (h + size - e.head % size) % size
    size ≤ h ∨ e.tail < e.head + adv → Completes (exec (.errHeadWrite f v) s) (fun t => t = s.badAccess (.hq f) 0x1090) := by
  intro e size h adv hbad
  rw [exec_errHeadWrite f v hl]
  exact .next (if_pos (by simpa using hbad))

/-! ### Counters (R125, R128, R557 to R559) -/

/-- Every count of a list is zero. -/
def AllZero (l : List Nat) : Prop := ∀ n ∈ l, n = 0

theorem allZero_zeros (l : List Nat) : AllZero (zeros l) := by
  simp [AllZero, zeros]

theorem AllZero.append {l m : List Nat} (hl : AllZero l) (hm : AllZero m) : AllZero (l ++ m) :=
  fun n hn => (List.mem_append.mp hn).elim (hl n) (hm n)

theorem AllZero.countersAt {l : List Nat} (h : AllZero l) (base : Nat) : ∀ x ∈ countersAt base l, x.2 = 0 := by
  simp only [Machine.countersAt, List.mem_map, List.mem_range]
  rintro _ ⟨i, hi, rfl⟩
  exact h _ (by simp [hi])

/-- Records whose counters are cleared one after the other all read zero: each update clears its own record and leaves the
counters of the others. -/
theorem counters_foldl_zero {cnt : State → Nat → List Nat} {f : State → Nat → State} (hsame : ∀ s i, AllZero (cnt (f s i) i))
    (hkeep : ∀ s i j, i ≠ j → cnt (f s j) i = cnt s i) (n : Nat) (s : State) : ∀ i < n, AllZero (cnt ((List.range n).foldl f s) i) := by
  induction n with
  | zero => intro i hi; omega
  | succ n ih =>
    intro i hi
    rw [List.range_succ, List.foldl_append]
    by_cases h : i = n
    · exact h ▸ hsame _ _
    · exact (hkeep _ _ _ h).symm ▸ ih i (by omega)

/-- The same for the counters that a block lists record by record. -/
theorem mem_flatten_range_zero {g : Nat → List (Nat × Nat)} {n : Nat} (h : ∀ i < n, ∀ x ∈ g i, x.2 = 0) :
    ∀ x ∈ ((List.range n).map g).flatten, x.2 = 0 := by
  simp only [List.mem_flatten, List.mem_map, List.mem_range]
  rintro x ⟨_, ⟨i, hi, rfl⟩, hx⟩
  exact h i hi x hx

/-- The traffic counters of a memory of a tier. -/
def MemSt.cnt (m : MemSt) : List Nat := m.bytes ++ [m.shedWindows]
/-- The memory with its traffic counters cleared (R558). -/
def MemSt.clear (m : MemSt) : MemSt := { m with bytes := zeros m.bytes, shedWindows := 0 }

theorem MemSt.allZero_clear (m : MemSt) : AllZero m.clear.cnt := (allZero_zeros m.bytes).append (by simp [AllZero, MemSt.clear])

theorem State.counters_clear_ns (s : State) : ∀ x ∈ (s.clearBlock .ns).counters .ns, x.2 = 0 := by
  have h : ∀ i < 16, AllZero (((List.range 16).foldl (fun s i => s.updNear i MemSt.clear) s).near i).cnt :=
    counters_foldl_zero (cnt := fun s i => (s.near i).cnt) (fun s i => by simpa using (s.near i).allZero_clear)
      (fun s i j hij => by rw [State.near_updNear_ne _ _ _ hij]) 16 s
  exact mem_flatten_range_zero (fun i hi => (h i hi).countersAt _)

theorem State.counters_clear_ft (s : State) : ∀ x ∈ (s.clearBlock .ft).counters .ft, x.2 = 0 := by
  have h : ∀ i < 32, AllZero (((List.range 32).foldl (fun s i => s.updChan i MemSt.clear) s).chan i).cnt :=
    counters_foldl_zero (cnt := fun s i => (s.chan i).cnt) (fun s i => by simpa using (s.chan i).allZero_clear)
      (fun s i j hij => by rw [State.chan_updChan_ne _ _ _ hij]) 32 s
  exact mem_flatten_range_zero (fun i hi => (h i hi).countersAt _)

theorem State.counters_clear_pl (s : State) : ∀ x ∈ (s.clearBlock .pl).counters .pl, x.2 = 0 := by
  have h : ∀ i < 24, AllZero (((List.range 24).foldl (fun s i => s.updLnk i (fun l => { l with cnt := zeros l.cnt })) s).lnk i).cnt :=
    counters_foldl_zero (cnt := fun s i => (s.lnk i).cnt) (fun s i => by simpa using allZero_zeros (s.lnk i).cnt)
      (fun s i j hij => by rw [State.lnk_updLnk_ne _ _ _ hij]) 24 s
  exact mem_flatten_range_zero (fun i hi => (h i hi).countersAt _)

theorem State.counters_clear_xu (s : State) : ∀ x ∈ (s.clearBlock .xu).counters .xu, x.2 = 0 := by
  have h : ∀ i < 8, AllZero (((List.range 8).foldl (fun s i => s.updMember i (fun m => { m with cnt := zeros m.cnt })) s).member i).cnt :=
    counters_foldl_zero (cnt := fun s i => (s.member i).cnt) (fun s i => by simpa using allZero_zeros (s.member i).cnt)
      (fun s i j hij => by rw [State.member_updMember_ne _ _ _ hij]) 8 s
  exact mem_flatten_range_zero (fun i hi => (h i hi).countersAt _)

/-- The streams' counters are dropped, so they read as the zeros of an unlisted partition; those of the serve partitions
are cleared one by one. -/
theorem State.counters_clear_np (s : State) : ∀ x ∈ (s.clearBlock .np).counters .np, x.2 = 0 := by
  have h : ∀ i < 8, AllZero (((List.range 8).foldl (fun s i => s.updServe i (fun v => { v with cnt := zeros v.cnt })) s).serve i).cnt :=
    counters_foldl_zero (cnt := fun s i => (s.serve i).cnt) (fun s i => by simpa using allZero_zeros (s.serve i).cnt)
      (fun s i j hij => by rw [State.serve_updServe_ne _ _ _ hij]) 8 s
  refine mem_flatten_range_zero (fun i hi x hx => ?_)
  rcases List.mem_append.mp hx with hstream | hserve
  · exact AllZero.countersAt (l := [0, 0, 0, 0, 0, 0, 0]) (by simp [AllZero]) _ x hstream
  · exact (h i hi).countersAt _ x hserve

/-- A cleared block's live counters read zero (R558). -/
theorem State.counters_clearBlock (s : State) (b : Block) : ∀ x ∈ (s.clearBlock b).counters b, x.2 = 0 := by
  cases b with
  | co k =>
    have h : AllZero ((s.clearBlock (.co k)).core k).cnt.list := by simp [State.clearBlock, AllZero, CoreCount.list]
    exact h.countersAt _
  | cl c =>
    have h : AllZero ((s.clearBlock (.cl c)).cluster c).cnt.list := by simp [State.clearBlock, AllZero, SwCount.list]
    exact h.countersAt _
  | hq f =>
    have h : AllZero ((s.clearBlock (.hq f)).func f).cnt := by simpa [State.clearBlock] using allZero_zeros (s.func f).cnt
    exact h.countersAt _
  | ns => exact s.counters_clear_ns
  | ft => exact s.counters_clear_ft
  | pl => exact s.counters_clear_pl
  | xu => exact s.counters_clear_xu
  | np => exact s.counters_clear_np
  | _ => exact fun _ h => nomatch h

theorem foldl_regs {f : State → Nat → State} (hf : ∀ s i, (f s i).regs = s.regs) (l : List Nat) (s : State) :
    (l.foldl f s).regs = s.regs :=
  List.foldlRecOn (motive := fun t : State => t.regs = s.regs) l f rfl (fun t ht i _ => (hf t i).trans ht)

/-- A clear leaves the holding registers, and every other register record, alone (R558). -/
@[simp] theorem State.clearBlock_regs (s : State) (b : Block) : (s.clearBlock b).regs = s.regs := by
  cases b with
  | ns | ft | pl | xu | np =>
    refine foldl_regs ?_ _ s
    exact fun _ _ => rfl
  | _ => rfl

theorem State.holding_snapshot_same (s : State) (who : Accessor) (b : Block) :
    (s.snapshot who b).holding who b = some { who := who, block := b, time := s.now, values := s.counters b } := by
  have hgone : (s.regs.holds.filter (fun h => !(h.who = who && h.block = b))).find? (fun h => h.who = who && h.block = b) = none := by
    rw [List.find?_eq_none]
    intro x hx
    rw [Bool.not_eq_true, ← Bool.not_eq_true']
    exact (List.mem_filter.mp hx).2
  unfold State.snapshot State.holding
  rw [List.find?_append, hgone]
  simp

/-- A filter that keeps everything a search looks for does not change what the search finds. -/
theorem find?_filter_of_imp {α : Type} {p q : α → Bool} (h : ∀ x, q x = true → p x = true) (l : List α) :
    (l.filter p).find? q = l.find? q := by
  rw [List.find?_filter]
  congr 1
  funext x
  rw [Bool.eq_iff_iff, decide_eq_true_iff]
  exact and_iff_right_of_imp (h x)

/-- A snapshot leaves the holding registers of every other accessor and block (R557). -/
theorem State.holding_snapshot_ne (s : State) {who w : Accessor} {b c : Block} (h : (w, c) ≠ (who, b)) :
    (s.snapshot who b).holding w c = s.holding w c := by
  have hnew : ¬ (who = w ∧ b = c) := fun ⟨hw, hb⟩ => h (by rw [hw, hb])
  have hkept (x : Holding) : (x.who = w && x.block = c) = true → (!(x.who = who && x.block = b)) = true := by
    simp only [Bool.and_eq_true, decide_eq_true_eq, Bool.not_eq_true', Bool.and_eq_false_imp, decide_eq_false_iff_not]
    rintro ⟨rfl, rfl⟩ hw hb
    exact hnew ⟨hw.symm, hb.symm⟩
  unfold State.snapshot State.holding
  rw [List.find?_append, find?_filter_of_imp hkept]
  simp [hnew]

/-- A write of CNT_CTRL takes effect at once where the block is not that of a moved core (R561). -/
theorem State.writeCnt_of_not_moved {s : State} {b : Block} (who : Accessor) (v : Word)
    (h : ∀ k, b = .co k → (s.core k).frozen ≠ some .retire) : s.writeCnt who b v = s.cntCtrl who b v := by
  cases b with
  | co k => simp [State.writeCnt, h k rfl]
  | _ => simp [State.writeCnt]

theorem counterSnapshot_completes {s : State} {who : Accessor} {b : Block} {v : BitVec 32} (hr : s.cntReach who b = true)
    (hc : s.counters b ≠ []) (hm : ∀ k, b = .co k → (s.core k).frozen ≠ some .retire) (hsnap : v.getLsbD 1 = true) (hclr : v.getLsbD 0 = false) :
    Completes (exec (.counterSnapshot who b v) s) (fun t => t = { s with regs := { s.regs with holds := t.regs.holds } }
      ∧ t.holding who b = some { who := who, block := b, time := s.now, values := s.counters b }
      ∧ ∀ w c, (w, c) ≠ (who, b) → t.holding w c = s.holding w c) := by
  have he : exec (.counterSnapshot who b v) s = .next (s.snapshot who b) := by
    change execCounterSnapshot who b v s = _
    have h0 : (v.setWidth 64).getLsbD 0 = false := by simpa using hclr
    have h1 : (v.setWidth 64).getLsbD 1 = true := by simpa using hsnap
    unfold execCounterSnapshot
    rw [hr, hsnap, State.writeCnt_of_not_moved who _ hm]
    simp only [State.cntCtrl, h0, h1, hc]
    rfl
  rw [he]
  exact .next ⟨rfl, s.holding_snapshot_same who b, fun w c => s.holding_snapshot_ne⟩

theorem exec_counterClear {s : State} {who : Accessor} {b : Block} {v : BitVec 32} (hr : s.cntReach who b = true)
    (hc : s.counters b ≠ []) (hm : ∀ k, b = .co k → (s.core k).frozen ≠ some .retire) (hsnap : v.getLsbD 1 = false) (hclr : v.getLsbD 0 = true) :
    exec (.counterClear who b v) s = .next (if mayClear who b then s.clearBlock b else s) := by
  change execCounterClear who b v s = _
  have h0 : (v.setWidth 64).getLsbD 0 = true := by simpa using hclr
  have h1 : (v.setWidth 64).getLsbD 1 = false := by simpa using hsnap
  unfold execCounterClear
  rw [hr, hclr, State.writeCnt_of_not_moved who _ hm]
  simp only [State.cntCtrl, h0, h1, hc]
  rfl

/-! ### ACC_ERR and NOW (R551, R552, R555) -/

theorem blockSize_pages (b : Block) : ∃ k, blockSize b = 0x1000 * k ∧ 0 < k := by
  cases b with
  | hub | mgt | hq _ => exact ⟨16, rfl, by decide⟩
  | ns | ft => exact ⟨2, rfl, by decide⟩
  | np => exact ⟨4, rfl, by decide⟩
  | _ => exact ⟨1, rfl, by decide⟩

/-- The place of common register `i` in its block's space. -/
theorem commonAt_common (b : Block) {i : Nat} (hi : i < 5) : commonAt b (blockSize b - 0x40 + 8 * i) = some i := by
  have hin : 8 * i < 40 := by omega
  simp [commonAt, hin]

theorem commonOff_mod_eight (b : Block) (i : Nat) : (blockSize b - 0x40 + 8 * i) % 8 = 0 := by
  obtain ⟨k, hk, hpos⟩ := blockSize_pages b
  omega

/-- Every common register lies at a multiple of 8 of the management map. -/
theorem commonAddr_mod_eight (b : Block) (i : Nat) : commonAddr b i % 8 = 0 := by
  cases b <;> simp only [commonAddr, blockSize] <;> omega

section
variable {s : State} {b : Block} {i : Nat}

theorem State.stallRead_live (hl : s.live = true) :
    s.stallRead (.mgmt, b, i, 8) = (s.readReg .mgmt (commonAddr b i) 8).1.respond .mgmt (s.readReg .mgmt (commonAddr b i) 8).2 := by
  simp [State.stallRead, State.answers, hl, State.readCommon, commonFor]

/-- Management's 8-byte read of ACC_ERR reads and clears it at once (R555). -/
theorem State.readReg_accErr (hl : s.live = true) (hon : s.blockOn b = true)
    (hat : blockAt (commonAddr b 4) = some (b, blockSize b - 0x40 + 8 * 4)) :
    s.readReg .mgmt (commonAddr b 4) 8 = s.takeAccErr b := by
  have hslot := Nat.div_mul_cancel (Nat.dvd_of_mod_eq_zero (commonOff_mod_eight b 4))
  have hcommon := commonAt_common b (i := 4) (by decide)
  unfold State.readReg
  simp only [viewAt, hat, commonAddr_mod_eight, hslot, hcommon]
  simp [State.answers, State.sees, hl, hon]

/-- Management's 8-byte read of NOW gives the time (R555). -/
theorem State.readReg_now (hl : s.live = true) (hon : s.blockOn b = true)
    (hat : blockAt (commonAddr b 3) = some (b, blockSize b - 0x40 + 8 * 3)) :
    s.readReg .mgmt (commonAddr b 3) 8 = (s, BitVec.ofNat 64 s.now) := by
  have hslot := Nat.div_mul_cancel (Nat.dvd_of_mod_eq_zero (commonOff_mod_eight b 3))
  have hcommon := commonAt_common b (i := 3) (by decide)
  have hreg : s.regAt .mgmt b (blockSize b - 0x40 + 8 * 3) = some { wide := true, value := s.now % 2 ^ 64 } := by
    unfold State.regAt
    rw [hcommon]
    rfl
  have hnow : BitVec.ofNat 64 (s.now % 2 ^ 64) = BitVec.ofNat 64 s.now := BitVec.eq_of_toNat_eq (by simp)
  unfold State.readReg
  simp only [viewAt, hat, commonAddr_mod_eight, hslot, hcommon, hreg, Reg.read, ← hnow]
  simp [State.answers, State.sees, hl, hon]

/-- While a hold keeps the unit from answering, the read joins those that stall (R10, R552). -/
theorem State.stallRead_held {d : Nat} (who : Accessor) (width : Nat) (hl : s.live = false) (hd : blockDomain b = some d) :
    s.stallRead (who, b, i, width) = { s with regs := { s.regs with stalled := s.regs.stalled ++ [(who, b, i, width)] } } := by
  simp [State.stallRead, State.answers, hl, hd]

end

/-- Reading ACC_ERR touches the register records alone. -/
theorem State.takeAccErr_eq (s : State) (b : Block) : (s.takeAccErr b).1 = { s with regs := (s.takeAccErr b).1.regs } := by
  unfold State.takeAccErr
  split <;> rfl

theorem State.takeAccErr_responses (s : State) (b : Block) : (s.takeAccErr b).1.regs.responses = s.regs.responses := by
  unfold State.takeAccErr
  split <;> rfl

/-- No access error of the block is left after the read (R555). -/
theorem State.takeAccErr_cleared (s : State) (b : Block) : ∀ x ∈ (s.takeAccErr b).1.regs.accErr, x.block ≠ b := by
  unfold State.takeAccErr
  split
  next x hx => simp
  next hx => simpa using hx

theorem accErrRead_completes {s : State} {b : Block} (hl : s.live = true) (hon : s.blockOn b = true)
    (hat : blockAt (commonAddr b 4) = some (b, blockSize b - 0x40 + 8 * 4)) :
    Completes (exec (.accErrRead .mgmt b 8) s) (fun t => t = { s with regs := t.regs } ∧ (∀ x ∈ t.regs.accErr, x.block ≠ b)
      ∧ t.regs.responses = s.regs.responses ++ [{ who := .mgmt, status := 0, value := (s.takeAccErr b).2 }]) := by
  have he : exec (.accErrRead .mgmt b 8) s = .next (((s.takeAccErr b).1).respond .mgmt (s.takeAccErr b).2) := by
    change Host.Outcome.next (s.stallRead (.mgmt, b, 4, 8)) = _
    rw [State.stallRead_live hl, State.readReg_accErr hl hon hat]
  rw [he]
  refine .next ⟨?_, s.takeAccErr_cleared b, ?_⟩
  · unfold State.respond
    rw [s.takeAccErr_eq b]
  · exact congrArg (· ++ _) (s.takeAccErr_responses b)

theorem nowRead_completes {s : State} {b : Block} (hl : s.live = true) (hon : s.blockOn b = true)
    (hat : blockAt (commonAddr b 3) = some (b, blockSize b - 0x40 + 8 * 3)) :
    Completes (exec (.nowRead .mgmt b 8) s) (fun t => t = { s with regs := { s.regs with
      responses := s.regs.responses ++ [{ who := .mgmt, status := 0, value := BitVec.ofNat 64 s.now }] } }) := by
  have he : exec (.nowRead .mgmt b 8) s = .next (s.respond .mgmt (BitVec.ofNat 64 s.now)) := by
    change Host.Outcome.next (s.stallRead (.mgmt, b, 3, 8)) = _
    rw [State.stallRead_live hl, State.readReg_now hl hon hat]
  rw [he]
  exact .next rfl

/-- Settles O53: each command is rewritten to the operation it runs, and that operation's lemma gives the state it leaves;
the reads that stall while a hold is latched follow log entry 55. -/
theorem registerCommands : Obligations.RegisterCommands := by
  unfold Obligations.RegisterCommands
  refine ⟨fun s hl => ⟨?licence, ?gated, ?bounds, ?errHead, ?counters, ?common⟩, ?held⟩
  case licence =>
    exact fun v hv hb => ⟨licenceApply_waits hl hv hb, licenceApply_runs hl hv hb⟩
  case gated =>
    exact fun n hn he => ⟨fun v => ⟨stageWrite_closed v hl hn he, stageWrite_open hl hn he⟩,
      fun v o => keepWrite_open hl hn he⟩
  case bounds =>
    exact fun n v hn => ⟨syncWrite_completes v hl hn, strictWrite_completes hl hn⟩
  case errHead =>
    exact fun f v => ⟨errHeadWrite_advances hl, errHeadWrite_beyond hl⟩
  case counters =>
    intro who b v hr hc hm
    refine ⟨counterSnapshot_completes hr hc hm, fun hsnap hclr hmay => ?_, fun hsnap hclr hmay => ?_⟩
    · rw [exec_counterClear hr hc hm hsnap hclr, if_pos hmay]
      exact .next ⟨s.clearBlock_regs b, (s.clearBlock_bytes b).1, s.counters_clearBlock b⟩
    · rw [exec_counterClear hr hc hm hsnap hclr, if_neg (by simp [hmay])]
      exact .next rfl
  case common =>
    refine fun b i _ hat hon => ⟨?_, ?_⟩
    · rintro rfl
      obtain ⟨t, ht, hframe, hcleared, hresponse⟩ := accErrRead_completes hl hon hat
      refine ⟨t, ht, hframe, hcleared, hresponse.trans ?_⟩
      unfold State.takeAccErr
      cases s.regs.accErr.find? (fun x => x.block = b) <;> rfl
    · rintro rfl
      exact nowRead_completes hl hon hat
  case held =>
    exact fun s who b d width hl hd =>
      ⟨congrArg _ (State.stallRead_held who width hl hd), congrArg _ (State.stallRead_held who width hl hd)⟩

end Sys2Proof.Machine
end

section
/-! PROOFS. The module right after reset: nothing is listed in any table, so every numbered record reads as its reset value. -/

namespace Sys2Proof.Machine

/-- No core is listed at reset, so every context reads as the one of reset (R123). -/
theorem State.ctx_reset (p : At) : State.reset.ctx p = {} := rfl

/-- A register that nothing has written reads zero. -/
theorem Ctx.getS_reset (r : BitVec 5) : ({} : Ctx).getS r = 0 := by
  unfold Ctx.getS
  split <;> rfl

/-- Settles O59: no table of the reset state lists an entry, so each reading gives the record's reset value (unwritten bytes:
log entry 4). -/
theorem afterReset : Obligations.AfterReset := by
  unfold Obligations.AfterReset
  refine ⟨⟨rfl, ?copies⟩, rfl, rfl, rfl, rfl, rfl, fun _ => rfl, ?contexts, fun _ => ⟨rfl, rfl⟩, fun _ => rfl, fun _ => rfl⟩
  case copies =>
    exact fun c hc => absurd hc List.not_mem_nil
  case contexts =>
    intro p
    rw [State.ctx_reset]
    exact ⟨rfl, Ctx.getS_reset⟩

end Sys2Proof.Machine
end

section
/-! PROOFS. What an instruction that issues leaves beside its own context: effects that neither read nor change cores, free
values and power pass through the frame of `BesidesIssue`, and so do updates of its core that leave contexts and units. -/

namespace Sys2Proof.Machine

/-! ### The outcome of an issue -/

theorem Issues.completes {s : State} {p : At} {u : Uses} {room : Room} {check : Option (BitVec 8)} {eff : State → State}
    {P : State → Prop} (h : Issues s p u room check) (hP : P (eff (s.issued p))) :
    Completes (issue s p u room check eff) P := by
  rw [issue_next eff h]
  exact .next hP

/-- An instruction that would issue but for a hold leaves its context stalled on what holds it (R99, R311). -/
theorem issue_held {s : State} {p : At} {u : Uses} {room : Room} {check : Option (BitVec 8)} (eff : State → State)
    (h : Issues s p u room check) (w : Stall) :
    issue s p u { room with hold := some w } check eff
      = .next (s.updCtx p (fun c => { c with state := .stalled, stalledOn := some w })) := by
  simp [issue, h.can, h.fetch, h.ready, h.ok, h.room]

/-! ### Effects beside cores, free values and power -/

/-- An effect that neither reads nor changes cores, free values and power. -/
structure BesidesCores (g : State → State) : Prop where
  beside : ∀ (t : State) (c : Tab Core) (f : Nat) (w : PowerState),
    g { t with cores := c, free := f, power := w } = { g t with cores := c, free := f, power := w }

theorem BesidesCores.cores {g : State → State} (hg : BesidesCores g) (t : State) : (g t).cores = t.cores := by
  have h := hg.beside t t.cores t.free t.power
  exact (congrArg State.cores h :)

theorem BesidesCores.power {g : State → State} (hg : BesidesCores g) (t : State) : (g t).power = t.power := by
  have h := hg.beside t t.cores t.free t.power
  exact (congrArg State.power h :)

/-- One after another. -/
theorem BesidesCores.foldl {α : Type} {g : State → α → State} (hg : ∀ a, BesidesCores (fun t => g t a)) (l : List α) :
    BesidesCores (fun t => l.foldl g t) where
  beside t c f w := by
    induction l generalizing t with
    | nil => rfl
    | cons a l ih => exact (congrArg (l.foldl g) ((hg a).beside t c f w)).trans (ih _)

theorem BesidesCores.core {g : State → State} (hg : BesidesCores g) (t : State) (k : Nat) : (g t).core k = t.core k := by
  unfold State.core
  rw [hg.cores]

theorem BesidesCores.ctx {g : State → State} (hg : BesidesCores g) (t : State) (p : At) : (g t).ctx p = t.ctx p := by
  unfold State.ctx
  rw [hg.core]

theorem BesidesCores.free {g : State → State} (hg : BesidesCores g) (t : State) : (g t).free = t.free := by
  have h := hg.beside t t.cores t.free t.power
  exact (congrArg State.free h :)

section
variable {s u t : State} {p : At}

/-- The frame of an issue lets such an effect through: what it does to the state before, it does to the state after. -/
theorem BesidesIssue.then_beside (h : BesidesIssue s u t p) {g : State → State} (hg : BesidesCores g) : BesidesIssue s (g u) (g t) p where
  rest := by
    calc g t = g { u with cores := t.cores, free := t.free, power := { u.power with lent := t.power.lent, activeAt := t.power.activeAt } } :=
          congrArg g h.rest
      _ = { g u with cores := t.cores, free := t.free, power := { u.power with lent := t.power.lent, activeAt := t.power.activeAt } } :=
          hg.beside _ _ _ _
      _ = _ := by rw [hg.cores t, hg.free t, hg.power t, hg.power u]
  others := fun q hq => by rw [hg.ctx, h.others q hq]
  cores := fun k hk => by rw [hg.core, h.cores k hk]
  units := by rw [hg.core]; exact h.units
  issued := by rw [hg.core]; exact h.issued

/-- What came of an issue counts as what the instruction did outside its core. -/
theorem BesidesIssue.rebase (h : BesidesIssue s u t p) : BesidesIssue s t t p := { h with rest := rfl }

/-- So does an update of the core that leaves its contexts, its units and its count of issues. -/
theorem BesidesIssue.then_updCore (h : BesidesIssue s u t p) (f : Core → Core)
    (hctxs : (f (t.core p.core)).ctxs = (t.core p.core).ctxs)
    (hunits : (f (t.core p.core)).tiles = (t.core p.core).tiles ∧ (f (t.core p.core)).frozen = (t.core p.core).frozen
      ∧ (f (t.core p.core)).entries = (t.core p.core).entries)
    (hissued : (f (t.core p.core)).cnt.issued = (t.core p.core).cnt.issued) : BesidesIssue s u (t.updCore p.core f) p where
  rest := by
    calc t.updCore p.core f = { t with cores := (t.updCore p.core f).cores } := rfl
      _ = _ := by rw [h.rest]; rfl
  others := fun q hq => by rw [State.ctx_updCore _ _ _ hctxs, h.others q hq]
  cores := fun k hk => by rw [State.core_updCore_ne _ _ _ hk, h.cores k hk]
  units := by
    obtain ⟨htiles, hfrozen, hentries⟩ := hunits
    rw [State.core_updCore_same, htiles, hfrozen, hentries]
    exact h.units
  issued := by rw [State.core_updCore_same, hissued, h.issued]

end

/-! ### What the bookkeeping of an issue leaves of tags -/

/-- A context's tag word does not change as it issues (R30). -/
theorem State.tagOf_issued (s : State) (p : At) (fmt cls : Nat) (b u : Bool) :
    (s.issued p).tagOf p fmt cls b u = s.tagOf p fmt cls b u := by
  unfold State.tagOf
  rw [State.ctx_issued_same]
  rfl

end Sys2Proof.Machine
end

section
/-! PROOFS. Operations on the sync stores as they leave, and the instructions of hedgerow lines (R307, R311, R314, R318, R319). -/

namespace Sys2Proof.Machine

/-! ### FSET, FCLR, CPROD, CCONS, CREAD -/

theorem releaseRoom_drained {s : State} {p : At} (op : SyncOp) (h : (s.ctx p).stores = [] ∧ (s.ctx p).moves = []) :
    releaseRoom s p op = {} := by
  simp [releaseRoom, Ctx.drained, h]

theorem releaseRoom_undrained {s : State} {p : At} (op : SyncOp) (h : ¬ ((s.ctx p).stores = [] ∧ (s.ctx p).moves = [])) :
    releaseRoom s p op = { hold := some (.release op) } := by
  have hd : (s.ctx p).drained = false := by simpa [Ctx.drained] using h
  simp [releaseRoom, hd]

/-- The operation of a context `p` is on its way from the state `s` to its store, and the context has gone on. -/
def Sends (s t : State) (p : At) (die : Nat) (a : SyncDo) : Prop :=
  t.ctx p = (s.ctx p).advanced ∧
    BesidesIssue s { s with sync := { s.sync with inflight := s.sync.inflight ++ [⟨.ctx p, die, a, s.tagOf p 0 4 false false⟩] } } t p

section
variable {s : State} {p : At} {u : Uses} {check : Option (BitVec 8)}

theorem Sends.of_issued (f : LayY) (a : SyncDo) : Sends s ((s.issued p).sendSync (opOf p f a)) p (nameDie f) a := by
  have htag : (s.issued p).tagged (opOf p f a) = ⟨.ctx p, nameDie f, a, s.tagOf p 0 4 false false⟩ := by
    simp only [State.tagged, opOf, State.tagOf_issued]
    rfl
  refine ⟨State.ctx_issued_same s p, ?_⟩
  rw [State.sendSync, htag]
  exact (OnlyContext.of_issued s p).then_beside (g := fun t =>
    { t with sync := { t.sync with inflight := t.sync.inflight ++ [⟨.ctx p, nameDie f, a, s.tagOf p 0 4 false false⟩] } })
    ⟨fun _ _ _ _ => rfl⟩

/-- An operation that orders nothing leaves as it issues (R311). -/
theorem sendOp_completes (f : LayY) (a : SyncDo) (h : Issues s p u {} check) :
    Completes (issue s p u {} check (fun t => t.sendSync (opOf p f a))) (fun t => Sends s t p (nameDie f) a) :=
  h.completes (.of_issued f a)

/-- An operation with release semantics leaves where every earlier write is visible, and is held otherwise (R311). -/
theorem releaseOp_completes (f : LayY) (a : SyncDo) (h : Issues s p u {} check) :
    Completes (issue s p u (releaseRoom s p (opOf p f a)) check (fun t => t.sendSync (opOf p f a))) (fun t =>
      if (s.ctx p).stores = [] ∧ (s.ctx p).moves = [] then Sends s t p (nameDie f) a
      else t = s.updCtx p (fun c => { c with state := .stalled, stalledOn := some (.release (opOf p f a)) })) := by
  by_cases hd : (s.ctx p).stores = [] ∧ (s.ctx p).moves = []
  · simp only [if_pos hd, releaseRoom_drained _ hd]
    exact sendOp_completes f a h
  · simp only [if_neg hd, releaseRoom_undrained _ hd]
    rw [issue_held _ h]
    exact .next rfl

end

/-- Settles O20: a release is held by `releaseRoom` until the context has drained; every operation then leaves by `sendSync`. -/
theorem syncOperationsSent : Obligations.SyncOperationsSent := by
  unfold Obligations.SyncOperationsSent
  intro s p f
  refine ⟨fun h => ⟨?fset, ?fclr⟩, fun h => ⟨?cprod, ?ccons⟩, fun h => ?cread⟩
  case fset => exact releaseOp_completes f (.setFlag f.id.toNat) h
  case fclr => exact sendOp_completes f (.clearFlag f.id.toNat) h
  case cprod => exact releaseOp_completes f (.produce f.id.toNat (countY (s.ctx p) f)) h
  case ccons => exact releaseOp_completes f (.consume f.id.toNat (countY (s.ctx p) f)) h
  case cread => exact sendOp_completes f (.read f.id.toNat (f.w = 1) f.sr) h

end Sys2Proof.Machine
end

section
/-! PROOFS. The instructions of hedgerow lines: an arrival leaves, a wait is met or the context is descheduled (R318, R319). -/

namespace Sys2Proof.Machine

section
variable (s : State) (p : At)

/-- An arrival on its way beside cores: what `arrive` adds to the sync stores (R307). -/
def State.withArrival (s : State) (a : Arrival) : State := { s with sync := { s.sync with arrivals := s.sync.arrivals ++ [a] } }

/-- A wait beside cores: what `State.awaitRelease` adds to the sync stores (R321). -/
def State.withWaiter (s : State) (w : Waiter) : State := { s with sync := { s.sync with waiters := s.sync.waiters ++ [w] } }

theorem besidesCores_withArrival (a : Arrival) : BesidesCores (fun t => t.withArrival a) := ⟨fun _ _ _ _ => rfl⟩

theorem besidesCores_withWaiter (w : Waiter) : BesidesCores (fun t => t.withWaiter w) := ⟨fun _ _ _ _ => rfl⟩

/-- The arrival that HARR sends (R30, R318). -/
def State.arrivalOf (s : State) (p : At) (l n : Nat) : Arrival :=
  { p := p, line := l, n := n, pc := (s.ctx p).pc, tag := s.tagOf p 0 4 false false }

theorem arrive_eq (t : State) (l n : Nat) :
    arrive s t p l n = (t.updCtx p (fun c => { c with arrivals := c.arrivals.set l (s.line l).phase })).withArrival (s.arrivalOf p l n) := rfl

theorem ctx_arrive_issued (l n : Nat) :
    (arrive s (s.issued p) p l n).ctx p
      = { (s.ctx p).advanced with arrivals := (s.ctx p).arrivals.set l (s.line l).phase } := by
  rw [arrive_eq, (besidesCores_withArrival _).ctx, State.ctx_updCtx_same, State.ctx_issued_same]
  rfl

theorem besidesIssue_arrive (l n : Nat) : BesidesIssue s (s.withArrival (s.arrivalOf p l n)) (arrive s (s.issued p) p l n) p :=
  ((OnlyContext.of_issued s p).then_updCtx _).then_beside (besidesCores_withArrival _)

end

/-! ### Descheduling (R103) -/

/-- The wait for the release of a line's phase that begins now (R103, R319). -/
def State.releaseWait (s t : State) (p : At) (l : Nat) (ph : BitVec 32) : Wait :=
  { cond := .release l ph.toNat, since := s.now, beat := (t.core p.core).cnt.beats, budget := (s.part (s.partNum p.core)).budget }

/-- A context that is descheduled takes its wait with the beat, and its core counts it (R103, R126). -/
theorem State.deschedule_core (t : State) (p : At) (pc : Word) (w : WaitCond) :
    ((t.deschedule p pc w).core p.core).cnt = { (t.core p.core).cnt with desched := sat64 ((t.core p.core).cnt.desched + 1) } := by
  unfold State.deschedule State.descheduled
  obtain ⟨-, -, -, hcnt, -⟩ := State.core_updCtx t p (fun c => { c with
    state := .waiting
    pc := pc
    wait := some { cond := w, since := t.now, beat := (t.core p.core).cnt.beats, budget := (t.part (t.partNum p.core)).budget } }) p.core
  rw [State.core_updCore_same, hcnt]

theorem State.deschedule_ctx (t : State) (p : At) (pc : Word) (w : WaitCond) :
    (t.deschedule p pc w).ctx p = { t.ctx p with
      state := .waiting
      pc := pc
      wait := some { cond := w, since := t.now, beat := (t.core p.core).cnt.beats, budget := (t.part (t.partNum p.core)).budget } } := by
  unfold State.deschedule State.descheduled
  rw [State.ctx_updCore _ _ _ rfl, State.ctx_updCtx_same]

theorem BesidesIssue.then_deschedule {s u t : State} {p : At} (h : BesidesIssue s u t p) (pc : Word) (w : WaitCond) :
    BesidesIssue s u (t.deschedule p pc w) p := by
  unfold State.deschedule State.descheduled
  exact (h.then_updCtx _).then_updCore _ rfl ⟨rfl, rfl, rfl⟩ rfl

theorem State.awaitRelease_eq (t : State) (p : At) (pc : Word) (l : Nat) (ph : BitVec 32) :
    t.awaitRelease p pc l ph = (t.deschedule p pc (.release l ph.toNat)).withWaiter { p := p, cond := .release l ph.toNat } := rfl

/-- What an instruction leaves that waits for the release of a line: it is not past its pc, it has registered, and whatever
else `u` says it did. -/
theorem awaitRelease_waits {s u t : State} {p : At} {bits : Tab (BitVec 32)} (h : BesidesIssue s u t p)
    (hctx : t.ctx p = { (s.ctx p).advanced with arrivals := bits }) (hcnt : (t.core p.core).cnt.desched = (s.core p.core).cnt.desched)
    (hnow : t.now = s.now) (hpart : t.part (t.partNum p.core) = s.part (s.partNum p.core)) (l : Nat) :
    let ph := (s.line l).phase
    let r := t.awaitRelease p (s.ctx p).pc l ph
    BesidesIssue s (u.withWaiter { p := p, cond := .release l ph.toNat }) r p
      ∧ r.ctx p = { s.ctx p with
          state := .waiting
          stalledOn := none
          arrivals := bits
          wait := some (s.releaseWait r p l ph) }
      ∧ (r.core p.core).cnt.desched = sat64 ((s.core p.core).cnt.desched + 1) := by
  intro ph r
  have hcore : (r.core p.core).cnt = { (t.core p.core).cnt with desched := sat64 ((t.core p.core).cnt.desched + 1) } :=
    t.deschedule_core p _ _
  refine ⟨(h.then_deschedule _ _).then_beside (besidesCores_withWaiter _), ?_, by rw [hcore, hcnt]⟩
  calc r.ctx p = _ := t.deschedule_ctx p _ _
    _ = _ := by
      simp only [State.releaseWait, hctx, hnow, hpart, hcore]
      rfl

/-- Issuing alone leaves what a wait records of its core and its partition. -/
theorem desched_issued (s : State) (p : At) : ((s.issued p).core p.core).cnt.desched = (s.core p.core).cnt.desched := by
  rw [State.cnt_issued]

theorem State.core_cnt_arrive (s t : State) (p : At) (l n : Nat) : ((arrive s t p l n).core p.core).cnt = (t.core p.core).cnt := by
  obtain ⟨-, -, -, hcnt, -⟩ := State.core_updCtx t p (fun c => { c with arrivals := c.arrivals.set l (s.line l).phase }) p.core
  exact hcnt

/-- An arrival bit stands in an open phase unless the phase was released with no arrival of the context on its way (R319). -/
theorem State.arrivalOpen_eq_false (s : State) (p : At) (l : Nat) (ph : BitVec 32) :
    s.arrivalOpen p l ph = false ↔ (s.line l).phase ≠ ph ∧ ∀ a ∈ s.sync.arrivals, ¬ (a.p = p ∧ a.line = l) := by
  simp [State.arrivalOpen]

/-- Settles O24: `arrive` sends the arrival, `awaitRelease` deschedules, and `arrivalOpen` decides whether HWAIT is met. -/
theorem hedgerowInstructions : Obligations.HedgerowInstructions := by
  unfold Obligations.HedgerowInstructions
  intro s p f c l k sent Waiting
  have waits := awaitRelease_waits (OnlyContext.of_issued s p) (State.ctx_issued_same s p) (desched_issued s p) rfl rfl l
  refine ⟨fun h => ⟨?harr, ?hbar⟩, fun h => ?hwait⟩
  case harr =>
    exact h.completes (eff := fun t => arrive s t p l k) ⟨besidesIssue_arrive s p l k, ctx_arrive_issued s p l k⟩
  case hbar =>
    refine h.completes (eff := fun t => (arrive s t p l k).awaitRelease p c.pc l (s.line l).phase) ?_
    exact awaitRelease_waits (besidesIssue_arrive s p l k) (ctx_arrive_issued s p l k)
      ((congrArg CoreCount.desched (State.core_cnt_arrive s _ p l k)).trans (desched_issued s p)) rfl rfl l
  case hwait =>
    refine h.completes (eff := fun t => match c.arrivals.find l with
      | some ph => if s.arrivalOpen p l ph then t.awaitRelease p c.pc l (s.line l).phase
          else t.updCtx p (fun c => { c with arrivals := c.arrivals.del l })
      | none => t.awaitRelease p c.pc l (s.line l).phase) ?_
    cases hbit : c.arrivals.find l with
    | none => exact waits
    | some ph =>
      have hmet := s.arrivalOpen_eq_false p l ph
      cases hopen : s.arrivalOpen p l ph with
      | true =>
        simp only [hopen, if_neg (mt hmet.mpr (by simp [hopen])), if_true]
        exact waits
      | false =>
        simp only [hopen, if_pos (hmet.mp hopen), Bool.false_eq_true, if_false]
        refine ⟨(OnlyContext.of_issued s p).then_updCtx _, ?_⟩
        rw [State.ctx_updCtx_same, State.ctx_issued_same]
        rfl

end Sys2Proof.Machine
end

section
/-! PROOFS. Writes of device bytes as an instruction issues, and the moves that start (R117, R152). -/

namespace Sys2Proof.Machine

/-! ### Writes of bytes -/

theorem besidesCores_writeMarked (n core : Nat) (a : Word) (data : List Byte) (b u : Bool) :
    BesidesCores (fun t => t.writeMarked n core a data b u) := by
  constructor
  intro t c f w
  unfold State.writeMarked State.markSubst
  simp only [State.writeDev_besides, State.keysOf_besides]
  split <;> rfl

theorem State.writeMarked_mem (s : State) (n core : Nat) (a : Word) (data : List Byte) (b u : Bool) :
    (s.writeMarked n core a data b u).mem = Memory.putAll s.mem (List.zip (s.keysOf n core a data.length) data) := by
  unfold State.writeMarked
  rw [(State.markSubst_bytes _ _ _).1, State.writeDev_mem]

/-- Bytes written at some keys leave every other byte. -/
theorem KeepsBytes.of_putAll {s t : State} {ks : List Nat} {l : List Byte} (h : t.mem = Memory.putAll s.mem (List.zip ks l)) :
    KeepsBytes s t ks := by
  intro k hk
  rw [h]
  refine Memory.get_putAll_ne _ _ _ (fun x hx hxk => hk ?_)
  rw [← hxk]
  exact (List.of_mem_zip hx).1

theorem KeepsBytes.of_eq {s t : State} (ks : List Nat) (h : t.mem = s.mem) : KeepsBytes s t ks := fun k _ => by rw [h]

/-- An issue does not move bytes: an address names the same ones (R97). -/
theorem State.keysOf_issued (s : State) (p : At) (n core : Nat) (a : Word) (len : Nat) :
    (s.issued p).keysOf n core a len = s.keysOf n core a len :=
  State.keysOf_besides s (s.issued p).cores (s.issued p).free (s.issued p).power n core a len

theorem State.issued_mem (s : State) (p : At) : (s.issued p).mem = s.mem := rfl

theorem BesidesIssue.of_issued (s : State) (p : At) : BesidesIssue s (s.issued p) (s.issued p) p :=
  { OnlyContext.of_issued s p with rest := rfl }

/-- What a write at issue does to memory. -/
theorem State.issued_writeMarked_mem (s : State) (p : At) (n core : Nat) (a : Word) (data : List Byte) (b u : Bool) :
    ((s.issued p).writeMarked n core a data b u).mem = Memory.putAll s.mem (List.zip (s.keysOf n core a data.length) data) := by
  rw [State.writeMarked_mem, State.keysOf_issued, State.issued_mem]

/-! ### CO_CNT_TURF_BYTES (R126) -/

theorem State.ctx_turfBytes (t : State) (k : Nat) (a : Word) (n : Nat) (q : At) : (t.turfBytes k a n).ctx q = t.ctx q := by
  unfold State.turfBytes
  split
  · exact State.ctx_updCore _ _ _ rfl _
  · rfl

theorem State.turfBytes_mem (t : State) (k : Nat) (a : Word) (n : Nat) : (t.turfBytes k a n).mem = t.mem := by
  unfold State.turfBytes
  split <;> rfl

theorem BesidesIssue.then_turfBytes {s u t : State} {p : At} (h : BesidesIssue s u t p) (a : Word) (n : Nat) :
    BesidesIssue s u (t.turfBytes p.core a n) p := by
  unfold State.turfBytes
  split
  · exact h.then_updCore _ rfl ⟨rfl, rfl, rfl⟩ rfl
  · exact h

/-! ### MOV and MOVZ (R152) -/

/-- Stores and moves travel in order class 0 (R31). -/
theorem State.dataClass_write (s : State) (p : At) : s.dataClass p false = .bulk := by
  simp [State.dataClass]

/-- What a move has of its bytes as it issues: zeros, or those of a scratchpad source (R117). -/
def State.moveGot (s : State) (p : At) (src : Option Word) (len : Nat) : Option (List Byte × Bool × Bool) :=
  match src with
  | none => some (List.replicate len 0, false, false)
  | some a => if spaceOf a = 0 then some (s.readMarked (s.partNum p.core) p.core a len) else none

/-- Whether a move's bytes are written as it issues: they are at hand, and go to the scratchpad (R117). -/
def moveNow (dst : Word) (got : Option (List Byte × Bool × Bool)) : Bool := spaceOf dst = 0 && got.isSome

/-- A move as it joins the moves of its context (R152, R251). -/
def State.moveOf (s : State) (p : At) (src : Option Word) (dst : Word) (len : Nat) (ck : BitVec 2) (ct : BitVec 17)
    (got : Option (List Byte × Bool × Bool)) : Move :=
  let b := (got.map (·.2.1)).getD false
  let u := (got.map (·.2.2)).getD false
  { num := (s.ctx p).nextMove, src := src, dst := dst, len := if moveNow dst got then 0 else len, ck := ck, ct := ct,
    bytes := if moveNow dst got then some [] else got.map (·.1), blight := b, subst := u,
    tx := if spaceOf dst = 0 then none else (s.ctx p).tx, tag := s.tagOf p 0 OrderClass.bulk.code b u }

/-- The bytes of a move that are written as it issues. -/
def State.moveWrite (t : State) (n core : Nat) (dst : Word) (got : Option (List Byte × Bool × Bool)) : State :=
  if moveNow dst got then
    t.writeMarked n core dst ((got.map (·.1)).getD []) ((got.map (·.2.1)).getD false) ((got.map (·.2.2)).getD false)
  else t

theorem besidesCores_moveWrite (n core : Nat) (dst : Word) (got : Option (List Byte × Bool × Bool)) :
    BesidesCores (fun t => t.moveWrite n core dst got) := by
  by_cases hnow : moveNow dst got = true
  · simp only [State.moveWrite, if_pos hnow]
    apply besidesCores_writeMarked
  · simp only [State.moveWrite, if_neg hnow]
    exact ⟨fun _ _ _ _ => rfl⟩

theorem State.issued_moveWrite_mem (s : State) (p : At) (n core : Nat) (dst : Word) (got : Option (List Byte × Bool × Bool)) :
    ((s.issued p).moveWrite n core dst got).mem
      = if moveNow dst got then
          Memory.putAll s.mem (List.zip (s.keysOf n core dst ((got.map (·.1)).getD []).length) ((got.map (·.1)).getD []))
        else s.mem := by
  unfold State.moveWrite
  split
  · exact s.issued_writeMarked_mem ..
  · rfl

/-- A move that starts: its bytes where they are written now, the counters, and its place among the moves. -/
theorem startMove_eq (s t : State) (p : At) (src : Option Word) (dst : Word) (len : Nat) (ck : BitVec 2) (ct : BitVec 17) :
    let got := s.moveGot p src len
    startMove s t p src dst len ck ct
      = (((t.moveWrite (s.partNum p.core) p.core dst got).turfBytes p.core dst len).turfBytes p.core (src.getD 0) len).updCtx p
          (fun c => { c with moves := c.moves ++ [{ s.moveOf p src dst len ck ct got with num := c.nextMove }], nextMove := c.nextMove + 1 }) := by
  intro got
  have hgot : got = s.moveGot p src len := rfl
  clear_value got
  unfold startMove
  cases src with
  | none =>
    by_cases hd : spaceOf dst = 0 <;>
      simp [hgot, State.moveGot, State.moveOf, State.moveWrite, moveNow, State.dataClass_write, Ctx.takes, hd]
  | some a =>
    by_cases ha : spaceOf a = 0
    · by_cases hd : spaceOf dst = 0 <;>
        simp [hgot, State.moveGot, State.moveOf, State.moveWrite, moveNow, State.dataClass_write, Ctx.takes, ha, hd]
    · simp [hgot, State.moveGot, State.moveOf, State.moveWrite, moveNow, State.dataClass_write, Ctx.takes, ha]

/-- A move that starts leaves `Started` of R152: what is written now, its place among the moves, every other byte. -/
theorem startMove_started (s : State) (p : At) (src : Option Word) (dst : Word) (len : Nat) (ck : BitVec 2) (ct : BitVec 17) :
    let got := s.moveGot p src len
    let l := (got.map (·.1)).getD []
    let ks := s.keysOf (s.partNum p.core) p.core dst l.length
    let t := startMove s (s.issued p) p src dst len ck ct
    BesidesIssue s ((s.issued p).moveWrite (s.partNum p.core) p.core dst got) t p
      ∧ t.ctx p = { (s.ctx p).advanced with
          moves := (s.ctx p).moves ++ [s.moveOf p src dst len ck ct got]
          nextMove := (s.ctx p).nextMove + 1 }
      ∧ t.mem = (if moveNow dst got then Memory.putAll s.mem (List.zip ks l) else s.mem)
      ∧ KeepsBytes s t (if moveNow dst got then ks else []) := by
  intro got l ks t
  have ht : t = _ := startMove_eq s (s.issued p) p src dst len ck ct
  have hmem : t.mem = if moveNow dst got then Memory.putAll s.mem (List.zip ks l) else s.mem := by
    rw [ht, State.updCtx_mem, State.turfBytes_mem, State.turfBytes_mem]
    exact s.issued_moveWrite_mem ..
  refine ⟨?_, ?_, hmem, ?_⟩
  · rw [ht]
    exact ((((BesidesIssue.of_issued s p).then_beside (besidesCores_moveWrite _ _ _ _)).then_turfBytes _ _).then_turfBytes _ _).then_updCtx _
  · rw [ht, State.ctx_updCtx_same, State.ctx_turfBytes, State.ctx_turfBytes, (besidesCores_moveWrite _ _ _ _).ctx, State.ctx_issued_same]
    rfl
  · cases hnow : moveNow dst got with
    | true => exact .of_putAll (hmem.trans (if_pos hnow))
    | false => exact .of_eq _ (hmem.trans (if_neg (by simp [hnow])))

/-- Settles O16: both moves start by `startMove`, MOVZ with the zeros that it writes. -/
theorem movesStart : Obligations.MovesStart := by
  unfold Obligations.MovesStart
  intro s p f c n len dst src Started
  refine ⟨fun h => ?mov, fun h => ?movz⟩
  case mov =>
    exact h.completes (eff := fun t => startMove s t p (some src) dst len f.ck f.ct) (startMove_started s p (some src) dst len f.ck f.ct)
  case movz =>
    exact h.completes (eff := fun t => startMove s t p none dst len f.ck f.ct) (startMove_started s p none dst len f.ck f.ct)

end Sys2Proof.Machine
end

section
/-! PROOFS. The lane-wise vector rows: their result goes to vd with the OR of the marks, their beats to the engine (R112, R145). -/

namespace Sys2Proof.Machine

/-- A vector write changes the vector registers and the sticky pair of its context and nothing else. -/
theorem WritesVector.of_ctx {s t : State} {p : At} {r : BitVec 4} {v : VReg} (only : OnlyContext s t p)
    (hctx : t.ctx p = (s.ctx p).advanced.setV r v) : WritesVector s t p r v where
  only := only
  regs := fun q => by
    rw [hctx, Ctx.getV_setV]
    rfl
  frame := by
    rw [hctx]
    rfl

theorem State.ctx_vecBeats (t : State) (k n : Nat) (q : At) : (t.vecBeats k n).ctx q = t.ctx q :=
  State.ctx_updCore _ _ _ rfl _

theorem BesidesIssue.then_vecBeats {s u t : State} {p : At} (h : BesidesIssue s u t p) (n : Nat) :
    BesidesIssue s u (t.vecBeats p.core n) p :=
  h.then_updCore _ rfl ⟨rfl, rfl, rfl⟩ rfl

section
variable {s : State} {p : At} {f : LayV}

theorem WritesVector.of_putV (s : State) (p : At) (r : BitVec 4) (lanes : List (BitVec 32)) (m : Marks) (beats : Nat) :
    WritesVector s (putV (s.issued p) p r lanes m beats) p r (vregOf lanes m) :=
  .of_ctx (((OnlyContext.of_issued s p).then_updCtx _).then_vecBeats _)
    (by rw [putV, State.ctx_vecBeats, State.ctx_updCtx_same, State.ctx_issued_same])

theorem vec1_writes (beats : Nat) (op : Frac → List Val → List Nat)
    (h : Issues s p { v := [f.vd, f.va] } (s.vecRoom p) (firstFault [must (vShape f false false) 0x03, vfmt f.fmt])) :
    Completes (vec1 s p f beats op) (fun t => WritesVector s t p f.vd
      (vregOf (packLanes f.fmt (op (fracOf f.fmt) (vvals f.fmt ((s.ctx p).getV f.va)))) (marksOf (s.ctx p) [f.va]))) :=
  h.completes (WritesVector.of_putV ..)

theorem vec2_writes (op : Frac → Val → Val → Nat)
    (h : Issues s p { v := [f.vd, f.va, f.vb] } (s.vecRoom p) (firstFault [must (vShape f true false) 0x03, vfmt f.fmt])) :
    Completes (vec2 s p f op) (fun t => WritesVector s t p f.vd
      (vregOf (packLanes f.fmt (List.zipWith (op (fracOf f.fmt)) (vvals f.fmt ((s.ctx p).getV f.va)) (vvals f.fmt ((s.ctx p).getV f.vb))))
        (marksOf (s.ctx p) [f.va, f.vb]))) := by
  unfold vec2
  exact h.completes (WritesVector.of_putV ..)

theorem vec3_writes (op : Frac → Val → Val → Val → Nat)
    (h : Issues s p { v := [f.vd, f.va, f.vb, f.vc] } (s.vecRoom p) (firstFault [must (vShape f true true) 0x03, vfmt f.fmt])) :
    Completes (vec3 s p f op) (fun t => WritesVector s t p f.vd
      (vregOf (packLanes f.fmt (List.zipWith (fun a bd => op (fracOf f.fmt) a bd.1 bd.2) (vvals f.fmt ((s.ctx p).getV f.va))
          (List.zip (vvals f.fmt ((s.ctx p).getV f.vb)) (vvals f.fmt ((s.ctx p).getV f.vc)))))
        (marksOf (s.ctx p) [f.va, f.vb, f.vc]))) := by
  unfold vec3
  exact h.completes (WritesVector.of_putV ..)

end

/-- Settles O5: each row is one of `vec1`, `vec2` and `vec3` at its operation (VEXP2, VLOG2: log entry 10). -/
theorem vectorLanewiseResults : Obligations.VectorLanewiseResults := by
  unfold Obligations.VectorLanewiseResults
  intro s p f c fr x y z one
  refine ⟨fun h => ?two, fun h => ?three, fun h => ?one⟩
  case two =>
    simp only [List.forall_mem_cons]
    exact ⟨vec2_writes (fun b a d => encFp b (addVal a d)) h, vec2_writes (fun b a d => encFp b (subVal a d)) h,
      vec2_writes (fun b a d => encFp b (mulVal a d)) h, vec2_writes (fun b a d => encFp b (minVal a d)) h,
      vec2_writes (fun b a d => encFp b (maxVal a d)) h, vec2_writes (fun b a d => truth b (ltVal a d)) h,
      vec2_writes (fun b a d => truth b (eqVal a d)) h, List.forall_mem_nil _⟩
  case three =>
    simp only [List.forall_mem_cons]
    exact ⟨vec3_writes (fun b a d e => encFp b (addVal (mulVal a d) e)) h,
      vec3_writes (fun b a d e => encFp b (if nonZero e then a else d)) h, List.forall_mem_nil _⟩
  case one =>
    simp only [List.forall_mem_cons]
    exact ⟨vec1_writes 1 (fun b l => l.map (fun a => encFp b (absVal a))) h, vec1_writes 1 (fun b l => l.map (fun a => encFp b (negVal a))) h,
      vec1_writes 4 (fun b l => l.map (exp2Fp b)) h, vec1_writes 4 (fun b l => l.map (log2Fp b)) h,
      vec1_writes 4 (fun b l => l.map (rcpFp b)) h, vec1_writes 4 (fun b l => l.map (rsqrtFp b)) h,
      vec1_writes 4 (fun b l => l.map (sqrtFp b)) h, List.forall_mem_nil _⟩

end Sys2Proof.Machine
end

section
/-! PROOFS. VLD, VST, VQ and VDQ: loads and stores of a vector register, and what the quantiser writes and reads (R114, R145,
R149). -/

namespace Sys2Proof.Machine

/-! ### Lengths of byte lists -/

@[simp] theorem length_leBytes (n w : Nat) : (leBytes n w).length = n := by
  induction n generalizing w with
  | zero => rfl
  | succ n ih => rw [leBytes, List.length_cons, ih]

/-- A list of pieces of one length each. -/
theorem length_flatten_of_forall {α β : Type} (f : α → List β) (n : Nat) (l : List α) (h : ∀ a ∈ l, (f a).length = n) :
    ((l.map f).flatten).length = l.length * n := by
  induction l with
  | nil => simp
  | cons a l ih =>
    rw [List.map_cons, List.flatten_cons, List.length_append, h a (by simp), ih (fun b hb => h b (List.mem_cons_of_mem _ hb)),
      List.length_cons, Nat.succ_mul, Nat.add_comm]

theorem VReg.length_bytes (v : VReg) : v.bytes.length = 512 := by
  unfold VReg.bytes
  rw [length_flatten_of_forall _ 4 _ (fun _ _ => length_leBytes 4 _), List.length_range]

/-- A merged statistics record takes its 576 bytes at most (R94, R96). -/
theorem Stats.length_merge_bytes (l : List Byte) (b : Stats) : (((Stats.ofBytes l).merge b).bytes).length ≤ 576 := by
  unfold Stats.bytes
  simp only [List.length_append, length_leBytes, List.length_singleton,
    length_flatten_of_forall _ 8 _ (fun a _ => length_leBytes 8 a), Stats.merge, Stats.ofBytes, List.length_zipWith, List.length_map,
    List.length_range]
  omega

/-! ### Beats under later updates of the core -/

theorem State.cnt_updCtx (s : State) (p : At) (f : Ctx → Ctx) (k : Nat) : ((s.updCtx p f).core k).cnt = (s.core k).cnt :=
  (State.core_updCtx s p f k).2.2.2.1

theorem State.beats_turfBytes (s : State) (k : Nat) (a : Word) (n i : Nat) :
    ((s.turfBytes k a n).core i).cnt.beats = (s.core i).cnt.beats := by
  unfold State.turfBytes
  split
  · by_cases hi : i = k
    · subst hi
      rw [State.core_updCore_same]
    · rw [State.core_updCore_ne _ _ _ hi]
  · rfl

/-! ### VLD and VST (R145) -/

/-- A read from beyond the scratchpad as its instruction issues: one more outstanding load, with the beat of the issue. -/
theorem request_becomes (s : State) (p : At) (d : LoadDest) (a : Word) (size : Nat) :
    let t := ((s.issued p).request s p d a).turfBytes p.core a size
    Becomes s t p { (s.ctx p).advanced with loads := (s.ctx p).loads ++ [s.loadOf p d a (t.core p.core).cnt.beats] } := by
  intro t
  have hbeats : (t.core p.core).cnt.beats = ((s.issued p).core p.core).cnt.beats := by
    rw [State.beats_turfBytes, State.request, State.cnt_updCtx]
  refine ⟨((OnlyContext.of_issued s p).then_updCtx _).then_turfBytes _ _, ?_⟩
  rw [hbeats, State.ctx_turfBytes, State.request, State.ctx_updCtx_same, State.ctx_issued_same]
  rfl

/-- A vector load writes its register at once from the scratchpad, and is outstanding from beyond (R116, R118). -/
theorem startLoad_vector (s : State) (p : At) (a : Word) (vd : BitVec 4) :
    let t := startLoad s (s.issued p) p a 512 (.vector vd)
    let r := s.readMarked (s.partNum p.core) p.core a 512
    if spaceOf a = 0 then WritesVector s t p vd { lanes := lanesOf r.1, blight := r.2.1, subst := r.2.2 }
    else Becomes s t p { (s.ctx p).advanced with
      loads := (s.ctx p).loads ++ [s.loadOf p (.vector vd) a (t.core p.core).cnt.beats] } := by
  by_cases ha : spaceOf a = 0
  · simp only [startLoad, if_pos ha]
    refine .of_ctx ((OnlyContext.of_issued s p).then_updCtx _) ?_
    rw [State.ctx_updCtx_same, State.ctx_issued_same]
    rfl
  · simp only [startLoad, if_neg ha]
    exact request_becomes s p (.vector vd) a 512

theorem besidesCores_txWrite (num : Nat) (a : Word) (data : List Byte) (b u : Bool) :
    BesidesCores (fun t => t.txWrite num a data b u) := by
  constructor
  intro t c f w
  unfold State.txWrite State.grans
  simp only [State.keysOf_besides]
  change (match t.txn num with | none => _ | some _ => _) = _
  cases t.txn num with
  | none => rfl
  | some x =>
    dsimp only
    split <;> rfl

theorem State.txWrite_mem (s : State) (num : Nat) (a : Word) (data : List Byte) (b u : Bool) : (s.txWrite num a data b u).mem = s.mem := by
  unfold State.txWrite
  split
  · rfl
  · dsimp only
    split <;> rfl

/-- What a store leaves outside its context, by where its address lies (R117, R251). -/
theorem State.stored_cases (s : State) (p : At) (a : Word) (data : List Byte) (m : Marks) :
    (spaceOf a = 0 ∧ s.stored p a data m = s.writeMarked (s.partNum p.core) p.core a data m.blight m.subst)
    ∨ (spaceOf a ≠ 0 ∧ ∃ num, (s.ctx p).tx = some num ∧ s.stored p a data m = s.txWrite num a data m.blight m.subst)
    ∨ (spaceOf a ≠ 0 ∧ (s.ctx p).tx = none ∧ s.stored p a data m = s) := by
  by_cases ha : spaceOf a = 0
  · exact .inl ⟨ha, if_pos ha⟩
  · refine .inr ?_
    unfold State.stored
    rw [if_neg ha]
    cases (s.ctx p).tx with
    | some num => exact .inl ⟨ha, num, rfl, rfl⟩
    | none => exact .inr ⟨ha, rfl, rfl⟩

/-- A store as its instruction issues: what it leaves outside the context, and, where it is on its way, its place among the
stores of the context. -/
theorem store_issued (s : State) (p : At) (a : Word) (data : List Byte) (m : Marks) :
    let u := (s.issued p).stored p a data m
    let t := (s.issued p).store p a data m.blight m.subst
    BesidesIssue s u t p ∧ t.mem = u.mem
      ∧ t.ctx p = { (s.ctx p).advanced with
          stores := (s.ctx p).stores ++ s.storesOf p a data m
          nextMove := (s.ctx p).nextMove + (s.storesOf p a data m).length } := by
  intro u t
  have htx : ((s.issued p).ctx p).tx = (s.ctx p).tx := by
    rw [State.ctx_issued_same]
    rfl
  have hsame (h : s.storesOf p a data m = []) : (s.ctx p).advanced = { (s.ctx p).advanced with
      stores := (s.ctx p).stores ++ s.storesOf p a data m
      nextMove := (s.ctx p).nextMove + (s.storesOf p a data m).length } := by
    rw [h, List.append_nil]
    rfl
  rcases (s.issued p).stored_cases p a data m with ⟨ha, hu⟩ | ⟨ha, num, hnum, hu⟩ | ⟨ha, hnone, hu⟩
  · have ht : t = u := (if_pos ha).trans hu.symm
    rw [ht, show u = _ from hu]
    refine ⟨(BesidesIssue.of_issued s p).then_beside (besidesCores_writeMarked ..), rfl, ?_⟩
    rw [(besidesCores_writeMarked ..).ctx, State.ctx_issued_same]
    exact hsame (by simp [State.storesOf, ha])
  · have ht : t = u := by
      rw [show u = _ from hu]
      simp only [t, State.store, if_neg ha, hnum]
    rw [ht, show u = _ from hu]
    refine ⟨(BesidesIssue.of_issued s p).then_beside (besidesCores_txWrite ..), rfl, ?_⟩
    rw [(besidesCores_txWrite ..).ctx, State.ctx_issued_same]
    exact hsame (by simp [State.storesOf, htx.symm.trans hnum])
  · simp only [t, State.store, if_neg ha, hnone]
    rw [show u = _ from hu]
    refine ⟨(BesidesIssue.of_issued s p).then_updCtx _, rfl, ?_⟩
    rw [State.ctx_updCtx_same, State.ctx_issued_same, State.tagOf_issued]
    rw [htx] at hnone
    simp only [State.storesOf, ha, hnone]
    rfl

/-- VST: the store, then the marks of the register in the sticky pair (R135, R145). -/
theorem vst_stores (s : State) (p : At) (a : Word) (v : VReg) :
    let t := (((s.issued p).store p a v.bytes v.blight v.subst).updCtx p (fun c => c.mark v.blight v.subst)).turfBytes p.core a 512
    let ks := s.keysOf (s.partNum p.core) p.core a 512
    BesidesIssue s ((s.issued p).stored p a v.bytes v.marks) t p
      ∧ (spaceOf a = 0 → t.mem = Memory.putAll s.mem (List.zip ks v.bytes))
      ∧ KeepsBytes s t (if spaceOf a = 0 then ks else [])
      ∧ t.ctx p = { (s.ctx p).advanced.mark v.blight v.subst with
        stores := (s.ctx p).stores ++ s.storesOf p a v.bytes v.marks
        nextMove := (s.ctx p).nextMove + (s.storesOf p a v.bytes v.marks).length } := by
  intro t ks
  obtain ⟨hframe, hmem, hctx⟩ := store_issued s p a v.bytes v.marks
  have htmem : t.mem = ((s.issued p).stored p a v.bytes v.marks).mem := by
    rw [State.turfBytes_mem, State.updCtx_mem]
    exact hmem
  have hscratch (ha : spaceOf a = 0) : t.mem = Memory.putAll s.mem (List.zip ks v.bytes) := by
    rw [htmem, State.stored, if_pos ha, State.issued_writeMarked_mem, VReg.length_bytes]
    rfl
  refine ⟨(hframe.then_updCtx _).then_turfBytes _ _, hscratch, ?_, ?_⟩
  · by_cases ha : spaceOf a = 0
    · rw [if_pos ha]
      exact .of_putAll (hscratch ha)
    · rw [if_neg ha]
      refine .of_eq _ (htmem.trans ?_)
      rcases (s.issued p).stored_cases p a v.bytes v.marks with ⟨h, -⟩ | ⟨-, num, -, hu⟩ | ⟨-, -, hu⟩
      · exact absurd h ha
      · rw [hu, State.txWrite_mem, State.issued_mem]
      · rw [hu, State.issued_mem]
  · rw [State.ctx_turfBytes, State.ctx_updCtx_same]
    exact congrArg (fun c => c.mark v.blight v.subst) hctx

end Sys2Proof.Machine
end

section
/-! PROOFS. VQ and VDQ: the areas that the quantiser writes, one write after another, and the reads that delay it (R109, R149). -/

namespace Sys2Proof.Machine

/-! ### The layout of memory under writes -/

theorem SameMap.refl (s : State) : SameMap s s := fun _ => ⟨rfl, rfl, rfl⟩

theorem SameMap.trans {s t u : State} (h : SameMap s t) (k : SameMap t u) : SameMap s u := fun m =>
  ⟨(h m).1.trans (k m).1, (h m).2.1.trans (k m).2.1, (h m).2.2.trans (k m).2.2⟩

theorem SameMap.of_parts {s t : State} (h : t.parts = s.parts) : SameMap s t := by
  intro m
  unfold State.part
  rw [h]
  exact ⟨rfl, rfl, rfl⟩

/-- An update of a partition that keeps what is installed and the configuration keeps the layout. -/
theorem SameMap.updPart (s : State) (n : Nat) (f : Part → Part)
    (h : (f (s.part n)).objects = (s.part n).objects ∧ (f (s.part n)).tables = (s.part n).tables ∧ (f (s.part n)).cfg = (s.part n).cfg) :
    SameMap s (s.updPart n f) := by
  intro m
  by_cases hm : m = n
  · subst hm
    rw [State.part_updPart_same]
    exact ⟨h.1.symm, h.2.1.symm, h.2.2.symm⟩
  · rw [State.part_updPart_ne _ _ _ hm]
    exact ⟨rfl, rfl, rfl⟩

theorem State.writeKeys_parts (s : State) (ks : List Nat) (data : List Byte) (b : Bool) : (s.writeKeys ks data b).parts = s.parts := by
  unfold State.writeKeys
  dsimp only
  split <;> rfl

theorem State.markSubst_parts (s : State) (ks : List Nat) (u : Bool) : (s.markSubst ks u).parts = s.parts := by
  unfold State.markSubst
  split <;> rfl

theorem sameMap_markStale (s : State) (n : Nat) (a : Word) (len : Nat) : SameMap s (s.markStale n a len) := by
  unfold State.markStale
  split
  · exact .refl s
  · exact .updPart s n _ ⟨rfl, rfl, rfl⟩

/-- Writing device bytes leaves the layout of memory alone. -/
theorem sameMap_writeDev (s : State) (n core : Nat) (a : Word) (data : List Byte) (b : Bool) : SameMap s (s.writeDev n core a data b) := by
  have h : SameMap s ((s.writeKeys (s.keysOf n core a data.length) data b).markStale n a data.length) :=
    (SameMap.of_parts (State.writeKeys_parts ..)).trans (sameMap_markStale _ _ _ _)
  unfold State.writeDev
  dsimp only
  split
  · split
    · exact h.trans (.of_parts rfl)
    · exact h
  · exact h

theorem sameMap_writeMarked (s : State) (n core : Nat) (a : Word) (data : List Byte) (b u : Bool) :
    SameMap s (s.writeMarked n core a data b u) :=
  (sameMap_writeDev s n core a data b).trans (.of_parts (State.markSubst_parts ..))

theorem sameMap_turfBytes (s : State) (k : Nat) (a : Word) (n : Nat) : SameMap s (s.turfBytes k a n) := by
  refine .of_parts ?_
  unfold State.turfBytes
  split <;> rfl

/-- A shorter run of bytes lies in a longer one. -/
theorem State.keysOf_subset (s : State) (n core : Nat) (a : Word) {len len' : Nat} (h : len ≤ len') {k : Nat}
    (hk : k ∈ s.keysOf n core a len) : k ∈ s.keysOf n core a len' := by
  obtain ⟨i, hi, hik⟩ := List.mem_filterMap.mp hk
  exact List.mem_filterMap.mpr ⟨i, List.mem_range.mpr ((List.mem_range.mp hi).trans_le h), hik⟩

theorem State.mem_keysOfRuns {s : State} {n core : Nat} {l : List (Word × Nat)} {x : Word × Nat} (hx : x ∈ l) {k : Nat}
    (hk : k ∈ s.keysOf n core x.1 x.2) : k ∈ s.keysOfRuns n core l :=
  List.mem_flatten.mpr ⟨_, List.mem_map.mpr ⟨x, hx, rfl⟩, hk⟩

/-! ### A state that an issue and writes of some runs of bytes have left -/

/-- `t` came of the issue of `p` in `s` by writes among the runs `spans`: but for the writes the frame of the issue, the
context gone on, memory laid out as before, every other byte as before. -/
structure AreaWrites (s : State) (p : At) (n : Nat) (spans : List (Word × Nat)) (t : State) : Prop where
  frame : BesidesIssue s t t p
  ctx : t.ctx p = (s.ctx p).advanced
  map : SameMap s t
  keeps : KeepsBytes s t (s.keysOfRuns n p.core spans)

section
variable {s t : State} {p : At} {n : Nat} {spans : List (Word × Nat)}

theorem AreaWrites.issued : AreaWrites s p n spans (s.issued p) where
  frame := .of_issued s p
  ctx := State.ctx_issued_same s p
  map := .of_parts rfl
  keeps := .of_eq _ rfl

theorem AreaWrites.turfBytes (h : AreaWrites s p n spans t) (a : Word) (len : Nat) : AreaWrites s p n spans (t.turfBytes p.core a len) where
  frame := (h.frame.then_turfBytes a len).rebase
  ctx := (State.ctx_turfBytes ..).trans h.ctx
  map := h.map.trans (sameMap_turfBytes _ _ _ _)
  keeps := fun k hk => by rw [State.turfBytes_mem, h.keeps k hk]

/-- A write within one of the runs is one more. -/
theorem AreaWrites.putArea (h : AreaWrites s p n spans t) {a : Word} {len : Nat} (hspan : (a, len) ∈ spans) {l : List Byte}
    (hlen : l.length ≤ len) (m : Marks) : AreaWrites s p n spans (t.putArea n p.core a l m) := by
  refine AreaWrites.turfBytes ?_ a l.length
  refine ⟨(h.frame.then_beside (besidesCores_writeMarked ..)), ?_, h.map.trans (sameMap_writeMarked _ _ _ _ _ _ _), fun k hk => ?_⟩
  · rw [(besidesCores_writeMarked ..).ctx, h.ctx]
  · have hne : k ∉ t.keysOf n p.core a l.length := by
      rw [← h.map.keysOf]
      exact fun hin => hk (State.mem_keysOfRuns hspan (s.keysOf_subset _ _ _ hlen hin))
    exact (KeepsBytes.of_putAll (State.writeMarked_mem ..) k hne).trans (h.keeps k hk)

theorem AreaWrites.ite {u : State} (c : Prop) [Decidable c] (ht : c → AreaWrites s p n spans t) (hu : ¬ c → AreaWrites s p n spans u) :
    AreaWrites s p n spans (if c then t else u) := by
  split
  · next h => exact ht h
  · next h => exact hu h

theorem AreaWrites.foldl {α : Type} {f : State → α → State} {l : List α} (h : AreaWrites s p n spans t)
    (hf : ∀ u, AreaWrites s p n spans u → ∀ a ∈ l, AreaWrites s p n spans (f u a)) : AreaWrites s p n spans (l.foldl f t) :=
  List.foldlRecOn (motive := AreaWrites s p n spans) l f h hf

end

/-! ### What VQ writes (R149) -/

/-- The place of outlier value `j` of block `i` among the runs of a VQ. -/
theorem outlier_mem_vqSpans (d : TDesc) (outs : List QOut) {i j : Nat} (hi : i < outs.length) (hj : j < d.outliers.length) :
    (plus d.outl (2 * ((d.cursor + i) / max 1 d.blocks * d.outCount + j)), 2) ∈ vqSpans d outs := by
  refine List.mem_append_right _ (List.mem_flatten.mpr ⟨_, List.mem_map.mpr ⟨j, List.mem_range.mpr hj, rfl⟩, ?_⟩)
  exact List.mem_map.mpr ⟨i, List.mem_range.mpr hi, rfl⟩

theorem stats_mem_vqSpans (d : TDesc) (outs : List QOut) (h : d.stats = true) : (d.statAddr, 576) ∈ vqSpans d outs := by
  refine List.mem_append_left _ (List.mem_append_right _ ?_)
  rw [if_pos h]
  exact List.mem_singleton.mpr rfl

theorem areas_mem_vqSpans (d : TDesc) (outs : List QOut) {x : Word × Nat}
    (h : x ∈ [(plus d.code (d.cursor * 4 * eltBits d.fmt), outs.length * 4 * eltBits d.fmt), (plus d.scale (2 * d.cursor), 2 * outs.length),
      (plus d.esc (8 * d.escN), (vqEsc d outs).length), (plus d.prom (40 * d.promN), (vqProm d outs).length), (plus d.at_ 0x60, 24)]) :
    x ∈ vqSpans d outs :=
  List.mem_append_left _ (List.mem_append_left _ h)

/-- Everything that VQ writes lies in the runs that the statement names: the areas, the statistics, the counts (R149). -/
theorem vqWrite_areaWrites (s : State) (p : At) (n : Nat) (d : TDesc) (m : Marks) (vals : List Val) :
    AreaWrites s p n (vqSpans d (vqOuts d m.blight vals)) (vqWrite (s.issued p) n p.core d m vals) := by
  unfold vqWrite
  extract_lets outs w codes scales e q escs proms outls stats
  have hcodes : AreaWrites s p n (vqSpans d outs) codes :=
    AreaWrites.issued.putArea (len := outs.length * 4 * w) (areas_mem_vqSpans d outs (by simp [w])) (by
      rw [length_flatten_of_forall _ (4 * w) _ (fun _ _ => length_leBytes _ _)]
      rw [Nat.mul_assoc]) m
  have hscales : AreaWrites s p n (vqSpans d outs) scales :=
    hcodes.putArea (len := 2 * outs.length) (areas_mem_vqSpans d outs (by simp)) (by
      rw [length_flatten_of_forall _ 2 _ (fun _ _ => length_leBytes _ _), Nat.mul_comm]) m
  have hescs : AreaWrites s p n (vqSpans d outs) escs :=
    .ite _ (fun _ => hscales) (fun _ => hscales.putArea (areas_mem_vqSpans d outs (by simp [e])) (le_refl _) m)
  have hproms : AreaWrites s p n (vqSpans d outs) proms :=
    .ite _ (fun _ => hescs) (fun _ => hescs.putArea (areas_mem_vqSpans d outs (by simp [q])) (le_refl _) m)
  have houtls : AreaWrites s p n (vqSpans d outs) outls :=
    hproms.foldl (fun u hu j hj => hu.foldl (fun v hv i hi => .ite _
      (fun _ => hv.putArea (outlier_mem_vqSpans d outs (List.mem_range.mp hi) (List.mem_range.mp hj)) (by simp) m) (fun _ => hv)))
  have hstats : AreaWrites s p n (vqSpans d outs) stats :=
    .ite _ (fun h => (houtls.putArea (stats_mem_vqSpans d outs h) (Stats.length_merge_bytes _ _) {}).turfBytes _ _) (fun _ => houtls)
  exact hstats.putArea (len := 24) (areas_mem_vqSpans d outs (by simp)) (by simp) {}

/-! ### Reads beyond the scratchpad (R109, R305, R385) -/

theorem besidesCores_updNear (i : Nat) (f : MemSt → MemSt) : BesidesCores (fun t => t.updNear i f) := ⟨fun _ _ _ _ => rfl⟩

theorem besidesCores_updChan (i : Nat) (f : MemSt → MemSt) : BesidesCores (fun t => t.updChan i f) := ⟨fun _ _ _ _ => rfl⟩

/-- Counting the bytes served neither reads nor changes cores, free values and power (R305). -/
theorem besidesCores_served (ks : List Nat) (cls : Nat) : BesidesCores (fun t => t.served ks cls) where
  beside t c f w := by
    unfold State.served
    dsimp only
    rw [(BesidesCores.foldl (fun i => besidesCores_updNear i _) _).beside, (BesidesCores.foldl (fun i => besidesCores_updChan i _) _).beside]

theorem besidesCores_servedRuns (s : State) (p : At) (runs : List (Word × Nat)) : BesidesCores (fun t => t.servedRuns s p runs) :=
  besidesCores_served _ _

theorem State.servedRuns_mem (t s : State) (p : At) (runs : List (Word × Nat)) : (t.servedRuns s p runs).mem = t.mem :=
  (State.served_bytes _ _ _).1

/-- What an instruction waits for joins the reads of its context, with the beat of its issue. -/
theorem awaitRuns_waits {s u t : State} {p : At} {c : Ctx} (h : BesidesIssue s u t p) (hctx : t.ctx p = c) (dest : Nat → LoadDest)
    (runs : List (Word × Nat)) :
    let r := t.awaitRuns s p dest runs
    BesidesIssue s (u.servedRuns s p runs) r p ∧ r.mem = t.mem
      ∧ r.ctx p = { c with loads := c.loads ++ s.delay p dest runs (r.core p.core).cnt.beats } := by
  intro r
  have hr : r = (t.servedRuns s p runs).updCtx p (fun c => { c with loads := c.loads ++ s.delay p dest runs (t.core p.core).cnt.beats }) := rfl
  have hbeats : (r.core p.core).cnt.beats = (t.core p.core).cnt.beats := by
    rw [hr, State.cnt_updCtx, (besidesCores_servedRuns s p runs).core]
  refine ⟨(h.then_beside (besidesCores_servedRuns s p runs)).then_updCtx _, State.servedRuns_mem .., ?_⟩
  rw [hbeats, hr, State.ctx_updCtx_same, (besidesCores_servedRuns s p runs).ctx, hctx]

theorem State.ctx_turfRuns (t : State) (k : Nat) (l : List (Word × Nat)) (q : At) : (t.turfRuns k l).ctx q = t.ctx q :=
  List.foldlRecOn (motive := fun u : State => u.ctx q = t.ctx q) l _ rfl (fun _ hu _ _ => (State.ctx_turfBytes ..).trans hu)

theorem State.turfRuns_mem (t : State) (k : Nat) (l : List (Word × Nat)) : (t.turfRuns k l).mem = t.mem :=
  (State.turfRuns_bytes t k l).1

theorem BesidesIssue.then_turfRuns {s u t : State} {p : At} (h : BesidesIssue s u t p) (l : List (Word × Nat)) :
    BesidesIssue s u (t.turfRuns p.core l) p :=
  List.foldlRecOn (motive := fun v : State => BesidesIssue s u v p) l _ h (fun _ hv _ _ => hv.then_turfBytes _ _)

/-! ### VQ and VDQ -/

section
variable {s : State} {p : At} {f : LayV}

theorem vq_completes (hissues : Issues s p { s := [f.sb], v := [f.va] } (s.vecRoom p)
      (firstFault [must (f.vd = 0 && f.vb = 0 && f.vc = 0 && f.sa = 0 && f.imm = 0) 0x03, vfmt f.fmt,
        vqFault s (s.partNum p.core) p.core ((s.ctx p).getS f.sb)
          (((s.ctx p).getV f.va).blight || (s.desc (s.partNum p.core) p.core ((s.ctx p).getS f.sb)).2) (vvals f.fmt ((s.ctx p).getV f.va))])) :
    let c := s.ctx p
    let n := s.partNum p.core
    let v := c.getV f.va
    let d := s.desc n p.core (c.getS f.sb)
    let bad := v.blight || d.2
    let m : Marks := ⟨bad, v.subst || s.runsSubst n p.core d.1.headRuns⟩
    let runs := d.1.headRuns ++ (if d.1.stats then [(d.1.statAddr, 576)] else [])
    let u := vqWrite (s.issued p) n p.core d.1 m (vvals f.fmt v)
    Completes (exec (.vq p f) s) (fun t => BesidesIssue s (u.servedRuns s p runs) t p ∧ t.mem = u.mem
      ∧ KeepsBytes s t (s.keysOfRuns n p.core (vqSpans d.1 (vqOuts d.1 bad (vvals f.fmt v))))
      ∧ t.ctx p = { c.advanced.mark m.blight m.subst with
        loads := c.loads ++ s.delay p (fun len => .engine len [] []) runs (t.core p.core).cnt.beats }) := by
  intro c n v d bad m runs u
  have hu : AreaWrites s p n (vqSpans d.1 (vqOuts d.1 bad (vvals f.fmt v))) u := vqWrite_areaWrites s p n d.1 m (vvals f.fmt v)
  let beats := blockCount f.fmt + 2 * ((vqOuts d.1 bad (vvals f.fmt v)).filter (·.promoted)).length
  let x := ((u.turfRuns p.core d.1.headRuns).updCtx p (fun x => x.mark m.blight m.subst)).vecBeats p.core beats
  have hx : BesidesIssue s u x p := ((hu.frame.then_turfRuns _).then_updCtx _).then_vecBeats _
  have hctx : x.ctx p = c.advanced.mark m.blight m.subst := by
    rw [State.ctx_vecBeats, State.ctx_updCtx_same, State.ctx_turfRuns, hu.ctx]
  obtain ⟨hframe, hmem, hwait⟩ := awaitRuns_waits hx hctx (fun len => .engine len [] []) runs
  have hmem' : (x.awaitRuns s p (fun len => .engine len [] []) runs).mem = u.mem := hmem.trans (State.turfRuns_mem ..)
  refine hissues.completes (eff := fun t =>
    ((((vqWrite t n p.core d.1 m (vvals f.fmt v)).turfRuns p.core d.1.headRuns).updCtx p (fun x => x.mark m.blight m.subst)).vecBeats p.core
      beats).awaitRuns s p (fun len => .engine len [] []) runs) ⟨hframe, hmem', fun k hk => ?_, hwait⟩
  rw [hmem', hu.keeps k hk]

theorem State.reportDamage_reports (s : State) (n core : Nat) (d : TDesc) (idx : Nat) : BesidesReports s (s.reportDamage n core d idx) := by
  unfold State.reportDamage
  split
  · exact post_reports ..
  · exact .refl s

theorem State.ctx_turfSide (t : State) (k : Nat) (d : TDesc) (q : At) : (t.turfSide k d).ctx q = t.ctx q := by
  unfold State.turfSide
  dsimp only
  split
  · rw [State.ctx_fresh, State.ctx_updCore _ _ _ rfl]
  · rfl

theorem State.turfSide_mem (t : State) (k : Nat) (d : TDesc) : (t.turfSide k d).mem = t.mem := by
  unfold State.turfSide
  dsimp only
  split <;> rfl

/-- A free value drawn passes through the frame of an issue. -/
theorem BesidesIssue.then_fresh {s u t : State} {p : At} (h : BesidesIssue s u t p) : BesidesIssue s u t.fresh p :=
  { h with rest := congrArg State.fresh h.rest }

theorem BesidesIssue.then_turfSide {s u t : State} {p : At} (h : BesidesIssue s u t p) (d : TDesc) :
    BesidesIssue s u (t.turfSide p.core d) p := by
  unfold State.turfSide
  dsimp only
  split
  · exact (h.then_updCore _ rfl ⟨rfl, rfl, rfl⟩ rfl).then_fresh
  · exact h

/-- The frame of an issue looks at cores alone. -/
theorem BesidesIssue.of_cores {s t u : State} {p : At} (h : BesidesIssue s t t p) (hc : u.cores = t.cores) : BesidesIssue s u u p := by
  have hcore (k : Nat) : u.core k = t.core k := by
    unfold State.core
    rw [hc]
  refine ⟨rfl, fun q hq => ?_, fun k hk => (hcore k).trans (h.cores k hk), ?_, ?_⟩
  · unfold State.ctx
    rw [hcore]
    exact h.others q hq
  · rw [hcore]
    exact h.units
  · rw [hcore]
    exact h.issued

theorem BesidesReports.cores {t u : State} (h : BesidesReports t u) : u.cores = t.cores := by
  rw [h]

theorem BesidesReports.ctx {t u : State} (h : BesidesReports t u) (p : At) : u.ctx p = t.ctx p := by
  rw [h]
  rfl

theorem vdq_completes :
    let c := s.ctx p
    let n := s.partNum p.core
    let d := (s.desc n p.core (c.getS f.sb)).1
    let first := (c.getS f.sa).toNat
    let k := blockCount f.fmt
    let bs := (List.range k).map (fun i => s.blockVals n p.core d (first + i))
    let runs := d.headRuns ++ d.blockRuns first k ++ d.sideRuns
    let x : VReg := { lanes := packLanes f.fmt ((bs.map (fun b => b.1.map (encFp (fracOf f.fmt)))).flatten),
                      blight := (s.desc n p.core (c.getS f.sb)).2 || bs.any (·.2), subst := s.runsSubst n p.core runs }
    Issues s p { s := [f.sa, f.sb], v := [f.vd] } (s.areaRoom n (s.vecRoom p) [d.code, d.scale, d.esc, d.prom, d.outl])
      (firstFault [must (f.va = 0 && f.vb = 0 && f.vc = 0 && f.imm = 0) 0x03, vfmt f.fmt, s.descFault n (c.getS f.sb),
        must (d.legal && d.kind = 0) 0x05, must (s.blocksOk n d first k) 0x06]) →
    Completes (exec (.vdq p f) s) (fun t =>
      BesidesIssue s (((List.range k).foldl (fun u i => u.reportDamage n p.core d (first + i)) (s.issued p)).servedRuns s p runs) t p
      ∧ t.mem = s.mem ∧ t.ctx p = { c.advanced.setV f.vd x with
        loads := c.loads ++ s.delay p (fun len => .engine len [f.vd] []) runs (t.core p.core).cnt.beats }) := by
  intro c n d first k bs runs x hissues
  let reported (t : State) : State := (List.range k).foldl (fun u i => u.reportDamage n p.core d (first + i)) t
  have hreports : BesidesReports (s.issued p) (reported (s.issued p)) := .foldl (fun u i => u.reportDamage_reports ..) _ _
  let decoded (t : State) : State :=
    ((putV (reported t) p f.vd x.lanes ⟨x.blight, x.subst⟩ k).turfRuns p.core (d.headRuns ++ d.blockRuns first k)).turfSide p.core d
  have hframe : BesidesIssue s (reported (s.issued p)) (decoded (s.issued p)) p :=
    (((((BesidesIssue.of_issued s p).of_cores hreports.cores).then_updCtx _).then_vecBeats _).then_turfRuns _).then_turfSide _
  have hctx : (decoded (s.issued p)).ctx p = c.advanced.setV f.vd x := by
    rw [State.ctx_turfSide, State.ctx_turfRuns, putV, State.ctx_vecBeats, State.ctx_updCtx_same, hreports.ctx, State.ctx_issued_same]
    rfl
  have hmem : (decoded (s.issued p)).mem = s.mem := by
    rw [State.turfSide_mem, State.turfRuns_mem]
    exact hreports.bytes.1
  obtain ⟨hwframe, hwmem, hwctx⟩ := awaitRuns_waits hframe hctx (fun len => .engine len [f.vd] []) runs
  exact hissues.completes (eff := fun t => (decoded t).awaitRuns s p (fun len => .engine len [f.vd] []) runs)
    ⟨hwframe, hwmem.trans hmem, hwctx⟩

end

/-- Settles O7: VLD starts by `startLoad`, VST stores by `State.store`, VQ writes by `vqWrite`, VDQ decodes and waits as a load
does (log entries 17, 20). -/
theorem vectorMemoryResults : Obligations.VectorMemoryResults := by
  unfold Obligations.VectorMemoryResults
  intro s p f c n a v d bad
  refine ⟨fun h => ?vld, fun h => ?vst, fun h => vq_completes h, vdq_completes⟩
  case vld => exact h.completes (eff := fun t => startLoad s t p a 512 (.vector f.vd)) (startLoad_vector s p a f.vd)
  case vst =>
    exact h.completes (eff := fun t => ((t.store p a v.bytes v.blight v.subst).updCtx p (fun c => c.mark v.blight v.subst)).turfBytes p.core a 512)
      (vst_stores s p a v)

end Sys2Proof.Machine
end

section
/-! PROOFS. What happens to a context when its writes have become visible or its reads have come: an abort, a release, an issue
and the end of a stall leave its registers, its reads and its writes alone (R145, R161, R255, R311). -/

namespace Sys2Proof.Machine

/-! ### Operands and work in flight -/

/-- Two records of a context that hold the same registers, sticky marks and work in flight. -/
structure Ctx.SameWork (c d : Ctx) : Prop where
  s : d.s = c.s
  v : d.v = c.v
  acc : d.acc = c.acc
  loads : d.loads = c.loads
  stores : d.stores = c.stores
  moves : d.moves = c.moves
  stickyBlight : d.stickyBlight = c.stickyBlight
  stickySubst : d.stickySubst = c.stickySubst

theorem Ctx.SameWork.refl (c : Ctx) : Ctx.SameWork c c := ⟨rfl, rfl, rfl, rfl, rfl, rfl, rfl, rfl⟩

theorem Ctx.SameWork.trans {c d e : Ctx} (h : Ctx.SameWork c d) (k : Ctx.SameWork d e) : Ctx.SameWork c e :=
  ⟨k.s.trans h.s, k.v.trans h.v, k.acc.trans h.acc, k.loads.trans h.loads, k.stores.trans h.stores, k.moves.trans h.moves,
    k.stickyBlight.trans h.stickyBlight, k.stickySubst.trans h.stickySubst⟩

/-- `t` came of `s` while context `p` went on: its registers and its work in flight, the products of its core and memory are those of
`s`, and what was on its way to a sync store still is. -/
structure GoesOn (s t : State) (p : At) : Prop where
  work : Ctx.SameWork (s.ctx p) (t.ctx p)
  tiles : (t.core p.core).tiles = (s.core p.core).tiles
  mem : t.mem = s.mem
  sent : ∀ o ∈ s.sync.inflight, o ∈ t.sync.inflight

section
variable {s t u : State} {p : At}

theorem GoesOn.refl (s : State) (p : At) : GoesOn s s p := ⟨.refl _, rfl, rfl, fun _ h => h⟩

theorem GoesOn.trans (h : GoesOn s t p) (k : GoesOn t u p) : GoesOn s u p :=
  ⟨h.work.trans k.work, k.tiles.trans h.tiles, k.mem.trans h.mem, fun o ho => k.sent o (h.sent o ho)⟩

/-- A step that leaves the cores. -/
theorem GoesOn.of_cores (hc : t.cores = s.cores) (hm : t.mem = s.mem) (hs : ∀ o ∈ s.sync.inflight, o ∈ t.sync.inflight) : GoesOn s t p := by
  have hcore : t.core p.core = s.core p.core := by
    unfold State.core
    rw [hc]
  refine ⟨?_, by rw [hcore], hm, hs⟩
  unfold State.ctx
  rw [hcore]
  exact .refl _

theorem GoesOn.updCtx (s : State) (p : At) (f : Ctx → Ctx) (h : Ctx.SameWork (s.ctx p) (f (s.ctx p))) : GoesOn s (s.updCtx p f) p :=
  ⟨by rw [State.ctx_updCtx_same]; exact h, (State.core_updCtx s p f p.core).1, rfl, fun _ h => h⟩

/-! ### Aborts (R255) -/

theorem State.dropTx_frame (s : State) (num : Nat) : (s.dropTx num).cores = s.cores ∧ (s.dropTx num).sync = s.sync := by
  have h : (s.gateWaited num).cores = s.cores ∧ (s.gateWaited num).sync = s.sync := by
    unfold State.gateWaited
    split
    · split <;> exact ⟨rfl, rfl⟩
    · exact ⟨rfl, rfl⟩
  exact h

/-- Aborting the open transaction of a context changes of the cores the context alone, and no sync store. -/
theorem State.abortTx_frame (s : State) (p : At) :
    (s.abortTx p).sync = s.sync
      ∧ (s.abortTx p).cores = if (s.ctx p).tx = none then s.cores else (s.updCtx p (fun c => { c with tx := none, txid := 0 })).cores := by
  unfold State.abortTx
  cases htx : (s.ctx p).tx with
  | none => exact ⟨rfl, rfl⟩
  | some num =>
    dsimp only
    split
    · exact ⟨rfl, rfl⟩
    · exact ⟨(State.dropTx_frame ..).2, (State.dropTx_frame ..).1⟩

theorem GoesOn.abortTx (s : State) (p : At) : GoesOn s (s.abortTx p) p := by
  obtain ⟨hsync, hcores⟩ := s.abortTx_frame p
  by_cases htx : (s.ctx p).tx = none
  · rw [if_pos htx] at hcores
    exact .of_cores hcores (State.abortTx_bytes s p).1 (fun _ ho => hsync ▸ ho)
  · rw [if_neg htx] at hcores
    exact (GoesOn.updCtx s p (fun c => { c with tx := none, txid := 0 }) ⟨rfl, rfl, rfl, rfl, rfl, rfl, rfl, rfl⟩).trans
      (.of_cores hcores (State.abortTx_bytes s p).1 (fun _ ho => hsync ▸ ho))

/-! ### What a drained context does (R145, R161, R311) -/

theorem GoesOn.sendSync (s : State) (p : At) (op : SyncOp) : GoesOn s (s.sendSync op) p :=
  .of_cores rfl rfl (fun _ ho => List.mem_append_left _ ho)

theorem GoesOn.issued (s : State) (p : At) : GoesOn s (s.issued p) p :=
  ⟨by rw [State.ctx_issued_same]; exact ⟨rfl, rfl, rfl, rfl, rfl, rfl, rfl, rfl⟩, (State.units_issued s p p.core).1, rfl, fun _ h => h⟩

theorem GoesOn.afterRetire (s : State) (p : At) : GoesOn s (s.afterRetire p) p := by
  unfold State.afterRetire
  split
  · exact (GoesOn.abortTx s p).trans (.updCtx _ p _ ⟨rfl, rfl, rfl, rfl, rfl, rfl, rfl, rfl⟩)
  · exact .refl s p

/-- The releases that a core owes for a context leave (R156, R311). -/
def State.payOwed (s : State) (p : At) : State := ((s.ctx p).owed.foldl State.sendSync s).updCtx p (fun c => { c with owed := [] })

theorem GoesOn.payOwed (s : State) (p : At) : GoesOn s (s.payOwed p) p :=
  (List.foldlRecOn (motive := fun t => GoesOn s t p) _ State.sendSync (.refl s p)
    (fun t ht op _ => ht.trans (.sendSync t p op))).trans (.updCtx _ p _ ⟨rfl, rfl, rfl, rfl, rfl, rfl, rfl, rfl⟩)

theorem State.afterDrain_undrained (h : (s.ctx p).drained = false) : s.afterDrain p = s := by
  simp [State.afterDrain, h]

theorem State.afterDrain_release {op : SyncOp} (h : (s.ctx p).drained = true) (hop : (s.ctx p).stalledOn = some (.release op)) :
    s.afterDrain p = ((s.payOwed p).issued p).sendSync op := by
  simp [State.afterDrain, h, hop, State.payOwed]

theorem GoesOn.afterDrain (s : State) (p : At) : GoesOn s (s.afterDrain p) p := by
  unfold State.afterDrain
  dsimp only
  split
  · exact .refl s p
  · refine (GoesOn.payOwed s p).trans ?_
    split
    · exact .updCtx _ p _ ⟨rfl, rfl, rfl, rfl, rfl, rfl, rfl, rfl⟩
    · exact (GoesOn.issued _ p).trans (.sendSync ..)
    · exact .afterRetire _ p

/-! ### The end of a stall (R99) -/

/-- A context after an operand or room it stalled for has come. -/
def Ctx.unstalled (c : Ctx) : Ctx :=
  if c.state = .stalled && (c.stalledOn = some .operand || c.stalledOn = some .unitFull) then { c with state := .ready, stalledOn := none } else c

theorem Tab.get_map {α : Type} (g : α → α) (d : α) (hd : g d = d) (t : Tab α) (k : Nat) :
    Tab.get d (List.map (fun x => (x.1, g x.2)) t) k = g (Tab.get d t k) := by
  induction t with
  | nil => exact hd.symm
  | cons x t ih =>
    simp only [List.map_cons, Tab.get]
    split
    · rfl
    · exact ih

theorem State.unstall_eq (s : State) (k : Nat) :
    s.unstall k = s.updCore k (fun c => { c with ctxs := c.ctxs.map (fun x => (x.1, x.2.unstalled)) }) := by
  unfold State.unstall
  congr 1
  funext c
  congr 1
  refine List.map_congr_left (fun x _ => ?_)
  unfold Ctx.unstalled
  split <;> rfl

theorem State.ctx_unstall (s : State) (p : At) : (s.unstall p.core).ctx p = (s.ctx p).unstalled := by
  rw [State.unstall_eq]
  unfold State.ctx
  rw [State.core_updCore_same]
  exact Tab.get_map Ctx.unstalled {} rfl _ _

theorem Ctx.unstalled_work (c : Ctx) : Ctx.SameWork c c.unstalled := by
  unfold Ctx.unstalled
  split
  · exact ⟨rfl, rfl, rfl, rfl, rfl, rfl, rfl, rfl⟩
  · exact .refl c

theorem Ctx.unstalled_ready {c : Ctx} (h : c.state = .ready) : c.unstalled = c := by
  simp [Ctx.unstalled, h]

theorem GoesOn.unstall (s : State) (p : At) : GoesOn s (s.unstall p.core) p := by
  refine ⟨by rw [State.ctx_unstall]; exact Ctx.unstalled_work _, ?_, rfl, fun _ h => h⟩
  rw [State.unstall_eq, State.core_updCore_same]

/-- A write or a read of a context is done: what waited for that goes on. -/
theorem GoesOn.afterDrain_unstall (s : State) (p : At) : GoesOn s ((s.afterDrain p).unstall p.core) p :=
  (GoesOn.afterDrain s p).trans (.unstall _ p)

end

end Sys2Proof.Machine
end

section
/-! PROOFS. MFENCE, MOVE_COMPLETE and WRITE_VISIBLE: what waits for writes, and what a write that becomes visible does (R145, R152,
R251, R287, R311). -/

namespace Sys2Proof.Machine

/-! ### Bytes served touch the tiers' counters alone (R305) -/

/-- Counting the bytes served changes the records of stacks and channels and nothing else of the tiers. -/
theorem State.served_eq (s : State) (ks : List Nat) (cls : Nat) :
    s.served ks cls = { s with tiers := { s.tiers with nears := (s.served ks cls).tiers.nears, chans := (s.served ks cls).tiers.chans } } := by
  unfold State.served
  dsimp only
  refine List.foldlRecOn
    (motive := fun t : State => t = { s with tiers := { s.tiers with nears := t.tiers.nears, chans := t.tiers.chans } }) _ _ ?_ ?_
  · refine List.foldlRecOn
      (motive := fun t : State => t = { s with tiers := { s.tiers with nears := t.tiers.nears, chans := t.tiers.chans } }) _ _ rfl ?_
    exact fun t ht i _ => (congrArg (fun v : State => v.updNear i _) ht).trans rfl
  · exact fun t ht i _ => (congrArg (fun v : State => v.updChan i _) ht).trans rfl

theorem State.served_tiers (s : State) (ks : List Nat) (cls : Nat) : s.served ks cls = { s with tiers := (s.served ks cls).tiers } :=
  (s.served_eq ks cls).trans (congrArg (fun x => ({ s with tiers := x } : State)) (congrArg State.tiers (s.served_eq ks cls)).symm)

section
variable {s t : State} {p : At}

theorem GoesOn.served (s : State) (p : At) (ks : List Nat) (cls : Nat) : GoesOn s (s.served ks cls) p := by
  rw [State.served_eq]
  exact .of_cores rfl rfl (fun _ ho => ho)

theorem sameMap_served (s : State) (ks : List Nat) (cls : Nat) : SameMap s (s.served ks cls) := by
  rw [State.served_eq]
  exact .of_parts rfl

/-- A write set's entries depend on the layout of memory and the transactions alone (R251, R252). -/
theorem SameMap.txWrite_tx (h : SameMap s t) (htx : t.tx = s.tx) (num : Nat) (a : Word) (data : List Byte) (b u : Bool) :
    (t.txWrite num a data b u).tx = (s.txWrite num a data b u).tx := by
  have hgrans (n : Nat) (l : List JEntry) : t.grans n l = s.grans n l := by
    unfold State.grans
    simp only [h.keysOf]
  unfold State.txWrite State.txn
  rw [htx]
  cases s.tx.txs.find? (fun x => x.num = num) with
  | none => exact htx
  | some x =>
    dsimp only
    rw [hgrans]
    split <;> (unfold State.updTxn; rw [htx])

/-! ### MFENCE -/

/-- MFENCE goes on where nothing is on its way, and is held at its pc otherwise (R145). -/
theorem mfence_becomes (s : State) (p : At) :
    Becomes s (if (s.ctx p).drained then s.issued p else (s.issued p).holdAt p (s.ctx p).pc .fence) p
      (if (s.ctx p).stores = [] ∧ (s.ctx p).moves = [] then (s.ctx p).advanced
        else { s.ctx p with state := .stalled, stalledOn := some .fence }) := by
  have hiff : (s.ctx p).drained = true ↔ (s.ctx p).stores = [] ∧ (s.ctx p).moves = [] := by simp [Ctx.drained]
  by_cases hd : (s.ctx p).drained = true
  · rw [if_pos hd, if_pos (hiff.mp hd)]
    exact ⟨.of_issued s p, State.ctx_issued_same s p⟩
  · rw [if_neg hd, if_neg (mt hiff.mpr hd)]
    refine ⟨(OnlyContext.of_issued s p).then_updCtx _, ?_⟩
    rw [State.holdAt, State.ctx_updCtx_same, State.ctx_issued_same]
    rfl

/-! ### The end of a move (R152) -/

/-- The completion action that a move names leaves for its store (R37, R152). -/
theorem State.action_sends (s : State) (n : Nat) (tag : Word) (ck : BitVec 2) (ct : BitVec 17) (a : SyncDo)
    (h : (ck = 1 ∧ a = .setFlag ct.toNat) ∨ (ck = 2 ∧ a = .produce ct.toNat 1) ∨ (ck = 3 ∧ a = .consume ct.toNat 1)) :
    ⟨.unit n, fld ct.toNat 16 14, a, inClass tag .sync⟩ ∈ (s.action n tag ck ct).sync.inflight := by
  rcases h with ⟨rfl, rfl⟩ | ⟨rfl, rfl⟩ | ⟨rfl, rfl⟩ <;>
    exact List.mem_append_right _ (List.mem_singleton.mpr rfl)

theorem GoesOn.action (s : State) (p : At) (n : Nat) (tag : Word) (ck : BitVec 2) (ct : BitVec 17) : GoesOn s (s.action n tag ck ct) p := by
  unfold State.action
  dsimp only
  split
  · exact .sendSync ..
  · exact .sendSync ..
  · exact .sendSync ..
  · exact .refl s p

theorem State.action_tx (s : State) (n : Nat) (tag : Word) (ck : BitVec 2) (ct : BitVec 17) : (s.action n tag ck ct).tx = s.tx := by
  unfold State.action
  dsimp only
  split <;> rfl

theorem State.action_ctx (s : State) (n : Nat) (tag : Word) (ck : BitVec 2) (ct : BitVec 17) (q : At) :
    (s.action n tag ck ct).ctx q = s.ctx q := by
  unfold State.action
  dsimp only
  split <;> rfl

theorem State.payOwed_tx (s : State) (p : At) : (s.payOwed p).tx = s.tx :=
  List.foldlRecOn (motive := fun t : State => t.tx = s.tx) (s.ctx p).owed State.sendSync rfl (fun _ ht _ _ => ht)

theorem State.payOwed_ctx (s : State) (p : At) : (s.payOwed p).ctx p = { s.ctx p with owed := [] } := by
  have h : ((s.ctx p).owed.foldl State.sendSync s).ctx p = s.ctx p :=
    List.foldlRecOn (motive := fun t : State => t.ctx p = s.ctx p) (s.ctx p).owed State.sendSync rfl (fun _ ht _ _ => ht)
  rw [State.payOwed, State.ctx_updCtx_same, h]

theorem State.goOn_tx (s : State) (p : At) : (s.goOn p).tx = s.tx := rfl

theorem State.issued_tx (s : State) (p : At) : (s.issued p).tx = s.tx := rfl

/-- What a drained context does leaves every transaction, unless it was told to stop (R161, R255). -/
theorem State.afterDrain_tx (h : (s.ctx p).stalledOn ≠ some .stopping) : (s.afterDrain p).tx = s.tx := by
  have hpaid : (s.payOwed p).tx = s.tx := s.payOwed_tx p
  have hretire : (s.payOwed p).afterRetire p = s.payOwed p := by
    unfold State.afterRetire
    rw [State.payOwed_ctx, if_neg (by simp [h])]
  by_cases hd : (s.ctx p).drained = true
  · unfold State.afterDrain
    rw [if_neg (by simp [hd])]
    change State.tx (match (s.ctx p).stalledOn with
      | some .fence => (s.payOwed p).goOn p
      | some (.release op) => ((s.payOwed p).issued p).sendSync op
      | _ => (s.payOwed p).afterRetire p) = s.tx
    split
    · rw [State.goOn_tx, hpaid]
    · rw [State.sendSync_tx, State.issued_tx, hpaid]
    · rw [hretire, hpaid]
  · rw [State.afterDrain_undrained (by simpa using hd)]

/-- The moves of a context without the one of a number. -/
def Ctx.withoutMove (c : Ctx) (num : Nat) : List Move := c.moves.filter (fun x => x.num ≠ num)

/-- A move that is done has left its context, and its action is on its way (R152). -/
structure MoveLeft (s t : State) (p : At) (m : Move) : Prop where
  moves : (t.ctx p).moves = (s.ctx p).withoutMove m.num
  scalars : (t.ctx p).s = (s.ctx p).s
  vectors : (t.ctx p).v = (s.ctx p).v
  action : ∀ a, (m.ck = 1 ∧ a = .setFlag m.ct.toNat) ∨ (m.ck = 2 ∧ a = .produce m.ct.toNat 1) ∨ (m.ck = 3 ∧ a = .consume m.ct.toNat 1) →
    ⟨.unit (s.partNum p.core), fld m.ct.toNat 16 14, a, inClass m.tag .sync⟩ ∈ t.sync.inflight

theorem State.finishMove_leaves (s : State) (p : At) (m : Move) :
    MoveLeft s (s.finishMove p m) p m ∧ (s.finishMove p m).mem = s.mem
      ∧ ((s.ctx p).stalledOn ≠ some .stopping → (s.finishMove p m).tx = s.tx) := by
  let left := s.updCtx p (fun c => ({ c with moves := c.moves.filter (fun x => x.num ≠ m.num) }).mark m.blight m.subst)
  let acted := left.action (left.partNum p.core) m.tag m.ck m.ct
  have hctx : left.ctx p = _ := State.ctx_updCtx_same ..
  have hacted : GoesOn left acted p := .action ..
  have hdone : GoesOn acted (s.finishMove p m) p := .afterDrain_unstall acted p
  have hwork := (hacted.trans hdone).work
  rw [hctx] at hwork
  refine ⟨⟨hwork.moves, hwork.s, hwork.v, fun a ha => ?_⟩, (hacted.trans hdone).mem, fun hstop => ?_⟩
  · exact hdone.sent _ (State.action_sends left _ m.tag m.ck m.ct a ha)
  · have hstalled : (acted.ctx p).stalledOn = (s.ctx p).stalledOn := by
      rw [State.action_ctx, hctx]
      rfl
    exact (State.afterDrain_tx (by rw [hstalled]; exact hstop)).trans (State.action_tx ..)

/-! ### MOVE_COMPLETE (R152, R251, R287) -/

/-- Whether a move cannot complete now: a hold is latched, earlier writes share bytes with it or its action waits for them, an
access is held, its source is not read as plain bytes (R152, R247, R287). -/
def State.moveWaits (s : State) (p : At) (m : Move) : Bool :=
  !s.live || m.queued || s.olderOverlap p m.num m.dst m.len || (m.ck ≠ 0 && !(s.ctx p).nothingBefore m.num)
    || s.heldObj (s.partNum p.core) m.dst
    || (match m.src with | some a => m.bytes.isNone && (spaceOf a = 5 || s.heldObj (s.partNum p.core) a) | none => false)

theorem State.moveWaits_eq_false {m : Move} (hl : s.live = true) (hq : m.queued = false) (ho : s.olderOverlap p m.num m.dst m.len = false)
    (hck : m.ck = 0 ∨ (s.ctx p).nothingBefore m.num = true) (hh : s.heldObj (s.partNum p.core) m.dst = false)
    (hsrc : m.bytes = none → ∀ a, m.src = some a → spaceOf a ≠ 5 ∧ s.heldObj (s.partNum p.core) a = false) :
    s.moveWaits p m = false := by
  have hread : (match m.src with | some a => m.bytes.isNone && (spaceOf a = 5 || s.heldObj (s.partNum p.core) a) | none => false) = false := by
    cases hs : m.src with
    | none => rfl
    | some a =>
      cases hb : m.bytes with
      | some l => rfl
      | none =>
        obtain ⟨hspace, hheld⟩ := hsrc hb a hs
        simp [hspace, hheld]
  have hbefore : (m.ck ≠ 0 && !(s.ctx p).nothingBefore m.num) = false := by
    rcases hck with h | h <;> simp [h]
  unfold State.moveWaits
  rw [hl, hq, ho, hbefore, hh, hread]
  rfl

/-- The bytes of its source that a move reads as it completes are served (R305). -/
def State.moveServed (s : State) (p : At) (m : Move) : State :=
  match m.bytes, m.src with
  | none, some a => s.served (s.keysOf (s.partNum p.core) p.core a m.len) (s.classOf (s.partNum p.core))
  | _, _ => s

/-- A move with the marks of its bytes. -/
def State.marked (s : State) (p : At) (m : Move) : Move :=
  { m with blight := (s.moveBytes p m).2.1, subst := (s.moveBytes p m).2.2 }

/-- A move whose bytes go to the fallow write queue (R287). -/
def State.moveQueued (s : State) (n : Nat) (p : At) (q : Move) (l : List Byte) : State :=
  let t := s.updCtx p (fun c => { c with moves := c.moves.map (fun x => if x.num = q.num then { q with queued := true, bytes := some l } else x) })
  { t with tiers := { t.tiers with fallowQ := t.tiers.fallowQ ++ t.fallowPieces n p q l } }

/-- A move whose bytes reach their destination (R152). -/
def State.moveLands (s v : State) (p : At) (q : Move) (l : List Byte) : State :=
  ((v.served (v.keysOf (s.partNum p.core) p.core q.dst l.length) (v.classOf (s.partNum p.core))).writeMarked (s.partNum p.core) p.core
    q.dst l q.blight q.subst).finishMove p q

/-- A move that nothing holds up completes: into its transaction, into the fallow write queue, or at its destination. -/
theorem exec_moveComplete {i : Nat} {m : Move} (hm : (s.ctx p).moves[i]? = some m) (hw : s.moveWaits p m = false) :
    let l := (s.moveBytes p m).1
    let q := s.marked p m
    let v := s.moveServed p m
    exec (.moveComplete p i) s = .next (match m.tx with
      | some num => (v.txWrite num m.dst l q.blight q.subst).finishMove p q
      | none => if spaceOf m.dst = 5 && l ≠ [] then v.moveQueued (s.partNum p.core) p q l else s.moveLands v p q l) := by
  intro l q v
  change execMoveComplete p i s = _
  unfold execMoveComplete
  simp only [hm]
  exact congrArg Host.Outcome.next (if_neg (ne_true_of_eq_false hw))

/-- Serving the source of a move touches the counters of the tiers alone. -/
theorem State.moveServed_eq (s : State) (p : At) (m : Move) :
    s.moveServed p m = { s with tiers := { s.tiers with nears := (s.moveServed p m).tiers.nears, chans := (s.moveServed p m).tiers.chans } } := by
  unfold State.moveServed
  split
  · exact State.served_eq ..
  · rfl

theorem State.moveServed_tiers (s : State) (p : At) (m : Move) : s.moveServed p m = { s with tiers := (s.moveServed p m).tiers } :=
  (s.moveServed_eq p m).trans
    (congrArg (fun x => ({ s with tiers := x } : State)) (congrArg State.tiers (s.moveServed_eq p m)).symm)

theorem State.txWrite_clusters (s : State) (num : Nat) (a : Word) (data : List Byte) (b u : Bool) :
    (s.txWrite num a data b u).clusters = s.clusters := by
  unfold State.txWrite
  split
  · rfl
  · dsimp only
    split <;> rfl

theorem State.writeMarked_clusters (s : State) (n core : Nat) (a : Word) (data : List Byte) (b u : Bool) :
    (s.writeMarked n core a data b u).clusters = s.clusters := by
  have hkeys (ks : List Nat) : (s.writeKeys ks data b).clusters = s.clusters := by
    unfold State.writeKeys
    dsimp only
    split <;> rfl
  have hstale (ks : List Nat) : ((s.writeKeys ks data b).markStale n a data.length).clusters = s.clusters := by
    unfold State.markStale
    split <;> exact hkeys ks
  have hdev : (s.writeDev n core a data b).clusters = s.clusters := by
    unfold State.writeDev
    dsimp only
    split
    · split <;> exact hstale _
    · exact hstale _
  unfold State.writeMarked State.markSubst
  split <;> exact hdev

theorem MoveLeft.of_marked {m : Move} (h : MoveLeft s t p (s.marked p m)) : MoveLeft s t p m := ⟨h.moves, h.scalars, h.vectors, h.action⟩

theorem MoveLeft.of_same {w : State} {m : Move} (h : MoveLeft w t p m) (hctx : w.ctx p = s.ctx p) (hcl : w.clusters = s.clusters) :
    MoveLeft s t p m := by
  have hn : w.partNum p.core = s.partNum p.core := by
    unfold State.partNum State.partOf State.cluster
    rw [hcl]
  refine ⟨?_, ?_, ?_, fun a ha => ?_⟩
  · rw [← hctx]
    exact h.moves
  · rw [← hctx]
    exact h.scalars
  · rw [← hctx]
    exact h.vectors
  · rw [← hn]
    exact h.action a ha

theorem SameMap.fallowPieces (h : SameMap s t) (n : Nat) (q : Move) (l : List Byte) : t.fallowPieces n p q l = s.fallowPieces n p q l := by
  unfold State.fallowPieces
  rw [h.keysOf]

section
variable {i : Nat} {m : Move} (hm : (s.ctx p).moves[i]? = some m) (hw : s.moveWaits p m = false)
include hm hw

/-- In a transaction the bytes join the write set (R251, log entry 19). -/
theorem moveComplete_tx {num : Nat} (htx : m.tx = some num) :
    let r := s.moveBytes p m
    Completes (exec (.moveComplete p i) s) (fun t => MoveLeft s t p m ∧ t.mem = s.mem
      ∧ ((s.ctx p).stalledOn ≠ some .stopping → t.tx = (s.txWrite num m.dst r.1 r.2.1 r.2.2).tx)) := by
  intro r
  have hexec := exec_moveComplete hm hw
  simp only [htx] at hexec
  have hv := s.moveServed_eq p m
  let w := (s.moveServed p m).txWrite num m.dst r.1 r.2.1 r.2.2
  have hctx : w.ctx p = s.ctx p := by
    rw [(besidesCores_txWrite num m.dst r.1 r.2.1 r.2.2).ctx, hv]
    rfl
  have hcl : w.clusters = s.clusters := by
    rw [State.txWrite_clusters, hv]
  have hmem : w.mem = s.mem := by
    rw [State.txWrite_mem, hv]
  have htxs : w.tx = (s.txWrite num m.dst r.1 r.2.1 r.2.2).tx := by
    refine SameMap.txWrite_tx (.of_parts ?_) ?_ num m.dst r.1 r.2.1 r.2.2
    · rw [hv]
    · rw [hv]
  obtain ⟨hleft, hkept, hset⟩ := w.finishMove_leaves p (s.marked p m)
  exact ⟨_, hexec, (hleft.of_same hctx hcl).of_marked, hkept.trans hmem, fun hstop => (hset (by rw [hctx]; exact hstop)).trans htxs⟩

/-- Outside the fallow tier the bytes reach the destination, and no others change (R152). -/
theorem moveComplete_lands (htx : m.tx = none) :
    let l := (s.moveBytes p m).1
    spaceOf m.dst ≠ 5 ∨ l = [] →
    Completes (exec (.moveComplete p i) s) (fun t => MoveLeft s t p m
      ∧ t.mem = Memory.putAll s.mem (List.zip (s.keysOf (s.partNum p.core) p.core m.dst l.length) l)
      ∧ KeepsBytes s t (s.keysOf (s.partNum p.core) p.core m.dst l.length)) := by
  intro l hplace
  have hexec := exec_moveComplete hm hw
  have hnot : ¬ (spaceOf m.dst = 5 && l ≠ []) = true := by
    rcases hplace with h | h <;> simp [h]
  simp only [htx] at hexec
  replace hexec := hexec.trans (congrArg Host.Outcome.next (if_neg hnot))
  let n := s.partNum p.core
  let v := s.moveServed p m
  let x := v.served (v.keysOf n p.core m.dst l.length) (v.classOf n)
  let w := x.writeMarked n p.core m.dst l (s.marked p m).blight (s.marked p m).subst
  have hx : x = { s with tiers := x.tiers } :=
    (State.served_tiers ..).trans (congrArg (fun u : State => { u with tiers := x.tiers }) (s.moveServed_tiers p m))
  have hctx : w.ctx p = s.ctx p := by
    rw [(besidesCores_writeMarked n p.core m.dst l _ _).ctx, hx]
    rfl
  have hcl : w.clusters = s.clusters := by
    rw [State.writeMarked_clusters, hx]
  have hmem : w.mem = Memory.putAll s.mem (List.zip (s.keysOf n p.core m.dst l.length) l) := by
    have hmap : SameMap s x := .of_parts (by rw [hx])
    rw [State.writeMarked_mem, ← hmap.keysOf, hx]
  obtain ⟨hleft, hkept, -⟩ := w.finishMove_leaves p (s.marked p m)
  exact ⟨_, hexec, (hleft.of_same hctx hcl).of_marked, hkept.trans hmem, .of_putAll (hkept.trans hmem)⟩

/-- In the fallow tier the bytes join the write queue, and the move waits for it (R287). -/
theorem moveComplete_fallow (htx : m.tx = none) (hdst : spaceOf m.dst = 5) :
    let l := (s.moveBytes p m).1
    let q := s.marked p m
    l ≠ [] → Completes (exec (.moveComplete p i) s) (fun t => t.mem = s.mem
      ∧ t.tiers.fallowQ = s.tiers.fallowQ ++ s.fallowPieces (s.partNum p.core) p q l
      ∧ t.ctx p = { s.ctx p with
          moves := (s.ctx p).moves.map (fun x => if x.num = m.num then { q with queued := true, bytes := some l } else x) }) := by
  intro l q hne
  have hexec := exec_moveComplete hm hw
  have hqueue : (spaceOf m.dst = 5 && l ≠ []) = true := by simp [hdst, hne]
  simp only [htx] at hexec
  replace hexec := hexec.trans (congrArg Host.Outcome.next (if_pos hqueue))
  have hv := s.moveServed_eq p m
  let f (c : Ctx) : Ctx := { c with moves := c.moves.map (fun x => if x.num = q.num then { q with queued := true, bytes := some l } else x) }
  have hpieces : ((s.moveServed p m).updCtx p f).fallowPieces (s.partNum p.core) p q l = s.fallowPieces (s.partNum p.core) p q l :=
    SameMap.fallowPieces (.of_parts (by rw [hv]; rfl)) _ q l
  refine ⟨_, hexec, ?_, ?_, ?_⟩
  · exact (congrArg State.mem hv :)
  · refine congrArg₂ (· ++ ·) ?_ hpieces
    exact (congrArg (fun t : State => t.tiers.fallowQ) hv :)
  · have hctx : ((s.moveServed p m).updCtx p f).ctx p = f (s.ctx p) := by
      rw [State.ctx_updCtx_same, hv]
      rfl
    exact hctx

end

/-! ### WRITE_VISIBLE (R311) -/

/-- The state in which the oldest store of a context has reached its place and left the context. -/
def State.storeShown (s : State) (p : At) (w : Store) (rest : List Store) : State :=
  (s.writeMarked (s.partNum p.core) p.core w.addr w.data w.blight w.subst).updCtx p (fun c => { c with stores := rest })

theorem exec_writeVisible {w : Store} {rest : List Store} (hs : (s.ctx p).stores = w :: rest) (hl : s.live = true)
    (ho : s.olderOverlap p w.num w.addr w.data.length = false) (hh : s.heldObj (s.partNum p.core) w.addr = false) :
    exec (.writeVisible p) s = .next (((s.storeShown p w rest).afterDrain p).unstall p.core) := by
  change execWriteVisible p s = _
  unfold execWriteVisible
  simp only [hs, hl, ho, hh]
  rfl

theorem State.storeShown_ctx (s : State) (p : At) (w : Store) (rest : List Store) :
    (s.storeShown p w rest).ctx p = { s.ctx p with stores := rest } := by
  rw [State.storeShown, State.ctx_updCtx_same, (besidesCores_writeMarked _ p.core w.addr w.data w.blight w.subst).ctx]

theorem State.storeShown_cnt (s : State) (p : At) (w : Store) (rest : List Store) :
    ((s.storeShown p w rest).core p.core).cnt = (s.core p.core).cnt := by
  rw [State.storeShown, State.cnt_updCtx, (besidesCores_writeMarked _ p.core w.addr w.data w.blight w.subst).core]

theorem State.storeShown_mem (s : State) (p : At) (w : Store) (rest : List Store) :
    (s.storeShown p w rest).mem
      = Memory.putAll s.mem (List.zip (s.keysOf (s.partNum p.core) p.core w.addr w.data.length) w.data) := by
  rw [State.storeShown, State.updCtx_mem, State.writeMarked_mem]

theorem State.payOwed_cnt (s : State) (p : At) : ((s.payOwed p).core p.core).cnt = (s.core p.core).cnt := by
  rw [State.payOwed, State.cnt_updCtx]
  exact List.foldlRecOn (motive := fun t : State => (t.core p.core).cnt = (s.core p.core).cnt) (s.ctx p).owed State.sendSync rfl
    (fun _ ht _ _ => ht)

theorem State.ctx_sendSync (s : State) (op : SyncOp) (q : At) : (s.sendSync op).ctx q = s.ctx q := rfl

theorem State.core_sendSync (s : State) (op : SyncOp) (k : Nat) : (s.sendSync op).core k = s.core k := rfl

/-- A release that waited for its context's writes issues once they are visible (R311). -/
theorem State.release_issues {op : SyncOp} (hd : (s.ctx p).drained = true) (hop : (s.ctx p).stalledOn = some (.release op)) :
    let t := (s.afterDrain p).unstall p.core
    (∃ x, { op with tag := x } ∈ t.sync.inflight) ∧ (t.ctx p).pc = (s.ctx p).pc + 8 ∧ (t.ctx p).state = .ready
      ∧ (t.core p.core).cnt.issued = sat64 ((s.core p.core).cnt.issued + 1) := by
  intro t
  have ht : t = (((s.payOwed p).issued p).sendSync op).unstall p.core := by
    rw [← State.afterDrain_release hd hop]
  have hctx : (((s.payOwed p).issued p).sendSync op).ctx p = { s.ctx p with owed := [], state := .ready, stalledOn := none, pc := (s.ctx p).pc + 8 } := by
    rw [State.ctx_sendSync, State.ctx_issued_same, State.payOwed_ctx]
    rfl
  have htctx : t.ctx p = (((s.payOwed p).issued p).sendSync op).ctx p := by
    rw [ht, State.ctx_unstall, Ctx.unstalled_ready]
    rw [hctx]
  rw [htctx, hctx, ht]
  refine ⟨⟨_, List.mem_append_right _ (List.mem_singleton.mpr rfl)⟩, rfl, rfl, ?_⟩
  rw [State.unstall_eq, State.core_updCore_same]
  dsimp only
  rw [State.core_sendSync, State.cnt_issued, State.payOwed_cnt]

theorem writeVisible_completes {w : Store} {rest : List Store} (hs : (s.ctx p).stores = w :: rest) (hl : s.live = true)
    (ho : s.olderOverlap p w.num w.addr w.data.length = false) (hh : s.heldObj (s.partNum p.core) w.addr = false) :
    let c := s.ctx p
    let ks := s.keysOf (s.partNum p.core) p.core w.addr w.data.length
    Completes (exec (.writeVisible p) s) (fun t => t.mem = Memory.putAll s.mem (List.zip ks w.data) ∧ KeepsBytes s t ks
      ∧ (t.ctx p).stores = rest ∧ (t.ctx p).s = c.s ∧ (t.ctx p).v = c.v
      ∧ (∀ op, c.stalledOn = some (.release op) → rest = [] → c.moves = [] →
          (∃ x, { op with tag := x } ∈ t.sync.inflight) ∧ (t.ctx p).pc = c.pc + 8 ∧ (t.ctx p).state = .ready
          ∧ (t.core p.core).cnt.issued = sat64 ((s.core p.core).cnt.issued + 1))) := by
  intro c ks
  have hon : GoesOn (s.storeShown p w rest) _ p := .afterDrain_unstall _ p
  have hmem := hon.mem.trans (s.storeShown_mem p w rest)
  have hwork := hon.work
  rw [State.storeShown_ctx] at hwork
  refine ⟨_, exec_writeVisible hs hl ho hh, hmem, .of_putAll hmem, hwork.stores, hwork.s, hwork.v, fun op hop hrest hmoves => ?_⟩
  have hd : ((s.storeShown p w rest).ctx p).drained = true := by
    rw [State.storeShown_ctx]
    simp [Ctx.drained, hrest, show (s.ctx p).moves = [] from hmoves]
  have hissue := State.release_issues (op := op) hd (by rw [State.storeShown_ctx]; exact hop)
  rwa [State.storeShown_ctx, State.storeShown_cnt] at hissue

end

/-- Settles O17: a write that becomes visible leaves by `finishMove` or `storeShown`, after which `afterDrain` lets what waited go on
(writes in a transaction: log entry 19). -/
theorem writesBecomeVisible : Obligations.WritesBecomeVisible := by
  unfold Obligations.WritesBecomeVisible
  intro s p c n
  refine ⟨fun f h => ?mfence, ?moveComplete, fun w rest hs hl ho hh => writeVisible_completes hs hl ho hh⟩
  case mfence =>
    exact h.completes (eff := fun t => if (s.ctx p).drained then t else t.holdAt p (s.ctx p).pc .fence) (mfence_becomes s p)
  case moveComplete =>
    intro i m hm hl hq ho hck hh hsrc r l Left
    have hw : s.moveWaits p m = false := State.moveWaits_eq_false hl hq ho hck hh hsrc
    have left (t : State) (h : MoveLeft s t p m) : Left t := ⟨h.moves, h.scalars, h.vectors, h.action⟩
    refine ⟨fun htx hplace => ?_, fun num htx => ?_, fun htx hdst hne => moveComplete_fallow hm hw htx hdst hne⟩
    · obtain ⟨t, ht, hleft, hmem⟩ := moveComplete_lands hm hw htx hplace
      exact ⟨t, ht, left t hleft, hmem⟩
    · obtain ⟨t, ht, hleft, hmem⟩ := moveComplete_tx hm hw htx
      exact ⟨t, ht, left t hleft, hmem⟩

end Sys2Proof.Machine
end

section
/-! PROOFS. OPERAND_DATA_RETURN and STRICT_OPERAND_DELIVERY: what a read delivers to its registers or its product (R109, R118,
R385, R474). -/

namespace Sys2Proof.Machine

/-! ### Marks on the registers that an instruction wrote (R109) -/

/-- A vector register with further marks. -/
def VReg.marked (v : VReg) (b u : Bool) : VReg := { v with blight := v.blight || b, subst := v.subst || u }
/-- A tile accumulator with further marks. -/
def TileAcc.marked (v : TileAcc) (b u : Bool) : TileAcc := { v with blight := v.blight || b, subst := v.subst || u }

theorem VReg.marked_marked (v : VReg) (b u : Bool) : (v.marked b u).marked b u = v.marked b u := by
  simp [VReg.marked]

theorem TileAcc.marked_marked (v : TileAcc) (b u : Bool) : (v.marked b u).marked b u = v.marked b u := by
  simp [TileAcc.marked]

/-- Some vector registers of a context take marks. -/
def Ctx.markVs (c : Ctx) (vs : List (BitVec 4)) (b u : Bool) : Ctx := vs.foldl (fun c r => c.setV r ((c.getV r).marked b u)) c
/-- Some accumulators of a context take marks. -/
def Ctx.markAs (c : Ctx) (as : List (BitVec 2)) (b u : Bool) : Ctx := as.foldl (fun c r => c.setA r ((c.getA r).marked b u)) c

theorem Ctx.getV_markVs (c : Ctx) (vs : List (BitVec 4)) (b u : Bool) (q : BitVec 4) :
    (c.markVs vs b u).getV q = if q ∈ vs then (c.getV q).marked b u else c.getV q := by
  induction vs generalizing c with
  | nil => simp [Ctx.markVs]
  | cons r vs ih =>
    change ((c.setV r ((c.getV r).marked b u)).markVs vs b u).getV q = _
    rw [ih, Ctx.getV_setV]
    by_cases hq : q = r
    · simp [hq, VReg.marked_marked]
    · simp [hq]

theorem Ctx.getA_markAs (c : Ctx) (as : List (BitVec 2)) (b u : Bool) (q : BitVec 2) :
    (c.markAs as b u).getA q = if q ∈ as then (c.getA q).marked b u else c.getA q := by
  induction as generalizing c with
  | nil => simp [Ctx.markAs]
  | cons r as ih =>
    change ((c.setA r ((c.getA r).marked b u)).markAs as b u).getA q = _
    rw [ih, Ctx.getA_setA]
    by_cases hq : q = r
    · simp [hq, TileAcc.marked_marked]
    · simp [hq]

/-- Marking vector registers leaves the other registers and the reads of a context. -/
theorem Ctx.markVs_frame (c : Ctx) (vs : List (BitVec 4)) (b u : Bool) :
    (c.markVs vs b u).s = c.s ∧ (c.markVs vs b u).acc = c.acc ∧ (c.markVs vs b u).loads = c.loads :=
  List.foldlRecOn (motive := fun d : Ctx => d.s = c.s ∧ d.acc = c.acc ∧ d.loads = c.loads) vs _ ⟨rfl, rfl, rfl⟩ (fun _ h _ _ => h)

/-- Marking accumulators leaves the other registers and the reads of a context. -/
theorem Ctx.markAs_frame (c : Ctx) (as : List (BitVec 2)) (b u : Bool) :
    (c.markAs as b u).s = c.s ∧ (c.markAs as b u).v = c.v ∧ (c.markAs as b u).loads = c.loads :=
  List.foldlRecOn (motive := fun d : Ctx => d.s = c.s ∧ d.v = c.v ∧ d.loads = c.loads) as _ ⟨rfl, rfl, rfl⟩ (fun _ h _ _ => h)

theorem Ctx.getS_congr {c d : Ctx} (h : d.s = c.s) (q : BitVec 5) : d.getS q = c.getS q := by
  unfold Ctx.getS
  rw [h]

theorem Ctx.getV_congr {c d : Ctx} (h : d.v = c.v) (q : BitVec 4) : d.getV q = c.getV q := by
  unfold Ctx.getV
  rw [h]

theorem Ctx.getA_congr {c d : Ctx} (h : d.acc = c.acc) (q : BitVec 2) : d.getA q = c.getA q := by
  unfold Ctx.getA
  rw [h]

/-! ### What a read delivers -/

/-- What the delivery of read `i` to `dest` leaves in a context `d` that was `c`: the read is gone, its registers hold its bytes
and marks, or bear the marks of an engine's read (R109, R118). A product's marks stand in its job. -/
def LoadDest.Delivers (dest : LoadDest) (c d : Ctx) (l : List Byte) (b u : Bool) : Prop :=
  match dest with
  | .scalar rg size sg => (∀ q, d.getS q = if q = 0 then 0 else if q = rg then extend size sg l else c.getS q)
      ∧ d.v = c.v ∧ d.stickyBlight = (c.stickyBlight || b) ∧ d.stickySubst = (c.stickySubst || u)
  | .vector rg => (∀ q, d.getV q = if q = rg then { lanes := lanesOf l, blight := b, subst := u } else c.getV q)
      ∧ d.s = c.s ∧ d.stickyBlight = (c.stickyBlight || b) ∧ d.stickySubst = (c.stickySubst || u)
  | .engine _ vs as => (∀ q, d.getV q = if q ∈ vs then (c.getV q).marked b u else c.getV q)
      ∧ (∀ q, d.getA q = if q ∈ as then (c.getA q).marked b u else c.getA q) ∧ d.s = c.s
  | .product _ _ => d.s = c.s ∧ d.v = c.v ∧ d.acc = c.acc

theorem Ctx.take_delivers (c : Ctx) (dest : LoadDest) (l : List Byte) (b u : Bool) : dest.Delivers c (c.take dest l b u) l b u := by
  cases dest with
  | scalar rg size sg =>
    refine ⟨fun q => Ctx.getS_setS c rg q _, ?_⟩
    simp only [Ctx.take]
    rw [Ctx.setS_eq]
    exact ⟨rfl, rfl, rfl⟩
  | vector rg => exact ⟨fun q => Ctx.getV_setV c rg q _, rfl, rfl, rfl⟩
  | engine len vs as =>
    have htake : c.take (.engine len vs as) l b u = ((c.mark b u).markVs vs b u).markAs as b u := rfl
    obtain ⟨hs, hacc, -⟩ := (c.mark b u).markVs_frame vs b u
    obtain ⟨hs', hv', -⟩ := ((c.mark b u).markVs vs b u).markAs_frame as b u
    rw [htake]
    refine ⟨fun q => ?_, fun q => ?_, hs'.trans hs⟩
    · rw [Ctx.getV_congr hv', Ctx.getV_markVs]
      rfl
    · rw [Ctx.getA_markAs, Ctx.getA_congr hacc]
      rfl
  | product len num => exact ⟨rfl, rfl, rfl⟩

theorem Ctx.take_loads (c : Ctx) (dest : LoadDest) (l : List Byte) (b u : Bool) : (c.take dest l b u).loads = c.loads := by
  cases dest with
  | scalar rg size sg =>
    simp only [Ctx.take]
    rw [Ctx.setS_eq]
    rfl
  | vector rg => rfl
  | engine len vs as =>
    exact (((c.mark b u).markVs vs b u).markAs_frame as b u).2.2.trans ((c.mark b u).markVs_frame vs b u).2.2
  | product len num => rfl

/-- What was delivered stays while the context goes on. -/
theorem LoadDest.Delivers.of_work {dest : LoadDest} {c d e : Ctx} {l : List Byte} {b u : Bool} (h : dest.Delivers c d l b u)
    (hw : Ctx.SameWork d e) : dest.Delivers c e l b u := by
  cases dest with
  | scalar rg size sg =>
    obtain ⟨hget, hv, hb, hu⟩ := h
    exact ⟨fun q => (Ctx.getS_congr hw.s q).trans (hget q), hw.v.trans hv, hw.stickyBlight.trans hb, hw.stickySubst.trans hu⟩
  | vector rg =>
    obtain ⟨hget, hs, hb, hu⟩ := h
    exact ⟨fun q => (Ctx.getV_congr hw.v q).trans (hget q), hw.s.trans hs, hw.stickyBlight.trans hb, hw.stickySubst.trans hu⟩
  | engine len vs as =>
    obtain ⟨hget, hacc, hs⟩ := h
    exact ⟨fun q => (Ctx.getV_congr hw.v q).trans (hget q), fun q => (Ctx.getA_congr hw.acc q).trans (hacc q), hw.s.trans hs⟩
  | product len num =>
    obtain ⟨hs, hv, hacc⟩ := h
    exact ⟨hw.s.trans hs, hw.v.trans hv, hw.acc.trans hacc⟩

/-- The reads of the context before say nothing of what is delivered. -/
theorem LoadDest.Delivers.of_loads {dest : LoadDest} {c d : Ctx} {ls : List Load} {l : List Byte} {b u : Bool}
    (h : dest.Delivers { c with loads := ls } d l b u) : dest.Delivers c d l b u := by
  cases dest <;> exact h

/-- The products of a tile engine after the read of one has come (R109). -/
def LoadDest.tilesAfter (dest : LoadDest) (p : At) (b u : Bool) (js : List TileJob) : List TileJob :=
  match dest with
  | .product _ num => js.map (fun j => if j.p = p ∧ j.num = num then { j with blight := j.blight || b, subst := j.subst || u } else j)
  | _ => js

/-- A read has been delivered: it is taken out, and its registers, or the products of its core, have what it brought. -/
structure Delivered (s t : State) (p : At) (i : Nat) (dest : LoadDest) (l : List Byte) (b u : Bool) : Prop where
  loads : (t.ctx p).loads = dropAt (s.ctx p).loads i
  regs : dest.Delivers (s.ctx p) (t.ctx p) l b u
  tiles : (t.core p.core).tiles = dest.tilesAfter p b u (s.core p.core).tiles

section
variable {s : State} {p : At} {i : Nat} {x : Load}

/-- A product's job takes the marks of its read. -/
def State.markProduct (s : State) (p : At) (dest : LoadDest) (b u : Bool) : State :=
  match dest with
  | .product _ num => s.updCore p.core (fun k => { k with tiles := k.tiles.map (fun (j : TileJob) =>
      if j.p = p && j.num = num then { j with blight := j.blight || b, subst := j.subst || u } else j) })
  | _ => s

theorem State.markProduct_ctx (s : State) (p : At) (dest : LoadDest) (b u : Bool) : (s.markProduct p dest b u).ctx p = s.ctx p := by
  cases dest with
  | product len num => exact State.ctx_updCore _ _ _ rfl _
  | _ => rfl

theorem State.markProduct_mem (s : State) (p : At) (dest : LoadDest) (b u : Bool) : (s.markProduct p dest b u).mem = s.mem := by
  cases dest <;> rfl

theorem State.markProduct_tiles (s : State) (p : At) (dest : LoadDest) (b u : Bool) :
    ((s.markProduct p dest b u).core p.core).tiles = dest.tilesAfter p b u (s.core p.core).tiles := by
  cases dest with
  | product len num =>
    simp only [State.markProduct, State.core_updCore_same, LoadDest.tilesAfter, Bool.and_eq_true, decide_eq_true_eq]
  | _ => rfl

theorem State.deliverLoad_eq (hx : (s.ctx p).loads[i]? = some x) (l : List Byte) (b u : Bool) :
    s.deliverLoad p i l b u
      = ((((s.updCtx p (fun c => ({ c with loads := dropAt c.loads i }).take x.dest l b u)).markProduct p x.dest b u).afterDrain p).unstall p.core) := by
  unfold State.deliverLoad
  rw [hx]
  rfl

theorem State.deliverLoad_delivers (hx : (s.ctx p).loads[i]? = some x) (l : List Byte) (b u : Bool) :
    Delivered s (s.deliverLoad p i l b u) p i x.dest l b u ∧ (s.deliverLoad p i l b u).mem = s.mem := by
  rw [State.deliverLoad_eq hx]
  let taken := s.updCtx p (fun c => ({ c with loads := dropAt c.loads i }).take x.dest l b u)
  have hon : GoesOn (taken.markProduct p x.dest b u) _ p := .afterDrain_unstall _ p
  have hwork := hon.work
  have htaken : taken.ctx p = ({ s.ctx p with loads := dropAt (s.ctx p).loads i } : Ctx).take x.dest l b u := State.ctx_updCtx_same ..
  rw [State.markProduct_ctx, htaken] at hwork
  refine ⟨⟨hwork.loads.trans (Ctx.take_loads ..), ?_, ?_⟩, hon.mem.trans (State.markProduct_mem ..)⟩
  · exact ((Ctx.take_delivers _ x.dest l b u).of_work hwork).of_loads
  · rw [hon.tiles, State.markProduct_tiles]
    exact congrArg _ (State.core_updCtx ..).1

/-! ### OPERAND_DATA_RETURN (R118, R474) -/

/-- A demand read that finds its data uncorrectable changes bytes, marks, free values and reports alone (R474). -/
theorem State.demandBad_eq (s : State) (p : At) (a tag : Word) :
    s.demandBad p a tag = { s with
      mem := (s.demandBad p a tag).mem
      poison := (s.demandBad p a tag).poison
      free := (s.demandBad p a tag).free
      errs := (s.demandBad p a tag).errs
      host := (s.demandBad p a tag).host
      out := (s.demandBad p a tag).out } := by
  unfold State.demandBad
  split
  · rfl
  · split
    · rfl
    · next k _ _ =>
      have h := post_reports (s.lose k)
        { cls := 0x02, cause := 0x01, unit := 0x00, loc := BitVec.ofNat 32 p.core, tag := tag ||| 0x400, addr := a } [s.partNum p.core]
      rw [h]
      rfl

/-- A read sees the same bytes and marks where bytes were counted as served. -/
theorem State.readMarked_served (s : State) (ks : List Nat) (cls n core : Nat) (a : Word) (len : Nat) :
    (s.served ks cls).readMarked n core a len = s.readMarked n core a len := by
  have hmap := sameMap_served s ks cls
  have heq := s.served_eq ks cls
  unfold State.readMarked State.substAt
  rw [← hmap.readDev (by rw [heq]) (by rw [heq]), ← hmap.keysOf, heq]

/-- The state in which the data of a read has come: its granule lost where it was found bad, its bytes served (R305, R474). -/
def State.readCame (s : State) (p : At) (x : Load) (bad : Bool) : State :=
  let v := if bad then s.demandBad p x.addr x.tag else s
  if x.dest.isLoad then v.served (v.keysOf (s.partNum p.core) p.core x.addr x.dest.size) (v.classOf (s.partNum p.core)) else v

theorem exec_operandDataReturn (hx : (s.ctx p).loads[i]? = some x) (hl : s.live = true) (hd : x.data = none)
    (hh : s.heldObj (s.partNum p.core) x.addr = false) (bad : Bool) :
    let w := s.readCame p x bad
    let r := w.readMarked (s.partNum p.core) p.core x.addr x.dest.size
    exec (.operandDataReturn p i bad) s = .next (
      if w.strictCore p.core then w.updCtx p (fun c => { c with loads := updAt (fun x => { x with data := some r }) c.loads i })
      else w.deliverLoad p i r.1 r.2.1 r.2.2) := by
  intro w r
  change execOperandDataReturn p i bad s = _
  unfold execOperandDataReturn
  simp only [hx, hl, hd, hh]
  rfl

theorem getElem?_updAt {α : Type} (f : α → α) (l : List α) (i : Nat) : (updAt f l i)[i]? = l[i]?.map f := by
  induction l generalizing i with
  | nil => rfl
  | cons a l ih =>
    cases i with
    | zero => rfl
    | succ i => exact ih i

/-- What the coming of a read's data leaves: the cores and the clusters, and memory as the loss of its granule left it. -/
theorem State.readCame_frame (s : State) (p : At) (x : Load) (bad : Bool) :
    let v := if bad then s.demandBad p x.addr x.tag else s
    let w := s.readCame p x bad
    w.cores = s.cores ∧ w.clusters = s.clusters ∧ w.mem = v.mem
      ∧ ∀ n core a len, w.readMarked n core a len = v.readMarked n core a len := by
  intro v w
  have hv : v.cores = s.cores ∧ v.clusters = s.clusters := by
    cases bad
    · exact ⟨rfl, rfl⟩
    · have h := s.demandBad_eq p x.addr x.tag
      exact ⟨(congrArg State.cores h :), (congrArg State.clusters h :)⟩
  have hw : w = v ∨ ∃ ks cls, w = v.served ks cls := by
    by_cases hload : x.dest.isLoad = true
    · exact .inr ⟨_, _, if_pos hload⟩
    · exact .inl (if_neg hload)
  rcases hw with h | ⟨ks, cls, h⟩
  · rw [h]
    exact ⟨hv.1, hv.2, rfl, fun _ _ _ _ => rfl⟩
  · have hserved := v.served_eq ks cls
    rw [h]
    exact ⟨(congrArg State.cores hserved :).trans hv.1, (congrArg State.clusters hserved :).trans hv.2, (congrArg State.mem hserved :),
      v.readMarked_served ks cls⟩

theorem State.ctx_of_cores {s t : State} (h : t.cores = s.cores) (q : At) : t.ctx q = s.ctx q := by
  unfold State.ctx State.core
  rw [h]

/-- A delivery is judged by the cores that were there before. -/
theorem Delivered.of_cores {s w t : State} {dest : LoadDest} {l : List Byte} {b u : Bool} (h : Delivered w t p i dest l b u)
    (hctx : w.ctx p = s.ctx p) (htiles : (w.core p.core).tiles = (s.core p.core).tiles) : Delivered s t p i dest l b u := by
  refine ⟨?_, ?_, ?_⟩
  · rw [← hctx]
    exact h.loads
  · rw [← hctx]
    exact h.regs
  · rw [← htiles]
    exact h.tiles

theorem operandDataReturn_completes (hx : (s.ctx p).loads[i]? = some x) (hl : s.live = true) (hd : x.data = none)
    (hh : s.heldObj (s.partNum p.core) x.addr = false) (bad : Bool) :
    let v := if bad then s.demandBad p x.addr x.tag else s
    let r := v.readMarked (s.partNum p.core) p.core x.addr x.dest.size
    Completes (exec (.operandDataReturn p i bad) s) (fun t => t.mem = v.mem ∧
      if s.strictCore p.core then (t.ctx p).loads[i]? = some { x with data := some r } ∧ (t.ctx p).s = (s.ctx p).s ∧ (t.ctx p).v = (s.ctx p).v
      else Delivered s t p i x.dest r.1 r.2.1 r.2.2) := by
  intro v r
  obtain ⟨hcores, hcl, hmem, hread⟩ := s.readCame_frame p x bad
  have hexec := exec_operandDataReturn hx hl hd hh bad
  have hstrict : (s.readCame p x bad).strictCore p.core = s.strictCore p.core := by
    unfold State.strictCore State.cluster
    rw [hcl]
  simp only [hread, hstrict] at hexec
  have hctx := State.ctx_of_cores hcores p
  refine ⟨_, hexec, ?_⟩
  cases hs : s.strictCore p.core with
  | true =>
    simp only [if_true]
    refine ⟨hmem, ?_⟩
    rw [State.ctx_updCtx_same, hctx]
    exact ⟨by rw [getElem?_updAt, hx]; rfl, rfl, rfl⟩
  | false =>
    simp only [Bool.false_eq_true, if_false]
    have hx' : ((s.readCame p x bad).ctx p).loads[i]? = some x := by rw [hctx, hx]
    obtain ⟨hdel, hkept⟩ := State.deliverLoad_delivers hx' r.1 r.2.1 r.2.2
    refine ⟨hkept.trans hmem, hdel.of_cores hctx ?_⟩
    unfold State.core
    rw [hcores]

/-! ### STRICT_OPERAND_DELIVERY (R385) -/

theorem exec_strictOperandDelivery (hx : (s.ctx p).loads[i]? = some x) (hl : s.live = true) (hs : s.strictCore p.core = true)
    (hf : (s.core p.core).frozen = none) :
    let u := s.toBeat p.core (x.beat + s.budget (s.partNum p.core) p.core x.addr)
    exec (.strictOperandDelivery p i) s = .next (match x.data with
      | some (l, b, v) => u.deliverLoad p i l b v
      | none => (u.updCtx p (fun c => { c with loads := updAt (fun x => { x with due := true }) c.loads i })).updCore p.core
          (fun k => { k with frozen := some (.load p.ctx) })) := by
  intro u
  change execStrictOperandDelivery p i s = _
  unfold execStrictOperandDelivery
  simp only [hx, hl, hs, hf]
  rfl

theorem State.ctx_toBeat (s : State) (k b : Nat) (q : At) : (s.toBeat k b).ctx q = s.ctx q := State.ctx_updCore _ _ _ rfl _

theorem strictDelivery_delivers (hx : (s.ctx p).loads[i]? = some x) (hl : s.live = true) (hs : s.strictCore p.core = true)
    (hf : (s.core p.core).frozen = none) {l : List Byte} {b u : Bool} (hd : x.data = some (l, b, u)) :
    Completes (exec (.strictOperandDelivery p i) s) (fun t => Delivered s t p i x.dest l b u ∧ t.mem = s.mem) := by
  have hexec := exec_strictOperandDelivery hx hl hs hf
  simp only [hd] at hexec
  have hctx := s.ctx_toBeat p.core (x.beat + s.budget (s.partNum p.core) p.core x.addr) p
  obtain ⟨hdel, hkept⟩ := State.deliverLoad_delivers (by rw [hctx, hx]) l b u
  refine ⟨_, hexec, hdel.of_cores hctx ?_, hkept⟩
  rw [State.toBeat, State.core_updCore_same]

theorem strictDelivery_freezes (hx : (s.ctx p).loads[i]? = some x) (hl : s.live = true) (hs : s.strictCore p.core = true)
    (hf : (s.core p.core).frozen = none) (hd : x.data = none) :
    Completes (exec (.strictOperandDelivery p i) s) (fun t =>
      (t.core p.core).frozen = some (.load p.ctx) ∧ (t.ctx p).s = (s.ctx p).s ∧ (t.ctx p).v = (s.ctx p).v ∧ t.mem = s.mem
        ∧ (t.core p.core).cnt.beats = sat64 (max (s.core p.core).cnt.beats (x.beat + s.budget (s.partNum p.core) p.core x.addr))) := by
  have hexec := exec_strictOperandDelivery hx hl hs hf
  simp only [hd] at hexec
  refine ⟨_, hexec, ?_, ?_, ?_, rfl, ?_⟩
  · rw [State.core_updCore_same]
  · rw [State.ctx_updCore _ _ _ rfl, State.ctx_updCtx_same, State.ctx_toBeat]
  · rw [State.ctx_updCore _ _ _ rfl, State.ctx_updCtx_same, State.ctx_toBeat]
  · rw [State.core_updCore_same, State.cnt_updCtx, State.toBeat, State.core_updCore_same]

end

/-- Settles O18: both commands end in `deliverLoad`, whose registers `LoadDest.Delivers` names (engines and products: log entry 20;
the lost granule: log entry 49; beats at a budget's end: log entries 16 and 34). -/
theorem operandsDelivered : Obligations.OperandsDelivered := by
  unfold Obligations.OperandsDelivered
  intro s p i x c n Deliv hx hl
  have spelled (t : State) (l : List Byte) (b u : Bool) (h : Delivered s t p i x.dest l b u) : Deliv t l b u := by
    refine ⟨h.loads, ?_⟩
    have hregs := h.regs
    have htiles := h.tiles
    cases hd : x.dest with
    | product len num =>
      rw [hd] at hregs htiles
      exact ⟨htiles, hregs⟩
    | _ =>
      rw [hd] at hregs
      exact hregs
  refine ⟨fun bad hd hh => ?_, fun hs hf => ⟨fun l b u hd => ?_, fun hd => strictDelivery_freezes hx hl hs hf hd⟩⟩
  · obtain ⟨t, ht, hmem, hdel⟩ := operandDataReturn_completes hx hl hd hh bad
    refine ⟨t, ht, hmem, ?_⟩
    by_cases hstrict : s.strictCore p.core = true
    · rw [if_pos hstrict] at hdel ⊢
      exact hdel
    · rw [if_neg hstrict] at hdel ⊢
      exact spelled t _ _ _ hdel
  · obtain ⟨t, ht, hdel, hmem⟩ := strictDelivery_delivers hx hl hs hf hd
    exact ⟨t, ht, spelled t l b u hdel, hmem⟩

end Sys2Proof.Machine
end

section
/-! PROOFS. Applies of partition configurations, and mode changes that prepare and abort (O27, O28). -/

namespace Sys2Proof.Machine

open Host (Outcome)

/-! ### What domains and licences leave alone -/

/-- Switching logic domains touches power, cores and clusters alone (R501). -/
theorem State.fixDomains_eq (s : State) :
    s.fixDomains = { s with power := s.fixDomains.power, cores := s.fixDomains.cores, clusters := s.fixDomains.clusters } := by
  unfold State.fixDomains
  split
  · rfl
  · refine List.foldlRecOn (motive := fun t : State => t = { s with power := t.power, cores := t.cores, clusters := t.clusters }) _ _ rfl
      fun t ht d _ => ?_
    split
    · rw [ht]
    · split
      · rw [ht]
        rfl
      · exact ht

/-- Two states that differ at most in identity, power and links. -/
def BesidesLicence (s t : State) : Prop := t = { s with ident := t.ident, power := t.power, link := t.link }

theorem BesidesLicence.trans {s t u : State} (h : BesidesLicence s t) (k : BesidesLicence t u) : BesidesLicence s u := by
  unfold BesidesLicence at *
  rw [k, h]

theorem BesidesLicence.of_link {s t : State} (h : t = { s with link := t.link }) : BesidesLicence s t := by
  unfold BesidesLicence
  rw [h]

theorem linkDomains_licence (s : State) : BesidesLicence s s.linkDomains := rfl

theorem licenseLinks_licence (s : State) : BesidesLicence s s.licenseLinks := .of_link s.licenseLinks_eq

theorem ident_licence (s : State) (i : IdState) : BesidesLicence s { s with ident := i } := rfl

/-- A licence that was waiting touches identity, power and links alone (R541). -/
theorem State.tryLicence_eq (s : State) : BesidesLicence s s.tryLicence := by
  unfold State.tryLicence
  split
  · rfl
  · dsimp only
    split
    · exact ident_licence ..
    · exact (ident_licence ..).trans ((linkDomains_licence _).trans (licenseLinks_licence _))

theorem State.part_of_parts {s t : State} (h : t.parts = s.parts) (n : Nat) : t.part n = s.part n := by
  unfold State.part
  rw [h]

theorem State.tryLicence_part (s : State) (n : Nat) : s.tryLicence.part n = s.part n :=
  State.part_of_parts (congrArg State.parts s.tryLicence_eq :) n

theorem State.applyDone_part (s : State) (n : Nat) (code : BitVec 8) :
    (s.applyDone n code).part n = { s.part n with busy := false, result := code } := by
  unfold State.applyDone
  rw [State.tryLicence_part, State.part_updPart_same]

theorem State.applyDone_frame (s : State) (n : Nat) (code : BitVec 8) :
    (s.applyDone n code).out = s.out ∧ (s.applyDone n code).applyQ = s.applyQ ∧ (s.applyDone n code).mem = s.mem := by
  have h := (s.updPart n (fun q => { q with busy := false, result := code })).tryLicence_eq
  exact ⟨(congrArg State.out h :), (congrArg State.applyQ h :), (congrArg State.mem h :)⟩

/-! ### Applies (R44 to R47) -/

theorem applyWrite_captures {s : State} {n : Nat} {v : BitVec 32} (hl : s.live = true) (hn : n < 8) :
    exec (.applyWrite .mgmt n v) s = .next (s.writeApply n v) := by
  change execApplyWrite .mgmt n v s = _
  simp [execApplyWrite, hl, hn]

/-- The first apply in the queue may run: no change but a retirement's elsewhere is under way. -/
theorem parts_any_change_eq_false {s : State} {n : Nat} (h : ∀ q ∈ s.parts, ∀ h, q.2.change = some h → h.retire = true ∧ q.1 ≠ n) :
    s.parts.any (fun q => q.2.change.isSome && (!(q.2.change.any (·.retire)) || q.1 = n)) = false := by
  rw [List.any_eq_false]
  intro q hq
  cases hc : q.2.change with
  | none => simp
  | some c =>
    obtain ⟨hret, hne⟩ := h q hq c hc
    simp [hret, hne]

/-- An apply whose turn has come (R45 to R47). -/
def State.runApply (s : State) (n : Nat) (c : PartCfg) (rsv : Bool) (rest : List (Nat × PartCfg × Bool)) : State :=
  if s.applyCode n c rsv = 0x01 then
    { s with applyQ := rest }.updPart n (fun q => { q with change := some { cfg := c, hold := s.holdsApply n c, arrived := !s.holdsApply n c } })
  else { s with applyQ := rest }.applyDone n (s.applyCode n c rsv)

theorem exec_applyRun {s : State} {n : Nat} {c : PartCfg} {rsv : Bool} {rest : List (Nat × PartCfg × Bool)}
    (hl : s.live = true) (hq : s.applyQ = (n, c, rsv) :: rest) (hup : s.up = true) (hh : s.errs.handover = none)
    (hparts : ∀ q ∈ s.parts, ∀ h, q.2.change = some h → h.retire = true ∧ q.1 ≠ n) :
    exec .applyRun s = .next (s.runApply n c rsv rest) := by
  change execApplyRun s = _
  have hany := parts_any_change_eq_false hparts
  have hcode : ({ s with applyQ := rest } : State).applyCode n c rsv = s.applyCode n c rsv := rfl
  unfold execApplyRun State.runApply
  simp only [hq, hl, hup, hh, hany, hcode]
  split
  next h => cases h
  next =>
    split
    next h => exact congrArg Outcome.next (if_pos (c := s.applyCode n c rsv = 0x01) h).symm
    next h => exact congrArg Outcome.next (if_neg (c := s.applyCode n c rsv = 0x01) h).symm

/-- Settles O27: the apply that runs is judged in the state without it in the queue, which no check looks at. -/
theorem appliesCapturedAndChecked : Obligations.AppliesCapturedAndChecked := by
  unfold Obligations.AppliesCapturedAndChecked
  intro s hl
  refine ⟨fun n v hn hv => ?_, ?_⟩
  · rw [applyWrite_captures hl hn]
    refine .next ?_
    cases hb : (s.part n).busy
    · have hw : s.writeApply n v = { s.updPart n (fun q => { q with busy := true }) with
          applyQ := s.applyQ ++ [(n, (s.part n).stagedCfg, decide (65536 ≤ (s.part n).stMask2.toNat))] } := by
        simp [State.writeApply, hv, hb]
      have hpart := s.part_updPart_same n (fun q => { q with busy := true })
      rw [hw]
      exact ⟨hpart, rfl, rfl⟩
    · simp [State.writeApply, hb]
  · intro n c rsv rest hq hup hh hparts code
    rw [exec_applyRun hl hq hup hh hparts]
    refine .next ?_
    unfold State.runApply
    by_cases hcode : code = 0x01
    · rw [if_pos hcode, if_pos hcode]
      exact ⟨rfl, rfl, State.part_updPart_same .., rfl⟩
    · rw [if_neg hcode, if_neg hcode]
      obtain ⟨-, hrest, hmem⟩ := ({ s with applyQ := rest } : State).applyDone_frame n code
      exact ⟨hrest, hmem, State.applyDone_part ..⟩

/-! ### Prepare and abort (R324, R325, R328, R329) -/

/-- A control message to each of some participants. -/
theorem State.foldl_control (s : State) (n what : Nat) (us : List Participant) :
    us.foldl (fun s u => s.control n u what) s
      = { s with out := s.out ++ us.map (fun u => .control n u what (s.partTag n 0 .control)) } := by
  induction us generalizing s with
  | nil => simp
  | cons u us ih =>
    rw [List.foldl_cons, ih]
    have htag : (s.control n u what).partTag n 0 .control = s.partTag n 0 .control := rfl
    rw [htag, List.map_cons, ← List.singleton_append, ← List.append_assoc]
    rfl

/-- A partition whose change has been aborted (R325). -/
def Part.aborted (q : Part) (h : Change) : Part :=
  { q with change := if h.staged = [] then none else some { h with phase := .aborting } }

theorem State.abortPrepare_eq (s : State) (n : Nat) (h : Change) (hr : h.retire = false) :
    s.abortPrepare n h = ((({ s with out := s.out ++ h.members.map (fun u => .control n u 2 (s.partTag n 0 .control)) } : State).updPart n
      (fun q => q.aborted h)).applyDone n 0x0A).fixDomains := by
  unfold State.abortPrepare
  rw [State.foldl_control]
  exact if_neg (ne_true_of_eq_false hr)

/-- An aborted change that is not a retirement's (R325): result 0x0A, and configuration and epoch as they were. -/
structure Aborts (s t : State) (n : Nat) (h : Change) : Prop where
  part : t.part n = { (s.part n).aborted h with result := 0x0A, busy := false }
  out : t.out = s.out ++ h.members.map (fun u => .control n u 2 (s.partTag n 0 .control))
  mem : t.mem = s.mem

theorem State.fixDomains_part (s : State) (n : Nat) : s.fixDomains.part n = s.part n :=
  State.part_of_parts (congrArg State.parts s.fixDomains_eq :) n

theorem State.abortPrepare_aborts (s : State) (n : Nat) (h : Change) (hr : h.retire = false) : Aborts s (s.abortPrepare n h) n h := by
  rw [s.abortPrepare_eq n h hr]
  set v : State := { s with out := s.out ++ h.members.map (fun u => .control n u 2 (s.partTag n 0 .control)) }
  set w := v.updPart n (fun q => q.aborted h)
  have hw : w.part n = (v.part n).aborted h := v.part_updPart_same n _
  have hfix := (w.applyDone n 0x0A).fixDomains_eq
  obtain ⟨hout, -, hmem⟩ := w.applyDone_frame n 0x0A
  refine ⟨?_, (congrArg State.out hfix :).trans hout, (congrArg State.mem hfix :).trans hmem⟩
  rw [State.fixDomains_part, State.applyDone_part, hw]
  rfl

section
variable {s : State} {n : Nat} {h : Change}

/-- A change whose prepare has been sent (R324). -/
def Change.sent (h : Change) (now : Nat) (old : PartCfg) : Change :=
  { h with phase := .prepared, sentAt := now, members := participants old h.cfg, staged := [], lost := [], old := old }

theorem exec_prepare (hl : s.live = true) (hc : (s.part n).change = some h) (hph : h.phase = .waiting) :
    exec (.prepare n) s = .next (if s.oldTraffic n then s else
      (participants (s.part n).cfg h.cfg).foldl (fun s u => s.control n u 0)
        (s.updPart n (fun q => { q with change := some (h.sent s.now q.cfg) })).fixDomains) := by
  change execPrepare n s = _
  unfold execPrepare
  simp only [hc, hl, hph]
  cases s.oldTraffic n <;> rfl

theorem prepare_sends (hl : s.live = true) (hc : (s.part n).change = some h) (hph : h.phase = .waiting) :
    Completes (exec (.prepare n) s) (fun t =>
      if s.oldTraffic n then t = s
      else (t.part n).change = some (h.sent s.now (s.part n).cfg)
        ∧ t.out = s.out ++ (participants (s.part n).cfg h.cfg).map (fun u => .control n u 0 (s.partTag n 0 .control)) ∧ t.mem = s.mem) := by
  rw [exec_prepare hl hc hph]
  refine .next ?_
  by_cases hold : s.oldTraffic n = true
  · rw [if_pos hold, if_pos hold]
  · rw [if_neg hold, if_neg hold, State.foldl_control]
    set w := s.updPart n (fun q => { q with change := some (h.sent s.now q.cfg) })
    have hfix := w.fixDomains_eq
    have hw : w.part n = { s.part n with change := some (h.sent s.now (s.part n).cfg) } := State.part_updPart_same ..
    have hpart : w.fixDomains.part n = { s.part n with change := some (h.sent s.now (s.part n).cfg) } := by
      rw [State.fixDomains_part, hw]
    have htag : w.fixDomains.partTag n 0 .control = s.partTag n 0 .control := by
      unfold State.partTag
      rw [hpart]
    refine ⟨(congrArg Part.change hpart :), ?_, (congrArg State.mem hfix :)⟩
    rw [htag]
    exact congrArg (· ++ _) (congrArg State.out hfix :)

theorem prepareReceive_arrives {u : Participant} (hl : s.live = true) (hc : (s.part n).change = some h) (hph : h.phase = .prepared)
    (hu : u ∈ h.members) :
    exec (.prepareReceive n u true) s = .next (if u ∈ h.lost then s else
      (s.updPart n (fun q => { q with change := some { h with staged := addOnce h.staged u } })).control n u 1) := by
  change execPrepareReceive n u true s = _
  unfold execPrepareReceive
  simp only [hc, hl, hph, hu]
  by_cases hlost : u ∈ h.lost <;> simp [hlost]

theorem prepareTimeout_aborts (hl : s.live = true) (hc : (s.part n).change = some h) (hph : h.phase = .prepared)
    (ht : h.sentAt + 10000000 ≤ s.now) (hall : h.members.all (· ∈ h.staged) = false) :
    exec (.prepareTimeout n) s = .next (s.abortPrepare n h) := by
  change execPrepareTimeout n s = _
  unfold execPrepareTimeout
  simp only [hc, hl, hph, ht, hall]
  rfl

theorem stepHoldTimeout_aborts (hl : s.live = true) (hc : (s.part n).change = some h) (hph : h.phase = .prepared)
    (hhold : h.hold = true) (hb : (s.part n).stepHoldS ≠ 0) (ht : h.sentAt + 1000000000 * (s.part n).stepHoldS ≤ s.now) :
    exec (.stepHoldTimeout n) s = .next (s.abortPrepare n h) := by
  change execStepHoldTimeout n s = _
  unfold execStepHoldTimeout
  simp only [hc, hl, hph, hhold, ht]
  simp [hb]

theorem prepareAbortReceive_discards {u : Participant} (hl : s.live = true) (hc : (s.part n).change = some h) (hph : h.phase = .aborting) :
    exec (.prepareAbortReceive n u) s = .next (s.updPart n (fun q => { q with
      change := if h.staged.filter (· ≠ u) = [] then none else some { h with staged := h.staged.filter (· ≠ u) } })) := by
  change execPrepareAbortReceive n u s = _
  unfold execPrepareAbortReceive
  simp only [hc, hl, hph]
  rfl

end

/-- Settles O28, with one lemma for the abort that both time-outs share. -/
theorem prepareAndAbort : Obligations.PrepareAndAbort := by
  unfold Obligations.PrepareAndAbort
  intro s n h hl hc ms tag Aborted
  have aborted (hr : h.retire = false) : Aborted (s.abortPrepare n h) := by
    obtain ⟨hpart, hout, hmem⟩ := s.abortPrepare_aborts n h hr
    change _ ∧ _ ∧ _ ∧ _ ∧ _ ∧ _ ∧ _
    rw [hpart]
    exact ⟨rfl, rfl, rfl, rfl, hmem, hout, rfl⟩
  refine ⟨prepare_sends hl hc, fun u hph hu => ?_, fun hph hr ht hall => ?_, fun hph hr hhold hb ht => ?_, fun u hph => ?_⟩
  · rw [prepareReceive_arrives hl hc hph hu]
    refine .next ?_
    by_cases hlost : u ∈ h.lost
    · rw [if_pos hlost, if_pos hlost]
    · rw [if_neg hlost, if_neg hlost]
      have hpart := s.part_updPart_same n (fun q => { q with change := some { h with staged := addOnce h.staged u } })
      have htag : (s.updPart n (fun q => { q with change := some { h with staged := addOnce h.staged u } })).partTag n 0 .control = tag := by
        unfold State.partTag
        rw [hpart]
        rfl
      refine ⟨(congrArg Part.change hpart :), ?_⟩
      unfold State.control State.send
      rw [htag]
      rfl
  · rw [prepareTimeout_aborts hl hc hph ht hall]
    exact .next (aborted hr)
  · rw [stepHoldTimeout_aborts hl hc hph hhold hb ht]
    exact .next (aborted hr)
  · rw [prepareAbortReceive_discards hl hc hph]
    refine .next ⟨?_, rfl⟩
    rw [State.part_updPart_same]

end Sys2Proof.Machine
end

section
/-! PROOFS. Hedgerow lines: arrivals that count, that are the last of their phase and that fault; reports; releases (O25). -/

namespace Sys2Proof.Machine

open Host (Outcome)

/-! ### What the links do with a flit -/

/-- Two states that differ at most in the links and in what the part has sent. -/
def BesidesLinks (s t : State) : Prop := t = { s with link := t.link, out := t.out }

theorem BesidesLinks.refl (s : State) : BesidesLinks s s := rfl

theorem BesidesLinks.trans {s t u : State} (h : BesidesLinks s t) (k : BesidesLinks t u) : BesidesLinks s u := by
  unfold BesidesLinks at *
  rw [k, h]

theorem BesidesLinks.sync {s t : State} (h : BesidesLinks s t) : t.sync = s.sync := (congrArg State.sync h :)

theorem BesidesLinks.ite {s t u : State} {c : Prop} [Decidable c] (ht : BesidesLinks s t) (hu : BesidesLinks s u) :
    BesidesLinks s (if c then t else u) := by
  split
  · exact ht
  · exact hu

theorem updLnk_links (s : State) (k : Nat) (f : Link → Link) : BesidesLinks s (s.updLnk k f) := rfl

theorem transmit_links (s : State) (k : Nat) (f : Flit) : BesidesLinks s (s.transmit k f) := rfl

theorem updMember_links (s : State) (n : Nat) (f : Member → Member) : BesidesLinks s (s.updMember n f) := rfl

theorem pump_links (s : State) (k n : Nat) : BesidesLinks s (s.pump k n) := by
  induction n generalizing s with
  | zero => exact .refl s
  | succ n ih =>
    unfold State.pump
    dsimp only
    split
    · split
      · exact ((updLnk_links ..).trans (transmit_links ..)).trans (ih _)
      · exact .refl s
    · exact .refl s

theorem sendOn_links (s : State) (k job : Nat) (f : Flit) : BesidesLinks s (s.sendOn k job f) :=
  (updLnk_links ..).trans (pump_links ..)

theorem stale_links (s : State) (n src : Nat) (srcId : Option Word) (link : Nat) : BesidesLinks s (s.stale n src srcId link) := by
  have hcount : BesidesLinks s (s.xuCount n 2 1) := updMember_links ..
  exact .ite hcount (((hcount.trans (updMember_links ..)).trans (updLnk_links ..)).trans (sendOn_links ..))

theorem takeData_links (s : State) (n : Nat) (f : Flit) : BesidesLinks s (s.takeData n f) := by
  unfold State.takeData
  dsimp only
  split
  · rfl
  · split <;> rfl

theorem dataFlit_links (s : State) (k n : Nat) (f : Flit) : BesidesLinks s (s.dataFlit k n f) := by
  unfold State.dataFlit
  dsimp only
  split
  · exact takeData_links ..
  · rfl
  · exact stale_links ..

theorem routeFlit_links (s : State) (n : Nat) (f : Flit) : BesidesLinks s (s.routeFlit n f) := by
  unfold State.routeFlit
  dsimp only
  split
  · exact sendOn_links ..
  · split
    · split
      · exact dataFlit_links ..
      · exact .refl s
    · exact .refl s

/-! ### Lines that fill and settle leave the arrivals on their way -/

/-- A line whose phase has been released (R321). -/
def Line.released (x : Line) (late : Bool) : Line :=
  { x with
    phase := x.phase + 1
    opened := false
    lateLast := if x.curJobWide then late else x.lateLast
    expected := 0
    arrived := 0
    reports := x.reports.filter (fun r => r.2.1 ≠ x.phase)
    ownT := none
    releaseAt := none }

theorem State.releaseLine_line (s : State) (l : Nat) (late : Bool) : (s.releaseLine l late).line l = (s.line l).released late := by
  change (Tab.set s.sync.lines l _).get {} l = _
  rw [Tab.get_set_same]
  rfl

theorem State.settleLine_arrivals (s : State) (l : Nat) : (s.settleLine l).sync.arrivals = s.sync.arrivals := by
  unfold State.settleLine
  dsimp only
  split
  · rfl
  · split
    · rfl
    · split
      · exact congrArg (·.arrivals) (congrArg State.sync (post_reports (s.releaseLine l true) _ _) :)
      · rfl

theorem State.lineReport_arrivals (s : State) (line member : Nat) (epoch phase : BitVec 32) (t : Nat) :
    (s.lineReport line member epoch phase t).sync.arrivals = s.sync.arrivals := by
  unfold State.lineReport
  dsimp only
  split
  · exact State.settleLine_arrivals ..
  · rfl
  · exact congrArg _ (stale_links ..).sync

theorem State.tellLine_arrivals (s : State) (l i : Nat) (phase : BitVec 32) : (s.tellLine l i phase).sync.arrivals = s.sync.arrivals := by
  unfold State.tellLine
  dsimp only
  split
  · exact State.lineReport_arrivals ..
  · exact congrArg _ (routeFlit_links ..).sync

theorem State.lineFull_arrivals (s : State) (l : Nat) : (s.lineFull l).sync.arrivals = s.sync.arrivals := by
  unfold State.lineFull
  dsimp only
  split
  · rfl
  · rw [State.settleLine_arrivals]
    split
    · rfl
    · exact List.foldlRecOn (motive := fun t : State => t.sync.arrivals = s.sync.arrivals) _ _ rfl
        fun t ht i _ => (t.tellLine_arrivals l i _).trans ht

/-- A full line of module scope releases its phase (R321). -/
theorem State.lineFull_module {s : State} {l : Nat} (h : (s.line l).curJobWide = false) : s.lineFull l = s.releaseLine l false := by
  unfold State.lineFull
  simp only [h]
  rfl

/-! ### The module error log (R471) -/

/-- The module error log after a further record. -/
def pushLog (log : List ErrRec) (r : ErrRec) : List ErrRec := if logCap < (log ++ [r]).length then (log ++ [r]).drop 1 else log ++ [r]

/-- A record stays in the log while the next one is posted: the log holds more than one. -/
theorem mem_pushLog_pushLog (log : List ErrRec) (r q : ErrRec) : r ∈ pushLog (pushLog log r) q := by
  have hcap : 1 < logCap := by decide
  have hlast : ∃ l, pushLog log r = l ++ [r] := by
    unfold pushLog
    split
    next h =>
      cases log with
      | nil => exact absurd h (by simp only [List.nil_append, List.length_singleton]; omega)
      | cons x log => exact ⟨log, rfl⟩
    next => exact ⟨log, rfl⟩
  obtain ⟨l, hl⟩ := hlast
  rw [hl]
  unfold pushLog
  split
  next h =>
    cases l with
    | nil => exact absurd h (by simp only [List.nil_append, List.length_append, List.length_singleton]; omega)
    | cons x l => simp
  next => simp

theorem State.emit_errs (s : State) (f : FuncRef) (o : Out) : (s.emit f o).errs = s.errs := by
  unfold State.emit
  split <;> rfl

theorem State.raise_errs (s : State) (f : FuncRef) (v holdoff : Nat) : (s.raise f v holdoff).errs = s.errs := by
  unfold State.raise State.trySend
  dsimp only
  split_ifs
  · exact State.emit_errs ..
  · rfl

theorem State.ringPost_errs (s : State) (f : FuncRef) (r : ErrRec) : (s.ringPost f r).errs = s.errs := by
  unfold State.ringPost
  dsimp only
  split
  · rfl
  · split
    · exact (State.raise_errs ..).trans (State.emit_errs ..)
    · split
      · exact (State.raise_errs ..).trans (State.emit_errs ..)
      · split
        · exact State.emit_errs ..
        · rfl

theorem State.post_log (s : State) (r : ErrRec) (parts : List Nat) :
    (s.post r parts).errs.log = pushLog s.errs.log { r with seq := s.errs.nextSeq, time := s.now } := by
  unfold State.post
  refine List.foldlRecOn (motive := fun t : State => t.errs.log = pushLog s.errs.log { r with seq := s.errs.nextSeq, time := s.now })
    _ _ rfl fun t ht n _ => ?_
  split
  · exact (congrArg ErrState.log (State.ringPost_errs ..)).trans ht
  · exact ht

/-! ### A context that faults (R156, R157) -/

theorem State.dropTx_errs (s : State) (num : Nat) : (s.dropTx num).errs = s.errs := by
  have h : (s.gateWaited num).errs = s.errs := by
    unfold State.gateWaited
    split
    · split <;> rfl
    · rfl
  exact h

theorem State.abortTx_errs (s : State) (p : At) : (s.abortTx p).errs = s.errs := by
  unfold State.abortTx
  split
  · rfl
  · dsimp only
    split
    · rfl
    · exact State.dropTx_errs ..

theorem State.abortTx_ctx (s : State) (p : At) : ∃ tx txid, (s.abortTx p).ctx p = { s.ctx p with tx := tx, txid := txid } := by
  obtain ⟨-, hcores⟩ := s.abortTx_frame p
  split at hcores
  · exact ⟨_, _, State.ctx_of_cores hcores p⟩
  · exact ⟨none, 0, (State.ctx_of_cores hcores p).trans (State.ctx_updCtx_same ..)⟩

/-- `t` came of `s` by a fault of context `p`: its pc and its arrival bits stay, and so do the hedgerow lines. -/
structure CtxFaults (s t : State) (p : At) (cause : BitVec 8) : Prop where
  state : (t.ctx p).state = .faulted
  cause : (t.ctx p).faultCause = cause
  pc : (t.ctx p).pc = (s.ctx p).pc
  bits : (t.ctx p).arrivals = (s.ctx p).arrivals
  arrivals : t.sync.arrivals = s.sync.arrivals
  lines : t.sync.lines = s.sync.lines
  log : ∃ r, t.errs.log = pushLog s.errs.log r

theorem CtxFaults.releaseWhenDrained {s t : State} {p : At} {cause : BitVec 8} (h : CtxFaults s t p cause) (op : SyncOp) :
    CtxFaults s (t.releaseWhenDrained p op) p cause := by
  unfold State.releaseWhenDrained
  split
  · exact { h with }
  · have hctx := t.ctx_updCtx_same p (fun c => { c with owed := c.owed ++ [op] })
    refine { h with state := ?_, cause := ?_, pc := ?_, bits := ?_ } <;> rw [hctx]
    · exact h.state
    · exact h.cause
    · exact h.pc
    · exact h.bits

theorem CtxFaults.post {s t : State} {p : At} (cause : BitVec 8) (r : ErrRec) (parts : List Nat)
    (hstate : (t.ctx p).state = .faulted) (hcause : (t.ctx p).faultCause = cause) (hpc : (t.ctx p).pc = (s.ctx p).pc)
    (hbits : (t.ctx p).arrivals = (s.ctx p).arrivals) (hsync : t.sync = s.sync) (herrs : t.errs = s.errs) :
    CtxFaults s (t.post r parts) p cause := by
  have hrep := post_reports t r parts
  have hctx := hrep.ctx p
  have hs : (t.post r parts).sync = s.sync := (congrArg State.sync hrep :).trans hsync
  refine ⟨?_, ?_, ?_, ?_, congrArg _ hs, congrArg _ hs, _, (t.post_log r parts).trans (by rw [herrs])⟩ <;> rw [hctx]
  · exact hstate
  · exact hcause
  · exact hpc
  · exact hbits

theorem State.faultCtx_faults (s : State) (p : At) (cause : BitVec 8) : CtxFaults s (s.faultCtx p cause) p cause := by
  obtain ⟨tx, txid, hctx⟩ := s.abortTx_ctx p
  have posted (r : ErrRec) (parts : List Nat) : CtxFaults s (((s.abortTx p).updCtx p (fun c => { c with
      state := .faulted, faultCause := cause, faultPc := c.pc.setWidth 20, wait := none, stalledOn := none })).post r parts) p cause := by
    refine .post cause r parts ?_ ?_ ?_ ?_ (s.abortTx_frame p).1 (s.abortTx_errs p) <;> rw [State.ctx_updCtx_same, hctx]
  unfold State.faultCtx
  dsimp only
  split
  · exact (posted ..).releaseWhenDrained _
  · exact posted ..

/-! ### Arrivals at a line (R318, R321) -/

section
variable {s : State} {i : Nat} {a : Arrival}

/-- The state once an arrival on its way has reached its line. -/
def State.withoutArrival (s : State) (i : Nat) : State := { s with sync := { s.sync with arrivals := dropAt s.sync.arrivals i } }

/-- A line with one arrival more, of a phase that counts `n` (R321). -/
def Line.counted (x : Line) (n : Nat) : Line :=
  { x with
    opened := true
    expected := n
    arrived := x.arrived + 1
    curJobWide := if x.opened then x.curJobWide else x.jobWide
    curLead := if x.opened then x.curLead else x.leadNs }

/-- An arrival is counted (R318, R321): its line, and the phase that the arrival bit of its context names. -/
def State.countArrival (s : State) (a : Arrival) : State :=
  (s.updLine a.line (fun x => x.counted a.n)).updCtx a.p
    (fun c => if (c.arrivals.find a.line).isSome then { c with arrivals := c.arrivals.set a.line (s.line a.line).phase } else c)

/-- An arrival whose count differs from the phase's (R321), before its context faults. -/
def State.rejectArrival (s : State) (a : Arrival) : State :=
  (((s.updCtx a.p (fun c => { c with arrivals := c.arrivals.del a.line, pc := a.pc })).forgetWait a.p).post
    { cls := 0x05, cause := 0x03, unit := unitCode .dieSteward, loc := BitVec.ofNat 32 a.line } [a.line / 8])

theorem State.countArrival_line (s : State) (a : Arrival) : (s.countArrival a).line a.line = (s.line a.line).counted a.n :=
  s.line_updLine_same a.line (fun x => x.counted a.n)

/-- What HEDGEROW_ARRIVAL does for an arrival with none of its core before it. -/
theorem exec_hedgerowArrival (hl : s.live = true) (ha : s.sync.arrivals[i]? = some a)
    (hfirst : ∀ b ∈ s.sync.arrivals.take i, b.p.core ≠ a.p.core) :
    let x := s.line a.line
    exec (.hedgerowArrival i) s = .next (
      if x.opened && x.expected ≠ a.n then ((s.withoutArrival i).rejectArrival a).faultCtx a.p 0x03
      else if x.arrived + 1 = a.n then ((s.withoutArrival i).countArrival a).lineFull a.line
      else (s.withoutArrival i).countArrival a) := by
  have hany : (s.sync.arrivals.take i).any (fun b => b.p.core = a.p.core) = false := by
    rw [List.any_eq_false]
    exact fun b hb => by simpa using hfirst b hb
  have hcount : (((s.withoutArrival i).countArrival a).line a.line).arrived = (s.line a.line).arrived + 1 :=
    congrArg Line.arrived ((s.withoutArrival i).countArrival_line a)
  change execHedgerowArrival i s = _
  rw [← hcount]
  unfold execHedgerowArrival
  simp only [ha, hl, hany]
  rfl

theorem hedgerowArrival_counts (hl : s.live = true) (ha : s.sync.arrivals[i]? = some a)
    (hfirst : ∀ b ∈ s.sync.arrivals.take i, b.p.core ≠ a.p.core) :
    let x := s.line a.line
    (x.opened = true → x.expected = a.n) →
      Completes (exec (.hedgerowArrival i) s) (fun t => t.mem = s.mem ∧ t.sync.arrivals = dropAt s.sync.arrivals i
        ∧ (x.arrived + 1 ≠ a.n → t.line a.line = x.counted a.n)
        ∧ (x.arrived + 1 = a.n → (x.counted a.n).curJobWide = false → t.line a.line = (x.counted a.n).released false)) := by
  intro x hx
  rw [exec_hedgerowArrival hl ha hfirst]
  have hgood : ¬ (x.opened && decide (x.expected ≠ a.n)) = true := by
    intro h
    obtain ⟨ho, hn⟩ := (Bool.and_eq_true ..).mp h
    exact of_decide_eq_true hn (hx ho)
  rw [if_neg hgood]
  have hline := (s.withoutArrival i).countArrival_line a
  split
  next hfull =>
    refine .next ⟨(State.lineFull_bytes ..).1, State.lineFull_arrivals .., fun h => absurd hfull h, fun _ hmod => ?_⟩
    have hjob : (((s.withoutArrival i).countArrival a).line a.line).curJobWide = false := by
      rw [hline]
      exact hmod
    rw [State.lineFull_module hjob, State.releaseLine_line, hline]
    rfl
  next hmore => exact .next ⟨rfl, rfl, fun _ => hline, fun h => absurd h hmore⟩

theorem State.ctx_forgetWait (s : State) (p q : At) : (s.forgetWait p).ctx q = s.ctx q := State.ctx_updCore _ _ _ rfl _

theorem State.rejectArrival_ctx (s : State) (a : Arrival) :
    (s.rejectArrival a).ctx a.p = { s.ctx a.p with arrivals := (s.ctx a.p).arrivals.del a.line, pc := a.pc } := by
  rw [State.rejectArrival, (post_reports ..).ctx, State.ctx_forgetWait, State.ctx_updCtx_same]

theorem State.rejectArrival_sync (s : State) (a : Arrival) :
    (s.rejectArrival a).sync.arrivals = s.sync.arrivals ∧ (s.rejectArrival a).sync.lines = s.sync.lines := by
  have hsync := (congrArg State.sync (post_reports ((s.updCtx a.p (fun c => { c with arrivals := c.arrivals.del a.line, pc := a.pc })).forgetWait a.p)
    { cls := 0x05, cause := 0x03, unit := unitCode .dieSteward, loc := BitVec.ofNat 32 a.line } [a.line / 8]) :)
  exact ⟨congrArg (·.arrivals) hsync, congrArg (·.lines) hsync⟩

theorem State.rejectArrival_log (s : State) (a : Arrival) :
    ∃ r, (s.rejectArrival a).errs.log = pushLog s.errs.log r
      ∧ r.cls = 0x05 ∧ r.cause = 0x03 ∧ r.unit = 0x05 ∧ r.loc = BitVec.ofNat 32 a.line :=
  ⟨_, State.post_log .., rfl, rfl, rfl, rfl⟩

theorem hedgerowArrival_faults (hl : s.live = true) (ha : s.sync.arrivals[i]? = some a)
    (hfirst : ∀ b ∈ s.sync.arrivals.take i, b.p.core ≠ a.p.core) :
    let x := s.line a.line
    x.opened = true → x.expected ≠ a.n →
      Completes (exec (.hedgerowArrival i) s) (fun t => t.mem = s.mem ∧ t.sync.arrivals = dropAt s.sync.arrivals i ∧ t.line a.line = x
        ∧ (t.ctx a.p).state = .faulted ∧ (t.ctx a.p).faultCause = 0x03 ∧ (t.ctx a.p).pc = a.pc ∧ (t.ctx a.p).arrivals.find a.line = none
        ∧ (∃ r ∈ t.errs.log, r.cls = 0x05 ∧ r.cause = 0x03 ∧ r.unit = 0x05 ∧ r.loc = BitVec.ofNat 32 a.line)) := by
  intro x ho hn
  have hbad : (x.opened && decide (x.expected ≠ a.n)) = true := by simp [ho, hn]
  rw [exec_hedgerowArrival hl ha hfirst, if_pos hbad]
  set u := (s.withoutArrival i).rejectArrival a
  have hctx : u.ctx a.p = _ := (s.withoutArrival i).rejectArrival_ctx a
  obtain ⟨r, hreject, hr⟩ := (s.withoutArrival i).rejectArrival_log a
  obtain ⟨harrivals, hlines⟩ := (s.withoutArrival i).rejectArrival_sync a
  obtain ⟨hstate, hcause, hpc, hbits, hsent, hline, q, hlog⟩ := u.faultCtx_faults a.p 0x03
  rw [hctx] at hpc hbits
  refine .next ⟨?_, hsent.trans harrivals, ?_, hstate, hcause, hpc, ?_, ?_⟩
  · rw [(State.faultCtx_bytes ..).1]
    exact (State.post_bytes ..).1
  · exact congrArg (fun l : Tab Line => l.get {} a.line) (hline.trans hlines)
  · rw [hbits]
    exact Tab.find_del_same ..
  · rw [hlog, hreject]
    exact ⟨r, mem_pushLog_pushLog .., hr⟩

end

/-! ### Reports and releases (R321, R322) -/

theorem State.lineReport_current {s : State} {l : Nat} (m : Nat) (phase : BitVec 32) (t : Nat) (hown : (s.line l).ownT = none) :
    s.lineReport l m (s.member (l / 8)).image.epoch phase t
      = s.updLine l (fun x => { x with reports := x.reports.filter (fun r => !(r.1 = m && r.2.1 = phase)) ++ [(m, phase, t)] }) := by
  have hsame : epochCmp (s.member (l / 8)).image.epoch (s.member (l / 8)).image.epoch = 0 := if_pos rfl
  unfold State.lineReport
  simp only [hsame]
  unfold State.settleLine
  simp only [State.line_updLine_same, hown]

theorem exec_jobWideRelease {s : State} {l T : Nat} (hl : s.live = true) (hr : (s.line l).releaseAt = some T) (hT : T ≤ s.now)
    (hq : (s.member (l / 8)).quarantined = false) : exec (.jobWideRelease l) s = .next (s.releaseLine l false) := by
  change execJobWideRelease l s = _
  unfold execJobWideRelease
  simp only [hr, hl, hT, hq]
  rfl

/-- Settles O25: an arrival by the three ways that `exec_hedgerowArrival` names, a report and a release by the line they leave. -/
theorem hedgerowLines : Obligations.HedgerowLines := by
  unfold Obligations.HedgerowLines
  intro s hl
  refine ⟨fun i a ha hfirst => ⟨fun hx => ?_, hedgerowArrival_faults hl ha hfirst⟩, fun l m phase time hown => ?_, fun l T hr hT hq => ?_⟩
  · obtain ⟨t, ht, hmem, hsent, hmore, hlast⟩ := hedgerowArrival_counts hl ha hfirst hx
    refine ⟨t, ht, hmem, hsent, hmore, fun hfull hmod => ?_⟩
    rw [hlast hfull hmod]
    exact ⟨rfl, rfl, rfl⟩
  · change Completes (.next (if s.live then _ else _)) _
    rw [if_pos hl, State.lineReport_current m phase time hown]
    refine .next ⟨rfl, ?_⟩
    rw [State.line_updLine_same]
    exact ⟨by simp, rfl⟩
  · rw [exec_jobWideRelease hl hr hT hq]
    refine .next ⟨(State.releaseLine_bytes ..).1, ?_⟩
    rw [State.releaseLine_line]
    exact ⟨rfl, rfl, rfl⟩

end Sys2Proof.Machine
end

section
/-! PROOFS. Tagged messages at a unit: accepted or not, processed, held or discarded by their epoch (O26). -/

namespace Sys2Proof.Machine

/-! ### The buffers of a unit -/

theorem State.unitBuf_updUnit_same (s : State) (u : UnitRef) (f : UnitBuf → UnitBuf) : (s.updUnit u f).unitBuf u = f (s.unitBuf u) := by
  have hnone : (s.units.filter (fun x => x.1 ≠ u)).find? (fun x => x.1 = u) = none := by simp [List.find?_eq_none]
  change (((s.units.filter (fun x => x.1 ≠ u) ++ [(u, f (s.unitBuf u))]).find? (fun x => x.1 = u)).map (·.2)).getD {} = _
  rw [List.find?_append, hnone, Option.none_or, List.find?_cons_of_pos (by simp)]
  rfl

theorem State.unitBuf_updUnit_ne (s : State) {u x : UnitRef} (f : UnitBuf → UnitBuf) (h : x ≠ u) : (s.updUnit u f).unitBuf x = s.unitBuf x := by
  have hfind : (s.units.filter (fun y => y.1 ≠ u)).find? (fun y => y.1 = x) = s.units.find? (fun y => y.1 = x) := by
    rw [List.find?_filter]
    congr 1
    funext y
    by_cases hy : y.1 = x
    · simp [hy, h]
    · simp [hy]
  have hlast : ([(u, f (s.unitBuf u))] : List (UnitRef × UnitBuf)).find? (fun y => y.1 = x) = none := by simp [h.symm]
  change (((s.units.filter (fun y => y.1 ≠ u) ++ [(u, f (s.unitBuf u))]).find? (fun y => y.1 = x)).map (·.2)).getD {} = _
  rw [List.find?_append, hfind, hlast, Option.or_none]
  rfl

theorem State.unitBuf_of_units {s t : State} (h : t.units = s.units) (u : UnitRef) : t.unitBuf u = s.unitBuf u := by
  unfold State.unitBuf
  rw [h]

theorem BesidesReports.unitBuf {s t : State} (h : BesidesReports s t) (u : UnitRef) : t.unitBuf u = s.unitBuf u :=
  State.unitBuf_of_units (congrArg State.units h :) u

/-! ### Writes leave the units alone -/

theorem State.writeKeys_units (s : State) (ks : List Nat) (data : List Byte) (b : Bool) : (s.writeKeys ks data b).units = s.units := by
  unfold State.writeKeys
  dsimp only
  split <;> rfl

theorem State.markStale_units (s : State) (n : Nat) (a : Word) (len : Nat) : (s.markStale n a len).units = s.units := by
  unfold State.markStale
  split <;> rfl

theorem State.writeDev_units (s : State) (n core : Nat) (a : Word) (data : List Byte) (b : Bool) : (s.writeDev n core a data b).units = s.units := by
  have h : ((s.writeKeys (s.keysOf n core a data.length) data b).markStale n a data.length).units = s.units :=
    (State.markStale_units ..).trans (State.writeKeys_units ..)
  unfold State.writeDev
  dsimp only
  split
  · split
    · exact h
    · exact h
  · exact h

/-! ### The verdicts -/

section
variable (s : State) (u : UnitRef) (m : Msg)

/-- A message was discarded and counted at its unit, and memory stays. -/
structure MsgDiscarded (t : State) : Prop where
  others : ∀ x, x ≠ u → t.unitBuf x = s.unitBuf x
  buf : t.unitBuf u = { s.unitBuf u with discards := min ((s.unitBuf u).discards + 1) (2 ^ 64 - 1) }
  mem : t.mem = s.mem

/-- A message is held at its unit, and memory stays. -/
structure MsgHeld (t : State) : Prop where
  others : ∀ x, x ≠ u → t.unitBuf x = s.unitBuf x
  buf : t.unitBuf u = { s.unitBuf u with held := (s.unitBuf u).held ++ [m] }
  mem : t.mem = s.mem

/-- Whether a unit does the write of a message that it processes. -/
def State.msgWrites : Bool := isMemoryUnit u && m.write && s.within (tagPart m.tag) m.addr m.data.length

/-- The keys of the bytes that a message names at a unit. -/
def State.msgKeys : List Nat := s.keysOf (tagPart m.tag) u.index m.addr m.data.length

/-- A message of a known format was processed under the settings of an epoch. -/
structure MsgProcessed (e : BitVec 12) (t : State) : Prop where
  others : ∀ x, x ≠ u → t.unitBuf x = s.unitBuf x
  buf : t.unitBuf u = { s.unitBuf u with processed := (s.unitBuf u).processed ++ [(m, e)] }
  mem : t.mem = if s.msgWrites u m then Memory.putAll s.mem (List.zip (s.msgKeys u m) m.data) else s.mem

theorem State.discardMsg_discards (cause : Nat) : MsgDiscarded s u (s.discardMsg u m cause) := by
  have hrep := discard_reports (s.updUnit u (fun b => { b with discards := sat64 (b.discards + 1) })) u cause m.tag 0 [tagPart m.tag]
  exact ⟨fun x hx => (hrep.unitBuf x).trans (State.unitBuf_updUnit_ne s _ hx), (hrep.unitBuf u).trans (State.unitBuf_updUnit_same ..),
    hrep.bytes.1⟩

/-- The message joins what its unit holds. -/
def State.holdMsg : State := s.updUnit u (fun b => { b with held := b.held ++ [m] })

theorem State.holdMsg_holds : MsgHeld s u m (s.holdMsg u m) :=
  ⟨fun _ hx => State.unitBuf_updUnit_ne s _ hx, State.unitBuf_updUnit_same .., rfl⟩

/-- Every code that R54 reserves is a code other than 0. -/
theorem reserved_iff (c : Nat) : (!fmtKnown c && decide (c ≠ 0)) = true ↔ fmtKnown c = false := by
  constructor
  · intro h
    exact (Bool.not_eq_true' _).mp ((Bool.and_eq_true ..).mp h).1
  · intro h
    have hne : c ≠ 0 := by
      rintro rfl
      exact absurd h (by decide)
    simp [h, hne]

theorem State.processMsg_reserved (e : BitVec 12) (h : fmtKnown (tagFmt m.tag) = false) : MsgDiscarded s u (s.processMsg u m e) := by
  have hp : s.processMsg u m e = s.discardMsg u m 0x03 := if_pos ((reserved_iff _).mpr h)
  rw [hp]
  exact s.discardMsg_discards u m 0x03

theorem State.processMsg_known (e : BitVec 12) (h : fmtKnown (tagFmt m.tag) ≠ false) : MsgProcessed s u m e (s.processMsg u m e) := by
  set v := s.updUnit u (fun b => { b with processed := b.processed ++ [(m, e)] })
  have hp : s.processMsg u m e = if s.msgWrites u m then v.writeDev (tagPart m.tag) u.index m.addr m.data (tagBlight m.tag) else v :=
    if_neg (fun hr => h ((reserved_iff _).mp hr))
  have hne (x : UnitRef) (hx : x ≠ u) : v.unitBuf x = s.unitBuf x := State.unitBuf_updUnit_ne s _ hx
  have hsame : v.unitBuf u = { s.unitBuf u with processed := (s.unitBuf u).processed ++ [(m, e)] } := State.unitBuf_updUnit_same ..
  rw [hp]
  by_cases hw : s.msgWrites u m = true
  · rw [if_pos hw]
    have hunits := v.writeDev_units (tagPart m.tag) u.index m.addr m.data (tagBlight m.tag)
    refine ⟨fun x hx => (State.unitBuf_of_units hunits x).trans (hne x hx), (State.unitBuf_of_units hunits u).trans hsame, ?_⟩
    rw [if_pos hw]
    exact State.writeDev_mem ..
  · rw [if_neg hw]
    refine ⟨hne, hsame, ?_⟩
    rw [if_neg hw]
    rfl

theorem State.judgeMsg_eq :
    let e := s.unitEpoch u (tagPart m.tag)
    let d := (tagEpoch m.tag - e).toNat
    s.judgeMsg u m = if tagClass m.tag = 5 then s.processMsg u m e
      else if (s.unitBuf u).held.any (fun x => tagClass x.tag = tagClass m.tag) then s.holdMsg u m
      else if d = 0 then s.processMsg u m e
      else if d ≤ 2047 then s.holdMsg u m
      else if d ≤ 4094 then s.discardMsg u m 0x02
      else s.processMsg u m (e - 1) := by
  intro e d
  unfold State.judgeMsg epochVerdict
  dsimp only
  split_ifs <;> rfl

theorem exec_messageReceipt (hl : s.live = true) :
    exec (.messageReceipt u m) s = .next (if s.accepts u m = false then s.discardMsg u m 0x01 else s.judgeMsg u m) := by
  change execMessageReceipt u m s = _
  unfold execMessageReceipt
  rw [hl]
  cases s.accepts u m <;> rfl

end

theorem MsgProcessed.keepsBytes {s : State} {u : UnitRef} {m : Msg} {e : BitVec 12} {t : State} (h : MsgProcessed s u m e t) :
    KeepsBytes s t (if s.msgWrites u m then s.msgKeys u m else []) := by
  have hmem := h.mem
  split_ifs at hmem ⊢
  · exact .of_putAll hmem
  · exact .of_eq _ hmem

/-- Settles O26: every case of the verdict is one of discarding, holding and taking the message. -/
theorem messageEpochVerdicts : Obligations.MessageEpochVerdicts := by
  unfold Obligations.MessageEpochVerdicts
  intro s u m hl n b e d ks writes Discarded Held Processed
  have discarded {t : State} (h : MsgDiscarded s u t) : (∀ x, x ≠ u → t.unitBuf x = s.unitBuf x) ∧ Discarded t := ⟨h.others, h.buf, h.mem⟩
  have held {t : State} (h : MsgHeld s u m t) : (∀ x, x ≠ u → t.unitBuf x = s.unitBuf x) ∧ Held t := ⟨h.others, h.buf, h.mem⟩
  have taken (e' : BitVec 12) : (∀ x, x ≠ u → (s.processMsg u m e').unitBuf x = s.unitBuf x) ∧ Processed (s.processMsg u m e') e' := by
    by_cases hk : fmtKnown (tagFmt m.tag) = false
    · obtain ⟨hne, hd⟩ := discarded (s.processMsg_reserved u m e' hk)
      exact ⟨hne, (if_pos hk).mpr hd⟩
    · have hp := s.processMsg_known u m e' hk
      exact ⟨hp.others, (if_neg hk).mpr ⟨hp.buf, hp.mem, hp.keepsBytes⟩⟩
  rw [exec_messageReceipt s u m hl, State.judgeMsg_eq]
  refine .next ?_
  split_ifs
  · exact discarded (s.discardMsg_discards u m 0x01)
  · exact taken e
  · exact held (s.holdMsg_holds u m)
  · exact taken e
  · exact held (s.holdMsg_holds u m)
  · exact discarded (s.discardMsg_discards u m 0x02)
  · exact taken (e - 1)

end Sys2Proof.Machine
end

section
/-! PROOFS. Bring-up stages, module resets and MOD_RESET_N (O44). -/

namespace Sys2Proof.Machine

open Host (Outcome)

/-! ### What the work of the stages leaves of time and of bring-up itself -/

/-- Two states at the same time, in which bring-up stands where it stood. -/
structure SameBoot (s t : State) : Prop where
  now : t.now = s.now
  boot : t.boot = s.boot

theorem SameBoot.refl (s : State) : SameBoot s s := ⟨rfl, rfl⟩

theorem SameBoot.trans {s t u : State} (h : SameBoot s t) (k : SameBoot t u) : SameBoot s u := ⟨k.now.trans h.now, k.boot.trans h.boot⟩

theorem SameBoot.foldl {α : Type} {f : State → α → State} (hf : ∀ s a, SameBoot s (f s a)) (l : List α) (s : State) :
    SameBoot s (l.foldl f s) :=
  List.foldlRecOn (motive := SameBoot s) l f (.refl s) fun t ht a _ => ht.trans (hf t a)

theorem SameBoot.ite {s t u : State} {c : Prop} [Decidable c] (ht : SameBoot s t) (hu : SameBoot s u) : SameBoot s (if c then t else u) := by
  split
  · exact ht
  · exact hu

theorem SameBoot.then_ite {s t u : State} {c : Prop} [Decidable c] (ht : SameBoot s t) (hu : SameBoot t u) : SameBoot s (if c then u else t) :=
  .ite (ht.trans hu) ht

theorem BesidesReports.sameBoot {s t : State} (h : BesidesReports s t) : SameBoot s t := ⟨(congrArg State.now h :), (congrArg State.boot h :)⟩

theorem SameBoot.then_foldl {α : Type} {s t : State} {f : State → α → State} (ht : SameBoot s t) (hf : ∀ s a, SameBoot s (f s a)) (l : List α) :
    SameBoot s (l.foldl f t) := ht.trans (.foldl hf l t)

theorem SameBoot.then_post {s t : State} (ht : SameBoot s t) (r : ErrRec) (parts : List Nat) : SameBoot s (t.post r parts) :=
  ht.trans (post_reports ..).sameBoot

theorem updCluster_sameBoot (s : State) (c : Nat) (f : Cluster → Cluster) : SameBoot s (s.updCluster c f) := ⟨rfl, rfl⟩

theorem updCtx_sameBoot (s : State) (p : At) (f : Ctx → Ctx) : SameBoot s (s.updCtx p f) := ⟨rfl, rfl⟩

theorem updDie_sameBoot (s : State) (d : Nat) (f : Die → Die) : SameBoot s (s.updDie d f) := ⟨rfl, rfl⟩

theorem updLnk_sameBoot (s : State) (k : Nat) (f : Link → Link) : SameBoot s (s.updLnk k f) := ⟨rfl, rfl⟩

theorem updChan_sameBoot (s : State) (i : Nat) (f : MemSt → MemSt) : SameBoot s (s.updChan i f) := ⟨rfl, rfl⟩

theorem linkUp_sameBoot (s : State) (k : Nat) (trained : BitVec 5) (peer : Word) (peerLink : Nat) : SameBoot s (s.linkUp k trained peer peerLink) :=
  updLnk_sameBoot ..

theorem idleVacant_sameBoot (s : State) (c : Nat) : SameBoot s (s.idleVacant c) := by
  unfold State.idleVacant
  refine SameBoot.trans ?_ (updCluster_sameBoot ..)
  exact .foldl (fun _ _ => updCtx_sameBoot ..) _ s

theorem loseCluster_sameBoot (s : State) (core : Bool) (c : Nat) (parts : List Nat) : SameBoot s (s.loseCluster core c parts) := by
  unfold State.loseCluster
  refine SameBoot.then_post ?_ _ _
  exact ⟨rfl, rfl⟩

theorem useCore_sameBoot (s : State) (number : Nat) (parts : List Nat) : SameBoot s (s.useCore number parts) := by
  unfold State.useCore
  refine SameBoot.then_post ?_ _ _
  exact ⟨rfl, rfl⟩

theorem useCluster_sameBoot (s : State) (core : Bool) (c : Nat) (parts : List Nat) : SameBoot s (s.useCluster core c parts) := by
  unfold State.useCluster
  refine SameBoot.then_post ?_ _ _
  exact ⟨rfl, rfl⟩

theorem bringupRetire_sameBoot (s : State) (kind : RetireKind) (number : Nat) : SameBoot s (s.bringupRetire kind number) :=
  .ite (.refl s) (.ite (useCore_sameBoot ..) (.ite ((idleVacant_sameBoot ..).trans (loseCluster_sameBoot ..)) (useCluster_sameBoot ..)))

theorem setMap_sameBoot (s : State) (d : Nat) (m : DieMap) : SameBoot s (s.setMap d m) := by
  unfold State.setMap
  exact (updDie_sameBoot ..).then_foldl (fun t i => .ite ((idleVacant_sameBoot ..).trans (loseCluster_sameBoot ..)) (.refl t)) _

theorem keepMap_sameBoot (s : State) (d : Nat) (old : Die) (m : DieMap) : SameBoot s (s.keepMap d old m) := by
  unfold State.keepMap
  exact (updDie_sameBoot ..).then_foldl (fun t i => .ite (.refl t) (idleVacant_sameBoot ..)) _

theorem updNear_sameBoot (s : State) (i : Nat) (f : MemSt → MemSt) : SameBoot s (s.updNear i f) := ⟨rfl, rfl⟩

theorem remapped_sameBoot (s : State) (f : Nat) : SameBoot s { s with free := f, tiers := { s.tiers with remapped := [] } } := ⟨rfl, rfl⟩

theorem trainStacks_sameBoot (s : State) (r : StageInput) : SameBoot s (s.trainStacks r) := by
  unfold State.trainStacks
  refine SameBoot.trans ?_ (remapped_sameBoot ..)
  exact .foldl (fun _ _ => updNear_sameBoot ..) _ s

theorem licenseLinks_sameBoot (s : State) : SameBoot s s.licenseLinks := ⟨(congrArg State.now s.licenseLinks_eq :), (congrArg State.boot s.licenseLinks_eq :)⟩

theorem fixDomains_sameBoot (s : State) : SameBoot s s.fixDomains := ⟨(congrArg State.now s.fixDomains_eq :), (congrArg State.boot s.fixDomains_eq :)⟩

theorem joinCluster_sameBoot (s : State) (n : Nat) (c : PartCfg) (plan : Bool) (e : BitVec 12) (k : Nat) : SameBoot s (s.joinCluster n c plan e k) :=
  ⟨rfl, rfl⟩

theorem needRecovery_sameBoot (s : State) (n c : Nat) : SameBoot s (s.needRecovery n c) := ⟨rfl, rfl⟩

theorem reapply_sameBoot (s : State) (c : LossSet) : SameBoot s (s.reapply c) := by
  unfold State.reapply
  dsimp only
  refine SameBoot.then_foldl ?_ (fun t x => ?_) _
  · exact ⟨rfl, rfl⟩
  · split
    · exact .refl t
    · exact .foldl (fun _ _ => (joinCluster_sameBoot ..).trans (needRecovery_sameBoot ..)) _ t

/-! ### The stages (R524) -/

/-- What every stage keeps: the time and the time of the stage before; a stage before the last keeps bring-up under way. -/
structure StageKeeps (s t : State) (k : Nat) : Prop where
  now : t.now = s.now
  since : t.boot.since = s.boot.since
  state : k < 12 → t.boot.state = s.boot.state

theorem SameBoot.stage {s t : State} (h : SameBoot s t) (k : Nat) : StageKeeps s t k :=
  ⟨h.now, congrArg _ h.boot, fun _ => congrArg _ h.boot⟩

theorem StageKeeps.trans {s t u : State} {k : Nat} (h : StageKeeps s t k) (i : StageKeeps t u k) : StageKeeps s u k :=
  ⟨i.now.trans h.now, i.since.trans h.since, fun hk => (i.state hk).trans (h.state hk)⟩

theorem restoreCold_keeps (s : State) (c : LossSet) (k : Nat) : StageKeeps s (s.restoreCold c) k := ⟨rfl, rfl, fun _ => rfl⟩

/-- Bring-up is complete (R524). -/
def State.endBringup (s : State) : State := ({ s with boot := { s.boot with state := 1, coldHold := false } } : State).fixDomains

theorem State.endBringup_boot (s : State) : s.endBringup.boot = { s.boot with state := 1, coldHold := false } := (fixDomains_sameBoot _).boot

theorem endBringup_keeps {s t : State} (h : SameBoot s t) : StageKeeps s t.endBringup 12 :=
  ⟨(fixDomains_sameBoot _).now.trans h.now, (congrArg _ t.endBringup_boot).trans (congrArg (·.since) h.boot), fun hk => absurd hk (Nat.lt_irrefl 12)⟩

theorem stageWork_keeps (s : State) (k : Nat) (r : StageInput) : StageKeeps s (s.stageWork k r) k := by
  unfold State.stageWork
  dsimp only
  split
  case h_1 => exact ⟨rfl, rfl, fun _ => rfl⟩
  case h_2 => exact ⟨rfl, rfl, fun _ => rfl⟩
  case h_3 =>
    refine SameBoot.stage ?_ 3
    exact .ite ⟨rfl, rfl⟩ (.refl s)
  case h_4 => exact ⟨rfl, rfl, fun _ => rfl⟩
  case h_5 =>
    refine SameBoot.stage (SameBoot.then_ite (.foldl (fun t d => ?_) _ s) (.foldl (fun _ _ => bringupRetire_sameBoot ..) _ _)) 5
    split
    · exact keepMap_sameBoot ..
    · exact setMap_sameBoot ..
  case h_6 =>
    refine SameBoot.stage (.foldl (fun t x => ?_) _ s) 6
    exact .ite (bringupRetire_sameBoot ..) (.refl t)
  case h_7 => exact (trainStacks_sameBoot s r).stage 7
  case h_8 =>
    have hchans := (SameBoot.foldl (fun t i => updChan_sameBoot t i (fun m => { m with outOfService := decide (i ∈ r.outChannels) })) (List.range 32) s).stage 8
    split
    · exact hchans.trans (restoreCold_keeps ..)
    · exact hchans
  case h_9 => exact ⟨rfl, rfl, fun _ => rfl⟩
  case h_10 =>
    refine SameBoot.stage ((licenseLinks_sameBoot s).then_foldl (fun t x => ?_) _) 10
    exact .ite (.refl t) (.ite (linkUp_sameBoot ..) (updLnk_sameBoot ..))
  case h_11 =>
    refine SameBoot.stage (SameBoot.then_foldl (.foldl (fun t p => ?_) _ s) (fun t p => ?_) _) 11
    · exact ⟨rfl, rfl⟩
    · exact ⟨rfl, rfl⟩
  case h_12 =>
    split
    · exact endBringup_keeps (reapply_sameBoot ..)
    · exact endBringup_keeps (.refl s)
  case h_13 => exact (SameBoot.refl s).stage _

/-- The number of the stage that runs next (R524). -/
def State.nextStage (s : State) : Nat := if s.boot.stage = 0 then 1 else s.boot.stage.toNat + 1

/-- The report of a stage (R526). -/
def State.stageReport (s : State) (k : Nat) (r : StageInput) : Report :=
  { outcome := stageOutcome k r, firstUnit := r.firstUnit, faulty := r.faulty, start := s.boot.since, stop := s.now, count := s.boot.count,
    detail := s.stageDetail k r }

/-- A stage that has done its work, or has stopped, writes its report (R524 to R526). -/
def State.reported (s : State) (k : Nat) (r : StageInput) : State :=
  { s with boot := { s.boot with
    stage := BitVec.ofNat 8 k
    degraded := s.boot.degraded || stageOutcome k r = 1
    reports := s.boot.reports.set k (s.stageReport k r)
    archive := s.boot.archive ++ [(k, s.stageReport k r)]
    since := s.now
    rstBusy := s.boot.rstBusy && !(decide (stageOutcome k r = 2) || decide (k = 12))
    rstResult := if s.boot.rstBusy && (decide (stageOutcome k r = 2) || decide (k = 12)) then 1 else s.boot.rstResult } }

/-- Bring-up that has stopped (R525). -/
def State.stopped (s : State) : State := { s with boot := { s.boot with state := 2 } }

section
variable {s : State}

theorem exec_bringupStage (hl : s.live = true) (hm : s.mgmt.modResetLow = false) (hb : s.boot.state = 0) (r : StageInput)
    (hk : s.nextStage ≤ 12) :
    exec (.bringupStage r) s = .next ((if stageOutcome s.nextStage r = 2 then s.stopped else s.stageWork s.nextStage r).reported s.nextStage r) := by
  have hgo : (!s.live || s.mgmt.modResetLow || decide (s.boot.state ≠ 0) || decide (12 < s.nextStage)) = false := by
    simp [hl, hm, hb, hk]
  change execBringupStage r s = _
  exact congrArg Outcome.next (if_neg (ne_true_of_eq_false hgo))

theorem State.reported_up (v : State) (k : Nat) (r : StageInput) : (v.reported k r).up = v.up := rfl

theorem State.reported_coldHold (v : State) (k : Nat) (r : StageInput) : (v.reported k r).boot.coldHold = v.boot.coldHold := rfl

/-- A report holds the outcome and the times of its stage. -/
theorem reported_report {v : State} {k : Nat} (r : StageInput) (hnow : v.now = s.now) (hsince : v.boot.since = s.boot.since) :
    (v.reported k r).boot.stage = BitVec.ofNat 8 k ∧ (v.reported k r).boot.since = s.now
      ∧ ((v.reported k r).boot.reports.get {} k).outcome = stageOutcome k r
      ∧ ((v.reported k r).boot.reports.get {} k).start = s.boot.since ∧ ((v.reported k r).boot.reports.get {} k).stop = s.now := by
  have hrep : (v.reported k r).boot.reports.get {} k = v.stageReport k r := Tab.get_set_same ..
  rw [hrep]
  exact ⟨rfl, hnow, rfl, hsince, hnow⟩

theorem stageWork_12_boot (r : StageInput) : (s.stageWork 12 r).boot.state = 1 ∧ (s.stageWork 12 r).boot.coldHold = false := by
  have h : ∃ v : State, s.stageWork 12 r = v.endBringup := ⟨_, rfl⟩
  obtain ⟨v, hv⟩ := h
  rw [hv, v.endBringup_boot]
  exact ⟨rfl, rfl⟩

theorem stageWork_4_rail (r : StageInput) {d : Nat} (hd : d < 8) : ((s.stageWork 4 r).rail d).applied = (s.rail d).target := by
  interval_cases d <;> rfl

/-- What the state shows of the work of each stage (R524). -/
theorem stageWork_shows (hb : s.boot.state = 0) (k : Nat) (r : StageInput) :
    let t := (s.stageWork k r).reported k r
    (k = 1 → t.boot.count = s.boot.count + 1 ∧ t = { s with boot := t.boot })
      ∧ (k = 2 → t.ident.variant = s.ident.stored.variant ∧ t.ident.seq = s.ident.stored.seq)
      ∧ (k = 4 → t.mgmt.pwrOk = true ∧ ∀ d, d < 8 → (t.rail d).applied = (s.rail d).target)
      ∧ (k = 9 → t.boot.routes = allRoutes)
      ∧ (k = 12 → t.up = true ∧ t.boot.coldHold = false)
      ∧ (k < 12 → t.boot.state = 0) := by
  refine ⟨?_, ?_, ?_, ?_, ?_, fun h => ((stageWork_keeps s k r).state h).trans hb⟩
  · rintro rfl
    exact ⟨rfl, rfl⟩
  · rintro rfl
    exact ⟨rfl, rfl⟩
  · rintro rfl
    exact ⟨rfl, fun d hd => stageWork_4_rail r hd⟩
  · rintro rfl
    rfl
  · rintro rfl
    obtain ⟨hup, hcold⟩ := stageWork_12_boot (s := s) r
    exact ⟨((s.stageWork 12 r).reported_up 12 r).trans (decide_eq_true hup), ((s.stageWork 12 r).reported_coldHold 12 r).trans hcold⟩

theorem bringupStage_stops (hl : s.live = true) (hm : s.mgmt.modResetLow = false) (hb : s.boot.state = 0) (r : StageInput)
    (hk : s.nextStage ≤ 12) (hout : stageOutcome s.nextStage r = 2) :
    exec (.bringupStage r) s = .next (s.stopped.reported s.nextStage r) := by
  rw [exec_bringupStage hl hm hb r hk, if_pos hout]

theorem bringupStage_works (hl : s.live = true) (hm : s.mgmt.modResetLow = false) (hb : s.boot.state = 0) (r : StageInput)
    (hk : s.nextStage ≤ 12) (hout : stageOutcome s.nextStage r ≠ 2) :
    exec (.bringupStage r) s = .next ((s.stageWork s.nextStage r).reported s.nextStage r) := by
  rw [exec_bringupStage hl hm hb r hk, if_neg hout]

/-! ### Module resets (R528, R532, R569) -/

theorem moduleReset_all (hl : s.live = true) (hb : s.boot.rstBusy = false) :
    exec (.moduleReset false) s
      = .next (({ s with boot := { s.boot with rstBusy := true, rstLevel := 4, rstKeep := false } } : State).hardReset false) := by
  change Outcome.next (if s.live then s.askModuleReset false else s) = _
  rw [if_pos hl]
  unfold State.askModuleReset
  rw [hb]
  rfl

theorem moduleReset_kept (hl : s.live = true) (hb : s.boot.rstBusy = false) (hup : s.up = true) (hg : s.gateOpen = true) :
    let v : State := { s with boot := { s.boot with rstBusy := true, rstLevel := 4, rstKeep := true } }
    exec (.moduleReset true) s = .next ((v.keepCopy (v.lossSet true)).hardReset true) := by
  intro v
  have hup' : v.up = true := hup
  have hg' : v.gateOpen = true := hg
  change Outcome.next (if s.live then s.askModuleReset true else s) = _
  rw [if_pos hl]
  unfold State.askModuleReset
  rw [hb]
  change Outcome.next v.runModuleReset = _
  unfold State.runModuleReset
  rw [hup', hg']
  rfl

/-- A copy that has just been kept is among the copies (R514). -/
theorem mem_keepCopy (c : LossSet) : c ∈ (s.keepCopy c).power.copies := by
  unfold State.keepCopy
  dsimp only
  split
  · exact List.mem_cons_of_mem _ List.mem_cons_self
  · exact List.mem_append_right _ List.mem_cons_self

/-- The domains that a reset with memory kept leaves on (R532). -/
theorem mem_keptDomains (d : Nat) : d ∈ (s.hardReset true).power.domains ↔ (8 ≤ d ∧ d ≤ 15) ∨ d = 21 ∨ d = 23 := by
  have h : (s.hardReset true).power.domains = [8, 9, 10, 11, 12, 13, 14, 15, 21, 23] := rfl
  rw [h]
  simp only [List.mem_cons, List.not_mem_nil, or_false]
  omega

theorem modResetNAssert_resets (h : s.live = true ∨ s.power.saveDone = true) :
    exec .modResetNAssert s = .next ({ s with mgmt := { s.mgmt with modResetLow := true } } : State).pinReset := by
  have hgo : (decide (s.power.hold ≠ .normal) && !s.power.saveDone) = false := by
    rcases h with h | h
    · have hnormal : s.power.hold = .normal := of_decide_eq_true h
      simp [hnormal]
    · simp [h]
  exact congrArg Outcome.next (if_neg (ne_true_of_eq_false hgo))

/-- MOD_RESET_N absorbs a reset that runs (R569). -/
theorem pinReset_eq (v : State) :
    v.pinReset = ({ v with boot := { v.boot with rstBusy := false, rstResult := if v.boot.rstBusy then 3 else v.boot.rstResult } } : State).hardReset false := by
  unfold State.pinReset
  cases hb : v.boot.rstBusy
  · have hboot : ({ v.boot with rstBusy := false } : BootState) = v.boot := by rw [← hb]
    exact congrArg (fun b : BootState => ({ v with boot := b } : State).hardReset false) hboot.symm
  · rfl

end

/-- Settles O44: a stage by `bringupStage_reports`; each reset by the field of `hardReset` that the claim names. -/
theorem bringupAndModuleReset : Obligations.BringupAndModuleReset := by
  unfold Obligations.BringupAndModuleReset
  intro s
  refine ⟨fun hl hm hb k r hk hk12 => ?_, fun hl hb => ?_, fun hl hb hup hg => ?_, fun h => ?_, fun h => ?_⟩
  · change k = s.nextStage at hk
    subst hk
    by_cases hout : stageOutcome s.nextStage r = 2
    · rw [bringupStage_stops hl hm hb r hk12 hout]
      obtain ⟨hstage, hsince, houtcome, hstart, hstop⟩ := reported_report (s := s) (v := s.stopped) (k := s.nextStage) r rfl rfl
      exact .next ⟨hstage, hsince, houtcome, hstart, hstop, fun _ => ⟨rfl, rfl⟩, fun h => absurd hout h⟩
    · rw [bringupStage_works hl hm hb r hk12 hout]
      have hkeeps := stageWork_keeps s s.nextStage r
      obtain ⟨hstage, hsince, houtcome, hstart, hstop⟩ := reported_report (k := s.nextStage) r hkeeps.now hkeeps.since
      exact .next ⟨hstage, hsince, houtcome, hstart, hstop, fun h => absurd h hout, fun _ => ⟨rfl, stageWork_shows hb s.nextStage r⟩⟩
  · rw [moduleReset_all hl hb]
    exact .next ⟨rfl, rfl, rfl, rfl, rfl, rfl, rfl, rfl, rfl, rfl, rfl, rfl, rfl, rfl, rfl, rfl, rfl⟩
  · rw [moduleReset_kept hl hb hup hg]
    exact .next ⟨rfl, rfl, rfl, rfl, rfl, rfl, mem_keptDomains, _, mem_keepCopy _, rfl, rfl, rfl, rfl⟩
  · rw [modResetNAssert_resets h, pinReset_eq]
    exact .next ⟨rfl, rfl, rfl, rfl, rfl, rfl, rfl, rfl, rfl⟩
  · change Completes (.next (if s.mgmt.modResetLow then _ else s)) _
    rw [if_pos h]
    exact .next ⟨rfl, rfl, rfl, rfl, rfl⟩

end Sys2Proof.Machine
end

section
/-! PROOFS. Windowed exact sums as sums in a commutative monoid: joining partial sums is associative and commutative, and a
further term joins the sum of it alone (R84, R87). -/

namespace Sys2Proof.Machine

/-! ### Partial sums joined -/

/-- The sums of two groups of terms under one window joined (R84); where either has overflowed no value is left (R87). -/
def Partial.join (a b : Partial) : Partial :=
  { units := if a.overflow || b.overflow then 0 else a.units + b.units
    special := combine a.special b.special
    overflow := a.overflow || b.overflow }

theorem combine_comm (a b : BitVec 2) : combine a b = combine b a := BitVec.or_comm a b

theorem combine_assoc (a b c : BitVec 2) : combine (combine a b) c = combine a (combine b c) := BitVec.or_assoc a b c

theorem combine_zero (a : BitVec 2) : combine a 0 = a := BitVec.or_zero

theorem zero_combine (a : BitVec 2) : combine 0 a = a := BitVec.zero_or

theorem Partial.join_comm (a b : Partial) : a.join b = b.join a := by
  simp only [Partial.join, Bool.or_comm a.overflow, Int.add_comm a.units, combine_comm a.special]

theorem Partial.join_assoc (a b c : Partial) : (a.join b).join c = a.join (b.join c) := by
  cases h : a.overflow || b.overflow || c.overflow with
  | false =>
    obtain ⟨⟨ha, hb⟩, hc⟩ : (a.overflow = false ∧ b.overflow = false) ∧ c.overflow = false := by simpa using h
    simp [Partial.join, ha, hb, hc, combine_assoc, Int.add_assoc]
  | true => simp [Partial.join, ← Bool.or_assoc, h, combine_assoc]

/-- A partial sum that has overflowed holds no value, for which the model takes 0 (R87, log entry 59). -/
def Partial.Canonical (a : Partial) : Prop := a.overflow = true → a.units = 0

theorem Partial.canonical_empty : Partial.Canonical {} := fun _ => rfl

theorem Partial.canonical_join (a b : Partial) : (a.join b).Canonical := fun h => if_pos h

section
variable {a : Partial} (h : a.Canonical)
include h

/-- A canonical sum by its parts: a value that has not overflowed, or no value. -/
theorem Partial.Canonical.eq_value_or_overflow :
    a = { units := a.units, special := a.special } ∨ a = { units := 0, special := a.special, overflow := true } := by
  obtain ⟨units, special, overflow⟩ := a
  cases overflow with
  | false => exact .inl rfl
  | true =>
    have hunits : units = 0 := h rfl
    exact .inr (by rw [hunits])

/-- To join a special code alone. -/
theorem Partial.Canonical.join_special (x : BitVec 2) : a.join { special := x } = { a with special := combine a.special x } := by
  rcases h.eq_value_or_overflow with ha | ha <;> rw [ha] <;> simp [Partial.join]

/-- To join units alone: further terms leave a sum that has overflowed as it is (R87). -/
theorem Partial.Canonical.join_units (x : Int) : a.join { units := x } = if a.overflow then a else { a with units := a.units + x } := by
  rcases h.eq_value_or_overflow with ha | ha <;> rw [ha] <;> simp [Partial.join, combine, BitVec.or_zero]

/-- To join an overflow alone. -/
theorem Partial.Canonical.join_overflow : a.join { overflow := true } = a.over := by
  rcases h.eq_value_or_overflow with ha | ha <;> rw [ha] <;> simp [Partial.join, Partial.over, combine]

theorem Partial.Canonical.join_empty : a.join {} = a := (h.join_special 0).trans (by rw [combine_zero])

end

/-! ### Terms joined -/

section
variable (E : Int) (declared : Bool)

theorem addTerm_fin (a : Partial) (neg : Bool) (m : Nat) (e : Int) :
    addTerm E declared a (.fin neg m e)
      = if declared && (m ≠ 0 && E + 1 ≤ log2m (m, e)) then a.over
        else if a.overflow then a
        else { a with units := a.units + gridUnits E neg m 1 e } := rfl

theorem addTerm_of_not_isFin (a : Partial) {t : Val} (h : t.isFin = false) :
    addTerm E declared a t = { a with special := combine a.special (specialOf t) } := by
  cases t with
  | nan => rfl
  | inf neg => rfl
  | fin neg m e => cases h

/-- A further term joins its own sum. -/
theorem addTerm_eq_join {a : Partial} (h : a.Canonical) (t : Val) : addTerm E declared a t = a.join (addTerm E declared {} t) := by
  cases hfin : t.isFin with
  | false =>
    rw [addTerm_of_not_isFin E declared a hfin, addTerm_of_not_isFin E declared {} hfin, ← h.join_special]
    exact congrArg (fun x => a.join { special := x }) (zero_combine _).symm
  | true =>
    cases t with
    | nan => cases hfin
    | inf neg => cases hfin
    | fin neg m e =>
      rw [addTerm_fin, addTerm_fin]
      split
      · exact h.join_overflow.symm
      · rw [← h.join_units]
        exact congrArg (fun x => a.join { units := x }) (Int.zero_add _).symm

theorem canonical_addTerm {a : Partial} (h : a.Canonical) (t : Val) : (addTerm E declared a t).Canonical := by
  rw [addTerm_eq_join E declared h]
  exact Partial.canonical_join _ _

theorem canonical_sumOn (ts : List Val) : (sumOn E declared ts).Canonical :=
  List.foldlRecOn (motive := Partial.Canonical) ts _ Partial.canonical_empty fun _ h t _ => canonical_addTerm E declared h t

/-- A sum that goes on over further terms joins the sum of these. -/
theorem foldl_addTerm {a : Partial} (h : a.Canonical) (ts : List Val) :
    ts.foldl (addTerm E declared) a = a.join (sumOn E declared ts) := by
  induction ts generalizing a with
  | nil => exact h.join_empty.symm
  | cons t ts ih =>
    calc (t :: ts).foldl (addTerm E declared) a
      _ = (addTerm E declared a t).join (sumOn E declared ts) := ih (canonical_addTerm E declared h t)
      _ = a.join ((addTerm E declared {} t).join (sumOn E declared ts)) := by rw [addTerm_eq_join E declared h, Partial.join_assoc]
      _ = a.join (sumOn E declared (t :: ts)) := congrArg a.join (ih (canonical_addTerm E declared Partial.canonical_empty t)).symm

theorem sumOn_cons (t : Val) (ts : List Val) : sumOn E declared (t :: ts) = (addTerm E declared {} t).join (sumOn E declared ts) :=
  foldl_addTerm E declared (canonical_addTerm E declared Partial.canonical_empty t) ts

/-- The sum of two groups of terms (R84). -/
theorem sumOn_append (ts us : List Val) : sumOn E declared (ts ++ us) = (sumOn E declared ts).join (sumOn E declared us) :=
  List.foldl_append.trans (foldl_addTerm E declared (canonical_sumOn E declared ts) us)

/-- The order of the terms does not matter (R84). -/
theorem sumOn_perm {ts us : List Val} (h : ts.Perm us) : sumOn E declared ts = sumOn E declared us := by
  induction h with
  | nil => rfl
  | cons t _ ih => rw [sumOn_cons, sumOn_cons, ih]
  | swap t u ts =>
    simp only [sumOn_cons, ← Partial.join_assoc]
    rw [Partial.join_comm (addTerm E declared {} u)]
  | trans _ _ ih₁ ih₂ => exact ih₁.trans ih₂

end

/-! ### The measured window (R85) -/

theorem measure_perm {ts us : List Val} (h : ts.Perm us) : measure ts = measure us := by
  refine List.Perm.foldl_eq' (h.filterMap _) (fun x _ y _ o => ?_) none
  cases o with
  | none => exact congrArg some (max_comm y x)
  | some z => exact congrArg some (max_left_comm y x z)

theorem sumMeasured_perm {ts us : List Val} (h : ts.Perm us) : sumMeasured ts = sumMeasured us := by
  unfold sumMeasured
  simp only [measure_perm h, sumOn_perm _ _ h, sumOn_perm _ _ (h.filter _)]

/-! ### The special result (R83) -/

theorem addTerm_empty_special (E : Int) (declared : Bool) (t : Val) : (addTerm E declared {} t).special = specialOf t := by
  cases hfin : t.isFin with
  | false => exact (congrArg Partial.special (addTerm_of_not_isFin E declared {} hfin)).trans (zero_combine _)
  | true =>
    cases t with
    | nan => cases hfin
    | inf neg => cases hfin
    | fin neg m e =>
      rw [addTerm_fin]
      split <;> rfl

/-- A bit of the special result is set where a term sets it. -/
theorem getLsbD_special_sumOn (E : Int) (declared : Bool) (ts : List Val) (i : Nat) :
    (sumOn E declared ts).special.getLsbD i = true ↔ ∃ t ∈ ts, (specialOf t).getLsbD i = true := by
  induction ts with
  | nil => simp [sumOn]
  | cons t ts ih =>
    simp only [List.mem_cons, exists_eq_or_imp, ← ih, ← addTerm_empty_special E declared t, sumOn_cons]
    rw [← Bool.or_eq_true, ← BitVec.getLsbD_or]
    rfl

/-- A finite term sets no bit of the special result. -/
theorem isFin_of_getLsbD_specialOf {t : Val} {i : Nat} (h : (specialOf t).getLsbD i = true) : t.isFin = false := by
  cases t with
  | nan => rfl
  | inf neg => rfl
  | fin neg m e => simp [specialOf] at h

theorem special_sumOn_congr (E : Int) (declared : Bool) {ts us : List Val} (h : ∀ x : Val, x.isFin = false → (x ∈ ts ↔ x ∈ us)) :
    (sumOn E declared ts).special = (sumOn E declared us).special := by
  refine BitVec.eq_of_getLsbD_eq (fun i _ => Bool.eq_iff_iff.mpr ?_)
  rw [getLsbD_special_sumOn, getLsbD_special_sumOn]
  exact exists_congr fun t => and_congr_left fun hbit => h t (isFin_of_getLsbD_specialOf hbit)

/-- Settles O57: a sum is the join of its terms' sums (the units after an overflow: log entry 59), and its special code has the
bits of its non-finite terms. -/
theorem windowedSumsIgnoreOrder : Obligations.WindowedSumsIgnoreOrder := by
  unfold Obligations.WindowedSumsIgnoreOrder
  exact ⟨fun E declared _ _ h => ⟨sumOn_perm E declared h, sumMeasured_perm h⟩, sumOn_append,
    fun E declared _ _ h => special_sumOn_congr E declared h⟩

end Sys2Proof.Machine
end
section
/-! PROOFS. TSTA and TADDM: the rows and the term count of a W96 tile that they write, the overflow of a whole tensor, and the
late contribution that is discarded (R87, R151, R219). -/

namespace Sys2Proof.Machine

/-! ### Rows of a W96 tile -/

/-- A row of 32 stored elements takes 512 bytes. -/
theorem length_row (g : Nat → BitVec 128) : (((List.range 32).map (fun j => leBytes 16 (g j).toNat)).flatten).length = 512 := by
  rw [length_flatten_of_forall _ 16 _ (fun _ _ => length_leBytes 16 _), List.length_range]

section
variable {s t : State} {p : At} {n : Nat} {spans : List (Word × Nat)}

/-- The live rows of a tile are written where its elements lie. -/
theorem AreaWrites.putTile (h : AreaWrites s p n spans t) (tl : Tile) (hspans : ∀ x ∈ tl.elemRuns, x ∈ spans) (g : Nat → Partial)
    (m : Marks) : AreaWrites s p n spans (t.putTile n p.core tl g m) :=
  h.foldl fun _ hu i hi => hu.putArea (len := 512) (hspans _ (List.mem_map.mpr ⟨i, hi, rfl⟩))
    (length_row (fun j => encW96 (g (32 * i + j)) (anchorE tl.d.anchor))).le m

end

/-- A tile has 1,024 elements: what is written depends on those alone. -/
theorem State.putTile_congr (s : State) (n core : Nat) (tl : Tile) {g g' : Nat → Partial} (m : Marks) (h : ∀ k < 1024, g k = g' k) :
    s.putTile n core tl g m = s.putTile n core tl g' m := by
  refine List.foldl_ext _ _ s (fun u i hi => ?_)
  have hrow : i < 32 := List.mem_range.mp (List.mem_filter.mp hi).1
  have hmap : (List.range 32).map (fun j => leBytes 16 (encW96 (g (32 * i + j)) (anchorE tl.d.anchor)).toNat)
      = (List.range 32).map (fun j => leBytes 16 (encW96 (g' (32 * i + j)) (anchorE tl.d.anchor)).toNat) :=
    List.map_congr_left fun j hj => by
      have hcol : j < 32 := List.mem_range.mp hj
      rw [h (32 * i + j) (by omega)]
  rw [hmap]

/-- What is read of a tile at once is read element by element. -/
theorem State.putTile_read (s : State) (n core : Nat) (tl : Tile) (e : Nat → Partial × Bool) (g : Nat → Partial) (m : Marks) :
    s.putTile n core tl (fun k => addW96 (((List.range 1024).map e).getD k ({}, false)).1 (g k)) m
      = s.putTile n core tl (fun k => addW96 (e k).1 (g k)) m :=
  s.putTile_congr n core tl m fun k hk => by simp [hk]

/-- The rows and the term count that TSTA and TADDM write (R151). -/
def tileSpans (tl : Tile) : List (Word × Nat) := tl.elemRuns ++ [(plus tl.ref.desc 0x48, 8)]

/-- A tile with its term count, as TSTA and TADDM write them. -/
def State.putCounted (s : State) (n core : Nat) (tl : Tile) (g : Nat → Partial) (m : Marks) (terms : Nat) : State :=
  (s.putTile n core tl g m).putArea n core (plus tl.ref.desc 0x48) (leBytes 8 terms) {}

theorem putCounted_areaWrites (s : State) (p : At) (n : Nat) (tl : Tile) (g : Nat → Partial) (m : Marks) (terms : Nat) :
    AreaWrites s p n (tileSpans tl) ((s.issued p).putCounted n p.core tl g m terms) :=
  (AreaWrites.issued.putTile tl (fun _ hx => List.mem_append_left _ hx) g m).putArea (len := 8)
    (List.mem_append_right _ (List.mem_singleton.mpr rfl)) (length_leBytes 8 terms).le {}

/-! ### Overflow on a whole tensor (R87) -/

theorem besidesCores_overflowAll (n core : Nat) (d : TDesc) : BesidesCores (fun t => t.overflowAll n core d) := by
  refine .foldl (fun k => ⟨fun t c f w => ?_⟩) _
  simp only [State.readDev_besides, State.writeDev_besides]

/-- Overflow on every element of a tensor whose count of terms passes its bound. -/
def State.overflowWhen (s : State) (o : Bool) (n core : Nat) (d : TDesc) : State := if o then s.overflowAll n core d else s

theorem besidesCores_overflowWhen (o : Bool) (n core : Nat) (d : TDesc) : BesidesCores (fun t => t.overflowWhen o n core d) := by
  cases o with
  | false => exact ⟨fun _ _ _ _ => rfl⟩
  | true => exact besidesCores_overflowAll n core d

/-! ### Contributions that come too late (R219) -/

theorem State.countLate_reports (s : State) (c n : Nat) (tag : Word) :
    BesidesReports (s.updSw c (fun x => { x with late := sat64 (x.late + 1) })) (s.countLate c n tag) := discard_reports ..

theorem State.countLate_cores (s : State) (c n : Nat) (tag : Word) : (s.countLate c n tag).cores = s.cores :=
  (s.countLate_reports c n tag).cores

theorem State.countLate_late (s : State) (c n : Nat) (tag : Word) :
    ((s.countLate c n tag).cluster c).cnt.late = sat64 ((s.cluster c).cnt.late + 1) := by
  have hclusters : (s.countLate c n tag).clusters = (s.updSw c (fun x => { x with late := sat64 (x.late + 1) })).clusters :=
    (congrArg State.clusters (s.countLate_reports c n tag) :)
  unfold State.cluster
  rw [hclusters]
  exact congrArg (fun k : Cluster => k.cnt.late) (State.cluster_updCluster_same s c _)

theorem late_discarded (s : State) (p : At) (n : Nat) (tag : Word) :
    let t := (s.issued p).countLate (coreCluster p.core) n tag
    BesidesIssue s t t p ∧ t.ctx p = (s.ctx p).advanced ∧ t.mem = s.mem
      ∧ (t.cluster (coreCluster p.core)).cnt.late = sat64 ((s.cluster (coreCluster p.core)).cnt.late + 1) := by
  intro t
  have hcores : t.cores = (s.issued p).cores := State.countLate_cores ..
  refine ⟨(BesidesIssue.of_issued s p).of_cores hcores, ?_, (State.countLate_bytes ..).1, State.countLate_late ..⟩
  rw [← State.ctx_issued_same]
  exact State.ctx_of_cores hcores p

/-! ### TSTA and TADDM (R151) -/

/-- Once a tile is written and its turf bytes are counted (`v`), the sticky pair takes the marks, a whole tensor may overflow, and
the reads delay the context; none of these touches what else was written. -/
theorem tileWritten_leaves {s u v : State} {p : At} {n : Nat} {spans : List (Word × Nat)} (hu : AreaWrites s p n spans u)
    (hv : BesidesIssue s u v p) (hctx : v.ctx p = u.ctx p) (m : Marks) (o : Bool) (d : TDesc) (runs : List (Word × Nat)) :
    let w := u.overflowWhen o n p.core d
    let t := ((v.updCtx p (fun c => c.mark m.blight m.subst)).overflowWhen o n p.core d).awaitRuns s p (fun len => .engine len [] []) runs
    BesidesIssue s (w.servedRuns s p runs) t p ∧ t.mem = w.mem
      ∧ (o = false → KeepsBytes s t (s.keysOfRuns n p.core spans))
      ∧ t.ctx p = { (s.ctx p).advanced.mark m.blight m.subst with
        loads := (s.ctx p).loads ++ s.delay p (fun len => .engine len [] []) runs (t.core p.core).cnt.beats } := by
  intro w t
  have hover := besidesCores_overflowWhen o n p.core d
  have hframe := (hv.then_updCtx (fun c => c.mark m.blight m.subst)).then_beside hover
  have hmarked : ((v.updCtx p (fun c => c.mark m.blight m.subst)).overflowWhen o n p.core d).ctx p
      = (s.ctx p).advanced.mark m.blight m.subst := by
    rw [hover.ctx, State.ctx_updCtx_same, hctx, hu.ctx]
  obtain ⟨hserved, hmem, hwait⟩ := awaitRuns_waits hframe hmarked (fun len => .engine len [] []) runs
  have hwritten : t.mem = w.mem := hmem.trans (congrArg State.mem hframe.rest :)
  refine ⟨hserved, hwritten, ?_, hwait⟩
  rintro rfl k hk
  rw [hwritten]
  exact hu.keeps k hk

/-- What TADDM leaves where its contribution is not late (R87, R151). -/
def State.tileAdded (s t : State) (p : At) (a : Word) (tl : Tile) (acc : TileAcc) (m : Marks) : State :=
  let n := s.partNum p.core
  let r := addTerms tl.d.terms acc.terms
  let u := t.putCounted n p.core tl (fun k => addW96 (s.tileElem n p.core tl k).1 (acc.part k)) m r.1
  let v := (u.turfHead p.core a tl).turfBytes p.core tl.d.code (512 * tl.liveRows.length)
  ((v.updCtx p (fun c => c.mark m.blight m.subst)).overflowWhen r.2 n p.core tl.d).awaitRuns s p (fun len => .engine len [] [])
    (tl.headRuns a ++ tl.elemRuns)

/-- TADDM as it issues: discarded where it is late, and else the elements of the tile, read once, join those of the accumulator. -/
theorem exec_taddm (s : State) (p : At) (f : LayT) :
    let c := s.ctx p
    let n := s.partNum p.core
    let a := c.getS f.sa
    let acc := c.getA f.acc
    let tl := s.tile n p.core a
    let m : Marks := ⟨acc.blight || tl.blight || (List.range 1024).any (fun k => (s.tileElem n p.core tl k).2),
      acc.subst || s.runsSubst n p.core (tl.headRuns a ++ tl.elemRuns)⟩
    exec (.taddm p f) s = issue s p { s := [f.sa], a := [f.acc] } (s.tileRoom p.core) (firstFault [w96Shape f, w96Fault s n p.core a acc true])
      (fun t => if s.late n c.step && s.planAcc n p.core tl.d then
          t.countLate (coreCluster p.core) n (s.tagOf p 0x20 0 acc.blight acc.subst)
        else s.tileAdded t p a tl acc m) := by
  intro c n a acc tl m
  change execTaddm p f s = _
  unfold execTaddm
  simp only [State.putTile_read, List.any_map]
  rfl

/-- Settles O10: both write the tile with its term count (`putCounted`), after which `tileWritten_leaves` says what changes; TADDM
discards a late contribution (log entry 12), and what they read beyond the scratchpad delays them (log entry 20). -/
theorem tileStores : Obligations.TileStores := by
  unfold Obligations.TileStores
  intro s p f c n acc tl head runs spans hissues
  refine ⟨?tsta, ?taddm⟩
  case tsta =>
    intro u
    have hu : AreaWrites s p n spans u := putCounted_areaWrites s p n tl acc.part acc.marks (max tl.d.terms acc.terms)
    obtain ⟨hframe, hmem, hkeeps, hctx⟩ :=
      tileWritten_leaves hu (hu.frame.then_turfRuns head) (State.ctx_turfRuns ..) acc.marks false tl.d head
    change Completes (execTsta p f s) _
    unfold execTsta
    exact hissues.completes ⟨hframe, hmem, hkeeps rfl, hctx⟩
  case taddm =>
    intro es m u
    rw [exec_taddm]
    refine hissues.completes ?_
    split
    next hlate => exact late_discarded s p n _
    next hearly =>
      have hu : AreaWrites s p n spans u := putCounted_areaWrites s p n tl _ m (addTerms tl.d.terms acc.terms).1
      exact tileWritten_leaves hu ((hu.frame.then_turfRuns head).then_turfBytes _ _)
        ((State.ctx_turfBytes ..).trans (State.ctx_turfRuns ..)) m (addTerms tl.d.terms acc.terms).2 tl.d runs

end Sys2Proof.Machine
end

section
/-! PROOFS. FWAIT, FWAITC, CWAITR and CWAITA: a wait whose condition holds completes, another one deschedules its context (R103,
R312, R315). -/

namespace Sys2Proof.Machine

section
variable {s : State} {p : At} {u : Uses} {check : Option (BitVec 8)}

/-- The context `p` is descheduled at its pc between `s` and `t`, and its wait is on its way to the store of a die (R103). -/
def Descheduled (s t : State) (p : At) (die : Nat) (w : WaitCond) : Prop :=
  BesidesIssue s { s with sync := { s.sync with inflight := s.sync.inflight ++ [⟨.ctx p, die, .wait w, s.tagOf p 0 4 false false⟩] } } t p
    ∧ (t.core p.core).cnt.desched = sat64 ((s.core p.core).cnt.desched + 1)
    ∧ t.ctx p = { s.ctx p with
        state := .waiting
        stalledOn := none
        wait := some { cond := w, since := s.now, beat := (t.core p.core).cnt.beats, budget := (s.part (s.partNum p.core)).budget } }

theorem Descheduled.of_issued (s : State) (p : At) (die : Nat) (w : WaitCond) :
    Descheduled s (((s.issued p).deschedule p (s.ctx p).pc w).sendSync { src := .ctx p, die := die, act := .wait w }) p die w := by
  have hcnt := (s.issued p).deschedule_core p (s.ctx p).pc w
  have hctx := (s.issued p).deschedule_ctx p (s.ctx p).pc w
  rw [State.ctx_issued_same] at hctx
  have htag : ((s.issued p).deschedule p (s.ctx p).pc w).tagged { src := .ctx p, die := die, act := .wait w }
      = ⟨.ctx p, die, .wait w, s.tagOf p 0 4 false false⟩ := by
    unfold State.tagged State.tagOf
    simp only [hctx]
    rfl
  refine ⟨?_, ?_, ?_⟩
  · rw [State.sendSync, htag]
    exact ((OnlyContext.of_issued s p).then_deschedule _ _).then_beside (g := fun t =>
      { t with sync := { t.sync with inflight := t.sync.inflight ++ [⟨.ctx p, die, .wait w, s.tagOf p 0 4 false false⟩] } })
      ⟨fun _ _ _ _ => rfl⟩
  · rw [State.core_sendSync, hcnt, desched_issued]
  · rw [State.ctx_sendSync, State.core_sendSync, hctx, hcnt]
    rfl

/-- A wait completes at once or deschedules its context (R103, R313). -/
theorem waitOp_completes (die : Nat) (w : WaitCond) (h : Issues s p u {} check) :
    Completes (issue s p u {} check (fun t => waitOp s t p die w)) (fun t =>
      if s.condMet w = true ∧ s.inFlightTo p die = false then Becomes s t p (s.ctx p).advanced else Descheduled s t p die w) := by
  refine h.completes ?_
  by_cases hmet : s.condMet w = true ∧ s.inFlightTo p die = false
  · rw [if_pos hmet, waitOp, if_pos (by simpa using hmet)]
    exact ⟨.of_issued s p, State.ctx_issued_same s p⟩
  · rw [if_neg hmet, waitOp, if_neg (by simpa using hmet)]
    exact .of_issued s p die w

end

/-- Settles O22: each of the four is a `waitOp` on its condition. -/
theorem waitsDeschedule : Obligations.WaitsDeschedule := by
  unfold Obligations.WaitsDeschedule
  intro s p f c n die k Waits
  refine ⟨fun h => ⟨?fwait, ?fwaitc⟩, fun h => ⟨?cwaitr, ?cwaita⟩⟩
  case fwait => exact waitOp_completes die (.flag f.id.toNat true) h
  case fwaitc => exact waitOp_completes die (.flag f.id.toNat false) h
  case cwaitr => exact waitOp_completes die (.below f.id.toNat k) h
  case cwaita => exact waitOp_completes die (.atLeast f.id.toNat k) h

end Sys2Proof.Machine
end

section
/-! PROOFS. The fault of a context: what the abort, the record and the owed release of R156 and R157 leave of cores, sync stores and
error records. -/

namespace Sys2Proof.Machine

/-! ### Steps that change one context of the cores -/

/-- Of the cores `t` differs from `s` in the record of context `p` alone. -/
structure CoresBut (s t : State) (p : At) : Prop where
  others : ∀ q, q ≠ p → t.ctx q = s.ctx q
  cores : ∀ k, k ≠ p.core → t.core k = s.core k
  units : (t.core p.core).tiles = (s.core p.core).tiles ∧ (t.core p.core).frozen = (s.core p.core).frozen
    ∧ (t.core p.core).entries = (s.core p.core).entries
  cnt : (t.core p.core).cnt = (s.core p.core).cnt

section
variable {s t u : State} {p : At}

theorem CoresBut.of_cores (hc : t.cores = s.cores) : CoresBut s t p := by
  have hcore (k : Nat) : t.core k = s.core k := by
    unfold State.core
    rw [hc]
  exact ⟨fun q _ => State.ctx_of_cores hc q, fun k _ => hcore k, by simp only [hcore, and_self], by rw [hcore]⟩

theorem CoresBut.refl (s : State) (p : At) : CoresBut s s p := .of_cores rfl

theorem CoresBut.trans (h : CoresBut s t p) (k : CoresBut t u p) : CoresBut s u p where
  others := fun q hq => (k.others q hq).trans (h.others q hq)
  cores := fun i hi => (k.cores i hi).trans (h.cores i hi)
  units := ⟨k.units.1.trans h.units.1, k.units.2.1.trans h.units.2.1, k.units.2.2.trans h.units.2.2⟩
  cnt := k.cnt.trans h.cnt

theorem CoresBut.updCtx (s : State) (p : At) (f : Ctx → Ctx) : CoresBut s (s.updCtx p f) p := by
  obtain ⟨htiles, hfrozen, hentries, hcnt, -⟩ := State.core_updCtx s p f p.core
  exact ⟨fun q hq => State.ctx_updCtx_ne _ _ hq, fun k hk => State.core_updCore_ne _ _ _ hk, ⟨htiles, hfrozen, hentries⟩, hcnt⟩

theorem BesidesIssue.then_coresBut (h : BesidesIssue s t t p) (k : CoresBut t u p) : BesidesIssue s u u p where
  rest := rfl
  others := fun q hq => (k.others q hq).trans (h.others q hq)
  cores := fun i hi => (k.cores i hi).trans (h.cores i hi)
  units := ⟨k.units.1.trans h.units.1, k.units.2.1.trans h.units.2.1, k.units.2.2.trans h.units.2.2⟩
  issued := (congrArg CoreCount.issued k.cnt).trans h.issued

/-! ### The abort of an open transaction (R255) -/

theorem CoresBut.abortTx (s : State) (p : At) : CoresBut s (s.abortTx p) p := by
  obtain ⟨-, hcores⟩ := s.abortTx_frame p
  split at hcores
  · exact .of_cores hcores
  · exact (CoresBut.updCtx s p _).trans (.of_cores hcores)

/-- The context of an aborted transaction has none open, and id 0 where it had one (R255). -/
theorem State.ctx_abortTx (s : State) (p : At) :
    (s.abortTx p).ctx p = { s.ctx p with tx := none, txid := if (s.ctx p).tx.isSome then 0 else (s.ctx p).txid } := by
  obtain ⟨-, hcores⟩ := s.abortTx_frame p
  cases htx : (s.ctx p).tx with
  | none =>
    rw [if_pos htx] at hcores
    rw [State.ctx_of_cores hcores p]
    generalize s.ctx p = c at htx
    cases c
    cases htx
    rfl
  | some num =>
    rw [if_neg (by simp [htx])] at hcores
    rw [State.ctx_of_cores hcores p, State.ctx_updCtx_same]
    simp

/-! ### The owner of a cluster -/

/-- An update of a cluster that keeps its partition leaves the partition of every cluster. -/
theorem State.part_cluster_updCluster (s : State) (c : Nat) (f : Cluster → Cluster) (h : (f (s.cluster c)).part = (s.cluster c).part) (k : Nat) :
    ((s.updCluster c f).cluster k).part = (s.cluster k).part := by
  by_cases hk : k = c
  · subst hk
    rw [State.cluster_updCluster_same, h]
  · rw [State.cluster_updCluster_ne _ _ _ hk]

theorem State.part_cluster_gateWaited (s : State) (num k : Nat) : ((s.gateWaited num).cluster k).part = (s.cluster k).part := by
  unfold State.gateWaited
  split
  · split
    · exact State.part_cluster_updCluster _ _ _ rfl _
    · rfl
  · rfl

theorem State.part_cluster_abortTx (s : State) (p : At) (k : Nat) : ((s.abortTx p).cluster k).part = (s.cluster k).part := by
  unfold State.abortTx
  split
  · rfl
  · dsimp only
    split
    · rfl
    · exact (State.part_cluster_updCluster _ _ _ rfl _).trans (State.part_cluster_gateWaited ..)

/-! ### What a posted record changes (R471) -/

theorem State.post_nextSeq (s : State) (r : ErrRec) (parts : List Nat) : (s.post r parts).errs.nextSeq = s.errs.nextSeq + 1 := by
  unfold State.post
  refine List.foldlRecOn (motive := fun t : State => t.errs.nextSeq = s.errs.nextSeq + 1) _ _ rfl fun t ht n _ => ?_
  split
  · exact (congrArg ErrState.nextSeq (State.ringPost_errs ..)).trans ht
  · exact ht

theorem getLast?_pushLog (log : List ErrRec) (r : ErrRec) : (pushLog log r).getLast? = some r := by
  have hcap : 1 < logCap := by decide
  unfold pushLog
  split
  next h =>
    cases log with
    | nil => exact absurd h (by simp only [List.nil_append, List.length_singleton]; omega)
    | cons x log => simp
  next => simp

/-- The newest record of the log is the one posted last. -/
theorem State.post_getLast? (s : State) (r : ErrRec) (parts : List Nat) :
    (s.post r parts).errs.log.getLast? = some { r with seq := s.errs.nextSeq, time := s.now } := by
  rw [State.post_log, getLast?_pushLog]

/-! ### The fault (R156, R157) -/

/-- A context that has faulted at its pc, its transaction aborted (R156, R255). -/
def Ctx.faulted (c : Ctx) (cause : BitVec 8) : Ctx :=
  { c with
    state := .faulted
    faultCause := cause
    faultPc := c.pc.setWidth 20
    wait := none
    stalledOn := none
    tx := none
    txid := if c.tx.isSome then 0 else c.txid }

/-- The state in which context `p` has faulted, before its record is posted. -/
def State.faultStopped (s : State) (p : At) (cause : BitVec 8) : State :=
  (s.abortTx p).updCtx p (fun c => { c with state := .faulted, faultCause := cause, faultPc := c.pc.setWidth 20,
                                            wait := none, stalledOn := none })

/-- The state in which context `p` has faulted and its record is posted; what remains is the release of its fault flag. -/
def State.faultPosted (s : State) (p : At) (cause : BitVec 8) : State :=
  let u := s.faultStopped p cause
  u.post { cls := 0x05, cause := 0x01, unit := 0x00, loc := BitVec.ofNat 32 p.core, tag := u.tagOf p 0 0 false false,
           detail := BitVec.ofNat 64 (p.ctx * 2 ^ 32 + cause.toNat * 2 ^ 24 + (s.ctx p).pc.toNat % 2 ^ 20) } (u.partOf p.core).toList

/-- What a fault flag `flag` of a context has released. -/
def State.flagReleased (s : State) (p : At) (flag : Option (BitVec 17)) : State :=
  match flag with
  | some id => s.releaseWhenDrained p { src := .ctx p, die := fld id.toNat 16 14, act := .setFlag id.toNat }
  | none => s

/-- The fault flag of a context, where it is one of its partition's (R308). -/
def State.ownFlag (s : State) (p : At) : Option (BitVec 17) :=
  (s.ctx p).faultFlag.filter (fun id => s.flagPart id.toNat = s.partOf p.core)

section
variable (s : State) (p : At) (cause : BitVec 8)

theorem State.faultPosted_ctx : (s.faultPosted p cause).ctx p = (s.ctx p).faulted cause := by
  unfold State.faultPosted State.faultStopped
  rw [(post_reports ..).ctx, State.ctx_updCtx_same, State.ctx_abortTx]
  rfl

theorem CoresBut.faultPosted : CoresBut s (s.faultPosted p cause) p :=
  ((CoresBut.abortTx s p).trans (.updCtx _ p _)).trans (.of_cores (post_reports ..).cores)

theorem State.faultPosted_sync : (s.faultPosted p cause).sync = s.sync :=
  (congrArg State.sync (post_reports ..) :).trans (s.abortTx_frame p).1

theorem State.faultPosted_mem : (s.faultPosted p cause).mem = s.mem :=
  (State.post_bytes ..).1.trans (State.abortTx_bytes s p).1

theorem State.faultPosted_nextSeq : (s.faultPosted p cause).errs.nextSeq = s.errs.nextSeq + 1 :=
  (State.post_nextSeq ..).trans (congrArg (fun e : ErrState => e.nextSeq + 1) (s.abortTx_errs p))

theorem State.abortTx_now : (s.abortTx p).now = s.now := by
  unfold State.abortTx State.dropTx State.gateWaited
  split
  · rfl
  · dsimp only
    split
    · rfl
    · split
      · split <;> rfl
      · rfl

theorem State.faultPosted_record : ∃ w, (s.faultPosted p cause).errs.log.getLast? = some {
    cls := 0x05, cause := 0x01, unit := 0x00, loc := BitVec.ofNat 32 p.core, seq := s.errs.nextSeq, time := s.now, tag := w,
    detail := BitVec.ofNat 64 (p.ctx * 2 ^ 32 + cause.toNat * 2 ^ 24 + (s.ctx p).pc.toNat % 2 ^ 20) } := by
  refine ⟨(s.faultStopped p cause).tagOf p 0 0 false false, (State.post_getLast? ..).trans ?_⟩
  rw [State.faultStopped, State.updCtx_errs, State.updCtx_now, State.abortTx_errs, State.abortTx_now]

theorem State.partOf_faultPosted (k : Nat) : ((s.faultPosted p cause).cluster k).part = (s.cluster k).part := by
  have hclusters : (s.faultPosted p cause).clusters = (s.abortTx p).clusters := (congrArg State.clusters (post_reports ..) :)
  rw [← s.part_cluster_abortTx p k]
  unfold State.cluster
  rw [hclusters]

theorem State.faultCtx_eq : s.faultCtx p cause = (s.faultPosted p cause).flagReleased p (s.ownFlag p) := by
  have howner (id : Nat) : (s.faultPosted p cause).flagPart id = s.flagPart id := by
    unfold State.flagPart
    simp only [State.partOf_faultPosted]
  have hown : (s.faultPosted p cause).partOf p.core = s.partOf p.core := s.partOf_faultPosted p cause _
  unfold State.ownFlag
  simp only [← howner, ← hown]
  rfl

theorem CoresBut.flagReleased (flag : Option (BitVec 17)) : CoresBut s (s.flagReleased p flag) p := by
  unfold State.flagReleased State.releaseWhenDrained
  split
  · split
    · exact .of_cores rfl
    · exact .updCtx s p _
  · exact .refl s p

/-- A released flag touches the sync stores and what its context owes alone. -/
theorem State.flagReleased_eq (flag : Option (BitVec 17)) :
    s.flagReleased p flag = { s with sync := (s.flagReleased p flag).sync, cores := (s.flagReleased p flag).cores }
      ∧ (s.flagReleased p flag).ctx p = { s.ctx p with owed := ((s.flagReleased p flag).ctx p).owed } := by
  unfold State.flagReleased State.releaseWhenDrained
  split
  · split
    · exact ⟨rfl, rfl⟩
    · refine ⟨rfl, ?_⟩
      rw [State.ctx_updCtx_same]
  · exact ⟨rfl, rfl⟩

/-- The context of a fault: faulted at its pc, with what it owes (R156, R157). -/
theorem State.ctx_faultCtx :
    (s.faultCtx p cause).ctx p = { (s.ctx p).faulted cause with owed := ((s.faultCtx p cause).ctx p).owed } := by
  have h := ((s.faultPosted p cause).flagReleased_eq p (s.ownFlag p)).2
  rw [State.faultPosted_ctx, ← State.faultCtx_eq] at h
  exact h

theorem CoresBut.faultCtx : CoresBut s (s.faultCtx p cause) p := by
  rw [State.faultCtx_eq]
  exact (CoresBut.faultPosted s p cause).trans (.flagReleased _ p _)

/-- Whether a fault's flag is released at once, owed until the context has drained, or not given (R156, R308, R311). -/
theorem State.faultCtx_flag : let t := s.faultCtx p cause
    match s.ownFlag p with
    | some id => if (s.ctx p).drained
        then (∃ w, t.sync.inflight = s.sync.inflight ++ [⟨.ctx p, fld id.toNat 16 14, .setFlag id.toNat, w⟩]) ∧ (t.ctx p).owed = (s.ctx p).owed
        else t.sync = s.sync ∧ (t.ctx p).owed = (s.ctx p).owed ++ [⟨.ctx p, fld id.toNat 16 14, .setFlag id.toNat, 0⟩]
    | none => t.sync = s.sync ∧ (t.ctx p).owed = (s.ctx p).owed := by
  intro t
  have hsync := s.faultPosted_sync p cause
  have hctx := s.faultPosted_ctx p cause
  have howed : ((s.faultPosted p cause).ctx p).owed = (s.ctx p).owed := by rw [hctx]; rfl
  have ht : t = (s.faultPosted p cause).flagReleased p (s.ownFlag p) := s.faultCtx_eq p cause
  cases hflag : s.ownFlag p with
  | none =>
    rw [hflag] at ht
    rw [ht]
    exact ⟨hsync, howed⟩
  | some id =>
    rw [hflag] at ht
    have hdrained : ((s.faultPosted p cause).ctx p).drained = (s.ctx p).drained := by rw [hctx]; rfl
    rw [ht, State.flagReleased, State.releaseWhenDrained, hdrained]
    dsimp only
    split
    · refine ⟨⟨(s.faultPosted p cause).tagOf p 0 OrderClass.sync.code false false, ?_⟩, howed⟩
      rw [State.sendSync, hsync]
      rfl
    · rw [State.ctx_updCtx_same]
      exact ⟨hsync, congrArg (· ++ _) howed⟩

theorem State.faultCtx_errs : (s.faultCtx p cause).errs = (s.faultPosted p cause).errs := by
  rw [State.faultCtx_eq]
  exact (congrArg State.errs (State.flagReleased_eq ..).1 :)

/-- The beat that an issue slot takes, in the counters of its core (R98, R126). -/
def State.beatTaken (s : State) (k : Nat) : State :=
  s.updCore k (fun c => { c with cnt := { c.cnt with beats := sat64 (c.cnt.beats + 1 + s.beatsBefore k) } })

theorem State.core_slot_ne {k : Nat} (h : k ≠ p.core) : (s.slot p).core k = s.core k := by
  rw [State.slot, State.core_updCore_ne _ _ _ h]
  change (s.beatTaken p.core).core k = _
  rw [State.beatTaken, State.core_updCore_ne _ _ _ h]

theorem State.issued_slot : ((s.slot p).core p.core).cnt.issued = (s.core p.core).cnt.issued := by
  rw [State.slot, State.core_updCore_same]
  change ((s.beatTaken p.core).core p.core).cnt.issued = _
  rw [State.beatTaken, State.core_updCore_same]

/-- An instruction that does not issue but faults leaves what R156, R157 and R308 say. -/
theorem issueFault_faults : Faults s (s.issueFault p cause) p cause where
  ctx := by
    refine (State.ctx_faultCtx ..).trans ?_
    rw [State.ctx_slot]
    rfl
  others := fun q hq => ((CoresBut.faultCtx _ p cause).others q hq).trans (State.ctx_slot ..)
  cores := fun k hk => ((CoresBut.faultCtx _ p cause).cores k hk).trans (s.core_slot_ne p hk)
  counted := (congrArg CoreCount.issued (CoresBut.faultCtx _ p cause).cnt).trans (s.issued_slot p)
  mem := (State.faultCtx_bytes ..).1
  record := by
    have h := (s.slot p).faultPosted_record p cause
    rw [← State.faultCtx_errs, State.ctx_slot] at h
    exact h
  seq := (congrArg ErrState.nextSeq (State.faultCtx_errs ..)).trans (State.faultPosted_nextSeq ..)
  flag := by
    have h := (s.slot p).faultCtx_flag p cause
    unfold State.ownFlag at h
    rw [State.ctx_slot] at h
    exact h

end

end

/-- An instruction that would issue but for a failing check faults its context (R132). -/
theorem issue_faults {s : State} {p : At} {u : Uses} {room : Room} {cause : BitVec 8} (eff : State → State) (hcan : s.canIssue p = true)
    (hfetch : fetchFault (s.ctx p).pc = none) (hready : s.ready p u = true) (hroom : room.full = false) :
    Completes (issue s p u room (some cause) eff) (fun t => Faults s t p cause) := by
  have he : issue s p u room (some cause) eff = .next (s.issueFault p cause) := by
    simp [issue, hcan, hfetch, hready, hroom]
  rw [he]
  exact .next (issueFault_faults s p cause)

end Sys2Proof.Machine
end

section
/-! PROOFS. A wake, the context-wait watchdog and the lending of a power share (R104, R316, R317, R386). -/

namespace Sys2Proof.Machine

/-! ### WAKE -/

/-- One wake is taken where there is one. -/
theorem length_dropFirst {α : Type} (f : α → Bool) {l : List α} {a : α} (ha : a ∈ l) (hf : f a = true) :
    (dropFirst f l).length + 1 = l.length := by
  induction l with
  | nil => exact absurd ha List.not_mem_nil
  | cons b l ih =>
    unfold dropFirst
    split
    next => rfl
    next hb =>
      have hmem : a ∈ l := (List.mem_cons.mp ha).resolve_left (fun h => hb (h ▸ hf))
      rw [List.length_cons, List.length_cons, ih hmem]

/-- The state in which a wake has reached its core (R104). -/
def State.wakeTaken (s : State) (p : At) : State :=
  ({ s with sync := { s.sync with wakes := dropFirst (· = p) s.sync.wakes } } : State).active ⟨.core, p.core⟩

section
variable {s : State} {p : At} {w : Wait}

theorem exec_wake (hl : s.live = true) (hp : p ∈ s.sync.wakes) (hs : (s.ctx p).state = .waiting) (hw : (s.ctx p).wait = some w) :
    exec (.wake p) s = .next (if s.strictCore p.core then
        (s.wakeTaken p).updCtx p (fun c => { c with wait := some { w with signalled := true } })
      else (s.wakeTaken p).endWait p) := by
  have hgo : ¬ (!s.live || decide (p ∉ s.sync.wakes)) = true := by simp [hl, hp]
  change execWake p s = _
  unfold execWake
  rw [if_neg hgo]
  change Host.Outcome.next (match (s.ctx p).state, (s.ctx p).wait with | .waiting, some w => _ | _, _ => _) = _
  rw [hs, hw]
  rfl

/-- A context whose wait ends: ready, past the wait, its registers as they were (R104, R319). -/
theorem State.ctx_endWait (s : State) (p : At) :
    (s.endWait p).ctx p = { (s.ctx p).clearsBit with state := .ready, wait := none, pc := (s.ctx p).pc + 8 } :=
  s.ctx_updCtx_same p (fun c => { c.clearsBit with state := .ready, wait := none, pc := c.pc + 8 })

theorem Ctx.clearsBit_frame (c : Ctx) : c.clearsBit = { c with arrivals := c.clearsBit.arrivals } := by
  unfold Ctx.clearsBit
  split <;> rfl

theorem wake_completes (hl : s.live = true) (hp : p ∈ s.sync.wakes) (hs : (s.ctx p).state = .waiting) (hw : (s.ctx p).wait = some w) :
    Completes (exec (.wake p) s) (fun t => t.mem = s.mem ∧ (t.ctx p).s = (s.ctx p).s ∧ (∀ q, q ≠ p → t.ctx q = s.ctx q) ∧
      t.sync.wakes.length + 1 = s.sync.wakes.length ∧
      if s.strictCore p.core then t.ctx p = { s.ctx p with wait := some { w with signalled := true } }
      else (t.ctx p).state = .ready ∧ (t.ctx p).wait = none ∧ (t.ctx p).pc = (s.ctx p).pc + 8) := by
  have hwakes : (s.wakeTaken p).sync.wakes.length + 1 = s.sync.wakes.length := length_dropFirst _ hp (by simp)
  rw [exec_wake hl hp hs hw]
  refine .next ?_
  split
  next =>
    have hctx := (s.wakeTaken p).ctx_updCtx_same p (fun c => { c with wait := some { w with signalled := true } })
    exact ⟨rfl, by rw [hctx]; rfl, fun q hq => State.ctx_updCtx_ne _ _ hq, hwakes, hctx⟩
  next =>
    have hctx := (s.wakeTaken p).ctx_endWait p
    rw [Ctx.clearsBit_frame] at hctx
    refine ⟨rfl, by rw [hctx]; rfl, fun q hq => State.ctx_updCtx_ne _ _ hq, hwakes, ?_⟩
    rw [hctx]
    exact ⟨rfl, rfl, rfl⟩

/-! ### CONTEXT_WAIT_WATCHDOG (R316) -/

/-- What the watchdog leaves of a wait that has outlasted its bound before the core is thawed: no waiter, no wake, a fault. -/
def State.watchdogFault (s : State) (p : At) : State :=
  (({ s with sync := { s.sync with
      waiters := s.sync.waiters.filter (fun x => x.p ≠ p)
      wakes := s.sync.wakes.filter (· ≠ p) } } : State).updCtx p (fun c => { c with watchdog := true })).faultCtx p 0x01

theorem exec_contextWaitWatchdog (hl : s.live = true) (hs : (s.ctx p).state = .waiting) (hw : (s.ctx p).wait = some w)
    (hlate : w.since + 1000000 * (s.part (s.partNum p.core)).ctxWaitMs < s.now) :
    exec (.contextWaitWatchdog p) s = .next ((s.watchdogFault p).updCore p.core
      (fun k => { k with frozen := if k.frozen = some (.wait p.ctx) then none else k.frozen })) := by
  change execContextWaitWatchdog p s = _
  unfold execContextWaitWatchdog State.watchdog
  rw [if_pos hl, hs, hw]
  exact congrArg _ (if_pos hlate)

theorem contextWaitWatchdog_completes (hl : s.live = true) (hs : (s.ctx p).state = .waiting) (hw : (s.ctx p).wait = some w)
    (hlate : w.since + 1000000 * (s.part (s.partNum p.core)).ctxWaitMs < s.now) :
    Completes (exec (.contextWaitWatchdog p) s) (fun t => (t.ctx p).state = .faulted ∧ (t.ctx p).faultCause = 0x01
      ∧ (t.ctx p).watchdog = true ∧ (t.ctx p).wait = none ∧ (t.ctx p).pc = (s.ctx p).pc ∧ (t.ctx p).s = (s.ctx p).s
      ∧ (∀ q, q ≠ p → t.ctx q = s.ctx q)
      ∧ (t.core p.core).frozen ≠ some (.wait p.ctx) ∧ t.mem = s.mem) := by
  rw [exec_contextWaitWatchdog hl hs hw hlate]
  set u : State := { s with sync := { s.sync with
      waiters := s.sync.waiters.filter (fun x => x.p ≠ p)
      wakes := s.sync.wakes.filter (· ≠ p) } } with hu
  have hctx : (s.watchdogFault p).ctx p = _ := (u.updCtx p (fun c => { c with watchdog := true })).ctx_faultCtx p 0x01
  rw [State.ctx_updCtx_same] at hctx
  have hothers : CoresBut u (s.watchdogFault p) p := (CoresBut.updCtx u p _).trans (.faultCtx _ p 0x01)
  have hthawed (q : At) : ((s.watchdogFault p).updCore p.core (fun k => { k with
      frozen := if k.frozen = some (.wait p.ctx) then none else k.frozen })).ctx q = (s.watchdogFault p).ctx q :=
    State.ctx_updCore _ _ _ rfl q
  refine .next ?_
  simp only [hthawed]
  refine ⟨?_, ?_, ?_, ?_, ?_, ?_, hothers.others, ?_, (State.faultCtx_bytes ..).1⟩
  case refine_7 =>
    rw [State.core_updCore_same]
    dsimp only
    split
    next => simp
    next h => exact h
  all_goals
    rw [hctx]
    rfl

/-! ### POWER_LENDING (R317) -/

theorem mem_addOnce {α : Type} [DecidableEq α] (l : List α) (a : α) : a ∈ addOnce l a := by
  unfold addOnce
  split
  next h => exact h
  next => simp

theorem powerLending_completes {u : UnitRef} (hl : s.live = true) (hidle : s.idleUnit u = true)
    (hlong : (((s.power.activeAt.find? (fun x => x.1 = u)).map (·.2)).getD 0) + 20000 < s.now) :
    Completes (exec (.powerLending u) s) (fun t => u ∈ t.power.lent ∧ t = { s with power := { s.power with lent := t.power.lent } }) := by
  have he : exec (.powerLending u) s = .next { s with power := { s.power with lent := addOnce s.power.lent u } } := by
    change execPowerLending u s = _
    unfold execPowerLending
    simp only [hl, hidle, hlong, decide_true, Bool.and_self, if_true]
  rw [he]
  exact .next ⟨mem_addOnce .., rfl⟩

end

/-- Settles O23: a wake by `endWait` or the signal alone, a late wait by `faultCtx` of cause 0x01, lending by the list of lent shares. -/
theorem wakesWatchdogAndLending : Obligations.WakesWatchdogAndLending := by
  unfold Obligations.WakesWatchdogAndLending
  exact fun s hl => ⟨fun _ _ hp hs hw => wake_completes hl hp hs hw, fun _ _ hs hw hlate => contextWaitWatchdog_completes hl hs hw hlate,
    fun _ hidle hlong => powerLending_completes hl hidle hlong⟩

end Sys2Proof.Machine
end

section
/-! PROOFS. LD and ST: what a store to the scratchpad or beyond it leaves, and the marks that a serve slot keeps of its context (R117,
R145, R251, R412). -/

namespace Sys2Proof.Machine

/-! ### The bytes of a store -/

section
variable (s : State) (p : At) (a : Word) (data : List Byte) (m : Marks)

/-- A store changes the stored bytes of the scratchpad alone: one from beyond is on its way or in a transaction (R117, R251). -/
theorem State.stored_mem : ((s.issued p).stored p a data m).mem
    = if spaceOf a = 0 then Memory.putAll s.mem (List.zip (s.keysOf (s.partNum p.core) p.core a data.length) data) else s.mem := by
  rcases (s.issued p).stored_cases p a data m with ⟨ha, hu⟩ | ⟨ha, num, -, hu⟩ | ⟨ha, -, hu⟩
  · rw [hu, if_pos ha]
    exact s.issued_writeMarked_mem ..
  · rw [hu, if_neg ha, State.txWrite_mem, State.issued_mem]
  · rw [hu, if_neg ha, State.issued_mem]

theorem keepsBytes_of_stored {t : State} (h : t.mem = ((s.issued p).stored p a data m).mem) :
    KeepsBytes s t (if spaceOf a = 0 then s.keysOf (s.partNum p.core) p.core a data.length else []) := by
  rw [State.stored_mem] at h
  split
  next ha => exact .of_putAll (h.trans (if_pos ha))
  next ha => exact .of_eq _ (h.trans (if_neg ha))

end

theorem State.stored_cores (s : State) (p : At) (a : Word) (data : List Byte) (m : Marks) : (s.stored p a data m).cores = s.cores := by
  rcases s.stored_cases p a data m with ⟨-, hu⟩ | ⟨-, num, -, hu⟩ | ⟨-, -, hu⟩
  · rw [hu, (besidesCores_writeMarked ..).cores]
  · rw [hu, (besidesCores_txWrite ..).cores]
  · rw [hu]

/-! ### The marks of a serve slot (R412) -/

/-- Whether an address is that of the state byte of a slot of a core's serve partition. -/
def State.namesSlot (s : State) (core : Nat) (a : Word) : Bool :=
  (s.part (s.partNum core)).cfg.serve && (s.serve (s.partNum core)).slots.any (fun x => s.slotAt (s.partNum core) x.index 0 = a)

/-- An ST by a core to the state byte of a serve slot leaves a pair of marks with the slot. -/
def State.noteMarks (s : State) (core : Nat) (a : Word) (m : Marks) : State :=
  if s.namesSlot core a then
    s.updServe (s.partNum core) (fun v => { v with slots := v.slots.map (fun x =>
      if s.slotAt (s.partNum core) x.index 0 = a then { x with blight := m.blight, subst := m.subst } else x) })
  else s

/-- The marks are those of the context's sticky pair. -/
theorem State.noteSlot_eq {s : State} {p : At} {c : Ctx} (h : s.ctx p = c) (a : Word) :
    s.noteSlot p a = s.noteMarks p.core a ⟨c.stickyBlight, c.stickySubst⟩ := by
  rw [← h]
  rfl

theorem besidesCores_noteMarks (core : Nat) (a : Word) (m : Marks) : BesidesCores (fun t => t.noteMarks core a m) where
  beside t c f w := by
    have hnames : State.namesSlot { t with cores := c, free := f, power := w } core a = t.namesSlot core a := rfl
    unfold State.noteMarks
    rw [hnames]
    cases t.namesSlot core a <;> rfl

/-- ST as it issues: the store, then the context's sticky pair in the slot whose state byte it wrote. -/
theorem st_stores (s : State) (p : At) (a : Word) {data : List Byte} {size : Nat} (hlen : data.length = size) :
    let t := (((s.issued p).store p a data false false).noteSlot p a).turfBytes p.core a size
    let ks := s.keysOf (s.partNum p.core) p.core a size
    BesidesIssue s (((s.issued p).stored p a data {}).noteSlot p a) t p
      ∧ (spaceOf a = 0 → t.mem = Memory.putAll s.mem (List.zip ks data))
      ∧ KeepsBytes s t (if spaceOf a = 0 then ks else [])
      ∧ t.ctx p = { (s.ctx p).advanced with
        stores := (s.ctx p).stores ++ s.storesOf p a data {}
        nextMove := (s.ctx p).nextMove + (s.storesOf p a data {}).length } := by
  intro t ks
  obtain ⟨hframe, hmem, hctx⟩ := store_issued s p a data {}
  have hu : ((s.issued p).stored p a data {}).ctx p = (s.ctx p).advanced :=
    (State.ctx_of_cores (State.stored_cores ..) p).trans (State.ctx_issued_same s p)
  have hnote : BesidesCores (fun t => t.noteMarks p.core a ⟨(s.ctx p).stickyBlight, (s.ctx p).stickySubst⟩) := besidesCores_noteMarks ..
  have hstored : ((s.issued p).store p a data false false).noteSlot p a = _ := State.noteSlot_eq hctx a
  have htmem : t.mem = ((s.issued p).stored p a data {}).mem := by
    rw [State.turfBytes_mem, (State.noteSlot_bytes ..).1]
    exact hmem
  refine ⟨?_, fun ha => ?_, by simpa only [hlen] using keepsBytes_of_stored s p a data {} htmem, ?_⟩
  · rw [State.noteSlot_eq hu]
    exact BesidesIssue.then_turfBytes (by rw [hstored]; exact hframe.then_beside hnote) _ _
  · rw [htmem, State.stored_mem, if_pos ha, hlen]
  · rw [State.ctx_turfBytes, hstored]
    exact (hnote.ctx _ p).trans hctx

/-! ### LD and ST (R145) -/

theorem bitAt_toNat {w : Nat} (x : BitVec w) (i : Nat) : bitAt x.toNat i = x.getLsbD i := by
  simp [bitAt, fld, BitVec.getLsbD, Nat.testBit_eq_decide_div_mod_eq]

/-- A scalar load writes its register at once from the scratchpad, and is outstanding from beyond (R116, R118). -/
theorem startLoad_scalar (s : State) (p : At) (a : Word) (rd : BitVec 5) (size : Nat) (sgn : Bool) :
    let t := startLoad s (s.issued p) p a size (.scalar rd size sgn)
    OnlyContext s t p ∧
      if spaceOf a = 0 then
        let r := s.readMarked (s.partNum p.core) p.core a size
        t.ctx p = ((s.ctx p).advanced.setS rd (extend size sgn r.1)).mark r.2.1 r.2.2
      else t.ctx p = { (s.ctx p).advanced with
        loads := (s.ctx p).loads ++ [s.loadOf p (.scalar rd size sgn) a (t.core p.core).cnt.beats] } := by
  by_cases ha : spaceOf a = 0
  · simp only [startLoad, if_pos ha]
    refine ⟨(OnlyContext.of_issued s p).then_updCtx _, ?_⟩
    rw [State.ctx_updCtx_same, State.ctx_issued_same]
    rfl
  · simp only [startLoad, if_neg ha]
    exact request_becomes s p (.scalar rd size sgn) a size

/-- Settles O3: LD starts by `startLoad`, ST stores by `State.store` (displacement: log entry 11; marks of a load: log entry 21). -/
theorem scalarLoadsAndStores : Obligations.ScalarLoadsAndStores := by
  unfold Obligations.ScalarLoadsAndStores
  intro s p f sub c n a size bytes
  refine ⟨fun h => ?ld, fun h => ?st⟩
  case ld =>
    change Completes (execLd p f sub s) _
    unfold execLd
    rw [bitAt_toNat]
    exact h.completes (startLoad_scalar s p a f.sd size (sub.getLsbD 2))
  case st =>
    exact h.completes (eff := fun t => ((t.store p a bytes false false).noteSlot p a).turfBytes p.core a size)
      (st_stores s p a (length_leBytes _ _))

end Sys2Proof.Machine
end

section
/-! PROOFS. LIH, GETS, TGET, MEPOCH, TSTAT and TSTEP: the scalar register that each writes and the state that it reads (R101, R135,
R145, R150). -/

namespace Sys2Proof.Machine

/-- An instruction that issues to write one scalar register. -/
theorem setS_completes {s : State} {p : At} {u : Uses} {room : Room} {check : Option (BitVec 8)} (r : BitVec 5) (v : Word)
    (h : Issues s p u room check) : Completes (issue s p u room check (fun t => t.setS p r v)) (fun t => WritesScalar s t p r v) :=
  h.completes (.of_setS s p r v)

/-! ### GETS (R150) -/

/-- A free value drawn after a scalar write is no part of what was written. -/
theorem WritesScalar.then_fresh {s t : State} {p : At} {r : BitVec 5} {v : Word} (h : WritesScalar s t p r v) : WritesScalar s t.fresh p r v :=
  ⟨h.only.then_fresh, h.regs, h.frame⟩

theorem State.cnt_setS (s : State) (p : At) (r : BitVec 5) (v : Word) (k : Nat) : ((s.setS p r v).core k).cnt = (s.core k).cnt :=
  State.cnt_updCtx ..

/-- The special values that are no reading of the timekeeper, selector by selector (R150). -/
theorem special_mem {s t : State} {p : At} {sel : Nat} {x : Nat × Nat} (hsel : sel = x.1)
    (hx : x ∈ [(0, p.ctx), (1, p.core), (2, coreCluster p.core), (3, s.partNum p.core), (4, (s.cluster (coreCluster p.core)).epoch.toNat),
      (6, (t.core p.core).cnt.beats), (7, b2n (s.strictCore p.core)), (8, (s.coresOf (s.partNum p.core)).length)]) :
    special s t p sel = BitVec.ofNat 64 x.2 := by
  subst hsel
  simp only [List.mem_cons, List.not_mem_nil, or_false] at hx
  rcases hx with rfl | rfl | rfl | rfl | rfl | rfl | rfl | rfl <;> rfl

/-- The timekeeper reads at most one crossing old (R22, R23; log entry 18). -/
theorem special_now (s t : State) (p : At) : ∃ age, age ≤ 5 ∧ special s t p 5 = BitVec.ofNat 64 (s.now - age) :=
  ⟨Config.freeNat t.free % 6, by omega, rfl⟩

theorem gets_completes {s : State} {p : At} (f : LayS) (sel : BitVec 8)
    (h : Issues s p { s := [f.sd] } {} (firstFault [must (sel.toNat ≤ 8) 0x02, must (f.sa = 0 && f.sb = 0 && f.i = 0 && f.imm = 0) 0x03])) :
    Completes (exec (.gets p f sel) s) (fun t => ∃ v, WritesScalar s t p f.sd v
      ∧ (∀ x ∈ [(0, p.ctx), (1, p.core), (2, coreCluster p.core), (3, s.partNum p.core), (4, (s.cluster (coreCluster p.core)).epoch.toNat),
          (6, (t.core p.core).cnt.beats), (7, b2n (s.strictCore p.core)), (8, (s.coresOf (s.partNum p.core)).length)],
          sel.toNat = x.1 → v = BitVec.ofNat 64 x.2)
      ∧ (sel.toNat = 5 → ∃ age, age ≤ 5 ∧ v = BitVec.ofNat 64 (s.now - age))) := by
  refine h.completes (eff := fun t => (t.setS p f.sd (special s t p sel.toNat)).fresh) ?_
  refine ⟨special s (s.issued p) p sel.toNat, (WritesScalar.of_setS ..).then_fresh, fun x hx hsel => special_mem hsel ?_, fun hsel => ?_⟩
  · rw [← State.cnt_setS (s.issued p) p f.sd (special s (s.issued p) p sel.toNat) p.core]
    exact hx
  · rw [hsel]
    exact special_now ..

/-! ### TSTAT (R135) -/

/-- Clearing the sticky pair before or after a scalar write is the same. -/
theorem Ctx.setS_cleared (c : Ctx) (r : BitVec 5) (v : Word) :
    ({ c with stickyBlight := false, stickySubst := false } : Ctx).setS r v = { c.setS r v with stickyBlight := false, stickySubst := false } := by
  unfold Ctx.setS
  split <;> rfl

/-- The sticky pair as a word: blight in [1], substituted in [0]. -/
theorem stickyWord_eq (b u : Bool) : 2 * b2n b + b2n u = (if b then 2 else 0) + if u then 1 else 0 := by
  cases b <;> cases u <;> rfl

theorem tstat_completes {s : State} {p : At} (f : LayA) (h : Issues s p { s := [f.sd] } {} (must (f.sa = 0 && f.zero = 0) 0x03)) :
    let c := s.ctx p
    Completes (exec (.tstat p f) s) (fun t => Becomes s t p { c.advanced.setS f.sd
        (BitVec.ofNat 64 ((if c.stickyBlight then 2 else 0) + if c.stickySubst then 1 else 0)) with
      stickyBlight := false
      stickySubst := false }) := by
  intro c
  change Completes (execTstat p f s) _
  unfold execTstat
  refine h.completes ⟨(OnlyContext.of_issued s p).then_updCtx _, ?_⟩
  rw [State.ctx_updCtx_same, State.ctx_issued_same, Ctx.setS_cleared, stickyWord_eq]

/-! ### MEPOCH (R145) -/

theorem b2n_mul_4096 (b : Bool) : b2n b * 4096 = if b then 2 ^ 12 else 0 := by
  cases b <;> rfl

theorem mepoch_completes {s : State} {p : At} (f : LayA) (h : Issues s p { s := [f.sd] } {} (must (f.sa = 0 && f.zero = 0) 0x03)) :
    let cl := coreCluster p.core
    Completes (exec (.mepoch p f) s) (fun t => WritesScalar s t p f.sd
      (BitVec.ofNat 64 ((s.cluster cl).epoch.toNat + if s.preparePending cl then 2 ^ 12 else 0))) := by
  intro cl
  rw [← b2n_mul_4096]
  exact setS_completes f.sd _ h

/-- Settles O4: each writes its value by one `setS` or one update of the context (the timekeeper: log entry 18). -/
theorem tagAndModeResults : Obligations.TagAndModeResults := by
  unfold Obligations.TagAndModeResults
  intro s p c n cl
  refine ⟨fun f h => ?lih, fun f sel h => gets_completes f sel h, fun f h => ⟨?tget, mepoch_completes f h, tstat_completes f h⟩, fun f h => ?tstep⟩
  case lih => exact setS_completes f.sd (f.imm ++ (c.getS f.sd).setWidth 32) h
  case tget => exact setS_completes f.sd (s.tagOf p 0 0 false false) h
  case tstep =>
    refine h.completes (eff := fun t => t.updCtx p (fun c => { c with step := (s.getS p f.sa).setWidth 16 }))
      ⟨(OnlyContext.of_issued s p).then_updCtx _, ?_⟩
    rw [State.ctx_updCtx_same, State.ctx_issued_same]
    rfl

end Sys2Proof.Machine
end

section
/-! PROOFS. Vector reductions, conversion, broadcast, extraction and random values: what each puts in its register (R113, R145, R146,
R392). -/

namespace Sys2Proof.Machine

/-! ### Reductions (R113) -/

theorem length_vvals (f : BitVec 6) (v : VReg) : (vvals f v).length = elemCount f := by
  unfold vvals elemCount
  split <;> simp

/-- A whole register has no padding: every group of 32 counts (R57, R113). -/
theorem perGroup_whole (f : BitVec 6) (v : VReg) (g : List Val → Nat) :
    perGroup (if f = 0x11 then 128 else 256) g (vvals f v)
      = ((List.range ((vvals f v).length / 32)).map (fun i => List.replicate 32 (g (((vvals f v).drop (32 * i)).take 32)))).flatten := by
  have hlen : (vvals f v).length ≤ if f = 0x11 then 128 else 256 := by
    rw [length_vvals, elemCount]
    by_cases hf : f = 0x11
    · subst hf
      decide
    · rw [if_neg hf]
      split <;> omega
  unfold perGroup
  rw [List.take_of_length_le hlen]

section
variable {s : State} {p : At} {f : LayV}

/-- An instruction that issues to write one vector register. -/
theorem putV_completes {u : Uses} {room : Room} {check : Option (BitVec 8)} (r : BitVec 4) (lanes : List (BitVec 32)) (m : Marks) (beats : Nat)
    (h : Issues s p u room check) :
    Completes (issue s p u room check (fun t => putV t p r lanes m beats)) (fun t => WritesVector s t p r (vregOf lanes m)) :=
  h.completes (.of_putV s p r lanes m beats)

/-- A reduction puts what it gives in its register with the marks of its source (R37, R113). -/
theorem reduceOp_writes (op : List Val → List (BitVec 32))
    (h : Issues s p { v := [f.vd, f.va] } (s.vecRoom p) (firstFault [must (vShape f false false) 0x03, vfmt f.fmt])) :
    Completes (reduceOp s p f op) (fun t => WritesVector s t p f.vd
      (vregOf (op (vvals f.fmt ((s.ctx p).getV f.va))) (marksOf (s.ctx p) [f.va]))) :=
  putV_completes f.vd _ _ 2 h

/-- A reduction by groups of a whole register. -/
theorem group_writes (g : Frac → List Val → Nat)
    (h : Issues s p { v := [f.vd, f.va] } (s.vecRoom p) (firstFault [must (vShape f false false) 0x03, vfmt f.fmt])) :
    let x := vvals f.fmt ((s.ctx p).getV f.va)
    Completes (vec1 s p f 2 (fun b l => perGroup (if f.fmt = 0x11 then 128 else 256) (g b) l)) (fun t => WritesVector s t p f.vd
      (vregOf (packLanes f.fmt ((List.range (x.length / 32)).map (fun i =>
        List.replicate 32 (g (fracOf f.fmt) ((x.drop (32 * i)).take 32)))).flatten) (marksOf (s.ctx p) [f.va]))) := by
  intro x
  rw [← perGroup_whole]
  exact vec1_writes 2 _ h

/-! ### Conversion (R146) -/

/-- VCVT of a half: imm names the lower or the upper one. -/
theorem vcvt_completes
    (h : Issues s p { v := [f.vd, f.va] } (s.vecRoom p)
      (firstFault [must (f.vb = 0 && f.vc = 0 && f.sa = 0 && f.sb = 0 && f.imm.toNat < 2) 0x03, vfmt f.fmt])) :
    let c := s.ctx p
    Completes (exec (.vcvt p f) s) (fun t => WritesVector s t p f.vd
      (if f.fmt = 0x11 then vregOf (mkLanes (fun i => BitVec.ofNat 32 (encFp 23 (bf16 ((c.getV f.va).half (128 * f.imm.toNat + i)).toNat)))) (marksOf c [f.va])
       else vregOf (mkHalves (fun i => if i / 128 = f.imm.toNat then encFp 7 (fp32 ((c.getV f.va).lane (i % 128)).toNat)
         else ((c.getV f.vd).half i).toNat)) (marksOf c [f.va, f.vd]))) := by
  intro c
  have himm : f.imm.toNat % 2 = f.imm.toNat := by
    have hok := h.ok
    refine Nat.mod_eq_of_lt (Decidable.byContradiction fun hge => ?_)
    simp [firstFault, must, hge] at hok
  have hlanes : (vregOf (cvtLanes f c) (if f.fmt = 0x11 then marksOf c [f.va] else marksOf c [f.va, f.vd]))
      = if f.fmt = 0x11 then vregOf (mkLanes (fun i => BitVec.ofNat 32 (encFp 23 (bf16 ((c.getV f.va).half (128 * f.imm.toNat + i)).toNat)))) (marksOf c [f.va])
        else vregOf (mkHalves (fun i => if i / 128 = f.imm.toNat then encFp 7 (fp32 ((c.getV f.va).lane (i % 128)).toNat)
          else ((c.getV f.vd).half i).toNat)) (marksOf c [f.va, f.vd]) := by
    unfold cvtLanes
    rw [himm]
    split <;> rfl
  rw [← hlanes]
  exact putV_completes f.vd _ _ 1 h

/-! ### Extraction (R134, R145) -/

theorem vext_completes
    (h : Issues s p { s := [f.sa], v := [f.va] } (s.vecRoom p)
      (must (f.vd = 0 && f.vb = 0 && f.vc = 0 && f.sb = 0 && f.fmt = 0 && f.imm.toNat < 128) 0x03)) :
    let c := s.ctx p
    Completes (exec (.vext p f) s) (fun t => Becomes s t p
      ((c.advanced.setS f.sa (((c.getV f.va).lane f.imm.toNat).setWidth 64)).mark (c.getV f.va).blight (c.getV f.va).subst)) := by
  intro c
  change Completes (execVext p f s) _
  unfold execVext
  refine h.completes ⟨(((OnlyContext.of_issued s p).then_updCtx _).then_updCtx _).then_vecBeats 1, ?_⟩
  rw [State.ctx_vecBeats, State.ctx_updCtx_same, State.ctx_setS_same, State.ctx_issued_same]

end

/-- Settles O6: the rows that write vd end in `putV`, VEXT in a scalar write and the marks (VRSUM with no finite term: log entry 59). -/
theorem vectorReductionsAndMoves : Obligations.VectorReductionsAndMoves := by
  unfold Obligations.VectorReductionsAndMoves
  intro s p f c n fr x group
  refine ⟨fun h => ?reductions, fun h => vcvt_completes h, fun h => ?vbcast, fun h => vext_completes h, fun h => ?vrng⟩
  case reductions =>
    simp only [List.forall_mem_cons]
    exact ⟨group_writes (fun b l => encFp b (maxOf true l)) h, group_writes sumFp h,
      reduceOp_writes (fun l => w96Lanes (encW96 (sumMeasured l).1 (sumMeasured l).2)) h,
      reduceOp_writes (fun l => oneLane (sumFp 23 l)) h, reduceOp_writes (fun l => oneLane (encFp fr (maxOf false l))) h,
      reduceOp_writes (fun l => oneLane (encFp fr (maxOf true l))) h, List.forall_mem_nil _⟩
  case vbcast => exact putV_completes f.vd (mkLanes (fun _ => (c.getS f.sb).setWidth 32)) {} 1 h
  case vrng =>
    let r := s.readMarked n p.core (c.getS f.sb) 32
    exact putV_completes f.vd (rngLanes f.fmt r.1) ⟨r.2.1, r.2.2⟩ 1 h

end Sys2Proof.Machine
end

section
/-! PROOFS. TCLR, TMOVV and TLDA: an accumulator that is cleared, moved to vector registers or loaded from a W96 tile (R115, R145,
R151). -/

namespace Sys2Proof.Machine

/-! ### Consecutive vector registers -/

/-- A context whose vector registers from `vd` on hold the first `k` of some values. -/
def Ctx.setVs (c : Ctx) (vd : BitVec 4) (g : Nat → VReg) (k : Nat) : Ctx :=
  (List.range k).foldl (fun c i => c.setV (vd + BitVec.ofNat 4 i) (g i)) c

theorem Ctx.setVs_succ (c : Ctx) (vd : BitVec 4) (g : Nat → VReg) (k : Nat) :
    c.setVs vd g (k + 1) = (c.setVs vd g k).setV (vd + BitVec.ofNat 4 k) (g k) := by
  unfold Ctx.setVs
  rw [List.range_succ, List.foldl_append]
  rfl

/-- Of sixteen registers no two offsets name the same one. -/
theorem add_ofNat_ne (vd : BitVec 4) {i k : Nat} (hi : i < k) (hk : k < 16) : vd + BitVec.ofNat 4 i ≠ vd + BitVec.ofNat 4 k := by
  intro h
  have h := congrArg BitVec.toNat (add_left_cancel h)
  simp only [BitVec.toNat_ofNat] at h
  omega

theorem Ctx.getV_setVs (c : Ctx) (vd : BitVec 4) (g : Nat → VReg) {k : Nat} (hk : k ≤ 16) :
    ∀ i < k, (c.setVs vd g k).getV (vd + BitVec.ofNat 4 i) = g i := by
  induction k with
  | zero => exact fun i hi => absurd hi (Nat.not_lt_zero i)
  | succ k ih =>
    intro i hi
    rw [Ctx.setVs_succ, Ctx.getV_setV]
    rcases Nat.lt_succ_iff_lt_or_eq.mp hi with hlt | rfl
    · rw [if_neg (add_ofNat_ne vd hlt hk), ih (Nat.le_of_succ_le hk) i hlt]
    · rw [if_pos rfl]

theorem Ctx.getV_setVs_of_not_mem (c : Ctx) (vd : BitVec 4) (g : Nat → VReg) {r : BitVec 4} (k : Nat)
    (hr : r ∉ (List.range k).map (fun i => vd + BitVec.ofNat 4 i)) : (c.setVs vd g k).getV r = c.getV r := by
  induction k with
  | zero => rfl
  | succ k ih =>
    rw [List.range_succ, List.map_append, List.mem_append, not_or] at hr
    obtain ⟨hbefore, hlast⟩ := hr
    rw [Ctx.setVs_succ, Ctx.getV_setV, if_neg (fun h => hlast (List.mem_singleton.mpr h)), ih hbefore]

/-- Registers of the same marks leave the rest of the context, and their marks in the sticky pair (R135). -/
theorem Ctx.setVs_frame (c : Ctx) (vd : BitVec 4) (lanes : Nat → List (BitVec 32)) (m : Marks) (k : Nat) :
    c.setVs vd (fun i => vregOf (lanes i) m) (k + 1)
      = { c.mark m.blight m.subst with v := (c.setVs vd (fun i => vregOf (lanes i) m) (k + 1)).v } := by
  induction k with
  | zero => rfl
  | succ k ih =>
    rw [Ctx.setVs_succ, ih]
    simp only [Ctx.setV, Ctx.mark, vregOf, Bool.or_assoc, Bool.or_self]

section
variable {s : State} {p : At} {f : LayT}

/-! ### TCLR and TMOVV (R115, R145, R151) -/

theorem tclr_completes
    (h : Issues s p { s := [f.sa], a := [f.acc] } (s.tileRoom p.core) (must (f.zero = 0 && f.dk = 0 && f.vd = 0 && f.sb = 0 && f.fmt = 0) 0x03)) :
    Completes (exec (.tclr p f) s) (fun t =>
      Becomes s t p ((s.ctx p).advanced.setA f.acc { anchor := ((s.ctx p).getS f.sa).setWidth 10 })) := by
  change Completes (execTclr p f s) _
  unfold execTclr
  refine h.completes ⟨(OnlyContext.of_issued s p).then_updCtx _, ?_⟩
  rw [State.ctx_updCtx_same, State.ctx_issued_same]

theorem length_placeResults (fmt : BitVec 6) (l : List Nat) : (placeResults fmt l).length = regCount fmt := by
  simp [placeResults]

theorem tmovv_completes
    (h : Issues s p { a := [f.acc], v := regsFrom f.vd f.fmt } (s.tileRoom p.core)
      (firstFault [must (f.zero = 0 && f.dk = 0 && f.sa = 0 && f.sb = 0 && (f.vd = 0 || f.vd = 8)) 0x03, vfmt f.fmt])) :
    let c := s.ctx p
    let acc := c.getA f.acc
    let regs := placeResults f.fmt ((List.range 1024).map (fun k => finalFp (fracOf f.fmt) (acc.part k) (anchorE acc.anchor) 1))
    Completes (exec (.tmovv p f) s) (fun t => OnlyContext s t p
      ∧ (∀ i < regs.length, (t.ctx p).getV (f.vd + BitVec.ofNat 4 i) = vregOf (regs.getD i []) acc.marks)
      ∧ (∀ r, r ∉ regsFrom f.vd f.fmt → (t.ctx p).getV r = c.getV r)
      ∧ t.ctx p = { c.advanced.mark acc.blight acc.subst with v := (t.ctx p).v }) := by
  intro c acc regs
  have hlen : regs.length = regCount f.fmt := length_placeResults ..
  obtain ⟨k, hk, hk16⟩ : ∃ k, regCount f.fmt = k + 1 ∧ k + 1 ≤ 16 := by
    unfold regCount
    split
    · exact ⟨3, rfl, by decide⟩
    · exact ⟨7, rfl, by decide⟩
  let g (i : Nat) : VReg := vregOf (regs.getD i []) acc.marks
  refine h.completes (eff := fun t => t.updCtx p (fun c => c.setVs f.vd g regs.length)) ⟨(OnlyContext.of_issued s p).then_updCtx _, ?_⟩
  simp only [State.ctx_updCtx_same, State.ctx_issued_same]
  refine ⟨Ctx.getV_setVs _ f.vd g (by omega), fun r hr => Ctx.getV_setVs_of_not_mem c.advanced f.vd g _ (by rw [hlen]; exact hr), ?_⟩
  rw [hlen, hk]
  exact Ctx.setVs_frame ..

/-! ### TLDA (R151) -/

theorem accElems_congr (a : BitVec 10) {g g' : Nat → Partial} (h : ∀ k < 1024, g k = g' k) : accElems a g = accElems a g' :=
  List.map_congr_left fun k hk => by rw [h k (List.mem_range.mp hk)]

/-- The accumulator that TLDA loads (R151). -/
def State.loadedAcc (s : State) (n core : Nat) (tl : Tile) (subst : Bool) : TileAcc :=
  { anchor := tl.d.anchor, terms := tl.d.terms,
    elems := accElems tl.d.anchor (fun k => (s.tileElem n core tl k).1),
    blight := tl.blight || (List.range 1024).any (fun k => (s.tileElem n core tl k).2),
    subst := subst }

/-- TLDA as it issues: the accumulator is loaded, its reads are counted and delay the context. -/
theorem exec_tlda (s : State) (p : At) (f : LayT) :
    let n := s.partNum p.core
    let a := (s.ctx p).getS f.sa
    let tl := s.tile n p.core a
    let runs := tl.headRuns a ++ tl.elemRuns
    exec (.tlda p f) s = issue s p { s := [f.sa], a := [f.acc] } (s.tileRoom p.core) (firstFault [w96Shape f, w96Fault s n p.core a {} false])
      (fun t => (((t.updCtx p (fun c => c.setA f.acc (s.loadedAcc n p.core tl (s.runsSubst n p.core runs)))).turfHead p.core a tl).turfBytes p.core
        tl.d.code (512 * tl.liveRows.length)).awaitRuns s p (fun len => .engine len [] [f.acc]) runs) := by
  intro n a tl runs
  have helems : accElems tl.d.anchor (fun k => (((List.range 1024).map (fun k => s.tileElem n p.core tl k)).getD k ({}, false)).1)
      = accElems tl.d.anchor (fun k => (s.tileElem n p.core tl k).1) :=
    accElems_congr _ fun k hk => by simp [hk]
  change execTlda p f s = _
  unfold execTlda State.loadedAcc
  simp only [List.any_map, ← helems]
  rfl

theorem tlda_completes :
    let c := s.ctx p
    let n := s.partNum p.core
    let tl := s.tile n p.core (c.getS f.sa)
    let runs := tl.headRuns (c.getS f.sa) ++ tl.elemRuns
    Issues s p { s := [f.sa], a := [f.acc] } (s.tileRoom p.core) (firstFault [w96Shape f, w96Fault s n p.core (c.getS f.sa) {} false]) →
      Completes (exec (.tlda p f) s) (fun t => BesidesIssue s ((s.issued p).servedRuns s p runs) t p ∧ t.mem = s.mem
        ∧ t.ctx p = { c.advanced.setA f.acc (s.loadedAcc n p.core tl (s.runsSubst n p.core runs)) with
          loads := c.loads ++ s.delay p (fun len => .engine len [] [f.acc]) runs (t.core p.core).cnt.beats }) := by
  intro c n tl runs h
  let x := s.loadedAcc n p.core tl (s.runsSubst n p.core runs)
  let u := ((s.issued p).updCtx p (fun c => c.setA f.acc x)).turfHead p.core (c.getS f.sa) tl
  have hframe : BesidesIssue s (s.issued p) (u.turfBytes p.core tl.d.code (512 * tl.liveRows.length)) p :=
    (((BesidesIssue.of_issued s p).then_updCtx _).then_turfRuns _).then_turfBytes _ _
  have hctx : (u.turfBytes p.core tl.d.code (512 * tl.liveRows.length)).ctx p = c.advanced.setA f.acc x :=
    (State.ctx_turfBytes ..).trans ((State.ctx_turfRuns ..).trans (by rw [State.ctx_updCtx_same, State.ctx_issued_same]))
  have hmem : (u.turfBytes p.core tl.d.code (512 * tl.liveRows.length)).mem = s.mem :=
    (State.turfBytes_mem ..).trans (State.turfRuns_mem ..)
  obtain ⟨hserved, hmem', hwait⟩ := awaitRuns_waits hframe hctx (fun len => .engine len [] [f.acc]) runs
  rw [exec_tlda]
  exact h.completes ⟨hserved, hmem'.trans hmem, hwait⟩

end

/-- Settles O9: TCLR by one `setA`, TMOVV by `setVs`, TLDA by the accumulator that it loads (elements on another window: log entry 12;
what it reads beyond the scratchpad delays it: log entry 20). -/
theorem tileAccumulators : Obligations.TileAccumulators := by
  unfold Obligations.TileAccumulators
  exact fun s p f => ⟨tclr_completes, tmovv_completes, tlda_completes⟩

end Sys2Proof.Machine
end

section
/-! PROOFS. TMUL and TILE_PRODUCT_COMPLETE: a product joins the tile engine with the reads that it waits for, and the oldest one
delivers (R99, R108, R109, R111, R151). -/

namespace Sys2Proof.Machine

/-! ### A product joins its engine (R99, R108) -/

/-- The products of a core's tile engine, with one more at the end. -/
def State.joinTiles (s : State) (core : Nat) (j : TileJob) : State := s.updCore core (fun k => { k with tiles := k.tiles ++ [j] })

theorem State.reportTile_reports (s : State) (n core : Nat) (tl : Tile) : BesidesReports s (s.reportTile n core tl) := by
  refine .foldl (fun u i => ?_) _ _
  split
  · exact .refl u
  · exact .foldl (fun v st => v.reportDamage_reports ..) _ _

theorem BesidesIssue.then_turfOperand {s u t : State} {p : At} (h : BesidesIssue s u t p) (a : Word) (tl : Tile) :
    BesidesIssue s u (t.turfOperand p.core a tl) p :=
  (h.then_turfRuns _).then_turfSide _

theorem State.ctx_turfOperand (t : State) (k : Nat) (a : Word) (tl : Tile) (q : At) : (t.turfOperand k a tl).ctx q = t.ctx q :=
  (State.ctx_turfSide ..).trans (State.ctx_turfRuns ..)

theorem State.turfOperand_mem (t : State) (k : Nat) (a : Word) (tl : Tile) : (t.turfOperand k a tl).mem = t.mem :=
  (State.turfSide_mem ..).trans (State.turfRuns_mem ..)

/-- What a wait for operands leaves of the engine and the counters of its core. -/
theorem State.core_awaitRuns (t s : State) (p : At) (dest : Nat → LoadDest) (runs : List (Word × Nat)) :
    let r := t.awaitRuns s p dest runs
    (r.core p.core).tiles = (t.core p.core).tiles ∧ (r.core p.core).frozen = (t.core p.core).frozen
      ∧ (r.core p.core).entries = (t.core p.core).entries ∧ (r.core p.core).cnt = (t.core p.core).cnt := by
  intro r
  obtain ⟨htiles, hfrozen, hentries, hcnt, -⟩ := State.core_updCtx (t.servedRuns s p runs) p
    (fun c => { c with loads := c.loads ++ s.delay p dest runs (t.core p.core).cnt.beats }) p.core
  rw [(besidesCores_servedRuns s p runs).core] at htiles hfrozen hentries hcnt
  exact ⟨htiles, hfrozen, hentries, hcnt⟩

theorem State.ctx_awaitRuns (t s : State) (p : At) (dest : Nat → LoadDest) (runs : List (Word × Nat)) :
    (t.awaitRuns s p dest runs).ctx p
      = { t.ctx p with loads := (t.ctx p).loads ++ s.delay p dest runs ((t.awaitRuns s p dest runs).core p.core).cnt.beats } := by
  rw [(t.core_awaitRuns s p dest runs).2.2.2, State.awaitRuns, State.ctx_updCtx_same, (besidesCores_servedRuns s p runs).ctx]

/-- A product that joins its engine and waits for its operands: but for the engine's products, the frame of an issue stays. -/
theorem BesidesIssue.then_join {s u t : State} {p : At} (h : BesidesIssue s u t p) (j : TileJob) (dest : Nat → LoadDest)
    (runs : List (Word × Nat)) :
    BesidesIssue s (u.servedRuns s p runs) (((t.joinTiles p.core j).awaitRuns s p dest runs).updCore p.core
      (fun k => { k with tiles := (s.core p.core).tiles })) p := by
  set r := (t.joinTiles p.core j).awaitRuns s p dest runs with hr
  have hserved := besidesCores_servedRuns s p runs
  have hframe := h.then_beside hserved
  obtain ⟨-, hfrozen, hentries, hcnt⟩ := (t.joinTiles p.core j).core_awaitRuns s p dest runs
  have hjoin : (t.joinTiles p.core j).core p.core = { t.core p.core with tiles := (t.core p.core).tiles ++ [j] } :=
    State.core_updCore_same ..
  rw [hjoin] at hfrozen hentries hcnt
  have hrest : r = { t.servedRuns s p runs with cores := r.cores } := by
    have hjoined : (t.joinTiles p.core j).servedRuns s p runs
        = { t.servedRuns s p runs with cores := (t.joinTiles p.core j).cores, free := t.free, power := t.power } :=
      hserved.beside t (t.joinTiles p.core j).cores t.free t.power
    rw [← hserved.free t, ← hserved.power t] at hjoined
    rw [hr, State.awaitRuns, hjoined]
    rfl
  refine ⟨?_, fun q hq => ?_, fun k hk => ?_, ?_, ?_⟩
  · set l := (r.updCore p.core (fun k => { k with tiles := (s.core p.core).tiles })).cores
    have hfree : r.free = (t.servedRuns s p runs).free := (congrArg State.free hrest :)
    have hpower : r.power = (t.servedRuns s p runs).power := (congrArg State.power hrest :)
    calc r.updCore p.core (fun k => { k with tiles := (s.core p.core).tiles })
      _ = { t.servedRuns s p runs with cores := l } := congrArg (fun v : State => { v with cores := l }) hrest
      _ = _ := congrArg (fun v : State => { v with cores := l }) hframe.rest
      _ = { u.servedRuns s p runs with
            cores := l
            free := r.free
            power := { (u.servedRuns s p runs).power with lent := r.power.lent, activeAt := r.power.activeAt } } := by rw [hfree, hpower]
  · rw [State.ctx_updCore _ _ _ rfl, hr, State.awaitRuns, State.ctx_updCtx_ne _ _ hq, hserved.ctx, State.joinTiles, State.ctx_updCore _ _ _ rfl,
      h.others q hq]
  · rw [State.core_updCore_ne _ _ _ hk, hr, State.awaitRuns, State.updCtx, State.core_updCore_ne _ _ _ hk, hserved.core, State.joinTiles,
      State.core_updCore_ne _ _ _ hk, h.cores k hk]
  · rw [State.core_updCore_same]
    exact ⟨rfl, hfrozen.trans h.units.2.1, hentries.trans h.units.2.2⟩
  · rw [State.core_updCore_same, ← h.issued]
    exact congrArg CoreCount.issued hcnt

/-! ### TMUL (R108, R109, R151) -/

/-- The damaged blocks of both operands are reported, and their reads in turf are counted (R61, R126). -/
def State.operandsRead (s : State) (n core : Nat) (sa sb : Word) (a b : Tile) : State :=
  (((s.reportTile n core a).reportTile n core b).turfOperand core sa a).turfOperand core sb b

theorem tmul_joins (s : State) (p : At) (n : Nat) (sa sb : Word) (a b : Tile) (j : Nat → TileJob) (runs : List (Word × Nat)) :
    let reported := ((s.issued p).reportTile n p.core a).reportTile n p.core b
    let read := (s.issued p).operandsRead n p.core sa sb a b
    let t := (read.joinTiles p.core (j (read.core p.core).cnt.issued)).awaitRuns s p
      (fun len => .product len (read.core p.core).cnt.issued) runs
    let num := (t.core p.core).cnt.issued
    (t.core p.core).tiles = (s.core p.core).tiles ++ [j num]
      ∧ t.ctx p = { (s.ctx p).advanced with loads := (s.ctx p).loads ++ s.delay p (fun len => .product len num) runs (t.core p.core).cnt.beats }
      ∧ BesidesIssue s (reported.servedRuns s p runs) (t.updCore p.core (fun k => { k with tiles := (s.core p.core).tiles })) p
      ∧ t.mem = s.mem := by
  intro reported read t num
  have hreports : BesidesReports (s.issued p) reported := (State.reportTile_reports ..).trans (State.reportTile_reports ..)
  have hframe : BesidesIssue s reported read p :=
    (((BesidesIssue.of_issued s p).of_cores hreports.cores).then_turfOperand sa a).then_turfOperand sb b
  have hctx : read.ctx p = (s.ctx p).advanced :=
    (State.ctx_turfOperand ..).trans ((State.ctx_turfOperand ..).trans ((hreports.ctx p).trans (State.ctx_issued_same s p)))
  let joined := read.joinTiles p.core (j (read.core p.core).cnt.issued)
  let dest (len : Nat) : LoadDest := .product len (read.core p.core).cnt.issued
  have hjoin : joined.core p.core = { read.core p.core with tiles := (read.core p.core).tiles ++ [j (read.core p.core).cnt.issued] } :=
    State.core_updCore_same ..
  have hjoinctx : joined.ctx p = (s.ctx p).advanced := (State.ctx_updCore _ _ _ rfl p).trans hctx
  obtain ⟨htiles, -, -, hcnt⟩ := joined.core_awaitRuns s p dest runs
  have hwait := joined.ctx_awaitRuns s p dest runs
  rw [hjoin] at htiles hcnt
  rw [hjoinctx] at hwait
  have hnum : num = (read.core p.core).cnt.issued := congrArg CoreCount.issued hcnt
  refine ⟨?_, ?_, hframe.then_join _ _ runs, ?_⟩
  · rw [hnum]
    exact htiles.trans (congrArg (· ++ _) hframe.units.1)
  · rw [hnum]
    exact hwait
  · calc t.mem = joined.mem := State.servedRuns_mem ..
      _ = reported.mem := (State.turfOperand_mem ..).trans (State.turfOperand_mem ..)
      _ = s.mem := hreports.bytes.1

theorem tmul_completes (s : State) (p : At) (f : LayT) :
    let c := s.ctx p
    let n := s.partNum p.core
    let a := s.tile n p.core (c.getS f.sa)
    let b := s.tile n p.core (c.getS f.sb)
    let q := s.product n p.core a b
    let areas (t : Tile) : List Word := [t.d.code, t.d.scale, t.d.esc, t.d.prom, t.d.outl]
    let runs := a.headRuns (c.getS f.sa) ++ a.blockRuns ++ a.d.sideRuns ++ b.headRuns (c.getS f.sb) ++ b.blockRuns ++ b.d.sideRuns
    Issues s p (if f.dk = 0 then { s := [f.sa, f.sb], a := [f.acc] } else { s := [f.sa, f.sb], v := regsFrom f.vd f.fmt })
        (s.areaRoom n (s.tileRoom p.core) (areas a ++ areas b)) (firstFault [tmulShape f, tmulFault s n p.core (c.getS f.sa) (c.getS f.sb) (f.dk = 1)]) →
      Completes (exec (.tmul p f) s) (fun t => let num := (t.core p.core).cnt.issued
        (t.core p.core).tiles = (s.core p.core).tiles ++ [{ p := p, num := num, dest := productDest f (c.getA f.acc) q, beats := q.beats,
                                                            side := q.side, blight := q.blight, subst := s.runsSubst n p.core runs }]
        ∧ t.ctx p = { c.advanced with loads := c.loads ++ s.delay p (fun len => .product len num) runs (t.core p.core).cnt.beats }
        ∧ BesidesIssue s ((((s.issued p).reportTile n p.core a).reportTile n p.core b).servedRuns s p runs)
            (t.updCore p.core (fun k => { k with tiles := (s.core p.core).tiles })) p
        ∧ t.mem = s.mem) := by
  intro c n a b q areas runs h
  let job (num : Nat) : TileJob :=
    { p := p, num := num, dest := productDest f (c.getA f.acc) q, beats := q.beats, side := q.side, blight := q.blight,
      subst := s.runsSubst n p.core runs }
  change Completes (execTmul p f s) _
  unfold execTmul
  exact h.completes (tmul_joins s p n (c.getS f.sa) (c.getS f.sb) a b job runs)

/-! ### TILE_PRODUCT_COMPLETE (R111) -/

/-- The oldest product leaves the engine of a core, its beats and side products counted (R126). -/
def State.productTaken (s : State) (core : Nat) (j : TileJob) (rest : List TileJob) : State :=
  s.updCore core (fun k => { k with
    tiles := rest
    cnt := { k.cnt with tileBeats := sat64 (k.cnt.tileBeats + j.beats), sideProducts := sat64 (k.cnt.sideProducts + j.side) } })

theorem CoresBut.afterRetire (s : State) (p : At) : CoresBut s (s.afterRetire p) p := by
  unfold State.afterRetire State.idleCtx
  split
  · exact (CoresBut.abortTx s p).trans (.updCtx _ p _)
  · exact .refl s p

/-- A context that was not told to stop goes on as it is (R161). -/
theorem State.afterRetire_of_ne {s : State} {p : At} (h : (s.ctx p).stalledOn ≠ some .stopping) : s.afterRetire p = s := by
  unfold State.afterRetire
  rw [if_neg (by simp [h])]

theorem Ctx.deliver_stalledOn (c : Ctx) (j : TileJob) : (c.deliver j).stalledOn = c.stalledOn := by
  unfold Ctx.deliver
  split
  · rfl
  · exact List.foldlRecOn (motive := fun d : Ctx => d.stalledOn = c.stalledOn) _ _ rfl (fun _ h _ _ => h)

theorem State.core_unstall_ne (s : State) {k i : Nat} (h : i ≠ k) : (s.unstall k).core i = s.core i :=
  State.core_updCore_ne _ _ _ h

theorem State.core_unstall_same (s : State) (k : Nat) :
    ((s.unstall k).core k).tiles = (s.core k).tiles ∧ ((s.unstall k).core k).cnt = (s.core k).cnt := by
  rw [State.unstall_eq, State.core_updCore_same]
  exact ⟨rfl, rfl⟩

theorem exec_tileProductComplete {s : State} {core : Nat} {j : TileJob} {rest : List TileJob} (hl : s.live = true)
    (hf : (s.core core).frozen = none) (ht : (s.core core).tiles = j :: rest) (hw : s.productWaits j = false) :
    exec (.tileProductComplete core) s
      = .next ((((s.productTaken core j rest).updCtx j.p (fun c => c.deliver j)).afterRetire j.p).unstall core) := by
  change execTileProductComplete core s = _
  unfold execTileProductComplete
  simp only [hl, hf, ht, hw]
  rfl

theorem tileProductComplete_completes {s : State} {j : TileJob} {rest : List TileJob} (hl : s.live = true)
    (hf : (s.core j.p.core).frozen = none) (ht : (s.core j.p.core).tiles = j :: rest) (hw : s.productWaits j = false) :
    let k := j.p.core
    Completes (exec (.tileProductComplete k) s) (fun t =>
      (t.core k).tiles = rest
      ∧ (t.core k).cnt = { (s.core k).cnt with
          tileBeats := sat64 ((s.core k).cnt.tileBeats + j.beats)
          sideProducts := sat64 ((s.core k).cnt.sideProducts + j.side) }
      ∧ (∀ r, (t.ctx j.p).getA r = ((s.ctx j.p).deliver j).getA r) ∧ (∀ r, (t.ctx j.p).getV r = ((s.ctx j.p).deliver j).getV r)
      ∧ (∀ i, i ≠ k → t.core i = s.core i) ∧ t.mem = s.mem
      ∧ ((s.ctx j.p).stalledOn ≠ some .stopping → t = { s with cores := t.cores })) := by
  intro k
  rw [exec_tileProductComplete hl hf ht hw]
  let taken := s.productTaken k j rest
  let delivered := taken.updCtx j.p (fun c => c.deliver j)
  have htaken : taken.core k = { s.core k with
      tiles := rest
      cnt := { (s.core k).cnt with
        tileBeats := sat64 ((s.core k).cnt.tileBeats + j.beats)
        sideProducts := sat64 ((s.core k).cnt.sideProducts + j.side) } } := State.core_updCore_same ..
  have hctx : delivered.ctx j.p = (s.ctx j.p).deliver j :=
    (State.ctx_updCtx_same ..).trans (congrArg (fun c : Ctx => c.deliver j) (State.ctx_updCore _ _ _ rfl j.p))
  have hcores : CoresBut taken (delivered.afterRetire j.p) j.p := (CoresBut.updCtx taken j.p _).trans (.afterRetire _ j.p)
  have hgoes : GoesOn delivered ((delivered.afterRetire j.p).unstall k) j.p := (GoesOn.afterRetire delivered j.p).trans (.unstall _ j.p)
  have hwork := hgoes.work
  rw [hctx] at hwork
  obtain ⟨htiles, hcnt⟩ := (delivered.afterRetire j.p).core_unstall_same k
  refine .next ⟨?_, ?_, fun r => Ctx.getA_congr hwork.acc r, fun r => Ctx.getV_congr hwork.v r, fun i hi => ?_, hgoes.mem, fun hgo => ?_⟩
  · exact htiles.trans (hcores.units.1.trans (congrArg Core.tiles htaken))
  · exact hcnt.trans (hcores.cnt.trans (congrArg Core.cnt htaken))
  · exact (State.core_unstall_ne _ hi).trans ((hcores.cores i hi).trans (State.core_updCore_ne _ _ _ hi))
  · have hstay : delivered.afterRetire j.p = delivered := State.afterRetire_of_ne (by rw [hctx, Ctx.deliver_stalledOn]; exact hgo)
    change State.unstall (delivered.afterRetire j.p) k = _
    rw [hstay]
    rfl

/-- Settles O8: TMUL joins the engine by `joinTiles` and waits as a load does (the product is computed from the tiles as they stand at
issue, the read of the largest budget is outstanding: log entry 20); the oldest product delivers by `Ctx.deliver`. -/
theorem tileProducts : Obligations.TileProducts := by
  unfold Obligations.TileProducts
  refine ⟨tmul_completes, fun s k j rest hl hf ht hk hw => ?_⟩
  subst hk
  exact tileProductComplete_completes hl hf ht hw

end Sys2Proof.Machine
end

section
/-! PROOFS. NOP, IFENCE, HALT, EPOST and ILL; CSTART, CSTOP and CSTATE; STEPB; the stall of missing operands (R98, R99, R145, R159 to
R161, R164, R228, R308, R470). -/

namespace Sys2Proof.Machine

/-! ### HALT (R161) -/

theorem State.dropTx_gone (s : State) (num : Nat) : ∀ x ∈ (s.dropTx num).tx.txs, x.num ≠ num :=
  fun _ hx => of_decide_eq_true (List.mem_filter.mp hx).2

/-- An aborted transaction is no longer open, unless it is past its durable point (R255). -/
theorem State.abortTx_gone {s : State} {p : At} {num : Nat} (htx : (s.ctx p).tx = some num)
    (hopen : ∀ x ∈ s.tx.txs, x.num = num → x.phase ≠ .durable ∧ x.phase ≠ .retired) : ∀ x ∈ (s.abortTx p).tx.txs, x.num ≠ num := by
  have hany : ¬ (s.tx.txs.any (fun t => t.num = num && (t.phase = .durable || t.phase = .retired))) = true := by
    simp only [List.any_eq_true, Bool.and_eq_true, Bool.or_eq_true, decide_eq_true_eq, not_exists, not_and, not_or]
    exact hopen
  intro x hx
  unfold State.abortTx at hx
  simp only [htx] at hx
  split at hx
  next hdurable => exact absurd hdurable hany
  next => exact State.dropTx_gone _ num x hx

/-- The context of HALT and of a stop: idle, waiting for nothing, its transaction aborted (R161). -/
def Ctx.idled (c : Ctx) : Ctx :=
  { c with state := .idle, wait := none, stalledOn := none, tx := none, txid := if c.tx.isSome then 0 else c.txid }

theorem State.ctx_idleCtx (s : State) (p : At) : (s.idleCtx p).ctx p = (s.ctx p).idled := by
  rw [State.idleCtx, State.ctx_updCtx_same, State.ctx_abortTx]
  rfl

theorem CoresBut.idleCtx (s : State) (p : At) : CoresBut s (s.idleCtx p) p := (CoresBut.abortTx s p).trans (.updCtx _ p _)

section
variable {s : State} {p : At}

theorem halt_completes (f : LayZ)
    (h : Issues s p {} {} (must (f.sd = 0 && f.sa = 0 && f.sb = 0 && f.sf = 0 && f.zero = 0 && f.ctx = 0) 0x03)) :
    let c := s.ctx p
    Completes (exec (.halt p f) s) (fun t => BesidesIssue s ((s.issued p).abortTx p) t p ∧ t.mem = s.mem
      ∧ (∀ num, c.tx = some num → (∀ x ∈ s.tx.txs, x.num = num → x.phase ≠ .durable ∧ x.phase ≠ .retired) → ∀ x ∈ t.tx.txs, x.num ≠ num)
      ∧ t.ctx p = { c.advanced with state := .idle, wait := none, tx := none, txid := if c.tx.isSome then 0 else c.txid }) := by
  intro c
  have htx : ((s.issued p).ctx p).tx = c.tx := by
    rw [State.ctx_issued_same]
    rfl
  refine h.completes (eff := fun t => t.idleCtx p) ⟨?_, (State.idleCtx_bytes ..).1, fun num hnum hopen => ?_, ?_⟩
  · exact ((BesidesIssue.of_issued s p).then_coresBut (.abortTx _ p)).then_updCtx _
  · exact State.abortTx_gone (s := s.issued p) (htx.trans hnum) hopen
  · rw [State.ctx_idleCtx, State.ctx_issued_same]
    rfl

/-! ### EPOST (R470) -/

/-- Reports pass through the frame of an issue. -/
theorem BesidesIssue.then_reports {u t v : State} (h : BesidesIssue s u t p) (k : BesidesReports t v) :
    BesidesIssue s { u with errs := v.errs, host := v.host, out := v.out } v p := by
  unfold BesidesReports at k
  generalize v.errs = e, v.host = x, v.out = o at k ⊢
  subst k
  exact h.then_beside (g := fun w => { w with errs := e, host := x, out := o }) ⟨fun _ _ _ _ => rfl⟩

theorem epost_completes (f : LayZ)
    (h : Issues s p { s := [f.sa] } {} (must (f.sd = 0 && f.sb = 0 && f.sf = 0 && f.zero = 0 && f.ctx = 0) 0x03)) :
    let c := s.ctx p
    Completes (exec (.epost p f) s) (fun t => t.ctx p = c.advanced ∧ t.mem = s.mem ∧ t.errs.nextSeq = s.errs.nextSeq + 1
      ∧ BesidesIssue s { s with errs := t.errs, host := t.host, out := t.out } t p
      ∧ t.errs.log.getLast? = some { cls := 0x0A, cause := 0x01, unit := 0x0F, loc := BitVec.ofNat 32 p.core, seq := s.errs.nextSeq,
                                     time := s.now, tag := s.tagOf p 0 0 false false, detail := c.getS f.sa }) := by
  intro c
  let r : ErrRec := { cls := 0x0A, cause := 0x01, unit := 0x0F, loc := BitVec.ofNat 32 p.core, tag := s.tagOf p 0 0 false false, detail := c.getS f.sa }
  have hreports := post_reports (s.issued p) r (s.partOf p.core).toList
  refine h.completes (eff := fun t => t.post r (s.partOf p.core).toList)
    ⟨?_, hreports.bytes.1, State.post_nextSeq .., (OnlyContext.of_issued s p).then_reports hreports, State.post_getLast? ..⟩
  rw [hreports.ctx, State.ctx_issued_same]

/-! ### CSTART (R160, R161, R308) -/

/-- A context that issues is ready or stalled: it is neither idle, waiting nor faulted (R123). -/
theorem State.state_of_canIssue (h : s.canIssue p = true) : (s.ctx p).state = .ready ∨ (s.ctx p).state = .stalled := by
  simp only [State.canIssue, Bool.and_eq_true, Bool.or_eq_true, decide_eq_true_eq] at h
  obtain ⟨⟨-, hstate⟩, -⟩ := h
  exact hstate.imp id And.left

/-- The lead context is controlled by itself alone, another one by the lead or by its controller (R160). -/
theorem State.not_controls_iff (s : State) (p q : At) :
    let lead := s.leadOf (s.partNum p.core)
    (!s.controls p q) = true ↔ ¬ (if q = lead then p = lead else p = lead ∨ (s.ctx q).controller = some (.ctx p)) := by
  intro lead
  rw [Bool.not_eq_true', ← Bool.not_eq_true]
  refine not_congr ?_
  unfold State.controls
  dsimp only
  split
  next => exact decide_eq_true_iff
  next => rw [Bool.or_eq_true, decide_eq_true_iff, decide_eq_true_iff]

/-- The fault flag that sf names, if any, is one of the partition's (R308). -/
theorem State.flagOwned_eq (s : State) (n : Nat) (w : Word) :
    s.flagOwned n w = (flagOf w).all (fun id => s.flagPart id.toNat = some n) := by
  unfold State.flagOwned
  cases flagOf w <;> rfl

/-- A context started by another one (R158, R161). -/
def Ctx.started (x : Ctx) (pc : Word) (flag : Option (BitVec 17)) (by_ : Controller) : Ctx :=
  { x with
    state := .ready
    pc := pc
    faultFlag := flag
    faultCause := 0
    faultPc := 0
    controller := some by_
    wait := none
    stalledOn := none }

/-- Context `p` has issued and written 0 to `sd`, context `q` has started; nothing else of the state changed. -/
def Starts (s t : State) (p q : At) (sd : BitVec 5) (pc : Word) (flag : Option (BitVec 17)) : Prop :=
  ((∀ r, r ≠ p → r ≠ q → t.ctx r = s.ctx r) ∧ t.mem = s.mem)
    ∧ t = { s with cores := t.cores, free := t.free, power := { s.power with lent := t.power.lent, activeAt := t.power.activeAt } }
    ∧ t.ctx p = (s.ctx p).advanced.setS sd 0 ∧ t.ctx q = (s.ctx q).started pc flag (.ctx p)

/-- An update of any context leaves what lies beside the cores. -/
theorem beside_updCtx {u t : State} (q : At) (f : Ctx → Ctx)
    (h : t = { u with cores := t.cores, free := t.free, power := { u.power with lent := t.power.lent, activeAt := t.power.activeAt } }) :
    let r := t.updCtx q f
    r = { u with cores := r.cores, free := r.free, power := { u.power with lent := r.power.lent, activeAt := r.power.activeAt } } :=
  congrArg (fun v : State => { v with cores := (t.updCtx q f).cores }) h

theorem Starts.of_issued {q : At} (hq : q ≠ p) (sd : BitVec 5) (pc : Word) (flag : Option (BitVec 17)) :
    Starts s (((s.issued p).startCtx q pc flag (.ctx p)).setS p sd 0) p q sd pc flag := by
  unfold State.startCtx
  refine ⟨⟨fun r hp hr => ?_, rfl⟩, beside_updCtx p _ (beside_updCtx q _ (OnlyContext.of_issued s p).rest), ?_, ?_⟩
  · rw [State.setS, State.ctx_updCtx_ne _ _ hp, State.ctx_updCtx_ne _ _ hr, State.ctx_issued_ne s hp]
  · rw [State.ctx_setS_same, State.ctx_updCtx_ne _ _ hq.symm, State.ctx_issued_same]
  · rw [State.setS, State.ctx_updCtx_ne _ _ hq, State.ctx_updCtx_same, State.ctx_issued_ne s hq]
    rfl

/-- An outcome that is one of two states, where a property says of each what it is to be. -/
theorem Completes.ite {c d : Prop} [Decidable c] [Decidable d] {a b : State} {P Q : State → Prop} (hcd : c ↔ d)
    (ha : d → P a) (hb : ¬ d → Completes (.next b) Q) :
    Completes (.next (if c then a else b)) (fun t => if d then P t else Q t) := by
  by_cases hd : d
  · exact ⟨a, by rw [if_pos (hcd.mpr hd)], by simpa only [if_pos hd] using ha hd⟩
  · obtain ⟨t, ht, hQ⟩ := hb hd
    exact ⟨t, by rw [if_neg (mt hcd.mp hd), ht], by simpa only [if_neg hd] using hQ⟩

/-- CSTART as it issues: the results 3, 2 and 1 of R161 in their order, else the start. -/
theorem exec_cstart (f : LayZ)
    (h : Issues s p { s := [f.sd, f.sa, f.sb, f.sf] } {} (firstFault [must (f.zero = 0) 0x03,
      must ((flagOf ((s.ctx p).getS f.sf)).all (fun id => s.flagPart id.toNat = some (s.partNum p.core))) 0x06])) :
    let q := targetZ s p f
    let u := s.issued p
    exec (.cstart p f) s = .next (
      if !s.inPart (s.partNum p.core) q.core then u.setS p f.sd 3
      else if !s.controls p q then u.setS p f.sd 2
      else if (s.ctx q).state ≠ .idle && (s.ctx q).state ≠ .faulted then u.setS p f.sd 1
      else (u.startCtx q ((s.ctx p).getS f.sb) (flagOf ((s.ctx p).getS f.sf)) (.ctx p)).setS p f.sd 0) := by
  rw [← State.flagOwned_eq] at h
  change execCstart p f s = _
  unfold execCstart
  exact issue_next _ h

theorem cstart_completes (f : LayZ) :
    let c := s.ctx p
    let n := s.partNum p.core
    let q : At := ⟨(c.getS f.sa).toNat, f.ctx.toNat⟩
    let x := s.ctx q
    let lead := s.leadOf n
    let flag := flagOf (c.getS f.sf)
    Issues s p { s := [f.sd, f.sa, f.sb, f.sf] } {}
        (firstFault [must (f.zero = 0) 0x03, must (flag.all (fun id => s.flagPart id.toNat = some n)) 0x06]) →
      Completes (exec (.cstart p f) s) (fun t =>
        if s.inPart n q.core = false then WritesScalar s t p f.sd 3
        else if ¬ (if q = lead then p = lead else p = lead ∨ x.controller = some (.ctx p)) then WritesScalar s t p f.sd 2
        else if x.state ≠ .idle ∧ x.state ≠ .faulted then WritesScalar s t p f.sd 1
        else Starts s t p q f.sd (c.getS f.sb) flag) := by
  intro c n q x lead flag h
  have hidle : ((s.ctx q).state ≠ .idle && (s.ctx q).state ≠ .faulted) = true ↔ x.state ≠ .idle ∧ x.state ≠ .faulted := by
    rw [Bool.and_eq_true, decide_eq_true_iff, decide_eq_true_iff]
  rw [exec_cstart f h]
  refine .ite (by rw [Bool.not_eq_true']; rfl) (fun _ => .of_setS ..) fun _ => ?_
  refine .ite (s.not_controls_iff p q) (fun _ => .of_setS ..) fun _ => ?_
  refine .ite hidle (fun _ => .of_setS ..) fun hbusy => .next (.of_issued (fun hqp => hbusy ?_) f.sd (c.getS f.sb) flag)
  rw [show x = s.ctx p from congrArg s.ctx hqp]
  rcases State.state_of_canIssue h.can with hstate | hstate <;> simp [hstate]

/-! ### CSTOP (R161) -/

/-- A context that was told to stop and waits for its issued instructions, its transaction aborted (R161). -/
def Ctx.stopping (c : Ctx) : Ctx :=
  { c with state := .stalled, stalledOn := some .stopping, tx := none, txid := if c.tx.isSome then 0 else c.txid }

/-- A stop touches the context that it names alone. -/
theorem State.ctx_stopCtx_ne (s : State) {q r : At} (hr : r ≠ q) : (s.stopCtx q).ctx r = s.ctx r := by
  unfold State.stopCtx
  dsimp only
  split
  · rfl
  · exact ((CoresBut.idleCtx _ q).others r hr).trans (State.ctx_forgetWait ..)
  · exact (CoresBut.idleCtx s q).others r hr
  · split
    · exact (CoresBut.idleCtx s q).others r hr
    · exact ((CoresBut.abortTx s q).trans (.updCtx _ q _)).others r hr

/-- A context that was told to stop (R161): idle at once where it waits or has faulted, else after its issued instructions have
retired. -/
def Ctx.stopped (c : Ctx) (unretired : Bool) : Ctx :=
  match c.state with
  | .idle => c
  | .waiting => c.idled
  | .faulted => c.idled
  | _ => if unretired then c.stopping else c.idled

theorem State.ctx_stopCtx_busy (s : State) (q : At) :
    (if !s.unretired q then s.idleCtx q
      else (s.abortTx q).updCtx q (fun c => { c with state := .stalled, stalledOn := some .stopping })).ctx q
      = if s.unretired q then (s.ctx q).stopping else (s.ctx q).idled := by
  cases s.unretired q with
  | false => exact s.ctx_idleCtx q
  | true =>
    simp only [Bool.not_true, Bool.false_eq_true, if_false, if_true]
    rw [State.ctx_updCtx_same, State.ctx_abortTx]
    rfl

theorem State.ctx_stopCtx (s : State) (q : At) : (s.stopCtx q).ctx q = (s.ctx q).stopped (s.unretired q) := by
  unfold State.stopCtx Ctx.stopped
  dsimp only
  cases hstate : (s.ctx q).state with
  | idle => rfl
  | ready => exact s.ctx_stopCtx_busy q
  | stalled => exact s.ctx_stopCtx_busy q
  | waiting => exact ((s.forgetWait q).ctx_idleCtx q).trans (congrArg Ctx.idled (State.ctx_forgetWait ..))
  | faulted => exact s.ctx_idleCtx q

/-- A stop leaves the scalar registers. -/
theorem Ctx.stopped_s (c : Ctx) (unretired : Bool) : (c.stopped unretired).s = c.s := by
  unfold Ctx.stopped
  split <;> (try split) <;> rfl

/-- What a context's issued instructions still wait for, by its work in flight, its products and the operations on their way. -/
theorem State.unretired_congr {t : State} {q : At} (hloads : (t.ctx q).loads = (s.ctx q).loads) (hstores : (t.ctx q).stores = (s.ctx q).stores)
    (hmoves : (t.ctx q).moves = (s.ctx q).moves) (htiles : (t.core q.core).tiles = (s.core q.core).tiles)
    (hsent : t.sync.inflight = s.sync.inflight) : t.unretired q = s.unretired q := by
  unfold State.unretired Ctx.drained
  dsimp only
  rw [hloads, hstores, hmoves, htiles, hsent]

/-- The state in which CSTOP has issued and written 0, before the stop. -/
def State.stopIssued (s : State) (p : At) (sd : BitVec 5) : State := (s.issued p).setS p sd 0

theorem State.ctx_stopIssued_same (sd : BitVec 5) : (s.stopIssued p sd).ctx p = (s.ctx p).advanced.setS sd 0 := by
  rw [State.stopIssued, State.ctx_setS_same, State.ctx_issued_same]

theorem State.ctx_stopIssued_ne {q : At} (hq : q ≠ p) (sd : BitVec 5) : (s.stopIssued p sd).ctx q = s.ctx q := by
  rw [State.stopIssued, State.setS, State.ctx_updCtx_ne _ _ hq, State.ctx_issued_ne s hq]

theorem State.unretired_stopIssued (q : At) (sd : BitVec 5) : (s.stopIssued p sd).unretired q = s.unretired q := by
  have htiles : ((s.stopIssued p sd).core q.core).tiles = (s.core q.core).tiles :=
    (State.core_updCtx (s.issued p) p (fun c => c.setS sd 0) q.core).1.trans (s.units_issued p q.core).1
  by_cases hq : q = p
  · subst hq
    have hctx := State.ctx_stopIssued_same (s := s) (p := q) sd
    rw [Ctx.setS_eq] at hctx
    refine State.unretired_congr ?_ ?_ ?_ htiles rfl <;> rw [hctx] <;> rfl
  · have hctx := State.ctx_stopIssued_ne (s := s) hq sd
    exact State.unretired_congr (by rw [hctx]) (by rw [hctx]) (by rw [hctx]) htiles rfl

/-- Context `p` has issued and written 0 to `sd`, and context `q` was told to stop (R161). -/
structure Stops (s t : State) (p q : At) (sd : BitVec 5) : Prop where
  others : ∀ r, r ≠ p → r ≠ q → t.ctx r = s.ctx r
  mem : t.mem = s.mem
  regs : ∀ r, (t.ctx p).getS r = if r = 0 then 0 else if r = sd then 0 else (s.ctx p).getS r
  target : q ≠ p → t.ctx q = (s.ctx q).stopped (s.unretired q)
  self : q = p → t.ctx p = ((s.ctx p).advanced.setS sd 0).stopped (s.unretired p)

theorem Stops.of_issued (q : At) (sd : BitVec 5) : Stops s ((s.stopIssued p sd).stopCtx q) p q sd where
  others := fun r hp hq => (State.ctx_stopCtx_ne _ hq).trans (State.ctx_stopIssued_ne hp sd)
  mem := (State.stopCtx_bytes ..).1
  regs := fun r => by
    have hs : (((s.stopIssued p sd).stopCtx q).ctx p).s = ((s.ctx p).advanced.setS sd 0).s := by
      by_cases hq : q = p
      · subst hq
        rw [State.ctx_stopCtx, Ctx.stopped_s, State.ctx_stopIssued_same]
      · rw [State.ctx_stopCtx_ne _ (Ne.symm hq), State.ctx_stopIssued_same]
    rw [Ctx.getS_congr hs, Ctx.getS_setS]
    rfl
  target := fun hq => by rw [State.ctx_stopCtx, State.ctx_stopIssued_ne hq, State.unretired_stopIssued]
  self := fun hq => by
    subst hq
    rw [State.ctx_stopCtx, State.ctx_stopIssued_same, State.unretired_stopIssued]

/-- What CSTOP does to the context named, by its state before (R161). -/
theorem Stops.outcome {t : State} {q : At} {sd : BitVec 5} (h : Stops s t p q sd)
    (hissuer : (s.ctx p).state = .ready ∨ (s.ctx p).state = .stalled) :
    ((s.ctx q).state = .idle → t.ctx q = s.ctx q)
      ∧ ((s.ctx q).state = .waiting ∨ (s.ctx q).state = .faulted ∨ ((s.ctx q).state ≠ .idle ∧ s.unretired q = false) →
          (t.ctx q).state = .idle ∧ (t.ctx q).tx = none)
      ∧ ((s.ctx q).state = .ready ∨ (s.ctx q).state = .stalled → s.unretired q = true →
          (t.ctx q).state = .stalled ∧ (t.ctx q).stalledOn = some .stopping ∧ (t.ctx q).tx = none) := by
  by_cases hq : q = p
  · subst hq
    have hready : ((s.ctx q).advanced.setS sd 0).state = .ready := by
      rw [Ctx.setS_eq]
      rfl
    rw [h.self rfl, Ctx.stopped, hready]
    dsimp only
    refine ⟨fun hidle => ?_, fun hnow => ?_, fun _ hlater => ?_⟩
    · rcases hissuer with hstate | hstate <;> simp [hstate] at hidle
    · have hretired : s.unretired q = false := by
        rcases hissuer with hstate | hstate <;> simpa [hstate] using hnow
      rw [hretired]
      exact ⟨rfl, rfl⟩
    · rw [hlater]
      exact ⟨rfl, rfl, rfl⟩
  · rw [h.target hq, Ctx.stopped]
    cases hstate : (s.ctx q).state with
    | idle => simp
    | waiting => simp [Ctx.idled]
    | faulted => simp [Ctx.idled]
    | ready => cases s.unretired q <;> simp [Ctx.idled, Ctx.stopping]
    | stalled => cases s.unretired q <;> simp [Ctx.idled, Ctx.stopping]

/-- CSTOP as it issues: the results 3 and 2 of R161 in their order, else the stop. -/
theorem exec_cstop (f : LayZ) (h : Issues s p { s := [f.sd, f.sa] } {} (must (f.sb = 0 && f.sf = 0 && f.zero = 0) 0x03)) :
    let q := targetZ s p f
    let u := s.issued p
    exec (.cstop p f) s = .next (
      if !s.inPart (s.partNum p.core) q.core then u.setS p f.sd 3
      else if !s.controls p q then u.setS p f.sd 2
      else (s.stopIssued p f.sd).stopCtx q) := by
  change execCstop p f s = _
  unfold execCstop
  exact issue_next _ h

theorem cstop_completes (f : LayZ) :
    let c := s.ctx p
    let n := s.partNum p.core
    let q : At := ⟨(c.getS f.sa).toNat, f.ctx.toNat⟩
    let x := s.ctx q
    let lead := s.leadOf n
    Issues s p { s := [f.sd, f.sa] } {} (must (f.sb = 0 && f.sf = 0 && f.zero = 0) 0x03) →
      Completes (exec (.cstop p f) s) (fun t =>
        if s.inPart n q.core = false then WritesScalar s t p f.sd 3
        else if ¬ (if q = lead then p = lead else p = lead ∨ x.controller = some (.ctx p)) then WritesScalar s t p f.sd 2
        else ((∀ r, r ≠ p → r ≠ q → t.ctx r = s.ctx r) ∧ t.mem = s.mem)
          ∧ (∀ r, (t.ctx p).getS r = if r = 0 then 0 else if r = f.sd then 0 else c.getS r) ∧ (q ≠ p → (t.ctx q).s = x.s)
          ∧ (x.state = .idle → t.ctx q = x)
          ∧ (x.state = .waiting ∨ x.state = .faulted ∨ (x.state ≠ .idle ∧ s.unretired q = false) → (t.ctx q).state = .idle ∧ (t.ctx q).tx = none)
          ∧ (x.state = .ready ∨ x.state = .stalled → s.unretired q = true →
              (t.ctx q).state = .stalled ∧ (t.ctx q).stalledOn = some .stopping ∧ (t.ctx q).tx = none)) := by
  intro c n q x lead h
  rw [exec_cstop f h]
  refine .ite (by rw [Bool.not_eq_true']; rfl) (fun _ => .of_setS ..) fun _ => ?_
  refine .ite (s.not_controls_iff p q) (fun _ => .of_setS ..) fun _ => .next ?_
  have hstops : Stops s ((s.stopIssued p f.sd).stopCtx q) p q f.sd := .of_issued q f.sd
  exact ⟨⟨hstops.others, hstops.mem⟩, hstops.regs, fun hq => (congrArg Ctx.s (hstops.target hq)).trans (Ctx.stopped_s ..),
    hstops.outcome (State.state_of_canIssue h.can)⟩

/-! ### CSTATE (R122, R145) -/

theorem cstate_completes (f : LayZ) :
    let c := s.ctx p
    let n := s.partNum p.core
    let q : At := ⟨(c.getS f.sa).toNat, f.ctx.toNat⟩
    let x := s.ctx q
    Issues s p { s := [f.sd, f.sa] } {} (must (f.sb = 0 && f.sf = 0 && f.zero = 0) 0x03) →
      Completes (exec (.cstate p f) s) (fun t => ∃ v, WritesScalar s t p f.sd v ∧ (s.inPart n q.core = true →
        let y := if q = p then c.advanced else x
        v = BitVec.ofNat 64 (stateCode y.state * 2 ^ 29 + b2n y.watchdog * 2 ^ 28 + (waitName y.wait).1 * 2 ^ 25 + (waitName y.wait).2))) := by
  intro c n q x h
  have hshown : (s.issued p).ctx q = if q = p then c.advanced else x := by
    split
    next hq => rw [hq, State.ctx_issued_same]
    next hq => rw [State.ctx_issued_ne s hq]
  refine h.completes (eff := fun u => if s.inPart n q.core then u.setS p f.sd (BitVec.ofNat 64 (u.ctx q).stateWord)
    else (u.setS p f.sd (Config.freeWord u.free)).fresh) ?_
  dsimp only
  split
  next =>
    refine ⟨_, .of_setS .., fun _ => ?_⟩
    rw [← hshown]
    rfl
  next hout => exact ⟨_, (WritesScalar.of_setS ..).then_fresh, fun hin => absurd hin hout⟩

/-! ### STEPB (R218, R228) -/

theorem addOnce_eq {α : Type} [DecidableEq α] (l : List α) (a : α) [Decidable (a ∈ l)] : addOnce l a = l ++ if a ∈ l then [] else [a] := by
  by_cases h : a ∈ l <;> simp [addOnce, h]

/-- What the completed boundary of a step leaves of its partition's record (R218, R328, R389). -/
def Part.atStep (q : Part) (st : BitVec 16) : Part :=
  { q with
    sweepDue := q.sweepDue ++ if st ∈ q.sweepDue then [] else [st]
    sweep := q.sweep.map (fun w => { w with suspended := false })
    budget := q.budgetWritten
    change := q.change.map (fun h => if h.hold then { h with hold := false, arrived := true } else h) }

theorem State.atBoundary_eq (s : State) (n : Nat) (st : BitVec 16) :
    let v := s.updPart n (fun q => q.atStep st)
    s.atBoundary n st = (match (s.member n).pending with
      | some img => v.putImage n img
      | none => v).setHoldPoint n := by
  intro v
  unfold State.atBoundary
  simp only [addOnce_eq]
  rfl

/-- An update of a partition's record writes what the record becomes. -/
theorem State.updPart_part (s : State) (n : Nat) (f : Part → Part) : s.updPart n (fun _ => (s.updPart n f).part n) = s.updPart n f := by
  rw [State.part_updPart_same]
  rfl

theorem stepb_completes (f : LayA) :
    let n := s.partNum p.core
    let st := (s.ctx p).step
    let noted := (s.part n).stepbs ++ if (p, st) ∈ (s.part n).stepbs then [] else [(p, st)]
    let u := (s.issued p).updPart n (fun q => { q with stepbs := noted })
    Issues s p {} {} (firstFault [must (f.sd = 0 && f.sa = 0 && f.zero = 0) 0x03, must (!(s.part n).cfg.serve) 0x06]) →
      Completes (exec (.stepb p f) s) (fun t =>
        if u.boundary n st then ∃ v, BesidesIssue s (u.updPart n (fun _ => v.part n)) v p ∧ v.ctx p = (s.ctx p).advanced ∧ v.mem = s.mem
          ∧ v.part n = ({ s.part n with stepbs := noted } : Part).atStep st
          ∧ match (s.member n).pending with
            | none => t = v.setHoldPoint n
            | some img => t = (v.putImage n img).setHoldPoint n
        else BesidesIssue s u t p ∧ t.ctx p = (s.ctx p).advanced ∧ t.mem = s.mem) := by
  intro n st noted u h
  have hnoted : (s.issued p).updPart n (fun q => { q with stepbs := addOnce q.stepbs (p, st) }) = u :=
    congrArg (fun l => (s.issued p).updPart n (fun q => { q with stepbs := l })) (addOnce_eq (s.part n).stepbs (p, st))
  have he : exec (.stepb p f) s = .next (if u.boundary n st then u.atBoundary n st else u) := by
    rw [← hnoted]
    change execStepb p f s = _
    unfold execStepb
    exact issue_next _ h
  have hframe : BesidesIssue s u u p := (BesidesIssue.of_issued s p).of_cores rfl
  have hctx : u.ctx p = (s.ctx p).advanced := State.ctx_issued_same s p
  rw [he]
  refine .ite Iff.rfl (fun _ => ?_) fun _ => .next ⟨hframe, hctx, rfl⟩
  let v := u.updPart n (fun q => q.atStep st)
  have hpart : v.part n = ({ s.part n with stepbs := noted } : Part).atStep st :=
    (u.part_updPart_same n _).trans (congrArg (fun q : Part => q.atStep st) ((s.issued p).part_updPart_same n _))
  refine ⟨v, ?_, hctx, rfl, hpart, ?_⟩
  · rw [State.updPart_part]
    exact hframe.of_cores rfl
  · rw [State.atBoundary_eq]
    change match (s.member n).pending with | none => _ | some img => _
    have hmember : u.member n = s.member n := rfl
    rw [hmember]
    cases (s.member n).pending <;> rfl

/-! ### Contexts that do not issue (R98, R99) -/

theorem issue_of_not_canIssue {u : Uses} {room : Room} {check : Option (BitVec 8)} (eff : State → State) (h : s.canIssue p = false) :
    issue s p u room check eff = .next s := by
  simp [issue, h]

theorem issue_of_not_ready {u : Uses} {room : Room} {check : Option (BitVec 8)} (eff : State → State) (hcan : s.canIssue p = true)
    (hfetch : fetchFault (s.ctx p).pc = none) (hready : s.ready p u = false) :
    issue s p u room check eff = .next (s.updCtx p (fun c => { c with state := .stalled, stalledOn := some .operand })) := by
  simp [issue, hcan, hfetch, hready]

end

/-- Settles O14: each row by what its effect does to the state after `issued` (the command of a context that cannot issue leaves the
state, IFENCE holds nothing: log entry 14; HALT and CSTOP by `idleCtx` and `stopCtx`, the boundary of a step by `atBoundary`). -/
theorem systemInstructions : Obligations.SystemInstructions := by
  unfold Obligations.SystemInstructions
  refine ⟨fun s p f => ⟨fun h => ⟨?nop, ?ifence, halt_completes f h⟩, fun h => epost_completes f h, fun hcan hfetch => ?ill⟩,
    fun s p f => ⟨cstart_completes f, cstop_completes f, cstate_completes f⟩, fun s p f => stepb_completes f,
    fun s p f => ⟨fun hcan => ?idle, fun hcan hfetch hready => ?stall⟩⟩
  case nop => exact h.completes (eff := fun t => t) ⟨.of_issued s p, State.ctx_issued_same s p⟩
  case ifence => exact h.completes (eff := fun t => t) ⟨.of_issued s p, State.ctx_issued_same s p⟩
  case ill => exact issue_faults (fun t => t) hcan hfetch (by simp [State.ready]) rfl
  case idle =>
    change Completes (aluOp s p f (fun a b => a + b)) _
    exact ⟨s, issue_of_not_canIssue _ hcan, rfl⟩
  case stall =>
    change Completes (aluOp s p f (fun a b => a + b)) _
    exact ⟨_, issue_of_not_ready _ hcan hfetch hready, rfl⟩

end Sys2Proof.Machine
end

section
/-! PROOFS. The sixteen ALU rows, branches and jumps: the register or the pc that each writes (R134, R145, R148). -/

namespace Sys2Proof.Machine

/-! ### ALU rows (R134, R145) -/

theorem ofInt_min_toInt (a b : Word) : BitVec.ofInt 64 (min a.toInt b.toInt) = if a.toInt ≤ b.toInt then a else b := by
  rw [min_def, apply_ite (BitVec.ofInt 64), BitVec.ofInt_toInt, BitVec.ofInt_toInt]

theorem ofInt_max_toInt (a b : Word) : BitVec.ofInt 64 (max a.toInt b.toInt) = if a.toInt ≤ b.toInt then b else a := by
  rw [max_def, apply_ite (BitVec.ofInt 64), BitVec.ofInt_toInt, BitVec.ofInt_toInt]

theorem ofNat_min_toNat (a b : Word) : BitVec.ofNat 64 (min a.toNat b.toNat) = if a.toNat ≤ b.toNat then a else b := by
  rw [min_def, apply_ite (BitVec.ofNat 64), BitVec.ofNat_toNat, BitVec.ofNat_toNat, BitVec.setWidth_eq, BitVec.setWidth_eq]

theorem ofNat_max_toNat (a b : Word) : BitVec.ofNat 64 (max a.toNat b.toNat) = if a.toNat ≤ b.toNat then b else a := by
  rw [max_def, apply_ite (BitVec.ofNat 64), BitVec.ofNat_toNat, BitVec.ofNat_toNat, BitVec.setWidth_eq, BitVec.setWidth_eq]

/-- The zero-marked field of an ALU form, as the claims write it (R132). -/
theorem aluShape_eq (f : LayS) : aluShape f = if f.i = 1 then must (f.sb = 0) 0x03 else must (f.imm = 0) 0x03 := by
  unfold aluShape
  split <;> simp [*]

/-- An ALU row that issues writes the value of its operation to sd and nothing else. -/
theorem aluOp_writes {s : State} {p : At} {f : LayS} (op : Word → Word → Word)
    (h : Issues s p { s := [f.sd, f.sa, f.sb] } {} (if f.i = 1 then must (f.sb = 0) 0x03 else must (f.imm = 0) 0x03)) :
    Completes (aluOp s p f op) (fun t => WritesScalar s t p f.sd (op ((s.ctx p).getS f.sa) (aluB (s.ctx p) f))) := by
  rw [← aluShape_eq] at h
  exact h.completes (WritesScalar.of_setS ..)

/-- Settles O1: each row is `aluOp` at its operation. -/
theorem scalarArithmeticResults : Obligations.ScalarArithmeticResults := by
  unfold Obligations.ScalarArithmeticResults
  intro s p f h a b
  rw [ofInt_min_toInt, ofInt_max_toInt, ofNat_min_toNat, ofNat_max_toNat]
  simp only [List.forall_mem_cons]
  exact ⟨aluOp_writes (fun a b => a + b) h, aluOp_writes (fun a b => a - b) h, aluOp_writes (fun a b => a &&& b) h,
    aluOp_writes (fun a b => a ||| b) h, aluOp_writes (fun a b => a ^^^ b) h, aluOp_writes (fun a b => a <<< shAmount b) h,
    aluOp_writes (fun a b => a >>> shAmount b) h, aluOp_writes (fun a b => a.sshiftRight (shAmount b)) h,
    aluOp_writes (fun a b => a * b) h, aluOp_writes (fun a b => BitVec.ofNat 64 (a.toNat * b.toNat / 2 ^ 64)) h,
    aluOp_writes (fun a b => if a.toInt ≤ b.toInt then a else b) h, aluOp_writes (fun a b => if a.toInt ≤ b.toInt then b else a) h,
    aluOp_writes (fun a b => if a.toNat ≤ b.toNat then a else b) h, aluOp_writes (fun a b => if a.toNat ≤ b.toNat then b else a) h,
    aluOp_writes (fun a b => if a.toInt < b.toInt then 1 else 0) h, aluOp_writes (fun a b => if a.toNat < b.toNat then 1 else 0) h,
    List.forall_mem_nil _⟩

/-! ### Branches and jumps (R145, R148) -/

/-- What an instruction leaves that issues and then changes its own context alone. -/
theorem Becomes.of_updCtx (s : State) (p : At) (g : Ctx → Ctx) : Becomes s ((s.issued p).updCtx p g) p (g (s.ctx p).advanced) :=
  ⟨(OnlyContext.of_issued s p).then_updCtx g, by rw [State.ctx_updCtx_same, State.ctx_issued_same]⟩

section
variable {s : State} {p : At} {f : LayS}

theorem branchOp_becomes (take : Word → Word → Bool) (h : Issues s p { s := [f.sa, f.sb] } {} (must (f.sd = 0 && f.i = 0) 0x03)) :
    let c := s.ctx p
    Completes (branchOp s p f take) (fun t => Becomes s t p
      { c.advanced with pc := if take (c.getS f.sa) (c.getS f.sb) then c.pc + 8 * f.imm.signExtend 64 else c.pc + 8 }) := by
  intro c
  refine h.completes ?_
  cases take (c.getS f.sa) (c.getS f.sb) with
  | true => exact .of_updCtx s p (fun x => { x with pc := c.pc + 8 * disp f })
  | false => exact ⟨.of_issued s p, State.ctx_issued_same s p⟩

theorem jumpTo_becomes {u : Uses} {check : Option (BitVec 8)} (target : Word) (h : Issues s p u {} check) :
    let c := s.ctx p
    Completes (issue s p u {} check (fun t => jumpTo s t p f.sd target)) (fun t =>
      Becomes s t p { c.advanced.setS f.sd (c.pc + 8) with pc := target }) :=
  h.completes ⟨((OnlyContext.of_issued s p).then_updCtx _).then_updCtx _, by
    rw [jumpTo, State.ctx_updCtx_same, State.ctx_setS_same, State.ctx_issued_same]⟩

end

/-- Settles O2: a branch is `branchOp` at its comparison, JAL and JALR are `jumpTo` (displacement sign-extended: log entry 11). -/
theorem branchesAndJumps : Obligations.BranchesAndJumps := by
  unfold Obligations.BranchesAndJumps
  intro s p f c a b far
  refine ⟨fun h => ?branch, fun h => ?jal, fun h => ?jalr⟩
  case branch =>
    simp only [List.forall_mem_cons]
    exact ⟨branchOp_becomes (fun a b => a = b) h, branchOp_becomes (fun a b => a ≠ b) h,
      branchOp_becomes (fun a b => a.toInt < b.toInt) h, branchOp_becomes (fun a b => b.toInt ≤ a.toInt) h,
      branchOp_becomes (fun a b => a.toNat < b.toNat) h, branchOp_becomes (fun a b => b.toNat ≤ a.toNat) h, List.forall_mem_nil _⟩
  case jal => exact jumpTo_becomes (f := f) far h
  case jalr => exact jumpTo_becomes (f := f) a h

end Sys2Proof.Machine
end

section
/-! PROOFS. The fetch and the checks that fail: the context faults with the cause of the first (R132, R148, R156, R157). -/

namespace Sys2Proof.Machine

section
variable {s : State} {p : At} {cause : BitVec 8} {u : Uses} {room : Room} {check : Option (BitVec 8)}

/-- An instruction that cannot be fetched faults its context (R148). -/
theorem issue_fetch_faults (eff : State → State) (hcan : s.canIssue p = true) (hfetch : fetchFault (s.ctx p).pc = some cause) :
    Completes (issue s p u room check eff) (fun t => Faults s t p cause) := by
  have he : issue s p u room check eff = .next (s.issueFault p cause) := by
    simp [issue, hcan, hfetch]
  rw [he]
  exact .next (issueFault_faults s p cause)

/-- One whose check fails faults its context where operands and room are there (R132). -/
theorem issue_check_faults (eff : State → State) (hcan : s.canIssue p = true) (hfetch : fetchFault (s.ctx p).pc = none)
    (hready : s.ready p u = true) (hroom : room.full = false) (hcheck : check = some cause) :
    Completes (issue s p u room check eff) (fun t => Faults s t p cause) := by
  rw [hcheck]
  exact issue_faults eff hcan hfetch hready hroom

end

/-- Settles O15: every row is an `issue`, whose fetch comes before its checks (the weights field of a gather: log entry 61). -/
theorem failedChecksFault : Obligations.FailedChecksFault := by
  unfold Obligations.FailedChecksFault
  intro s p cause hcan c n Fails
  have add (f : LayS) : Fails (.add p f) = Completes (aluOp s p f (fun a b => a + b)) (fun t => Faults s t p cause) := rfl
  have ld (f : LayS) (sub : BitVec 8) : Fails (.ld p f sub) = Completes (execLd p f sub s) (fun t => Faults s t p cause) := rfl
  have vabs (f : LayV) : Fails (.vabs p f) = Completes (execVabs p f s) (fun t => Faults s t p cause) := rfl
  have txb (f : LayA) : Fails (.txb p f) = Completes (execTxb p f s) (fun t => Faults s t p cause) := rfl
  have rgath (f : LayA) : Fails (.rgath p f) = Completes (execRgath p f s) (fun t => Faults s t p cause) := rfl
  simp only [add, ld, vabs, txb, rgath, aluOp, execLd, execVabs, vec1, execTxb, execRgath, aluShape_eq]
  refine ⟨fun hfetch f g h => ?fetch, fun hfetch => ⟨fun f hready hcheck => ?add, fun f sub hready hroom hcheck => ?ld,
    fun f hready hroom hcheck => ?vabs, fun f hready hcheck => ?txb, fun f hready hroom hcheck => ?rgath⟩⟩
  case fetch =>
    exact ⟨issue_fetch_faults _ hcan hfetch, issue_fetch_faults _ hcan hfetch, issue_fetch_faults _ hcan hfetch,
      issue_fetch_faults _ hcan hfetch⟩
  case add => exact issue_check_faults _ hcan hfetch hready rfl hcheck
  case ld => exact issue_check_faults _ hcan hfetch hready hroom hcheck
  case vabs => exact issue_check_faults _ hcan hfetch hready hroom hcheck
  case txb => exact issue_check_faults _ hcan hfetch hready rfl hcheck
  case rgath => exact issue_check_faults _ hcan hfetch hready hroom hcheck

end Sys2Proof.Machine
end

section
/-! PROOFS. TXB, TXC and TXA: a transaction of a context opens under a free id, is prepared or ends with its code, and is dropped
(R154, R239, R251, R254, R255). -/

namespace Sys2Proof.Machine

/-! ### The records of a transaction do not look at cores, free values or power -/

section
variable (t : State) (c : Tab Core) (f : Nat) (w : PowerState)

theorem State.leadCore_besides (n : Nat) : ({ t with cores := c, free := f, power := w } : State).leadCore n = t.leadCore n := rfl

theorem State.desc_besides (n core : Nat) (a : Word) :
    ({ t with cores := c, free := f, power := w } : State).desc n core a = t.desc n core a := by
  simp only [State.desc, State.readDev_besides]

theorem State.rowsAt_besides (n : Nat) (a : Word) (len : Nat) :
    ({ t with cores := c, free := f, power := w } : State).rowsAt n a len = t.rowsAt n a len := by
  simp only [State.rowsAt, State.objsAt_besides, State.linear_besides, State.part_besides]

theorem State.denseVersions_besides (n : Nat) (a : Word) (len : Nat) :
    ({ t with cores := c, free := f, power := w } : State).denseVersions n a len = t.denseVersions n a len := by
  simp only [State.denseVersions, State.part_besides, State.leadCore_besides, State.desc_besides, State.linear_besides, State.sharePlace_besides]

theorem State.verWords_besides (n : Nat) (l : List JEntry) :
    ({ t with cores := c, free := f, power := w } : State).verWords n l = t.verWords n l := by
  simp only [State.verWords, State.rowsAt_besides, State.denseVersions_besides]

theorem State.finalEntries_besides (x : Tx) : ({ t with cores := c, free := f, power := w } : State).finalEntries x = t.finalEntries x := by
  simp only [State.finalEntries, State.nextVersion, State.verWords_besides, State.readDev_besides, State.leadCore_besides]

theorem State.txDies_besides (x : Tx) : ({ t with cores := c, free := f, power := w } : State).txDies x = t.txDies x := by
  simp only [State.txDies, State.keysOf_besides]

theorem State.entryOn_besides (n d : Nat) (e : JEntry) :
    ({ t with cores := c, free := f, power := w } : State).entryOn n d e = t.entryOn n d e := by
  simp only [State.entryOn, State.keysOf_besides]

theorem State.txView_besides (x : Tx) :
    ({ t with cores := c, free := f, power := w } : State).txView x = { t.txView x with cores := c, free := f, power := w } := by
  unfold State.txView
  split <;> rfl

theorem State.records_besides (x : Tx) : ({ t with cores := c, free := f, power := w } : State).records x = t.records x := by
  unfold State.records
  rw [State.txView_besides]
  simp only [State.finalEntries_besides, State.txDies_besides]
  rw [show State.entryOn _ = _ from funext fun n => funext fun d => funext fun e => State.entryOn_besides (t.txView x) c f w n d e]

end

theorem State.records_issued (s : State) (p : At) (x : Tx) : (s.issued p).records x = s.records x :=
  State.records_besides s (s.issued p).cores (s.issued p).free (s.issued p).power x

/-! ### The id of a transaction (R154) -/

/-- Among fewer than 65,535 ids in use some other one is not 0. -/
theorem exists_free_txid (used : List (BitVec 16)) (h : used.length < 65535) : ∃ x : BitVec 16, x ≠ 0 ∧ x ∉ used := by
  by_contra hall
  push Not at hall
  have hsub : (Finset.univ : Finset (BitVec 16)) ⊆ insert 0 used.toFinset := fun x _ => by
    by_cases hx : x = 0
    · exact Finset.mem_insert.mpr (.inl hx)
    · exact Finset.mem_insert_of_mem (List.mem_toFinset.mpr (hall x hx))
  have hcard := (Finset.card_le_card hsub).trans ((Finset.card_insert_le _ _).trans (Nat.succ_le_succ used.toFinset_card_le))
  rw [Finset.card_univ, Fintype.card_congr BitVec.equivFin.toEquiv, Fintype.card_fin] at hcard
  omega

/-- The ids from any start on are all of them. -/
theorem mem_ids_from (start : Nat) (x : BitVec 16) : x ∈ (List.range 65536).map (fun i => BitVec.ofNat 16 (start + i)) := by
  refine List.mem_map.mpr ⟨(x.toNat + 65536 - start % 65536) % 65536, List.mem_range.mpr (Nat.mod_lt _ (by decide)), ?_⟩
  have hx := x.isLt
  refine BitVec.eq_of_toNat_eq ?_
  rw [BitVec.toNat_ofNat]
  omega

/-- TXB finds an id that is not 0 and that no open transaction of the partition has. -/
theorem State.pickTxid_free (s : State) (n : Nat) (h : (s.tx.txs.filter (fun y => y.part = n)).length < 65535) :
    s.pickTxid n ≠ 0 ∧ ∀ y ∈ s.tx.txs, y.part = n → y.txid ≠ s.pickTxid n := by
  obtain ⟨x, hx0, hx⟩ := exists_free_txid ((s.tx.txs.filter (fun y => y.part = n)).map (·.txid)) (by rwa [List.length_map])
  unfold State.pickTxid
  dsimp only
  generalize hfind : List.find? _ _ = found
  cases found with
  | none =>
    have hnone := List.find?_eq_none.mp hfind x (mem_ids_from _ x)
    simp only [Bool.and_eq_true, decide_eq_true_eq, not_and, not_not] at hnone
    exact absurd (hnone hx0) hx
  | some id =>
    have hid := List.find?_some hfind
    simp only [Bool.and_eq_true, decide_eq_true_eq, List.mem_map, List.mem_filter, not_exists, not_and] at hid
    exact ⟨hid.1, fun y hy hn heq => hid.2 y ⟨hy, hn⟩ heq⟩

/-! ### What an issue leaves that changes transactions and clusters -/

/-- Of the state `s` only transactions and clusters have changed. -/
def TxOnly (s t : State) : Prop := t = { s with tx := t.tx, clusters := t.clusters }

theorem TxOnly.trans {s t u : State} (h : TxOnly s t) (k : TxOnly t u) : TxOnly s u := by
  unfold TxOnly at *
  rw [k, h]

theorem TxOnly.gateWaited (s : State) (num : Nat) : TxOnly s (s.gateWaited num) := by
  unfold State.gateWaited
  split
  · split <;> exact rfl
  · exact rfl

theorem TxOnly.dropTx (s : State) (num : Nat) : TxOnly s (s.dropTx num) :=
  (TxOnly.gateWaited s num).trans rfl

/-- Such a change passes through the frame of an issue. -/
theorem BesidesIssue.then_txOnly {s u t v : State} {p : At} (h : BesidesIssue s u t p) (k : TxOnly t v) :
    BesidesIssue s { u with tx := v.tx, clusters := v.clusters } v p := by
  unfold TxOnly at k
  generalize v.tx = x, v.clusters = c at k ⊢
  subst k
  exact h.then_beside (g := fun w => { w with tx := x, clusters := c }) ⟨fun _ _ _ _ => rfl⟩

theorem TxOnly.ctx {s t : State} (h : TxOnly s t) (p : At) : t.ctx p = s.ctx p :=
  State.ctx_of_cores (congrArg State.cores h) p

/-- A dropped transaction is gone and the others stay (R255). -/
theorem State.mem_dropTx (s : State) (num : Nat) (x : Tx) : x ∈ (s.dropTx num).tx.txs ↔ x ∈ s.tx.txs ∧ x.num ≠ num := by
  have htxs : (s.gateWaited num).tx = s.tx := by
    unfold State.gateWaited
    split
    · split <;> rfl
    · rfl
  unfold State.dropTx
  simp [htxs]

/-- The wait on the hold-up gate is no count of aborts (R264). -/
theorem State.txAborts_dropTx (s : State) (num k : Nat) : ((s.dropTx num).cluster k).cnt.txAborts = (s.cluster k).cnt.txAborts := by
  change ((s.gateWaited num).cluster k).cnt.txAborts = _
  unfold State.gateWaited
  split
  · split
    next x _ _ g _ =>
      unfold State.updSw
      by_cases hk : k = x.cluster
      · subst hk
        rw [State.cluster_updCluster_same]
      · rw [State.cluster_updCluster_ne _ _ _ hk]
    · rfl
  · rfl

/-! ### TXB -/

/-- The transaction that a context opens under an id (R154, R251). -/
def State.newTx (s : State) (p : At) (id : BitVec 16) : Tx :=
  { num := s.tx.nextTx, part := s.partNum p.core, coord := coreDie p.core, txid := id, epoch := (s.cluster (coreCluster p.core)).epoch,
    origin := .context p, cluster := coreCluster p.core, step := fullStep (s.part (s.partNum p.core)).lastStarted (s.ctx p).step }

/-- The transactions with one more. -/
def State.withTx (s : State) (x : Tx) : State := { s with tx := { s.tx with txs := s.tx.txs ++ [x], nextTx := s.tx.nextTx + 1 } }

/-- The context that opened a transaction: its id stands in the tag state and in sd (R154). -/
def Ctx.opened (c : Ctx) (sd : BitVec 5) (x : Tx) : Ctx := { c with tx := some x.num, txid := x.txid }.setS sd (x.txid.setWidth 64)

theorem besidesCores_withTx (x : Tx) : BesidesCores (fun t => t.withTx x) := ⟨fun _ _ _ _ => rfl⟩

section
variable {s : State} {p : At} {f : LayA}

theorem txb_completes (h : Issues s p { s := [f.sd] } {}
      (firstFault [must (f.sa = 0 && f.zero = 0) 0x03, must (!(s.part (s.partNum p.core)).cfg.serve) 0x06, must (s.ctx p).tx.isNone 0x09])) :
    let c := s.ctx p
    let n := s.partNum p.core
    Completes (exec (.txb p f) s) (fun t => ∃ x : Tx, t.tx = { s.tx with txs := s.tx.txs ++ [x], nextTx := s.tx.nextTx + 1 } ∧ x.num = s.tx.nextTx ∧ x.part = n
      ∧ x.origin = .context p ∧ x.entries = [] ∧ x.phase = .opened ∧ x.coord = coreDie p.core ∧ x.epoch = (s.cluster (coreCluster p.core)).epoch
      ∧ x.step = fullStep (s.part n).lastStarted c.step
      ∧ ((s.tx.txs.filter (fun y => y.part = n)).length < 65535 → x.txid ≠ 0 ∧ ∀ y ∈ s.tx.txs, y.part = n → y.txid ≠ x.txid)
      ∧ t.ctx p = { c.advanced with tx := some x.num, txid := x.txid }.setS f.sd (x.txid.setWidth 64) ∧ BesidesIssue s { s with tx := t.tx } t p) := by
  intro c n
  have hid := s.pickTxid_free n
  change Completes (execTxb p f s) _
  unfold execTxb
  dsimp only
  generalize s.pickTxid n = id at hid ⊢
  have hframe : BesidesIssue s (s.withTx (s.newTx p id)) (((s.issued p).withTx (s.newTx p id)).updCtx p (·.opened f.sd (s.newTx p id))).fresh p :=
    (((OnlyContext.of_issued s p).then_beside (besidesCores_withTx _)).then_updCtx _).then_fresh
  refine h.completes ⟨s.newTx p id, rfl, rfl, rfl, rfl, rfl, rfl, rfl, rfl, rfl, hid, ?_, hframe⟩
  rw [State.ctx_fresh, State.ctx_updCtx_same]
  exact congrArg (·.opened f.sd (s.newTx p id)) (State.ctx_issued_same s p)

/-! ### TXC -/

theorem txc_waits (hcan : s.canIssue p = true) (hmoves : (s.ctx p).txMoves = true) :
    Completes (exec (.txc p f) s) (fun t => t = s.holdAt p (s.ctx p).pc .operand) := by
  change Completes (execTxc p f s) _
  rw [execTxc, if_pos (by simp [hcan, hmoves])]
  exact .next rfl

/-- A transaction as TXC ends or prepares it: with the step that its context now works for. -/
def State.stepped (s : State) (p : At) (x : Tx) : Tx := { x with step := fullStep (s.part x.part).lastStarted (s.ctx p).step }

/-- What TXC does to a transaction that no move holds up. -/
def State.commitTx (s t : State) (p : At) (sd : BitVec 5) (y : Tx) : State :=
  match s.txCode y with
  | some code => t.endTx p sd y.num code
  | none => (t.prepareTx y).holdAt p (s.ctx p).pc (.commit y.num sd)

theorem exec_txc {num : Nat} {x : Tx} (htx : (s.ctx p).tx = some num) (hx : s.txn num = some x) (hmoves : (s.ctx p).txMoves = false)
    (h : Issues s p { s := [f.sd] } {} (firstFault [must (f.sa = 0 && f.zero = 0) 0x03, must (s.ctx p).tx.isSome 0x09])) :
    exec (.txc p f) s = .next (s.commitTx (s.issued p) p f.sd (s.stepped p x)) := by
  change execTxc p f s = _
  rw [execTxc, if_neg (by simp [hmoves]), issue_next _ h, htx]
  simp only [Option.bind_some, hx]
  rfl

theorem endTx_frame {u : State} (hu : BesidesIssue s s u p) (sd : BitVec 5) (num code : Nat) :
    let t := u.endTx p sd num code
    t.mem = u.mem ∧ BesidesIssue s { s with tx := t.tx, clusters := t.clusters } t p
      ∧ (∀ z, z ∈ t.tx.txs ↔ z ∈ u.tx.txs ∧ z.num ≠ num)
      ∧ t.ctx p = ({ u.ctx p with tx := none, txid := 0 } : Ctx).setS sd (BitVec.ofNat 64 code) := by
  intro t
  let v : State := (u.dropTx num).updCtx p (fun c => ({ c with tx := none, txid := 0 }).setS sd (BitVec.ofNat 64 code))
  have hv : BesidesIssue s { s with tx := v.tx, clusters := v.clusters } v p := (hu.then_txOnly (.dropTx u num)).then_updCtx _
  have hctx : v.ctx p = ({ u.ctx p with tx := none, txid := 0 } : Ctx).setS sd (BitVec.ofNat 64 code) := by
    rw [State.ctx_updCtx_same, (TxOnly.dropTx u num).ctx]
  have hmem : v.mem = u.mem := (State.dropTx_bytes u num).1
  have htx : t.tx = v.tx := by
    simp only [t, State.endTx]
    split <;> rfl
  have hkeep : TxOnly v t := by
    simp only [t, State.endTx]
    split <;> exact rfl
  refine ⟨(congrArg State.mem hkeep :).trans hmem, hv.then_txOnly hkeep, ?_, (hkeep.ctx p).trans hctx⟩
  rw [htx]
  exact State.mem_dropTx u num

theorem txc_completes {num : Nat} {x : Tx} (htx : (s.ctx p).tx = some num) (hx : s.txn num = some x) (hmoves : (s.ctx p).txMoves = false)
    (h : Issues s p { s := [f.sd] } {} (firstFault [must (f.sa = 0 && f.zero = 0) 0x03, must (s.ctx p).tx.isSome 0x09])) :
    let c := s.ctx p
    let y := s.stepped p x
    Completes (exec (.txc p f) s) (fun t => t.mem = s.mem ∧ BesidesIssue s { s with tx := t.tx, clusters := t.clusters } t p ∧
      match s.txCode y with
      | some code => (∀ z, z ∈ t.tx.txs ↔ z ∈ s.tx.txs ∧ z.num ≠ x.num)
        ∧ t.ctx p = ({ c.advanced with tx := none, txid := 0 } : Ctx).setS f.sd (BitVec.ofNat 64 code)
      | none => t.clusters = s.clusters ∧ (∃ z ∈ t.tx.txs, z = { y with phase := .preparing, prepared := [] })
        ∧ t.tx.waiting = s.tx.waiting ++ s.records { y with phase := .preparing, prepared := [] }
        ∧ t.ctx p = { c with state := .stalled, stalledOn := some (.commit x.num f.sd) }) := by
  intro c y
  rw [exec_txc htx hx hmoves h]
  refine .next ?_
  unfold State.commitTx
  have hissued := OnlyContext.of_issued s p
  cases s.txCode y with
  | some code =>
    obtain ⟨hmem, hframe, htxs, hctx⟩ := endTx_frame hissued f.sd x.num code
    rw [State.ctx_issued_same] at hctx
    exact ⟨hmem, hframe, htxs, hctx⟩
  | none =>
    have hprep : TxOnly (s.issued p) ((s.issued p).prepareTx y) := rfl
    refine ⟨rfl, (hissued.then_txOnly hprep).then_updCtx _, rfl, ⟨_, List.mem_append_right _ (List.mem_singleton.mpr rfl), rfl⟩, ?_, ?_⟩
    · exact congrArg (s.tx.waiting ++ ·) (State.records_issued s p _)
    · dsimp only [State.holdAt]
      rw [State.ctx_updCtx_same, hprep.ctx, State.ctx_issued_same]
      rfl

/-! ### TXA -/

theorem txa_completes {num : Nat} (htx : (s.ctx p).tx = some num) (hopen : ∀ x ∈ s.tx.txs, x.num = num → x.phase = .opened)
    (h : Issues s p {} {} (firstFault [must (f.sd = 0 && f.sa = 0 && f.zero = 0) 0x03, must (s.ctx p).tx.isSome 0x09])) :
    let cl := coreCluster p.core
    Completes (exec (.txa p f) s) (fun t => (∀ x, x ∈ t.tx.txs ↔ x ∈ s.tx.txs ∧ x.num ≠ num)
      ∧ t.ctx p = { (s.ctx p).advanced with tx := none, txid := 0 } ∧ t.mem = s.mem
      ∧ BesidesIssue s { s with tx := t.tx, clusters := t.clusters } t p
      ∧ (t.cluster cl).cnt.txAborts = sat64 ((s.cluster cl).cnt.txAborts + 1)) := by
  intro cl
  let v : State := (s.issued p).updCtx p (fun c => { c with tx := none, txid := 0 })
  have hlive : ¬ (s.tx.txs.any (fun t => t.num = num && (t.phase = .durable || t.phase = .retired))) = true := by
    simp only [List.any_eq_true, Bool.and_eq_true, Bool.or_eq_true, decide_eq_true_eq, not_exists, not_and, not_or]
    exact fun x hx hnum => by simp [hopen x hx hnum]
  have habort : (s.issued p).abortTx p
      = (v.dropTx num).updCluster cl (fun c => { c with cnt := { c.cnt with txAborts := sat64 (c.cnt.txAborts + 1) } }) := by
    have htx' : ((s.issued p).ctx p).tx = some num := by
      rw [State.ctx_issued_same]
      exact htx
    rw [State.abortTx, htx']
    exact if_neg hlive
  have hkeep : TxOnly v ((s.issued p).abortTx p) := by
    rw [habort]
    exact (TxOnly.dropTx v num).trans rfl
  have hv : BesidesIssue s s v p := (OnlyContext.of_issued s p).then_updCtx _
  refine h.completes (eff := fun t => t.abortTx p) ⟨?_, ?_, (State.abortTx_bytes ..).1, hv.then_txOnly hkeep, ?_⟩
  · rw [habort]
    exact State.mem_dropTx v num
  · rw [hkeep.ctx, State.ctx_updCtx_same, State.ctx_issued_same]
  · rw [habort, State.cluster_updCluster_same]
    exact congrArg (fun k => sat64 (k + 1)) (State.txAborts_dropTx v num cl)

end

/-- Settles O13: TXB opens under `pickTxid`, TXC is `commitTx` once no move holds it up, TXA is `abortTx` (writes inside a
transaction and moves before TXC: log entry 19). -/
theorem contextTransactions : Obligations.ContextTransactions := by
  unfold Obligations.ContextTransactions
  intro s p f c n cl
  exact ⟨txb_completes, txc_waits, fun num x htx hx hmoves h => txc_completes htx hx hmoves h,
    fun num htx hopen h => txa_completes htx hopen h⟩

end Sys2Proof.Machine
end

section
/-! PROOFS. RGATH and RGRAD, RPREL, RSTAT and RSALT: the job that joins its row engine, the rows that fill the rick cache, the record
of a table's counters and the re-salt that starts (R155, R181, R201, R210, R216, R217). -/

namespace Sys2Proof.Machine

/-! ### Frames of the shared operations -/

/-- A completion action touches the sync stores alone (R152). -/
theorem State.action_eq (s : State) (n : Nat) (tag : Word) (ck : BitVec 2) (ct : BitVec 17) :
    s.action n tag ck ct = { s with sync := (s.action n tag ck ct).sync } := by
  unfold State.action
  dsimp only
  split <;> rfl

theorem besidesCores_writeDev (n core : Nat) (a : Word) (data : List Byte) (b : Bool) :
    BesidesCores (fun t => t.writeDev n core a data b) :=
  ⟨fun t c f w => State.writeDev_besides t c f w n core a data b⟩

/-- A table's counters stand in the partition's record of it (R217). -/
theorem State.countTable_eq (s : State) (n t i k : Nat) : s.countTable n t i k = { s with parts := (s.countTable n t i k).parts } := rfl

theorem State.countKinds_eq (s : State) (own t : Nat) (fs : Tab Fetch) :
    s.countKinds own t fs = { s with parts := (s.countKinds own t fs).parts } := rfl

theorem besidesCores_countTable (n t i k : Nat) : BesidesCores (fun s => s.countTable n t i k) := ⟨fun _ _ _ _ => rfl⟩

theorem besidesCores_countKinds (own t : Nat) (fs : Tab Fetch) : BesidesCores (fun s => s.countKinds own t fs) := ⟨fun _ _ _ _ => rfl⟩

/-- A unit at work takes its power share, which the frame of an issue leaves open (R317). -/
theorem BesidesIssue.then_active {s u t : State} {p : At} (h : BesidesIssue s u t p) (x : UnitRef) : BesidesIssue s u (t.active x) p where
  rest := by
    have e : t.active x = { t with power := (t.active x).power } := rfl
    rw [e, h.rest]
    rfl
  others := h.others
  cores := h.cores
  units := h.units
  issued := h.issued

/-- What an effect that leaves the cores leaves of an issue. -/
theorem BesidesIssue.of_issued_cores {s t : State} {p : At} (h : t.cores = (s.issued p).cores) : BesidesIssue s t t p :=
  (BesidesIssue.of_issued s p).then_coresBut (.of_cores h)

theorem State.ctx_of_issued_cores {s t : State} {p : At} (h : t.cores = (s.issued p).cores) : t.ctx p = (s.ctx p).advanced :=
  (State.ctx_of_cores h p).trans (State.ctx_issued_same s p)

section
variable {s : State} {p : At} {f : LayA}

/-! ### RGATH and RGRAD (R155, R181, R216) -/

/-- The row engines with one more job. -/
def State.withJob (s : State) (j : RowJob) : State := { s with row := { s.row with jobs := s.row.jobs ++ [j], nextJob := s.row.nextJob + 1 } }

theorem besidesCores_withJob (j : RowJob) : BesidesCores (fun t => t.withJob j) := ⟨fun _ _ _ _ => rfl⟩

theorem submitRow_leaves (a : Word) (grad : Bool) :
    let j := s.rowJob p a grad
    let v := s.issued p
    let u : State := { v with row := { v.row with jobs := s.row.jobs ++ [j], nextJob := s.row.nextJob + 1 } }
    let t := s.submitRow v p a grad
    t.ctx p = (s.ctx p).advanced ∧ t.mem = s.mem ∧ t.row.jobs = s.row.jobs ++ [j]
      ∧ BesidesIssue s (if grad then u else u.countKinds (((s.findTable j.part j.cmd.table).map (·.1)).getD j.part) j.cmd.table j.fetches) t p := by
  intro j v u t
  have ht : t = if grad then (v.withJob j).active ⟨.rowEngine, coreCluster p.core⟩ else
      ((v.withJob j).active ⟨.rowEngine, coreCluster p.core⟩).countKinds (((s.findTable j.part j.cmd.table).map (·.1)).getD j.part)
        j.cmd.table j.fetches := rfl
  clear_value t
  clear_value j
  have hjoin : BesidesIssue s u ((v.withJob j).active ⟨.rowEngine, coreCluster p.core⟩) p :=
    ((BesidesIssue.of_issued s p).then_beside (besidesCores_withJob j)).then_active _
  subst ht
  cases grad with
  | true => exact ⟨State.ctx_issued_same s p, rfl, rfl, hjoin⟩
  | false =>
    rw [if_neg Bool.false_ne_true, State.countKinds_eq]
    refine ⟨State.ctx_issued_same s p, rfl, rfl, ?_⟩
    rw [← State.countKinds_eq]
    exact hjoin.then_beside (besidesCores_countKinds _ _ _)

/-! ### RPREL (R201, R202) -/

/-- Of the state `s` only the rick cache and the turns of its ways have changed (R202). -/
structure FillsRick (s t : State) : Prop where
  rest : t = { s with row := { s.row with rick := t.row.rick }, parts := t.parts }
  parts : ∀ m, t.part m = { s.part m with rotation := (t.part m).rotation }

theorem FillsRick.refl (s : State) : FillsRick s s := ⟨rfl, fun _ => rfl⟩

theorem FillsRick.trans {s t u : State} (h : FillsRick s t) (k : FillsRick t u) : FillsRick s u where
  rest := by
    rw [k.rest, h.rest]
  parts := fun m => by
    rw [k.parts m, h.parts m]

theorem FillsRick.of_rick (s : State) (l : List Way) : FillsRick s { s with row := { s.row with rick := l } } := ⟨rfl, fun _ => rfl⟩

theorem FillsRick.of_rotation (s : State) (n : Nat) (f : Part → List (Nat × Nat × Nat × Nat)) :
    FillsRick s (s.updPart n (fun q => { q with rotation := f q })) where
  rest := rfl
  parts := fun m => by
    by_cases hm : m = n
    · subst hm
      rw [State.part_updPart_same]
    · rw [State.part_updPart_ne _ _ _ hm]

theorem FillsRick.preload (s : State) (own t r : Nat) : FillsRick s (s.preload own t r) := by
  unfold State.preload
  dsimp only
  split
  · exact .refl s
  · split
    · exact .of_rick ..
    · split
      · exact (FillsRick.of_rotation s own _).trans (.of_rick ..)
      · split
        · exact .of_rick ..
        · exact .refl s

theorem FillsRick.foldl {α : Type} {g : State → α → State} (hg : ∀ s a, FillsRick s (g s a)) (l : List α) (s : State) :
    FillsRick s (l.foldl g s) :=
  List.foldlRecOn (motive := fun t => FillsRick s t) l g (.refl s) (fun _ ht a _ => ht.trans (hg _ a))

/-- RPREL with the rows that its indices name (R201): a list of rows fills the cache. -/
theorem FillsRick.fill {s v : State} (own tn : Nat) (i32 : Bool) (idx : List Nat) :
    FillsRick v (idx.foldl (fun u raw => match classify (s.part own) tn i32 raw with | .row r => u.preload own tn r | _ => u) v) :=
  .foldl (fun u raw => by
    split
    · exact .preload ..
    · exact .refl u) idx v

theorem rprel_leaves {u : State} (hu : FillsRick (s.issued p) u) (n : Nat) (tag : Word) (ck : BitVec 2) (ct : BitVec 17) :
    let t := u.action n tag ck ct
    t.ctx p = (s.ctx p).advanced ∧ t.mem = s.mem ∧ BesidesIssue s t t p ∧ t.row = { s.row with rick := u.row.rick }
      ∧ ∀ m, t.part m = { s.part m with rotation := (t.part m).rotation } := by
  intro t
  have ht : t = { u with sync := t.sync } := u.action_eq n tag ck ct
  have hcores : t.cores = (s.issued p).cores := by
    rw [ht, hu.rest]
  have hparts : t.part = u.part := by
    rw [ht]
    rfl
  refine ⟨State.ctx_of_issued_cores hcores, ?_, .of_issued_cores hcores, ?_, ?_⟩
  · rw [ht, hu.rest]
    rfl
  · rw [ht]
    exact (congrArg State.row hu.rest :)
  · rw [hparts]
    exact hu.parts

/-! ### RSTAT (R217) -/

/-- The counters of a table start anew (R217). -/
def State.clearTableCounts (s : State) (own tn : Nat) : State :=
  s.updPart own (fun q => { q with tables := q.tables.upd {} tn (fun x => { x with counts := [] }) })

/-- What a write of device bytes at issue does to memory and leaves of it. -/
theorem State.issued_writeDev_mem (s : State) (p : At) (n core : Nat) (a : Word) (data : List Byte) (b : Bool) :
    ((s.issued p).writeDev n core a data b).mem = Memory.putAll s.mem (List.zip (s.keysOf n core a data.length) data) := by
  rw [State.writeDev_mem, State.keysOf_issued, State.issued_mem]

theorem State.issued_writeDev_cores (s : State) (p : At) (n core : Nat) (a : Word) (data : List Byte) (b : Bool) :
    ((s.issued p).writeDev n core a data b).cores = (s.issued p).cores :=
  (besidesCores_writeDev n core a data b).cores _

/-- What RSTAT does once it has issued. -/
def State.rstatDone (s : State) (p : At) (n : Nat) (b : SaltBlock) (u : State) : State :=
  match s.findTable n b.table with
  | none => u
  | some (own, tb) =>
    let w := u.writeDev n p.core b.addr tb.statBytes false
    (if b.clear then w.clearTableCounts own b.table else w).action n (s.unitTag p) b.ck b.ct

theorem rstat_leaves (own tn : Nat) (clear : Bool) (n : Nat) (a : Word) (data : List Byte) (tag : Word) (ck : BitVec 2) (ct : BitVec 17) :
    let u := (s.issued p).writeDev n p.core a data false
    let t := (if clear then u.clearTableCounts own tn else u).action n tag ck ct
    t.ctx p = (s.ctx p).advanced ∧ BesidesIssue s t t p
      ∧ t.mem = Memory.putAll s.mem (List.zip (s.keysOf n p.core a data.length) data)
      ∧ KeepsBytes s t (s.keysOf n p.core a data.length)
      ∧ (clear = true → ((t.part own).tables.get {} tn).counts = []) := by
  intro u t
  have ht : t = { (if clear then u.clearTableCounts own tn else u) with sync := t.sync } := State.action_eq ..
  have hmem : t.mem = Memory.putAll s.mem (List.zip (s.keysOf n p.core a data.length) data) := by
    rw [← s.issued_writeDev_mem p n p.core a data false, ht]
    cases clear <;> rfl
  have hcores : t.cores = (s.issued p).cores := by
    rw [← s.issued_writeDev_cores p n p.core a data false, ht]
    cases clear <;> rfl
  refine ⟨State.ctx_of_issued_cores hcores, .of_issued_cores hcores, hmem, .of_putAll hmem, fun hclear => ?_⟩
  have hpart : t.part own = (u.clearTableCounts own tn).part own := by
    rw [ht, hclear]
    rfl
  rw [hpart, State.clearTableCounts, State.part_updPart_same]
  simp [Tab.upd]

/-! ### RSALT (R210) -/

theorem rsalt_refused (n : Nat) (a : Word) (code : Byte) (tag : Word) (ck : BitVec 2) (ct : BitVec 17) :
    let t := ((s.issued p).writeDev n p.core a [code] false).action n tag ck ct
    t.ctx p = (s.ctx p).advanced ∧ BesidesIssue s t t p
      ∧ t.mem = Memory.putAll s.mem (List.zip (s.keysOf n p.core a 1) [code]) ∧ KeepsBytes s t (s.keysOf n p.core a 1) := by
  obtain ⟨hctx, hframe, hmem, hkeeps, -⟩ := rstat_leaves (s := s) (p := p) 0 0 false n a [code] tag ck ct
  exact ⟨hctx, hframe, hmem, hkeeps⟩

/-- A partition of which a table starts to re-salt (R210). -/
def Part.startResalt (q : Part) (tn : Nat) (salt : Word) : Part :=
  { q with tables := q.tables.upd {} tn (fun x => { x with newSalt := salt, cursor := 0, resalting := true }) }

def State.startResalt (s : State) (n tn : Nat) (salt : Word) : State := s.updPart n (·.startResalt tn salt)

/-- What RSALT does once it has issued. -/
def State.rsaltDone (s : State) (p : At) (n : Nat) (b : SaltBlock) (u : State) : State :=
  let tb := (s.part n).tables.get {} b.table
  let refused (code : Byte) : State := (u.writeDev n p.core b.addr [code] false).action n (s.unitTag p) b.ck b.ct
  if tb.resalting then refused 0x03
  else if (s.part n).salted tb = [] then refused 0x04
  else
    let w := u.startResalt n b.table b.word
    { w with row := { w.row with resalts := w.row.resalts ++
        [{ part := n, table := b.table, p := p, status := some b.addr, ck := b.ck, ct := b.ct, tag := s.unitTag p }] } }

theorem rsalt_starts (n tn : Nat) (salt : Word) (r : Resalt) :
    let v := s.issued p
    let tb := (s.part n).tables.get {} tn
    let u := v.startResalt n tn salt
    let t : State := { u with row := { u.row with resalts := u.row.resalts ++ [r] } }
    t.ctx p = (s.ctx p).advanced ∧ t.mem = s.mem
      ∧ ((t.part n).tables.get {} tn) = { tb with newSalt := salt, cursor := 0, resalting := true }
      ∧ (∀ k, k ≠ tn → (t.part n).tables.find k = (s.part n).tables.find k)
      ∧ BesidesIssue s { v with parts := t.parts, row := { v.row with resalts := s.row.resalts ++ [r] } } t p
      ∧ ∀ m, t.part m = { s.part m with tables := (t.part m).tables } := by
  intro v tb u t
  have hsame : t.part n = (s.part n).startResalt tn salt := State.part_updPart_same v n (·.startResalt tn salt)
  refine ⟨State.ctx_issued_same s p, rfl, ?_, fun k hk => ?_, .of_issued_cores rfl, fun m => ?_⟩
  · rw [hsame]
    simp [Part.startResalt, Tab.upd, tb]
  · rw [hsame]
    exact Tab.find_set_ne _ _ hk
  · by_cases hm : m = n
    · rw [hm, hsame]
      rfl
    · have hne : t.part m = s.part m := State.part_updPart_ne v n (·.startResalt tn salt) hm
      rw [hne]

end

/-- Settles O11: RGATH and RGRAD join by `submitRow` (lists read at issue: log entry 22), RPREL fills by `preload` (counts: log entry
29), RSTAT writes its record, RSALT answers or starts; the completion leaves by `action`. -/
theorem rowCommandsSubmitted : Obligations.RowCommandsSubmitted := by
  unfold Obligations.RowCommandsSubmitted
  intro s p f c n a b v
  refine ⟨?submit, ?rprel, fun own tb htb h => ?rstat, ?rsalt⟩
  case submit =>
    simp only [List.forall_mem_cons]
    exact ⟨fun h => h.completes (eff := fun t => s.submitRow t p a false) (submitRow_leaves a false),
      fun h => h.completes (eff := fun t => s.submitRow t p a true) (submitRow_leaves a true), List.forall_mem_nil _⟩
  case rprel =>
    intro l w tn own ck ct idx u h
    have hfill : FillsRick v u := FillsRick.fill own tn (bitAt w 48) idx
    change Completes (execRprel p f s) _
    unfold execRprel
    refine h.completes ?_
    exact rprel_leaves hfill n (s.unitTag p) ck ct
  case rstat =>
    refine h.completes (eff := s.rstatDone p n b) ?_
    simp only [State.rstatDone, htb]
    exact rstat_leaves own b.table b.clear n b.addr tb.statBytes (s.unitTag p) b.ck b.ct
  case rsalt =>
    intro tb refused h
    refine h.completes (eff := s.rsaltDone p n b) ?_
    unfold State.rsaltDone
    by_cases hbusy : tb.resalting = true
    · rw [if_pos hbusy]
      obtain ⟨hctx, hrefused⟩ := rsalt_refused n b.addr 0x03 (s.unitTag p) b.ck b.ct
      exact ⟨hctx, (if_pos hbusy).mpr hrefused⟩
    · rw [if_neg hbusy]
      by_cases hnone : (s.part n).salted tb = []
      · rw [if_pos hnone]
        obtain ⟨hctx, hrefused⟩ := rsalt_refused n b.addr 0x04 (s.unitTag p) b.ck b.ct
        exact ⟨hctx, (if_neg hbusy).mpr ((if_pos hnone).mpr hrefused)⟩
      · rw [if_neg hnone]
        obtain ⟨hctx, hstarts⟩ := rsalt_starts n b.table b.word _
        exact ⟨hctx, (if_neg hbusy).mpr ((if_neg hnone).mpr hstarts)⟩

end Sys2Proof.Machine
end

section
/-! PROOFS. Fetches of a row engine's job: what the rick cache, a replica and a row's home deliver, and how a fetch ends (R179, R191,
R193, R194, R198, R200, R204). -/

namespace Sys2Proof.Machine

/-! ### Changing one fetch of one job -/

theorem Tab.find_map_at {α : Type} (l : Tab α) (i : Nat) (g : α → α) :
    Tab.find (l.map (fun x => if x.1 = i then (x.1, g x.2) else x)) i = (Tab.find l i).map g := by
  induction l with
  | nil => rfl
  | cons x l ih =>
    obtain ⟨j, a⟩ := x
    by_cases hj : j = i
    · simp [Tab.find, hj]
    · simp only [List.map_cons, if_neg hj, Tab.find]
      exact ih

/-- A change of one job that keeps its number is what that number finds. -/
theorem find_updJob (l : List RowJob) (num : Nat) (h : RowJob → RowJob) (hnum : ∀ j, (h j).num = j.num) :
    (l.map (fun j => if j.num = num then h j else j)).find? (fun j => j.num = num) = (l.find? (fun j => j.num = num)).map h := by
  induction l with
  | nil => rfl
  | cons j l ih =>
    by_cases hj : j.num = num
    · simp [hj, hnum]
    · simp [hj, ih]

/-- Fetch `i` of job `job` stands as `f`. -/
def State.FetchIs (s : State) (job i : Nat) (f : Fetch) : Prop := (s.job job).bind (fun x => x.fetches.find i) = some f

theorem State.FetchIs.of_job {s : State} {job i : Nat} {j : RowJob} {f : Fetch} (hjob : s.job job = some j) (hfetch : j.fetches.find i = some f) :
    s.FetchIs job i f := by
  rw [State.FetchIs, hjob]
  exact hfetch

theorem State.FetchIs.updFetch {s : State} {job i : Nat} {f : Fetch} (h : s.FetchIs job i f) (g : Fetch → Fetch) :
    (s.updFetch job i g).FetchIs job i (g f) := by
  unfold State.FetchIs at h ⊢
  have hjob : (s.updFetch job i g).job job
      = (s.job job).map (fun j => { j with fetches := j.fetches.map (fun x => if x.1 = i then (x.1, g x.2) else x) }) :=
    find_updJob s.row.jobs job _ (fun _ => rfl)
  rw [hjob]
  cases hj : s.job job with
  | none =>
    rw [hj] at h
    cases h
  | some j =>
    rw [hj] at h
    change j.fetches.find i = some f at h
    change Tab.find _ i = some (g f)
    rw [Tab.find_map_at, h]
    rfl

/-- What a fetch takes its job, its fetch and its row from. -/
theorem State.fetchAt_job {s : State} {job i own r : Nat} {j : RowJob} {f : Fetch} (h : s.fetchAt job i = some (j, f, own, r)) :
    s.job job = some j ∧ j.fetches.find i = some f := by
  unfold State.fetchAt at h
  split at h
  · cases h
  next j' hjob =>
    split at h
    next f' own' tb hfetch htable =>
      split at h
      · split at h
        · cases h
          exact ⟨hjob, hfetch⟩
        · cases h
      · cases h
    · cases h

theorem State.job_num {s : State} {job : Nat} {j : RowJob} (h : s.job job = some j) : j.num = job := by
  have h' := List.find?_some h
  exact of_decide_eq_true h'

/-! ### What leaves jobs and bytes alone -/

/-- The jobs of the row engines and the bytes of memory are as they were. -/
structure KeepsJobs (s t : State) : Prop where
  jobs : t.row.jobs = s.row.jobs
  mem : t.mem = s.mem

theorem KeepsJobs.refl (s : State) : KeepsJobs s s := ⟨rfl, rfl⟩

theorem KeepsJobs.trans {s t u : State} (h : KeepsJobs s t) (k : KeepsJobs t u) : KeepsJobs s u :=
  ⟨k.jobs.trans h.jobs, k.mem.trans h.mem⟩

theorem KeepsJobs.of_reports {s t : State} (h : BesidesReports s t) : KeepsJobs s t :=
  ⟨(congrArg (fun u : State => u.row.jobs) h :), h.bytes.1⟩

theorem State.FetchIs.of_jobs {s t : State} {job i : Nat} {f : Fetch} (hf : s.FetchIs job i f) (h : t.row.jobs = s.row.jobs) :
    t.FetchIs job i f := by
  unfold State.FetchIs State.job at *
  rwa [h]

theorem KeepsJobs.fetchIs {s t : State} (h : KeepsJobs s t) {job i : Nat} {f : Fetch} (hf : s.FetchIs job i f) : t.FetchIs job i f :=
  hf.of_jobs h.jobs

theorem KeepsJobs.ite {s t u : State} {c : Prop} [Decidable c] (h : KeepsJobs s t) (k : KeepsJobs s u) : KeepsJobs s (if c then t else u) := by
  split
  · exact h
  · exact k

theorem KeepsJobs.countTable (s : State) (n t i k : Nat) : KeepsJobs s (s.countTable n t i k) := ⟨rfl, rfl⟩

theorem KeepsJobs.sketchInc (s : State) (die t r : Nat) : KeepsJobs s (s.sketchInc die t r) := ⟨rfl, rfl⟩

theorem KeepsJobs.fillRick (s : State) (own t r : Nat) (bytes : List Byte) : KeepsJobs s (s.fillRick own t r bytes) := by
  unfold State.fillRick
  dsimp only
  split
  · exact .refl s
  · split
    · exact ⟨rfl, rfl⟩
    · split
      · split <;> exact ⟨rfl, rfl⟩
      · exact .refl s

/-- The fetch of a job stands so, and memory holds these bytes. -/
def State.After (t : State) (job i : Nat) (f : Fetch) (m : List Host.Cell) : Prop := t.FetchIs job i f ∧ t.mem = m

theorem State.After.keeps {t u : State} {job i : Nat} {f : Fetch} {m : List Host.Cell} (h : t.After job i f m) (k : KeepsJobs t u) :
    u.After job i f m :=
  ⟨k.fetchIs h.1, k.mem.trans h.2⟩

theorem State.FetchIs.after_updFetch {s : State} {job i : Nat} {f : Fetch} (h : s.FetchIs job i f) (g : Fetch → Fetch) :
    (s.updFetch job i g).After job i (g f) s.mem :=
  ⟨h.updFetch g, rfl⟩

/-! ### The rick cache (R198, R200, R204) -/

/-- The state after a row was counted in the sketch, with the replicas that are due where it has become hot (R198, R204). -/
def State.sketched (s : State) (own t r : Nat) (die : Nat) : State :=
  let tb := (s.part own).tables.get {} t
  let u := s.sketchInc die t r
  if tb.hot ≠ 0 && !(s.part own).cfg.strict && s.estimate die t r < tb.hot && tb.hot ≤ u.estimate die t r
  then { u with row := { u.row with copies := u.row.copies ++ (replicaDies die tb.copies).map (fun d => ⟨d, own, t, r⟩) } } else u

theorem State.sketched_keeps (s : State) (own t r die : Nat) :
    KeepsJobs s (s.sketched own t r die) ∧ (s.sketched own t r die).row.rick = s.row.rick
      ∧ (s.sketched own t r die).row.sketchIncs.get 0 die = s.row.sketchIncs.get 0 die + 1 := by
  have hincs : (s.sketchInc die t r).row.sketchIncs.get 0 die = s.row.sketchIncs.get 0 die + 1 := Tab.get_set_same ..
  unfold State.sketched
  dsimp only
  split <;> exact ⟨⟨rfl, rfl⟩, rfl, hincs⟩

/-- The rick cache after a hit of a way (R200). -/
def State.rickHit (s : State) (w : Way) : State :=
  { s with row := { s.row with rick := s.row.rick.map (fun x => if x = w then { x with count := min 255 (x.count + 1) } else x) } }

/-- What the cache of a row's home die does for a fetch (R198, R200). -/
def State.rickServed (s : State) (job i own t r die : Nat) (bad : Bool) : State :=
  let u := s.sketched own t r die
  match u.row.rick.find? (fun w => w.die = die && w.part = own && w.table = t && w.row = r) with
  | some w =>
    if bad || w.blight then (u.rickHit w).updFetch job i (fun f => { f with source := 1 })
    else ((u.rickHit w).updFetch job i (fun f => { f with bytes := some w.bytes })).countTable own t 1 1
  | none => u.updFetch job i (fun f => { f with source := 1, missed := true })

section
variable {s : State} {job i own r : Nat} {j : RowJob} {f : Fetch}

theorem exec_rickCacheFetch (bad : Bool) (hat : s.fetchAt job i = some (j, f, own, r)) (hnext : s.servesNext j f i own r = true)
    (hsource : f.source = 0) (hkeys : s.masterKeys own j.cmd.table r ≠ []) (hregion : 4 ≤ keyRegion ((s.masterKeys own j.cmd.table r).headD 0)) :
    exec (.rickCacheFetch job i bad) s
      = .next (s.rickServed job i own j.cmd.table r (keyDie ((s.masterKeys own j.cmd.table r).headD 0)) bad) := by
  change execRickCacheFetch job i bad s = _
  unfold execRickCacheFetch
  rw [hat]
  dsimp only
  rw [if_neg (by simpa [hsource, hkeys, hnext] using hregion)]
  rfl

/-- A fetch that reaches its row's cache takes the cached record, or goes on to its next source (R198, R200). -/
theorem rickServed_fetches (t die : Nat) (bad : Bool) (hf : s.FetchIs job i f) :
    let v := s.rickServed job i own t r die bad
    v.row.sketchIncs.get 0 die = s.row.sketchIncs.get 0 die + 1 ∧
      match s.row.rick.find? (fun w => w.die = die && w.part = own && w.table = t && w.row = r) with
      | some w => if bad || w.blight then v.After job i { f with source := 1 } s.mem else v.After job i { f with bytes := some w.bytes } s.mem
      | none => v.After job i { f with source := 1, missed := true } s.mem := by
  obtain ⟨hkeeps, hrick, hincs⟩ := s.sketched_keeps own t r die
  unfold State.rickServed
  dsimp only
  rw [hrick, ← hkeeps.mem]
  generalize s.row.rick.find? _ = way
  generalize s.sketched own t r die = u at hkeeps hincs
  have hu : u.FetchIs job i f := hkeeps.fetchIs hf
  cases way with
  | none => exact ⟨hincs, hu.after_updFetch _⟩
  | some w =>
    have hhit : (u.rickHit w).FetchIs job i f := hu
    dsimp only
    cases bad || w.blight with
    | true => exact ⟨hincs, hhit.after_updFetch (fun f => { f with source := 1 })⟩
    | false => exact ⟨hincs, (hhit.after_updFetch (fun f => { f with bytes := some w.bytes })).keeps (.countTable ..)⟩

/-! ### Replicas and homes (R177, R179) -/

/-- A replica of the row on the engine's die delivers the row, or is passed over (R179). -/
def State.replicaServed (s : State) (job i own t r : Nat) (f : Fetch) (w : Way) (bad : Bool) : State :=
  if bad || w.blight then s.updFetch job i (fun f => { f with source := 2 })
  else
    let u := (s.updFetch job i (fun f => { f with bytes := some w.bytes })).countTable own t 2 1
    if f.missed then u.fillRick own t r w.bytes else u

theorem replicaServed_fetches (t : Nat) (w : Way) (bad : Bool) (hf : s.FetchIs job i f) :
    let v := s.replicaServed job i own t r f w bad
    if bad || w.blight then v.After job i { f with source := 2 } s.mem else v.After job i { f with bytes := some w.bytes } s.mem := by
  unfold State.replicaServed
  dsimp only
  cases bad || w.blight with
  | true => exact hf.after_updFetch (fun f => { f with source := 2 })
  | false =>
    have htaken := (hf.after_updFetch (fun f => { f with bytes := some w.bytes })).keeps (.countTable _ own t 2 1)
    simp only [Bool.false_eq_true, if_false]
    exact htaken.keeps (.ite (.fillRick ..) (.refl _))

/-- Whether the row of a fetch lies in turf, where no cache stands before it (R179). -/
def State.rowInTurf (s : State) (own t r : Nat) : Bool :=
  match s.rowAt own t r with | some (_, _, o) => o.tier = 0 | none => true

theorem State.rowInTurf_of_tier {v : State} {own t r : Nat} (h : ∀ x, v.rowAt own t r = some x → x.2.2.tier = 0) :
    v.rowInTurf own t r = true := by
  unfold State.rowInTurf
  split
  next hrow => exact decide_eq_true (h _ hrow)
  next => rfl

theorem exec_rowFetch (bad : Bool) (hat : s.fetchAt job i = some (j, f, own, r)) (hnext : s.servesNext j f i own r = true)
    (hsource : f.source < 3)
    (hturf : f.source = 0 → ∀ x, (s.fetchView own j.cmd.table f).rowAt own j.cmd.table r = some x → x.2.2.tier = 0)
    (hcopy : (s.masterKeys own j.cmd.table r).any s.copying = false) :
    exec (.rowFetch job i bad) s = .next (match s.replicaFor j f own r with
      | some w => s.replicaServed job i own j.cmd.table r f w bad
      | none => (s.tookTurn (coreCluster j.p.core) (s.queueOf j f own r)).fetchHome j f i own r bad) := by
  have hskip : ¬ (3 ≤ f.source || (f.source = 0 && !(s.fetchView own j.cmd.table f).rowInTurf own j.cmd.table r)
      || !s.servesNext j f i own r || (s.masterKeys own j.cmd.table r).any s.copying) = true := by
    have hin : f.source = 0 → (s.fetchView own j.cmd.table f).rowInTurf own j.cmd.table r = true := fun h => State.rowInTurf_of_tier (hturf h)
    simpa [hnext, hcopy, hsource] using hin
  change execRowFetch job i bad s = _
  unfold execRowFetch
  rw [hat]
  exact congrArg Host.Outcome.next (if_neg hskip)

/-! The bytes of a row's home do not depend on what is counted as it is read (R208, R217, R305). -/

/-- The jobs, the bytes, the marks, the free values and the tiers are as they were. -/
structure KeepsHomes (s t : State) : Prop extends KeepsJobs s t where
  poison : t.poison = s.poison
  free : t.free = s.free
  tiers : t.tiers = s.tiers

theorem State.rowAt_of_parts {s t : State} (h : t.parts = s.parts) (own tn r : Nat) : t.rowAt own tn r = s.rowAt own tn r := by
  unfold State.rowAt State.part
  rw [h]

theorem State.fetchView_parts {s t : State} (h : t.parts = s.parts) (own tn : Nat) (f : Fetch) :
    (t.fetchView own tn f).parts = (s.fetchView own tn f).parts := by
  unfold State.fetchView State.updPart State.part
  cases f.old with
  | none => exact h
  | some o => rw [h]

theorem State.post_keeps (s : State) (r : ErrRec) (l : List Nat) :
    (s.post r l).mem = s.mem ∧ (s.post r l).poison = s.poison ∧ (s.post r l).row = s.row ∧ (s.post r l).tiers = s.tiers := by
  have h := post_reports s r l
  exact ⟨h.bytes.1, (congrArg State.poison h :), (congrArg State.row h :), (congrArg State.tiers h :)⟩

/-- What a fetch finds uncorrectable at a home is lost in the same way (R474). -/
theorem State.fetchBad_same {s t : State} (h : KeepsHomes s t) (j : RowJob) (k : Nat) (a : Word) :
    (t.fetchBad j k a).mem = (s.fetchBad j k a).mem ∧ (t.fetchBad j k a).poison = (s.fetchBad j k a).poison
      ∧ (t.fetchBad j k a).row.jobs = s.row.jobs ∧ (t.fetchBad j k a).tiers = s.tiers := by
  unfold State.fetchBad
  rw [h.poison]
  by_cases hk : granule k ∈ s.poison
  · rw [if_pos hk, if_pos hk]
    exact ⟨h.mem, h.poison, h.jobs, h.tiers⟩
  · rw [if_neg hk, if_neg hk]
    simp only [State.post_keeps, State.lose, h.mem, h.poison, h.free]
    exact ⟨trivial, trivial, h.jobs, h.tiers⟩

theorem State.chanUp_of_tiers {s t : State} (h : t.tiers = s.tiers) (c : Nat × Nat) : t.chanUp c = s.chanUp c := by
  unfold State.chanUp State.near State.chan
  rw [h]

/-- The stacks and channels in service are as they were. -/
def KeepsService (s t : State) : Prop :=
  ∀ k, (t.near k).outOfService = (s.near k).outOfService ∧ (t.chan k).outOfService = (s.chan k).outOfService

theorem KeepsService.updNear {s t : State} (h : KeepsService s t) (i : Nat) (g : MemSt → MemSt) (hg : ∀ m, (g m).outOfService = m.outOfService) :
    KeepsService s (t.updNear i g) := by
  intro k
  obtain ⟨hnear, hchan⟩ := h k
  refine ⟨?_, hchan⟩
  by_cases hk : k = i
  · rw [hk, State.near_updNear_same, hg, ← hk, hnear]
  · rw [State.near_updNear_ne _ _ _ hk, hnear]

theorem KeepsService.updChan {s t : State} (h : KeepsService s t) (i : Nat) (g : MemSt → MemSt) (hg : ∀ m, (g m).outOfService = m.outOfService) :
    KeepsService s (t.updChan i g) := by
  intro k
  obtain ⟨hnear, hchan⟩ := h k
  refine ⟨hnear, ?_⟩
  by_cases hk : k = i
  · rw [hk, State.chan_updChan_same, hg, ← hk, hchan]
  · rw [State.chan_updChan_ne _ _ _ hk, hchan]

/-- Counting served bytes takes no stack or channel out of service (R305). -/
theorem KeepsService.served (s : State) (ks : List Nat) (cls : Nat) : KeepsService s (s.served ks cls) :=
  List.foldlRecOn (motive := KeepsService s) _ _
    (List.foldlRecOn (motive := KeepsService s) _ _ (fun _ => ⟨rfl, rfl⟩) (fun _ ht i _ => ht.updNear i _ (fun _ => rfl)))
    (fun _ ht i _ => ht.updChan i _ (fun _ => rfl))

theorem KeepsService.chanUp {s t : State} (h : KeepsService s t) (c : Nat × Nat) : t.chanUp c = s.chanUp c := by
  unfold State.chanUp
  rw [(h c.2).1, (h c.2).2]

/-- What is counted on the way to a home (R208, R217). -/
def State.homeCounted (s : State) (c : Nat × Nat) (own t : Nat) : State :=
  if c.1 = 0 then s else (s.countPressure c own t).countTable own t (if c.1 = 1 then 3 else 4) 1

theorem KeepsHomes.homeCounted (s : State) (c : Nat × Nat) (own t : Nat) : KeepsHomes s (s.homeCounted c own t) := by
  unfold State.homeCounted
  split <;> exact ⟨⟨rfl, rfl⟩, rfl, rfl, rfl⟩

/-- What a fetch reads at its row's home, with what is counted on the way (R177, R179). -/
def State.homeRead (s : State) (j : RowJob) (f : Fetch) (i own r : Nat) (bad : Bool) (ks : List Nat) (a : Word) : State :=
  let t := j.cmd.table
  let c := keyChannel (ks.headD 0)
  let u := s.homeCounted c own t
  let b := if bad then u.fetchBad j (ks.headD 0) a else u
  let w := b.served ks (b.classOf j.part)
  if (w.readKeys ks).2 || !w.chanUp c then w.updFetch j.num i (fun f => { f with source := 3 })
  else
    let x := w.updFetch j.num i (fun f => { f with bytes := some (w.readKeys ks).1 })
    if c.1 ≠ 0 && f.missed && f.old.isNone then x.fillRick own t r (w.readKeys ks).1 else x

theorem State.fetchHome_eq (s : State) (j : RowJob) (f : Fetch) (i own r : Nat) (bad : Bool) {w num : Nat} {o : Obj}
    (hrow : (s.fetchView own j.cmd.table f).rowAt own j.cmd.table r = some (w, num, o)) :
    s.fetchHome j f i own r bad = s.homeRead j f i own r bad (rowKeys ((s.fetchView own j.cmd.table f).part w) num o r)
      (rowAddr num o ((((s.fetchView own j.cmd.table f).part w)).tables.get {} o.table) r) := by
  unfold State.fetchHome
  simp only [hrow]
  rfl

theorem KeepsHomes.trans {s t u : State} (h : KeepsHomes s t) (k : KeepsHomes t u) : KeepsHomes s u :=
  ⟨h.toKeepsJobs.trans k.toKeepsJobs, k.poison.trans h.poison, k.free.trans h.free, k.tiers.trans h.tiers⟩

/-- A fetch takes its record at the row's home, or finds it unusable (R177, R191). -/
theorem homeRead_fetches {u : State} (h : KeepsHomes u s) (hj : j.num = job) (hf : u.FetchIs job i f) (bad : Bool) (ks : List Nat) (a : Word) :
    let b := if bad then u.fetchBad j (ks.headD 0) a else u
    let t := s.homeRead j f i own r bad ks a
    if (b.readKeys ks).2 = true ∨ u.chanUp (keyChannel (ks.headD 0)) = false then t.After job i { f with source := 3 } b.mem
    else t.After job i { f with bytes := some (b.readKeys ks).1 } b.mem := by
  intro b t
  have hcounted := h.trans (.homeCounted s (keyChannel (ks.headD 0)) own j.cmd.table)
  have ht : t = s.homeRead j f i own r bad ks a := rfl
  unfold State.homeRead at ht
  dsimp only at ht
  generalize s.homeCounted (keyChannel (ks.headD 0)) own j.cmd.table = v at hcounted ht
  have hbad : (if bad then v.fetchBad j (ks.headD 0) a else v).mem = b.mem ∧ (if bad then v.fetchBad j (ks.headD 0) a else v).poison = b.poison
      ∧ (if bad then v.fetchBad j (ks.headD 0) a else v).row.jobs = u.row.jobs
      ∧ (if bad then v.fetchBad j (ks.headD 0) a else v).tiers = u.tiers := by
    cases bad with
    | true => exact State.fetchBad_same hcounted j (ks.headD 0) a
    | false => exact ⟨hcounted.mem, hcounted.poison, hcounted.jobs, hcounted.tiers⟩
  generalize (if bad then v.fetchBad j (ks.headD 0) a else v) = x at hbad ht
  obtain ⟨hmem, hpoison, hjobs, htiers⟩ := hbad
  have hserved := x.served_tiers ks (x.classOf j.part)
  have hup : (x.served ks (x.classOf j.part)).chanUp (keyChannel (ks.headD 0)) = u.chanUp (keyChannel (ks.headD 0)) :=
    (KeepsService.chanUp (KeepsService.served x ks _) _).trans (State.chanUp_of_tiers htiers _)
  generalize x.served ks (x.classOf j.part) = w at hserved hup ht
  have hwmem : w.mem = b.mem := (congrArg State.mem hserved :).trans hmem
  have hread : w.readKeys ks = b.readKeys ks := by
    have hwpoison : w.poison = b.poison := (congrArg State.poison hserved :).trans hpoison
    unfold State.readKeys
    rw [hwmem, hwpoison]
  have hw : w.FetchIs job i f := hf.of_jobs ((congrArg (fun s : State => s.row.jobs) hserved :).trans hjobs)
  rw [hread, hup, hj] at ht
  rw [← hwmem]
  clear_value t
  by_cases hlost : (b.readKeys ks).2 = true ∨ u.chanUp (keyChannel (ks.headD 0)) = false
  · rw [if_pos hlost]
    rw [if_pos (by simpa using hlost)] at ht
    exact ht ▸ hw.after_updFetch (fun f => { f with source := 3 })
  · rw [if_neg hlost]
    rw [if_neg (by simpa using hlost)] at ht
    exact ht ▸ (hw.after_updFetch (fun f => { f with bytes := some (b.readKeys ks).1 })).keeps (.ite (.fillRick ..) (.refl _))

theorem KeepsHomes.tookTurn (s : State) (cl : Nat) (q : FetchQueue) : KeepsHomes s (s.tookTurn cl q) := by
  unfold State.tookTurn
  split <;> exact ⟨⟨rfl, rfl⟩, rfl, rfl, rfl⟩

theorem State.tookTurn_parts (s : State) (cl : Nat) (q : FetchQueue) : (s.tookTurn cl q).parts = s.parts := by
  unfold State.tookTurn
  split <;> rfl

/-- A fetch that reaches its row's home, as the rows lie in the state before it took its turn (R177, R179, R215). -/
theorem fetchHome_fetches (hj : j.num = job) (hf : s.FetchIs job i f) (bad : Bool) (cl : Nat) (q : FetchQueue) {w num : Nat} {o : Obj}
    (hrow : (s.fetchView own j.cmd.table f).rowAt own j.cmd.table r = some (w, num, o)) :
    let v := s.fetchView own j.cmd.table f
    let hk := rowKeys (v.part w) num o r
    let u := if bad then s.fetchBad j (hk.headD 0) (rowAddr num o ((v.part w).tables.get {} o.table) r) else s
    let t := (s.tookTurn cl q).fetchHome j f i own r bad
    if (u.readKeys hk).2 = true ∨ s.chanUp (keyChannel (hk.headD 0)) = false then t.After job i { f with source := 3 } u.mem
    else t.After job i { f with bytes := some (u.readKeys hk).1 } u.mem := by
  have hparts := State.fetchView_parts (s.tookTurn_parts cl q) own j.cmd.table f
  have hpart : ((s.tookTurn cl q).fetchView own j.cmd.table f).part w = (s.fetchView own j.cmd.table f).part w := by
    unfold State.part
    rw [hparts]
  have heq := State.fetchHome_eq (s.tookTurn cl q) j f i own r bad ((State.rowAt_of_parts hparts ..).trans hrow)
  rw [hpart] at heq
  dsimp only
  rw [heq]
  exact homeRead_fetches (.tookTurn s cl q) hj hf bad _ _

/-! ### Ends of fetches (R191, R193) -/

theorem State.findTable_of_jobTable {own : Nat} {tb : Table} (h : s.jobTable j = some (own, tb)) :
    ∃ x, s.findTable j.part j.cmd.table = some (own, x) := by
  unfold State.jobTable at h
  cases hfind : s.findTable j.part j.cmd.table with
  | none =>
    rw [hfind] at h
    cases h
  | some x =>
    rw [hfind] at h
    cases h
    exact ⟨x.2, rfl⟩

theorem gatherSegmentDone_delivers {tb : Table} (hjob : s.job job = some j) (hfetch : j.fetches.find i = some f)
    (htable : s.jobTable j = some (own, tb)) (hlive : s.live = true) (hpending : f.outcome = .pending) (hbytes : f.bytes.isSome = true) :
    Completes (exec (.gatherSegmentDone job i) s) (fun t => t.After job i { f with outcome := .delivered } s.mem) := by
  obtain ⟨x, hx⟩ := State.findTable_of_jobTable htable
  change Completes (execGatherSegmentDone job i s) _
  unfold execGatherSegmentDone
  refine .next ?_
  simp only [hjob, hfetch, hx, hlive, hpending, hbytes]
  exact (State.FetchIs.of_job hjob hfetch).after_updFetch (fun f => { f with outcome := .delivered })

theorem gatherSegmentDone_fails {tb : Table} (hjob : s.job job = some j) (hfetch : j.fetches.find i = some f)
    (htable : s.jobTable j = some (own, tb)) (hlive : s.live = true) (hpending : f.outcome = .pending) (hbytes : f.bytes = none)
    (hsource : 3 ≤ f.source) :
    Completes (exec (.gatherSegmentDone job i) s) (fun t =>
      t.After job i { f with outcome := .failed, bytes := some (s.fetchTable own j.cmd.table f).fallbackRec.1, blight := true } s.mem
      ∧ t.errs.nextSeq = s.errs.nextSeq + 1) := by
  obtain ⟨x, hx⟩ := State.findTable_of_jobTable htable
  have hended := (State.FetchIs.of_job hjob hfetch).after_updFetch
    (fun f => { f with outcome := .failed, bytes := some (s.fetchTable own j.cmd.table f).fallbackRec.1, blight := true })
  change Completes (execGatherSegmentDone job i s) _
  unfold execGatherSegmentDone
  refine .next ?_
  simp only [hjob, hfetch, hx, hlive, hpending, hbytes, Nat.not_lt.mpr hsource]
  exact ⟨(hended.keeps (.countTable ..)).keeps (.of_reports (post_reports ..)), State.post_nextSeq ..⟩

end

end Sys2Proof.Machine
end

section
/-! PROOFS. The end of a gather: its deadline, its outputs and status record, its completion action (R155, R192, R194, R216). -/

namespace Sys2Proof.Machine

/-! ### GATHER_DEADLINE (R194, R196) -/

/-- A substitute is no pending fetch. -/
theorem State.substitute_ended (s : State) (own tn : Nat) (f : Fetch) : (s.substitute own tn f).outcome ≠ .pending := by
  unfold State.substitute
  dsimp only
  split
  · exact fun h => nomatch h
  · exact fun h => nomatch h

/-- The fetches of a job past its deadline: a pending one has its substitute (R194). -/
def State.endedFetches (s : State) (own : Nat) (j : RowJob) : Tab Fetch :=
  j.fetches.map (fun x => if x.2.outcome = .pending then (x.1, s.substitute own j.cmd.table x.2) else x)

theorem State.endedFetches_numbers (s : State) (own : Nat) (j : RowJob) : (s.endedFetches own j).map (·.1) = j.fetches.map (·.1) := by
  unfold State.endedFetches
  rw [List.map_map]
  refine List.map_congr_left (fun x _ => ?_)
  dsimp only [Function.comp]
  split <;> rfl

theorem State.endedFetches_ended (s : State) (own : Nat) (j : RowJob) : ∀ x ∈ s.endedFetches own j, x.2.outcome ≠ .pending := by
  intro x hx
  obtain ⟨y, -, rfl⟩ := List.mem_map.mp hx
  split
  next => exact s.substitute_ended own j.cmd.table y.2
  next h => exact h

section
variable {s : State} {job own : Nat} {j : RowJob} {tb : Table}

theorem gatherDeadline_ends (hlive : s.live = true) (hjob : s.job job = some j) (htable : s.jobTable j = some (own, tb))
    (hgrad : j.grad = false) (hdeadline : j.cmd.deadline ≠ 0) (hstrict : (s.part j.part).cfg.strict = false)
    (hlate : j.issuedAt + j.cmd.deadline ≤ s.now) :
    Completes (exec (.gatherDeadline job) s) (fun t => t.mem = s.mem ∧
      ∃ k, t.job job = some k ∧ k.fetches.map (·.1) = j.fetches.map (·.1) ∧ ∀ x ∈ k.fetches, x.2.outcome ≠ .pending) := by
  obtain ⟨x, hx⟩ := State.findTable_of_jobTable htable
  have hended : (s.row.jobs.map (fun x => if x.num = job then { x with fetches := s.endedFetches own j } else x)).find? (fun j => j.num = job)
      = some { j with fetches := s.endedFetches own j } := by
    have hfind : s.row.jobs.find? (fun j => j.num = job) = some j := hjob
    rw [find_updJob s.row.jobs job (fun x => { x with fetches := s.endedFetches own j }) (fun _ => rfl), hfind]
    rfl
  change Completes (execGatherDeadline job s) _
  unfold execGatherDeadline
  refine .next ?_
  simp only [hjob, hx]
  rw [if_neg (by simp [hlive, hgrad, hdeadline, hstrict, Nat.not_lt.mpr hlate])]
  exact ⟨rfl, _, hended, s.endedFetches_numbers own j, s.endedFetches_ended own j⟩

/-! ### The end of a job (R152, R155, R192) -/

/-- A job has left its row engine, and its completion action is on its way. -/
structure JobDone (s t : State) (j : RowJob) : Prop where
  jobs : t.row.jobs = s.row.jobs.filter (fun x => x.num ≠ j.num)
  action : ∀ a, (j.cmd.ck = 1 ∧ a = .setFlag j.cmd.ct.toNat) ∨ (j.cmd.ck = 2 ∧ a = .produce j.cmd.ct.toNat 1)
      ∨ (j.cmd.ck = 3 ∧ a = .consume j.cmd.ct.toNat 1) →
    ⟨.unit j.part, fld j.cmd.ct.toNat 16 14, a, inClass j.tag .sync⟩ ∈ t.sync.inflight

theorem State.writeDev_jobs (s : State) (n core : Nat) (a : Word) (data : List Byte) (b : Bool) :
    (s.writeDev n core a data b).row.jobs = s.row.jobs := by
  have hwrite : ((s.writeKeys (s.keysOf n core a data.length) data b).markStale n a data.length).row = s.row := by
    unfold State.markStale State.writeKeys
    dsimp only
    split <;> split <;> rfl
  unfold State.writeDev
  dsimp only
  split
  · split
    · exact (congrArg RowState.jobs hwrite :)
    · exact congrArg RowState.jobs hwrite
  · exact congrArg RowState.jobs hwrite

/-- The cores of a cluster whose row engine has room again (R99, R155). -/
def State.unstallCluster (s : State) (cl : Nat) : State := (List.range 15).foldl (fun s i => s.unstall (cl * 15 + i)) s

theorem State.unstallCluster_cores (s : State) (cl : Nat) : s.unstallCluster cl = { s with cores := (s.unstallCluster cl).cores } := by
  unfold State.unstallCluster
  exact List.foldlRecOn (motive := fun t : State => t = { s with cores := t.cores }) _ _ rfl
    (fun t ht i _ => (congrArg (fun v : State => v.unstall (cl * 15 + i)) ht).trans rfl)

/-- The rest of a job's end once its status record is written. -/
def State.jobLeft (s : State) (j : RowJob) (blight subst : Bool) : State :=
  ((((s.flushMerges j.part).updCtx j.p (fun c => c.mark blight subst)).action j.part j.tag j.cmd.ck j.cmd.ct).unstallCluster
    (coreCluster j.p.core)).active ⟨.rowEngine, coreCluster j.p.core⟩

theorem State.finishJob_eq (s : State) (j : RowJob) (blight subst : Bool) (marks : List Byte) :
    s.finishJob j blight subst marks
      = (({ s with row := { s.row with jobs := s.row.jobs.filter (fun x => x.num ≠ j.num) } } : State).writeDev j.part j.p.core j.cmd.stAddr
          (j.statusBytes blight subst ++ marks) false).jobLeft j blight subst := rfl

theorem State.jobLeft_leaves (s : State) (j : RowJob) (blight subst : Bool) :
    let t := s.jobLeft j blight subst
    t.mem = s.mem ∧ t.row.jobs = s.row.jobs
      ∧ ∀ a, (j.cmd.ck = 1 ∧ a = .setFlag j.cmd.ct.toNat) ∨ (j.cmd.ck = 2 ∧ a = .produce j.cmd.ct.toNat 1)
          ∨ (j.cmd.ck = 3 ∧ a = .consume j.cmd.ct.toNat 1) →
        ⟨.unit j.part, fld j.cmd.ct.toNat 16 14, a, inClass j.tag .sync⟩ ∈ t.sync.inflight := by
  have hreports := KeepsJobs.of_reports (flushMerges_reports s j.part)
  unfold State.jobLeft
  generalize hv : (s.flushMerges j.part).updCtx j.p (fun c => c.mark blight subst) = v
  have hmem : v.mem = s.mem := by
    rw [← hv]
    exact hreports.mem
  have hjobs : v.row.jobs = s.row.jobs := by
    rw [← hv]
    exact hreports.jobs
  have hact := v.action_eq j.part j.tag j.cmd.ck j.cmd.ct
  have hsend := v.action_sends j.part j.tag j.cmd.ck j.cmd.ct
  generalize v.action j.part j.tag j.cmd.ck j.cmd.ct = w at hact hsend ⊢
  rw [State.unstallCluster_cores, State.active]
  dsimp only
  rw [hact] at hsend ⊢
  exact ⟨hmem, hjobs, hsend⟩

/-- What the end of a job leaves: the job is gone, its status record and mark bytes are written, its action is on its way. -/
theorem State.finishJob_leaves {x : State} (hx : x.row.jobs = s.row.jobs) (j : RowJob) (blight subst : Bool) (marks : List Byte) :
    let t := x.finishJob j blight subst marks
    JobDone s t j ∧ t.mem = (x.writeDev j.part j.p.core j.cmd.stAddr (j.statusBytes blight subst ++ marks) false).mem := by
  intro t
  have ht : t = x.finishJob j blight subst marks := rfl
  clear_value t
  rw [State.finishJob_eq] at ht
  generalize hy : ({ x with row := { x.row with jobs := x.row.jobs.filter (fun y => y.num ≠ j.num) } } : State) = y at ht
  obtain ⟨hmem, hjobs, haction⟩ :=
    (y.writeDev j.part j.p.core j.cmd.stAddr (j.statusBytes blight subst ++ marks) false).jobLeft_leaves j blight subst
  rw [← ht] at hmem hjobs haction
  have hmap : SameMap y x := .of_parts (by rw [← hy])
  refine ⟨⟨?_, haction⟩, ?_⟩
  · rw [hjobs, State.writeDev_jobs, ← hy, ← hx]
  · rw [hmem, State.writeDev_mem, State.writeDev_mem, hmap.keysOf, ← hy]

/-! ### The outputs of a gather (R186, R188, R189) -/

theorem State.writeMarked_jobs (s : State) (n core : Nat) (a : Word) (data : List Byte) (b u : Bool) :
    (s.writeMarked n core a data b u).row.jobs = s.row.jobs := by
  unfold State.writeMarked State.markSubst
  split <;> exact State.writeDev_jobs ..

theorem reportRows_reports (s : State) (own : Nat) (j : RowJob) : BesidesReports s (s.reportRows own j) := by
  unfold State.reportRows
  refine BesidesReports.foldl (fun u x => ?_) j.fetches s
  dsimp only
  split
  · exact post_reports ..
  · exact .refl u

/-- Output rows written one after another leave the jobs. -/
theorem foldl_rows_jobs (rows : List OutRow) (g : State → Nat → OutRow → State) (hg : ∀ u i o, (g u i o).row.jobs = u.row.jobs) (s : State) :
    ((List.range rows.length).foldl (fun s i => match rows[i]? with | some o => g s i o | none => s) s).row.jobs = s.row.jobs := by
  refine List.foldlRecOn (motive := fun t : State => t.row.jobs = s.row.jobs) _ _ rfl (fun t ht i _ => ?_)
  split
  · exact (hg ..).trans ht
  · exact ht

theorem State.writeOutputs_jobs (s : State) (j : RowJob) (t : Table) (rows : List OutRow) : (s.writeOutputs j t rows).row.jobs = s.row.jobs := by
  have hrows := foldl_rows_jobs rows (fun u i o => u.writeMarked j.part j.p.core (plus j.cmd.outAddr (i * j.cmd.rowBytes t)) o.bytes o.blight o.subst)
    (fun _ _ _ => State.writeMarked_jobs ..) s
  unfold State.writeOutputs
  dsimp only
  split
  · exact (foldl_rows_jobs rows (fun u i o => u.writeMarked j.part j.p.core (plus j.cmd.wAddr (2 * i * t.width)) ((o.args.map (leBytes 2)).flatten)
      o.blight o.subst) (fun _ _ _ => State.writeMarked_jobs ..) _).trans hrows
  · exact hrows

/-! ### GATHER_COMPLETE (R155, R192, R216) -/

theorem gatherComplete_rejected (hlive : s.live = true) (hjob : s.job job = some j) (htable : s.jobTable j = some (own, tb))
    (hrejected : j.rejected = true) :
    Completes (exec (.gatherComplete job) s) (fun t => JobDone s t j
      ∧ t.mem = (s.writeDev j.part j.p.core j.cmd.stAddr (j.statusBytes false false ++ []) false).mem) := by
  change Completes (execGatherComplete job s) _
  unfold execGatherComplete
  refine .next ?_
  simp only [hjob, htable, hlive, hrejected]
  exact State.finishJob_leaves rfl j false false []

theorem gatherComplete_grad (hlive : s.live = true) (hjob : s.job job = some j) (htable : s.jobTable j = some (own, tb))
    (hrejected : j.rejected = false) (hgrad : j.grad = true) (hdone : j.cmd.count ≤ j.next) :
    Completes (exec (.gatherComplete job) s) (fun t => JobDone s t j
      ∧ t.mem = (s.writeDev j.part j.p.core j.cmd.stAddr (j.statusBytes j.gradBlight false ++ j.gradMarks) false).mem) := by
  change Completes (execGatherComplete job s) _
  unfold execGatherComplete
  refine .next ?_
  simp only [hjob, htable, hlive, hrejected, hgrad, hdone]
  exact State.finishJob_leaves rfl j j.gradBlight false j.gradMarks

/-- The mark bytes of a gather (R192). -/
def State.gatherMarks (s : State) (own : Nat) (tb : Table) (j : RowJob) : List Byte :=
  if j.cmd.marks then j.bagsOf.map (fun b => bagMark (((j.fetches.map (fun x => s.pooled own j.cmd.table x.2)).drop b.1).take b.2)
    (b.2 = 0 && j.cmd.empty) ((tb.recVals tb.lay tb.fallbackRec.1 0).2 || tb.fallbackBad) j.inBlight) else []

/-- The free values that the raw records of substituted rows have taken (R194, log entry 61). -/
def State.rawDrawn (s : State) (j : RowJob) (tb : Table) : State :=
  if j.cmd.outFmt = 0 then { s with free := s.free + j.cmd.count * tb.recSize } else s

/-- They are no part of what the end of a job writes. -/
theorem State.rawDrawn_writeDev_mem (s : State) (j : RowJob) (tb : Table) (n core : Nat) (a : Word) (data : List Byte) (b : Bool) :
    ((s.rawDrawn j tb).writeDev n core a data b).mem = (s.writeDev n core a data b).mem ∧ (s.rawDrawn j tb).row.jobs = s.row.jobs := by
  unfold State.rawDrawn
  split
  · have hmap : SameMap { s with free := s.free + j.cmd.count * tb.recSize } s := .of_parts rfl
    rw [State.writeDev_mem, State.writeDev_mem, hmap.keysOf]
    exact ⟨rfl, rfl⟩
  · exact ⟨rfl, rfl⟩

theorem gatherComplete_outputs (hlive : s.live = true) (hjob : s.job job = some j) (htable : s.jobTable j = some (own, tb))
    (hrejected : j.rejected = false) (hgrad : j.grad = false) (hended : ∀ x ∈ j.fetches, x.2.outcome ≠ .pending) :
    let rows := s.gatherRows own tb j
    Completes (exec (.gatherComplete job) s) (fun t => JobDone s t j ∧
      t.mem = (((s.reportRows own j).writeOutputs j tb rows).writeDev j.part j.p.core j.cmd.stAddr
        (j.statusBytes (rows.any (·.blight)) (rows.any (·.subst)) ++ s.gatherMarks own tb j) false).mem) := by
  intro rows
  have hany : ¬ (j.fetches.any (fun x => x.2.outcome = .pending)) = true := by
    simpa using hended
  have hjobs : ((s.reportRows own j).writeOutputs j tb rows).row.jobs = s.row.jobs :=
    (State.writeOutputs_jobs ..).trans (KeepsJobs.of_reports (reportRows_reports s own j)).jobs
  change Completes (execGatherComplete job s) _
  unfold execGatherComplete
  refine .next ?_
  simp only [hjob, htable, hlive, hrejected, hgrad, Bool.not_true, Bool.false_eq_true, if_false]
  rw [if_neg hany]
  change JobDone s ((((s.reportRows own j).writeOutputs j tb rows).rawDrawn j tb).finishJob j (rows.any (·.blight)) (rows.any (·.subst))
    (s.gatherMarks own tb j)) j ∧ _
  obtain ⟨hdrawn, hkept⟩ := ((s.reportRows own j).writeOutputs j tb rows).rawDrawn_writeDev_mem j tb j.part j.p.core j.cmd.stAddr
    (j.statusBytes (rows.any (·.blight)) (rows.any (·.subst)) ++ s.gatherMarks own tb j) false
  obtain ⟨hdone, hmem⟩ := State.finishJob_leaves (hkept.trans hjobs) j (rows.any (·.blight)) (rows.any (·.subst)) (s.gatherMarks own tb j)
  exact ⟨hdone, hmem.trans hdrawn⟩

end

/-- Settles O30: a fetch by what its source does (`rickServed`, `replicaServed`, `homeRead`), a job's end by `finishJob` (what the
sketch counts: log entry 30; raw records and the marks of a rejected gather: log entry 61; a row gradient's marks: log entry 29). -/
theorem gathersRun : Obligations.GathersRun := by
  unfold Obligations.GathersRun
  refine ⟨fun s job i j => ⟨fun f own r bad hat hnext => ?fetch, fun f own tb hjob hfetch htable hlive hpending => ?ends⟩,
    fun s job j own tb hlive hjob htable => ⟨?deadline, ?rejected, ?grad, ?outputs⟩⟩
  case fetch =>
    obtain ⟨hjob, hfetch⟩ := State.fetchAt_job hat
    have hf := State.FetchIs.of_job hjob hfetch
    refine ⟨fun hsource hkeys hregion => ?rick, fun hsource hturf hcopy => ⟨fun w hw => ?replica, fun hnone w num o hrow => ?home⟩⟩
    case rick =>
      rw [exec_rickCacheFetch bad hat hnext hsource hkeys hregion]
      exact .next (rickServed_fetches j.cmd.table _ bad hf)
    case replica =>
      rw [exec_rowFetch bad hat hnext hsource hturf hcopy, hw]
      exact .next (replicaServed_fetches j.cmd.table w bad hf)
    case home =>
      rw [exec_rowFetch bad hat hnext hsource hturf hcopy, hnone]
      exact .next (fetchHome_fetches (State.job_num hjob) hf bad _ _ hrow)
  case ends =>
    exact ⟨gatherSegmentDone_delivers hjob hfetch htable hlive hpending, gatherSegmentDone_fails hjob hfetch htable hlive hpending⟩
  case deadline => exact gatherDeadline_ends hlive hjob htable
  case rejected =>
    intro hrejected
    obtain ⟨t, ht, hdone, hmem⟩ := gatherComplete_rejected hlive hjob htable hrejected
    exact ⟨t, ht, ⟨hdone.jobs, hdone.action⟩, hmem.trans (State.writeDev_mem ..)⟩
  case grad =>
    intro hrejected hgrad hnext
    obtain ⟨t, ht, hdone, hmem⟩ := gatherComplete_grad hlive hjob htable hrejected hgrad hnext
    exact ⟨t, ht, ⟨hdone.jobs, hdone.action⟩, hmem.trans (State.writeDev_mem ..)⟩
  case outputs =>
    intro hrejected hgrad hended rows ps marks
    obtain ⟨t, ht, hdone, hmem⟩ := gatherComplete_outputs hlive hjob htable hrejected hgrad hended
    exact ⟨t, ht, ⟨hdone.jobs, hdone.action⟩, hmem⟩

end Sys2Proof.Machine
end


-- ==== Sys2Proof/Proofs/HostData.lean ====
section
/-! PROOFS. Host data, programs, contexts, regions, connections and streams (O47): a host command that runs does what its row
does from the state in which it runs, and ends with one completion entry. -/

open Sys2Proof Sys2Proof.Machine

namespace Sys2Proof.Machine

/-! ### A host command that runs -/

section
variable {s u : State} {q : QRef} {op n : Nat} {c : HostCmd}

/-- A command that starts leaves everything but the host's queues and counters. -/
theorem HostRuns.besides (h : HostRuns s q op n u c) : BesidesReports s u := by
  obtain ⟨-, -, -, ⟨f, rest, -, -, -, -, -, -, rfl⟩ | ⟨st, b, -, -, -, rfl⟩⟩ := h
  · rfl
  · rfl

theorem HostRuns.ref_q (h : HostRuns s q op n u c) : c.ref.q = q := by
  obtain ⟨-, -, -, ⟨f, rest, -, -, -, -, -, rfl, -⟩ | ⟨st, b, -, -, rfl, -⟩⟩ := h
  · rfl
  · rfl

theorem BesidesReports.parts {v t : State} (h : BesidesReports v t) : t.parts = v.parts := by
  rw [h]

/-- What holds of what a command does holds at the end of its row. -/
theorem HostRuns.completes (h : HostRuns s q op n u c) {k : State → Nat → HostCmd → State} {P : State → Prop} (hP : P (k u n c)) :
    Completes (hostRow q op s k) P := ⟨k u n c, hostRow_runs h k, hP⟩

/-- A completion leaves in the module's messages what was there. -/
theorem complete_out (v : State) (r : CmdRef) (a b : BitVec 16) (w : Word) {o : Out} (ho : o ∈ v.out) : o ∈ (v.complete r a b w).out := by
  unfold State.complete
  extract_lets x n v₁ v₂ v₃ v₄
  have hflushed : o ∈ v₁.out := by
    clear_value n
    cases n with
    | none => exact ho
    | some m => exact (flushMerges_keepsQueues v m).out o ho
  have hsent : o ∈ v₄.out := (emit_keepsQueues v₃ _ _).out o hflushed
  split
  · exact (raise_keepsQueues v₄ _ _ _).out o hsent
  · exact hsent

/-! ### Host data (R442) -/

theorem hostWrite_answers (h : HostRuns s q 0x01 n u c) (hflag : descFlag c.desc 0 = false) (hword : c.arg 1 < 2 ^ 19)
    (hshape : ctShapeOk (argCk (c.arg 1)) (argCt (c.arg 1)) = true) (hrest : c.arg 2 = 0 ∧ c.arg 3 = 0)
    (hspace : spaceOf (BitVec.ofNat 64 (c.arg 0)) ∈ [0, 1, 3])
    (hwithin : c.block = [] ∨ u.within n (BitVec.ofNat 64 (c.arg 0)) c.block.length = true)
    (hserve : u.serveWriteOk n (BitVec.ofNat 64 (c.arg 0)) = true)
    (howned : u.ctOwned n (argCk (c.arg 1)) (argCt (c.arg 1)) = true) :
    Completes (exec (.hostWrite q) s) (fun t => Answers ((u.writeDev n (u.leadCore n) (BitVec.ofNat 64 (c.arg 0)) c.block false).action n
      (u.hostTag n) (argCk (c.arg 1)) (argCt (c.arg 1))) t c 0 0 0) := by
  change Completes (execHostWrite q s) _
  refine h.completes ?_
  dsimp only
  rw [if_neg ?arguments, if_neg ?rights]
  · exact complete_answers ..
  case arguments => simp [hflag, hshape, hrest]; omega
  case rights =>
    simp only [hserve, howned, hspace]
    rcases hwithin with hnil | hin
    · simp [hnil]
    · simp [hin]

theorem hostRead_returns (h : HostRuns s q 0x02 n u c) (hpos : 0 < c.arg 2) (hlen : c.arg 2 ≤ 448) (hrest : c.arg 3 = 0)
    (hspace : spaceOf (BitVec.ofNat 64 (c.arg 0)) ∈ [0, 1, 2, 3]) (hwithin : u.within n (BitVec.ofNat 64 (c.arg 0)) (c.arg 2) = true) :
    Completes (exec (.hostRead q) s) (fun t => BesidesReports u t ∧ t.mem = s.mem ∧ TakesEntry u t q
      ∧ ((u.func (qFunc q)).busMaster = true → .hostData (qFunc q) (BitVec.ofNat 64 (c.arg 1))
          (u.readDev n (u.leadCore n) (BitVec.ofNat 64 (c.arg 0)) (c.arg 2)).1 ∈ t.out)) := by
  obtain rfl := h.ref_q
  change Completes (execHostRead c.ref.q s) _
  refine h.completes ?_
  dsimp only
  rw [if_neg ?arguments, if_neg ?rights]
  case arguments => simp [hrest]; omega
  case rights => simp [hspace, hwithin]
  generalize hv : u.emit (qFunc c.ref.q) (.hostData (qFunc c.ref.q) (BitVec.ofNat 64 (c.arg 1))
    (u.readDev n (u.leadCore n) (BitVec.ofNat 64 (c.arg 0)) (c.arg 2)).1) = v
  have hreports : BesidesReports u v := hv ▸ emit_reports ..
  have hkeeps : KeepsQueues u v := hv ▸ emit_keepsQueues ..
  obtain ⟨hdone, hentry, -⟩ := complete_answers v c 0 0 0
  refine ⟨hreports.trans hdone, ?mem, ?entry, fun hmaster => ?out⟩
  case mem => exact ((hreports.trans hdone).bytes.1).trans h.besides.bytes.1
  case entry => simpa only [TakesEntry, State.queue, hkeeps.queues, State.done] using hentry
  case out =>
    refine complete_out v c.ref 0 0 0 ?_
    rw [← hv, State.emit, if_pos hmaster]
    exact List.mem_append_right _ (List.mem_singleton_self _)

theorem signal_answers (h : HostRuns s q 0x03 n u c) (hword : c.arg 0 < 2 ^ 19) (hck : argCk (c.arg 0) ≠ 0)
    (hshape : ctShapeOk (argCk (c.arg 0)) (argCt (c.arg 0)) = true) (hone : c.arg 1 = 0) (hrest : c.arg 2 = 0 ∧ c.arg 3 = 0)
    (howned : u.ctOwned n (argCk (c.arg 0)) (argCt (c.arg 0)) = true) :
    Completes (exec (.signal q) s) (fun t => Answers (u.action n (u.hostTag n) (argCk (c.arg 0)) (argCt (c.arg 0))) t c 0 0 0) := by
  change Completes (execSignal q s) _
  refine h.completes ?_
  dsimp only
  rw [if_neg ?arguments, if_neg ?rights]
  · exact complete_answers ..
  case arguments =>
    simp only [hshape, hone, hrest, Bool.or_eq_true, decide_eq_true_eq]
    rintro (((((hle | hz) | hbad) | hne) | hne) | hne)
    · omega
    · exact hck hz
    all_goals simp at *
  case rights => simp [howned]

/-! ### Programs (R163, R442) -/

/-- The instructions of an update program's image. -/
def imageWords (l : List Byte) : List Word := (List.range (leAt l 8 4 / 8)).map (fun i => addrAt l (64 + 8 * i))

/-- The bytes of a part of an image, in a core's scratchpad from an offset on. -/
def State.putBytes (u : State) (k off : Nat) (b : List Byte) : State :=
  u.writeKeys ((List.range b.length).map (fun i => scratchKey k (off + i))) b false

/-- A core's scratchpad holds the code and the data of an image. -/
def State.putProgram (u : State) (l : List Byte) (k : Nat) : State :=
  (u.putBytes k (leAt l 0x10 4) (slice l 64 (leAt l 8 4))).putBytes k (leAt l 0x14 4) (slice l (64 + leAt l 8 4) (leAt l 0xC 4))

/-- A core that holds an image: its entry points stand, its contexts are idle. -/
def Core.loaded (x : Core) (l : List Byte) : Core :=
  { x with entries := (List.range 8).map (fun i => leAt l (0x18 + 4 * i) 4), ctxs := x.ctxs.map (fun y => (y.1, { y.2 with state := .idle })) }

/-- Every context of a core that was just loaded is idle. -/
theorem Core.loaded_idle (x : Core) (l : List Byte) (i : Nat) : ((x.loaded l).ctxs.get {} i).state = .idle := by
  unfold Core.loaded
  dsimp only
  induction x.ctxs with
  | nil => rfl
  | cons y ys ih =>
    simp only [List.map_cons, Tab.get]
    split
    · rfl
    · exact ih

/-- The arguments and cores of PROGRAM_LOAD with an inline image of result 0 (R163). -/
structure LoadsProgram (u : State) (n : Nat) (c : HostCmd) : Prop where
  inlined : c.arg 0 = 2 ^ 64 - 1
  low : fld (c.arg 1) 15 11 = 0
  mid : fld (c.arg 1) 31 27 = 0
  high : fld (c.arg 1) 63 38 = 0
  rest : c.arg 2 = 0 ∧ c.arg 3 = 0
  cores : ∀ k ∈ targetCores (c.arg 1), u.inPart n k = true
  code : (u.imageCode n c.block (targetCores (c.arg 1)) false).1 = 0

theorem exec_programLoad (h : HostRuns s q 0x04 n u c) (hload : LoadsProgram u n c) :
    exec (.programLoad q) s = .next (if bitAt (leAt c.block 6 2) 0 then
        (u.updPart n (fun p => { p with slots := p.slots.set (fld (c.arg 1) 37 32) (imageWords c.block) })).done c 0
      else ((targetCores (c.arg 1)).foldl (fun v k => (v.putProgram c.block k).updCore k (fun x => x.loaded c.block)) u).done c 0) := by
  obtain ⟨hinlined, hlow, hmid, hhigh, hrest, hcores, hcode⟩ := hload
  change execProgramLoad q s = _
  refine (hostRow_runs h _).trans (congrArg _ ?_)
  dsimp only
  rw [if_neg ?arguments, if_neg ?rights]
  case arguments => simp [hinlined, hlow, hmid, hhigh, hrest]
  case rights => simpa using hcores
  rw [if_pos (by simpa using hinlined)]
  dsimp only
  generalize u.imageCode n c.block (targetCores (c.arg 1)) false = r at hcode
  obtain ⟨code, at_⟩ := r
  subst hcode
  change ite _ _ _ = _
  refine ite_congr rfl (fun _ => rfl) (fun _ => congrArg (State.done · c 0) ?_)
  exact congrArg (fun f => List.foldl f u (targetCores (c.arg 1))) (funext fun v => funext fun k => rfl)

/-- The image of an update program goes into its slot. -/
theorem programLoad_slot (h : HostRuns s q 0x04 n u c) (hload : LoadsProgram u n c) (hupdate : bitAt (leAt c.block 6 2) 0 = true) :
    Completes (exec (.programLoad q) s) (fun t => Answers { u with parts := t.parts } t c 0 0 0
      ∧ (t.part n).slots.find (fld (c.arg 1) 37 32) = some (imageWords c.block)) := by
  rw [exec_programLoad h hload, if_pos hupdate]
  refine .next ?_
  generalize hv : u.updPart n (fun p => { p with slots := p.slots.set (fld (c.arg 1) 37 32) (imageWords c.block) }) = v
  have hparts : (v.done c 0).parts = v.parts := (complete_reports v c.ref 0 0 0).parts
  have hfields : v = { u with parts := v.parts } := by rw [← hv]; rfl
  rw [hparts]
  refine ⟨hfields ▸ complete_answers v c 0 0 0, ?_⟩
  have hslots : v.part n = { u.part n with slots := (u.part n).slots.set (fld (c.arg 1) 37 32) (imageWords c.block) } := by
    rw [← hv, State.part_updPart_same]
  simp only [State.part, hparts]
  change (v.part n).slots.find _ = _
  rw [hslots]
  exact Tab.find_set_same ..

/-- The image of another program goes into the scratchpad of each core named. -/
theorem programLoad_core (h : HostRuns s q 0x04 n u c) (hload : LoadsProgram u n c) (hupdate : bitAt (leAt c.block 6 2) 0 = false)
    {k : Nat} (hone : targetCores (c.arg 1) = [k]) :
    Completes (exec (.programLoad q) s) (fun t => t.mem = (u.putProgram c.block k).mem
      ∧ (t.core k).entries = (List.range 8).map (fun i => leAt c.block (0x18 + 4 * i) 4) ∧ (∀ i, (t.ctx ⟨k, i⟩).state = .idle)
      ∧ t.parts = s.parts) := by
  rw [exec_programLoad h hload, if_neg (by simp [hupdate]), hone, List.foldl_cons, List.foldl_nil]
  refine .next ?_
  generalize hv : (u.putProgram c.block k).updCore k (fun x => x.loaded c.block) = v
  have hdone : BesidesReports v (v.done c 0) := complete_reports ..
  have hcore : (v.done c 0).core k = ((u.putProgram c.block k).core k).loaded c.block := by
    rw [State.core, hdone.cores, ← hv]
    exact State.core_updCore_same ..
  refine ⟨?mem, congrArg Core.entries hcore, fun i => ?idle, ?parts⟩
  case mem => rw [hdone.bytes.1, ← hv]; rfl
  case idle => rw [State.ctx, hcore]; exact Core.loaded_idle ..
  case parts =>
    have hput : (u.putProgram c.block k).parts = u.parts := by
      simp only [State.putProgram, State.putBytes, State.writeKeys_parts]
    rw [hdone.parts, ← hv, State.updCore_parts]
    exact hput.trans h.besides.parts

/-! ### Launch and stop (R160, R161, R442) -/

/-- A context that was started at an entry point of its core's image by the lead context (R161). -/
def Ctx.launched (x : Ctx) (entry : Nat) : Ctx :=
  { x with state := .ready, pc := BitVec.ofNat 64 entry, faultFlag := none, faultCause := 0, faultPc := 0, controller := some .lead,
           wait := none, stalledOn := none }

/-- The entry point of a context in its core's image, all ones where it has none. -/
def State.entryOf (u : State) (p : At) : Nat := (u.core p.core).entries.getD p.ctx 0xFFFFFFFF
/-- Whether LAUNCH starts a context. -/
def State.launches (u : State) (p : At) : Bool :=
  u.entryOf p ≠ 0xFFFFFFFF && ((u.ctx p).state = .idle || (u.ctx p).state = .faulted)

/-- The contexts of some cores that LAUNCH starts, with their entry points. -/
def State.launchList (u : State) (cores : List Nat) : List (At × Nat) :=
  (cores.map (fun k => (List.range 8).filterMap (fun i =>
    if u.launches ⟨k, i⟩ then some ((⟨k, i⟩ : At), u.entryOf ⟨k, i⟩) else none))).flatten

/-- Starts each context of a list at its entry point. -/
def State.startAll (u : State) (ts : List (At × Nat)) : State :=
  ts.foldl (fun v x => v.startCtx x.1 (BitVec.ofNat 64 x.2) none .lead) u

theorem State.mem_launchList (u : State) (cores : List Nat) (x : At × Nat) :
    x ∈ u.launchList cores ↔ x.1.core ∈ cores ∧ x.1.ctx < 8 ∧ u.launches x.1 = true ∧ x.2 = u.entryOf x.1 := by
  simp only [State.launchList, List.mem_flatten, List.mem_map]
  constructor
  · rintro ⟨l, ⟨k, hk, rfl⟩, hx⟩
    obtain ⟨i, hi, hsome⟩ := List.mem_filterMap.1 hx
    obtain ⟨hstarts, hpair⟩ := Option.ite_none_right_eq_some.1 hsome
    obtain rfl := Option.some.inj hpair
    exact ⟨hk, List.mem_range.1 hi, hstarts, rfl⟩
  · obtain ⟨⟨k, i⟩, e⟩ := x
    rintro ⟨hcore, hctx, hstarts, hentry⟩
    refine ⟨_, ⟨k, hcore, rfl⟩, List.mem_filterMap.2 ⟨i, List.mem_range.2 hctx, ?_⟩⟩
    rw [if_pos hstarts, ← hentry]

theorem State.mem_launchList_fst (u : State) (cores : List Nat) (p : At) :
    p ∈ (u.launchList cores).map Prod.fst ↔ p.core ∈ cores ∧ p.ctx < 8 ∧ u.launches p = true := by
  simp [State.mem_launchList]

theorem State.launchList_length (u : State) (cores : List Nat) :
    (u.launchList cores).length = (cores.map (fun k => ((List.range 8).filter (fun i => u.launches ⟨k, i⟩)).length)).sum := by
  unfold State.launchList
  rw [List.length_flatten, List.map_map]
  refine congrArg List.sum (List.map_congr_left fun k _ => ?_)
  rw [Function.comp_apply, List.length_filterMap_eq_countP, List.countP_eq_length_filter]
  refine congrArg List.length (List.filter_congr fun i _ => ?_)
  cases u.launches ⟨k, i⟩ <;> rfl

theorem State.startAll_cores (u : State) (ts : List (At × Nat)) : u.startAll ts = { u with cores := (u.startAll ts).cores } := by
  unfold State.startAll
  induction ts generalizing u with
  | nil => rfl
  | cons x ts ih => exact ih _

theorem State.ctx_startCtx (u : State) (p q : At) (e : Nat) :
    (u.startCtx q (BitVec.ofNat 64 e) none .lead).ctx p = if p = q then (u.ctx p).launched e else u.ctx p := by
  unfold State.startCtx
  split
  · next h => rw [h, State.ctx_updCtx_same]; rfl
  · next h => exact State.ctx_updCtx_ne _ _ h

/-- Each context of the list is started, wherever and however often it stands there; every other one stays. -/
theorem State.ctx_startAll (u : State) (entry : At → Nat) (p : At) (ts : List (At × Nat)) (hts : ∀ x ∈ ts, x.2 = entry x.1) :
    (u.startAll ts).ctx p = if p ∈ ts.map Prod.fst then (u.ctx p).launched (entry p) else u.ctx p := by
  induction ts generalizing u with
  | nil => rfl
  | cons x ts ih =>
    have hx : x.2 = entry x.1 := hts x List.mem_cons_self
    change ((u.startCtx x.1 (BitVec.ofNat 64 x.2) none .lead).startAll ts).ctx p = _
    rw [ih _ fun y hy => hts y (List.mem_cons_of_mem _ hy), State.ctx_startCtx, hx]
    simp only [List.map_cons, List.mem_cons]
    by_cases hp : p = x.1
    · subst hp
      simp only [if_true, true_or]
      split <;> rfl
    · simp only [hp, if_false, false_or]

theorem exec_launch (h : HostRuns s q 0x05 n u c) (hargs : u.coresArg n c = none) :
    exec (.launch q) s = .next ((u.startAll (u.launchList (targetCores (c.arg 1)))).done c
      (BitVec.ofNat 64 (u.launchList (targetCores (c.arg 1))).length)) := by
  change execLaunch q s = _
  refine (hostRow_runs h _).trans (congrArg _ ?_)
  dsimp only
  rw [hargs]
  rfl

theorem launch_starts (h : HostRuns s q 0x05 n u c) (hargs : u.coresArg n c = none) :
    Completes (exec (.launch q) s) (fun t =>
      Answers { u with cores := t.cores } t c 0 0 (BitVec.ofNat 64 ((targetCores (c.arg 1)).map
        (fun k => ((List.range 8).filter (fun i => u.launches ⟨k, i⟩)).length)).sum)
      ∧ ∀ p, p.ctx < 8 → if p.core ∈ targetCores (c.arg 1) ∧ u.launches p = true then t.ctx p = (u.ctx p).launched (u.entryOf p)
        else t.ctx p = s.ctx p) := by
  rw [exec_launch h hargs, State.launchList_length]
  refine .next ?_
  generalize hv : u.startAll (u.launchList (targetCores (c.arg 1))) = v
  generalize BitVec.ofNat 64 _ = r
  have hdone : BesidesReports v (v.done c r) := complete_reports ..
  have hfields : v = { u with cores := v.cores } := hv ▸ State.startAll_cores ..
  refine ⟨?answers, fun p hctx => ?contexts⟩
  case answers =>
    rw [hdone.cores]
    exact hfields ▸ complete_answers v c 0 0 r
  case contexts =>
    have hp : (v.done c r).ctx p
        = if p ∈ (u.launchList (targetCores (c.arg 1))).map Prod.fst then (u.ctx p).launched (u.entryOf p) else u.ctx p := by
      rw [hdone.ctx, ← hv]
      refine u.ctx_startAll u.entryOf p _ fun x hx => ?_
      obtain ⟨-, -, -, hentry⟩ := (u.mem_launchList _ x).1 hx
      exact hentry
    simp only [State.mem_launchList_fst, hctx, true_and] at hp
    split
    · next hin => rw [hp, if_pos hin]
    · next hout => rw [hp, if_neg hout, h.besides.ctx]

theorem stop_answers (h : HostRuns s q 0x06 n u c) (hargs : u.coresArg n c = none) :
    let ts := (((targetCores (c.arg 1)).map (fun k => (List.range 8).map (fun i => (⟨k, i⟩ : At)))).flatten).filter (fun p => (u.ctx p).state ≠ .idle)
    Completes (exec (.stop q) s) (fun t => Answers (ts.foldl State.stopCtx u) t c 0 0 (BitVec.ofNat 64 ts.length)) := by
  intro ts
  change Completes (execStop q s) _
  refine h.completes ?_
  dsimp only
  rw [hargs]
  exact complete_answers ..

/-! ### Regions, connections, streams (R442, R452, R453, R456) -/

theorem registerRegion_answers (h : HostRuns s q 0x12 n u c) (hobject : c.arg 0 < 2 ^ 20) (hrights : c.arg 1 < 4)
    (hrest : c.arg 2 = 0 ∧ c.arg 3 = 0) (hfound : ((u.part n).objects.find (c.arg 0)).isSome)
    (hroom : (u.net.regions.filter (fun x => x.1 / 2 ^ 32 = n)).length < 1024) :
    Completes (exec (.registerRegion q) s) (fun t => ∃ rkey, rkey < 2 ^ 32
      ∧ Answers { u with net := { u.net with nextRkey := u.net.nextRkey + 1, regions := t.net.regions } } t c 0 0 (BitVec.ofNat 64 rkey)
      ∧ t.net.regions = u.net.regions.set (n * 2 ^ 32 + rkey) { object := c.arg 0, write := bitAt (c.arg 1) 0, read := bitAt (c.arg 1) 1 }) := by
  change Completes (execRegisterRegion q s) _
  refine h.completes ?_
  dsimp only
  rw [if_neg ?arguments, if_neg ?absent, if_neg (Nat.not_le.2 hroom)]
  case arguments => simp [hrest]; omega
  case absent => simpa [Option.isSome_iff_ne_none] using hfound
  have hlt : (Config.rkeyBase + u.net.nextRkey) % 2 ^ 32 < 2 ^ 32 := Nat.mod_lt _ (by decide)
  refine ⟨_, hlt, ?_⟩
  generalize (Config.rkeyBase + u.net.nextRkey) % 2 ^ 32 = rkey
  generalize hr : u.net.regions.set (n * 2 ^ 32 + rkey) { object := c.arg 0, write := bitAt (c.arg 1) 0, read := bitAt (c.arg 1) 1 } = regions
  have hregions := congrArg (fun t => t.net.regions) (complete_reports
    { u with net := { u.net with nextRkey := u.net.nextRkey + 1, regions := regions } } c.ref 0 0 (BitVec.ofNat 64 rkey))
  refine ⟨?_, hregions⟩
  have e : (State.done { u with net := { u.net with nextRkey := u.net.nextRkey + 1, regions := regions } } c (BitVec.ofNat 64 rkey)).net.regions
    = regions := hregions
  rw [e]
  exact complete_answers ..

theorem deregisterRegion_answers (h : HostRuns s q 0x13 n u c) (hkey : c.arg 0 < 2 ^ 32) (hone : c.arg 1 = 0)
    (hrest : c.arg 2 = 0 ∧ c.arg 3 = 0) (hfound : (u.net.regions.find (n * 2 ^ 32 + c.arg 0)).isSome) :
    Completes (exec (.deregisterRegion q) s)
      (Answers { u with net := { u.net with regions := u.net.regions.del (n * 2 ^ 32 + c.arg 0) } } · c 0 0 0) := by
  change Completes (execDeregisterRegion q s) _
  refine h.completes ?_
  dsimp only
  rw [if_neg ?arguments, if_neg ?absent]
  · exact complete_answers ..
  case arguments => simp [hone, hrest]; omega
  case absent => simpa [Option.isSome_iff_ne_none] using hfound

/-- Searched from any start, a free number below 1024 is found where there is one. -/
theorem find_free_from (start : Nat) (free : Nat → Bool) (hfree : ∃ i, i < 1024 ∧ free i = true) :
    ∃ i, ((List.range 1024).map (fun j => (start + j) % 1024)).find? free = some i ∧ i < 1024 ∧ free i = true := by
  obtain ⟨i, hi, hf⟩ := hfree
  have hmem : i ∈ (List.range 1024).map (fun j => (start + j) % 1024) :=
    List.mem_map.2 ⟨(i + 1024 - start % 1024) % 1024, List.mem_range.2 (by omega), by omega⟩
  obtain ⟨k, hk⟩ := Option.isSome_iff_exists.1 (List.find?_isSome.2 ⟨i, hmem, hf⟩)
  obtain ⟨j, -, rfl⟩ := List.mem_map.1 (List.mem_of_find?_eq_some hk)
  exact ⟨_, hk, Nat.mod_lt _ (by decide), List.find?_some hk⟩

theorem connect_answers (h : HostRuns s q 0x14 n u c) (hzero : c.arg 0 = 0) (hone : c.arg 1 = 0) (hrest : c.arg 2 = 0 ∧ c.arg 3 = 0)
    (hlength : 64 ≤ c.block.length) (hport : leAt c.block 0 1 < 8) (hversion : leAt c.block 1 1 = 4 ∨ leAt c.block 1 1 = 6)
    (hz₁ : zeroAt c.block 2 2 = true) (hz₂ : zeroAt c.block 0x1F 1 = true) (hz₃ : zeroAt c.block 0x25 27 = true)
    (hfree : ∃ i, i < 1024 ∧ u.net.conns.find (n * 4096 + i) = none) :
    Completes (exec (.connect q) s) (fun t => ∃ i, i < 1024 ∧ u.net.conns.find (n * 4096 + i) = none
      ∧ Answers { u.fresh with net := { u.net with conns := u.net.conns.set (n * 4096 + i) { params := c.block.take 64, since := s.now } } }
        t c 0 0 (BitVec.ofNat 64 i)) := by
  change Completes (execConnect q s) _
  refine h.completes ?_
  dsimp only
  rw [if_neg ?arguments]
  case arguments => simp [hzero, hone, hrest, hz₁, hz₂, hz₃]; omega
  obtain ⟨i, hpick, hi, hnone⟩ := find_free_from (Config.freeNat u.free) (fun i => (u.net.conns.find (n * 4096 + i)).isNone)
    (by simpa using hfree)
  rw [hpick]
  have hnow : u.now = s.now := by rw [h.besides]
  refine ⟨i, hi, by simpa using hnone, ?_⟩
  rw [← hnow]
  exact complete_answers ..

theorem disconnect_answers (h : HostRuns s q 0x15 n u c) (hnumber : c.arg 0 < 1024) (hone : c.arg 1 = 0)
    (hrest : c.arg 2 = 0 ∧ c.arg 3 = 0) (hfound : (u.net.conns.find (n * 4096 + c.arg 0)).isSome) :
    Completes (exec (.disconnect q) s)
      (Answers { u with net := { u.net with conns := u.net.conns.del (n * 4096 + c.arg 0) } } · c 0 0 0) := by
  change Completes (execDisconnect q s) _
  refine h.completes ?_
  dsimp only
  rw [if_neg ?arguments, if_neg ?absent]
  · exact complete_answers ..
  case arguments => simp [hone, hrest]; omega
  case absent => simpa [Option.isSome_iff_ne_none] using hfound

/-- A stream whose ring no restored stream had publishes nothing as it opens (R517). -/
theorem State.republish_of_not_closed (v : State) (n k : Nat) (h : v.net.closed.find (streamKey n k) = none) : v.republish n k = v := by
  unfold State.republish
  rw [h]
  cases v.stream n k <;> rfl

/-- The stream that OPEN_STREAM names, empty at its pair's count (R456). -/
def State.namedStream (u : State) (c : HostCmd) (now : Nat) : Stream :=
  { die := fld (c.arg 0) 14 12, offset := c.arg 1, size := c.arg 2, pair := c.arg 3, wpos := 64 * (u.pair (c.arg 3)).1, creditAt := now }

theorem openStream_answers (h : HostRuns s q 0x16 n u c) (hname : c.arg 0 < 2 ^ 15) (hpair : c.arg 3 < 2 ^ 17) (hbits : fld (c.arg 3) 13 12 = 0)
    (hsize : c.arg 2 ≠ 0) (hunits : c.arg 2 % 64 = 0) (haligned : c.arg 1 % 64 = 0)
    (hroom : c.arg 1 + c.arg 2 ≤ (u.part n).stageSize * 2 ^ 20) (howned : u.pairPart (c.arg 3) = some n)
    (hfree : u.stream n (fld (c.arg 0) 11 0) = none) (hclosed : u.net.closed.find (streamKey n (fld (c.arg 0) 11 0)) = none) :
    Completes (exec (.openStream q) s)
      (Answers { u with net := { u.net with streams := u.net.streams.set (streamKey n (fld (c.arg 0) 11 0)) (u.namedStream c s.now) } } · c 0 0 0) := by
  change Completes (execOpenStream q s) _
  refine h.completes ?_
  dsimp only
  rw [if_neg ?arguments, if_neg ?rights, if_neg ?taken, State.republish_of_not_closed _ _ _ ?closed]
  case arguments => simp [hbits, hsize, hunits, haligned]; omega
  case rights => simp [howned]; omega
  case taken => simp [hfree]
  case closed => exact hclosed
  have hnow : u.now = s.now := by rw [h.besides]
  rw [hnow]
  exact complete_answers ..

theorem closeStream_answers (h : HostRuns s q 0x17 n u c) (hname : c.arg 0 < 4096) (hone : c.arg 1 = 0)
    (hrest : c.arg 2 = 0 ∧ c.arg 3 = 0) (hfound : (u.stream n (c.arg 0)).isSome) :
    Completes (exec (.closeStream q) s)
      (Answers { u with net := { u.net with streams := u.net.streams.del (streamKey n (c.arg 0)) } } · c 0 0 0) := by
  change Completes (execCloseStream q s) _
  refine h.completes ?_
  dsimp only
  rw [if_neg ?arguments, if_neg ?absent]
  · exact complete_answers ..
  case arguments => simp [hone, hrest]; omega
  case absent => simpa [Option.isSome_iff_ne_none] using hfound

end

/-- Settles O47: a command that runs does what its row does (`HostRuns.completes`) and ends with one completion entry, by the fields
of queues and streams of log entries 43 and 44; LAUNCH starts each context of its list, wherever it stands there. -/
theorem hostDataAndContexts : Obligations.HostDataAndContexts := by
  unfold Obligations.HostDataAndContexts
  intro s u q n c a w rest cores
  refine ⟨hostWrite_answers, hostRead_returns, signal_answers, ?program, launch_starts, stop_answers, registerRegion_answers,
    deregisterRegion_answers, connect_answers, disconnect_answers, ?openStream, closeStream_answers⟩
  case program =>
    intro h hinlined hlow hmid hhigh hrest hcores l code imageKeys hcode
    have hload : LoadsProgram u n c := ⟨hinlined, hlow, hmid, hhigh, hrest, hcores, hcode⟩
    exact ⟨programLoad_slot h hload, fun hupdate k hone => programLoad_core h hload hupdate hone⟩
  case openStream =>
    intro h k pair size hname hpair hbits hsize hunits haligned hroom howned x hfree hclosed
    exact openStream_answers h hname hpair hbits hsize hunits haligned hroom howned hfree hclosed

end Sys2Proof.Machine
end

section
/-! PROOFS. Sketch decay, windrow copies and the intervals of the pressure monitor (R199, R205, R206, R208). -/

namespace Sys2Proof.Machine

section
variable {s : State}

/-! ### SKETCH_DECAY (R199) -/

theorem sketchDecay_halves (hlive : s.live = true) {die : Nat} (hdue : 2 ^ 24 ≤ s.row.sketchIncs.get 0 die) :
    Completes (exec (.sketchDecay die) s) (fun t =>
      t.row.sketch = s.row.sketch.map (fun x => if x.1 / 2 ^ 22 = die then (x.1, x.2 / 2) else x)
      ∧ t.row.rick = s.row.rick.map (fun w => if w.die = die then { w with count := w.count / 2 } else w)
      ∧ t.row.sketchIncs.get 0 die = s.row.sketchIncs.get 0 die - 2 ^ 24 ∧ t = { s with row := t.row }) := by
  change Completes (execSketchDecay die s) _
  unfold execSketchDecay
  rw [if_pos (by simpa [hlive] using hdue)]
  exact .next ⟨rfl, rfl, Tab.get_set_same .., rfl⟩

/-! ### WINDROW_COPY (R205, R206) -/

/-- The sets of the windrow of a replica's table on the replica's die. -/
def State.replicaSets (s : State) (c : RowCopy) : Nat :=
  windSets ((s.part c.part).objects.get {} ((s.part c.part).tables.get {} c.table).windrowObj) ((s.part c.part).tables.get {} c.table) c.die

/-- The ways in use of a replica's set. -/
def State.replicaWays (s : State) (c : RowCopy) : List Way :=
  inOrder (waysOf s.row.windrow c.die c.part c.table (setOf c.table c.row (s.replicaSets c)))

/-- The estimate of a row of a replica's table at the row's home (R198). -/
def State.replicaEstimate (s : State) (c : RowCopy) (r : Nat) : Nat := s.estimate (s.homeDieOf c.part c.table r) c.table r

/-- A replica that is not placed, whatever its set holds: its master is blighted or absent, it has no set, or it stands there. -/
abbrev State.ReplicaVoid (s : State) (c : RowCopy) : Prop :=
  (s.readKeys (s.masterKeys c.part c.table c.row)).2 = true ∨ s.masterKeys c.part c.table c.row = [] ∨ s.replicaSets c = 0
    ∨ (s.replicaWays c).any (fun w => w.row = c.row) = true

/-- What a replica's way holds: the master record as it stands, with its row block's version. -/
def State.replicaWay (s : State) (c : RowCopy) (i : Nat) : Way :=
  { die := c.die, part := c.part, table := c.table, set := setOf c.table c.row (s.replicaSets c), way := i, row := c.row,
    bytes := (s.readKeys (s.masterKeys c.part c.table c.row)).1
    count := replicaStack (keyChannel ((s.masterKeys c.part c.table c.row).headD 0)) (keyDie ((s.masterKeys c.part c.table c.row).headD 0)) c.die
    ver := s.rowVer c.part c.table c.row }

/-- A scheduled replica is scheduled no more. -/
def State.copyTaken (s : State) (n : Nat) : State := { s with row := { s.row with copies := dropAt s.row.copies n } }

/-- A replica in a way of its set. -/
def State.replicaPlaced (s : State) (n : Nat) (c : RowCopy) (i : Nat) : State :=
  ({ s.copyTaken n with row := { (s.copyTaken n).row with windrow := putWay s.row.windrow (s.replicaWay c i) } } : State).countTable c.part c.table 12 1

theorem exec_windrowCopy {n : Nat} {c : RowCopy} (hlive : s.live = true) (hcopy : s.row.copies[n]? = some c) (hrun : c.part ∉ s.tx.recovering) :
    exec (.windrowCopy n) s = .next (if s.ReplicaVoid c then s.copyTaken n
      else match emptyWay (s.replicaWays c) with
        | some i => s.replicaPlaced n c i
        | none => match leastBy (fun (w : Way) => s.replicaEstimate c w.row) (s.replicaWays c) with
          | some v => if s.replicaEstimate c v.row < s.replicaEstimate c c.row then s.replicaPlaced n c v.way else s.copyTaken n
          | none => s.copyTaken n) := by
  change execWindrowCopy n s = _
  unfold execWindrowCopy
  rw [hcopy]
  dsimp only
  rw [if_neg (by simp [hlive, hrun])]
  refine congrArg _ (ite_congr ?_ (fun _ => rfl) (fun _ => rfl))
  simp only [Bool.or_eq_true, decide_eq_true_eq, or_assoc]
  rfl

/-- The way `i` of its set holds a replica of the master record, with its row block's version. -/
def State.HoldsReplica (s t : State) (c : RowCopy) (i : Nat) : Prop :=
  ∃ w ∈ t.row.windrow, w.die = c.die ∧ w.part = c.part ∧ w.table = c.table ∧ w.row = c.row ∧ w.way = i
    ∧ w.bytes = (s.readKeys (s.masterKeys c.part c.table c.row)).1 ∧ w.ver = s.rowVer c.part c.table c.row

theorem State.replicaPlaced_holds (s : State) (n : Nat) (c : RowCopy) (i : Nat) : s.HoldsReplica (s.replicaPlaced n c i) c i :=
  ⟨s.replicaWay c i, List.mem_append_right _ (List.mem_singleton_self _), rfl, rfl, rfl, rfl, rfl, rfl, rfl⟩

theorem windrowCopy_places {n : Nat} {c : RowCopy} (hlive : s.live = true) (hcopy : s.row.copies[n]? = some c) (hrun : c.part ∉ s.tx.recovering) :
    Completes (exec (.windrowCopy n) s) (fun t => t.row.copies = dropAt s.row.copies n ∧ t.mem = s.mem ∧
      if s.ReplicaVoid c then t.row.windrow = s.row.windrow
      else match emptyWay (s.replicaWays c) with
        | some i => s.HoldsReplica t c i
        | none => match leastBy (fun (w : Way) => s.replicaEstimate c w.row) (s.replicaWays c) with
          | some v => if s.replicaEstimate c v.row < s.replicaEstimate c c.row then s.HoldsReplica t c v.way else t.row.windrow = s.row.windrow
          | none => t.row.windrow = s.row.windrow) := by
  rw [exec_windrowCopy hlive hcopy hrun]
  refine .next ?_
  by_cases hvoid : s.ReplicaVoid c
  · rw [if_pos hvoid, if_pos hvoid]
    exact ⟨rfl, rfl, rfl⟩
  rw [if_neg hvoid, if_neg hvoid]
  cases emptyWay (s.replicaWays c) with
  | some i => exact ⟨rfl, rfl, s.replicaPlaced_holds n c i⟩
  | none =>
    cases leastBy (fun (w : Way) => s.replicaEstimate c w.row) (s.replicaWays c) with
    | none => exact ⟨rfl, rfl, rfl⟩
    | some v =>
      dsimp only
      by_cases hlower : s.replicaEstimate c v.row < s.replicaEstimate c c.row
      · rw [if_pos hlower, if_pos hlower]
        exact ⟨rfl, rfl, s.replicaPlaced_holds n c v.way⟩
      · rw [if_neg hlower, if_neg hlower]
        exact ⟨rfl, rfl, rfl⟩

/-! ### PRESSURE_INTERVAL (R208, R209) -/

/-- Counting what a pressure event names changes tables' counters and reports alone. -/
theorem State.pressure_row (s : State) (tier ch imb : Nat) (top : List (Nat × Nat)) : (s.pressure tier ch imb top).row = s.row := by
  have hcounts : (top.foldl (fun s x => s.countTable x.1 x.2 14 1) s).row = s.row :=
    List.foldlRecOn (motive := fun t : State => t.row = s.row) top _ rfl (fun _ ht _ _ => ht)
  exact (congrArg State.row (post_reports _ _ _) :).trans hcounts

/-- An interval's event on one tier, where one is posted. -/
def State.tierEvent (s : State) (tier base : Nat) (tables : List (Nat × Nat × Nat × Nat)) : Option (Nat × Nat) → State
  | some (c, i) => s.pressure tier c i (topTables tables (base + c))
  | none => s

theorem State.tierEvent_row (s : State) (tier base : Nat) (tables : List (Nat × Nat × Nat × Nat)) (e : Option (Nat × Nat)) :
    (s.tierEvent tier base tables e).row = s.row := by
  cases e with
  | none => rfl
  | some x => exact s.pressure_row ..

theorem State.tierEvent_mem (s : State) (tier base : Nat) (tables : List (Nat × Nat × Nat × Nat)) (e : Option (Nat × Nat)) :
    (s.tierEvent tier base tables e).mem = s.mem := by
  cases e with
  | none => rfl
  | some x => exact (State.pressure_bytes ..).1

/-- The next interval, with nothing counted and the runs so far. -/
def State.nextInterval (s : State) (near fallow : Nat × Bool × Option (Nat × Nat)) : State :=
  { s with row := { s.row with monitor := { since := s.row.monitor.since + 100000000, nearRun := near.1, fallowRun := fallow.1,
                                            nearPosted := near.2.1, fallowPosted := fallow.2.1 } } }

theorem exec_pressureInterval (hlive : s.live = true) (hdue : s.row.monitor.since + 100000000 ≤ s.now) :
    let m := s.row.monitor
    let near := tierRun m.near 16 m.nearRun m.nearPosted
    let fallow := tierRun m.fallow 32 m.fallowRun m.fallowPosted
    exec .pressureInterval s
      = .next (((s.nextInterval near fallow).tierEvent 0 64 m.tables near.2.2).tierEvent 1 128 m.tables fallow.2.2) := by
  intro m near fallow
  change execPressureInterval s = _
  unfold execPressureInterval
  dsimp only
  rw [if_neg (by simp [hlive, Nat.not_lt.2 hdue]), show tierRun s.row.monitor.near 16 s.row.monitor.nearRun s.row.monitor.nearPosted = near from rfl,
    show tierRun s.row.monitor.fallow 32 s.row.monitor.fallowRun s.row.monitor.fallowPosted = fallow from rfl]
  clear_value near fallow
  rfl

theorem pressureInterval_starts (hlive : s.live = true) (hdue : s.row.monitor.since + 100000000 ≤ s.now) :
    Completes (exec .pressureInterval s) (fun t =>
      t.row.monitor.since = s.row.monitor.since + 100000000 ∧ t.row.monitor.near = [] ∧ t.row.monitor.fallow = [] ∧ t.row.monitor.tables = []
      ∧ t.mem = s.mem) := by
  rw [exec_pressureInterval hlive hdue]
  refine .next ?_
  rw [State.tierEvent_row, State.tierEvent_row, State.tierEvent_mem, State.tierEvent_mem]
  exact ⟨rfl, rfl, rfl, rfl, rfl⟩

end

/-- Settles O31, by what each of the three commands does where it is due; a replica's way is the one its row finds (log entry 61). -/
theorem cachesAndMonitor : Obligations.CachesAndMonitor := by
  unfold Obligations.CachesAndMonitor
  intro s hlive
  exact ⟨fun _ hdue => sketchDecay_halves hlive hdue, fun _ c hcopy hrun => windrowCopy_places hlive hcopy hrun,
    fun hdue => pressureInterval_starts hlive hdue⟩

end Sys2Proof.Machine
end

section
/-! PROOFS. A re-salt's groups and its end, row-gradient contributions and those that come too late (R211, R212, R216, R219). -/

namespace Sys2Proof.Machine

/-! ### What writes leave of the row engines -/

theorem State.writeKeys_row (s : State) (ks : List Nat) (data : List Byte) (b : Bool) : (s.writeKeys ks data b).row = s.row := by
  unfold State.writeKeys
  dsimp only
  split <;> rfl

theorem State.markStale_row (s : State) (n : Nat) (a : Word) (len : Nat) : (s.markStale n a len).row = s.row := by
  unfold State.markStale
  split <;> rfl

/-- A write of device bytes refreshes copies and keeps the re-salts (R203). -/
theorem State.writeDev_resalts (s : State) (n core : Nat) (a : Word) (data : List Byte) (b : Bool) :
    (s.writeDev n core a data b).row.resalts = s.row.resalts := by
  have hwrite : ((s.writeKeys (s.keysOf n core a data.length) data b).markStale n a data.length).row = s.row :=
    (State.markStale_row ..).trans (State.writeKeys_row ..)
  unfold State.writeDev
  dsimp only
  split
  · split
    · exact (congrArg RowState.resalts hwrite :)
    · exact congrArg RowState.resalts hwrite
  · exact congrArg RowState.resalts hwrite

/-- One byte of the scratchpad lies where it lies, whatever is installed (R136). -/
theorem State.keysOf_scratch (s : State) (n core : Nat) {a : Word} (h : spaceOf a = 0) : s.keysOf n core a 1 = [scratchKey core (fld a.toNat 19 0)] := by
  have hkey : s.keyOf n core (a + BitVec.ofNat 64 0) = some (scratchKey core (fld a.toNat 19 0)) := by
    rw [show a + BitVec.ofNat 64 0 = a from BitVec.add_zero a]
    unfold State.keyOf
    rw [h]
    rfl
  exact List.filterMap_cons_some (f := fun i => s.keyOf n core (a + BitVec.ofNat 64 i)) hkey

section
variable {s : State}

/-! ### RESALT_GROUP_MIGRATE (R211) -/

/-- A transaction that a unit opens with its writes enters its prepare phase with them (R239). -/
theorem State.openTx_prepares (s : State) (n coord cluster : Nat) (step : Word) (o : TxOrigin) (l : List JEntry) (checks : List (Word × Nat)) :
    ∃ x ∈ (s.openTx n coord cluster step o l checks).tx.txs, x.num = s.tx.nextTx ∧ x.part = n ∧ x.origin = o ∧ x.entries = l
      ∧ x.checks = checks ∧ x.phase = .preparing :=
  ⟨_, List.mem_append_right _ (List.mem_singleton_self _), rfl, rfl, rfl, rfl, rfl, rfl⟩

/-- What the table of a re-salt becomes behind its last group. -/
def Table.resalted (t : Table) : Table := { t with salt := t.newSalt, newSalt := 0, cursor := 0, resalting := false }

/-- The state whose table has its new salt and whose re-salt has ended. -/
def State.resaltEnded (s : State) (n tn : Nat) : State :=
  let v := s.updPart n (fun q => { q with tables := q.tables.upd {} tn Table.resalted })
  { v with row := { v.row with resalts := v.row.resalts.filter (fun x => !(x.part = n && x.table = tn)) } }

/-- The status byte of a re-salt that has ended, where it has one to write. -/
def State.resaltStatus (s : State) (n core : Nat) : Option Word → State
  | some a => s.writeDev n core a [0x00] false
  | none => s

theorem sameMap_resaltStatus (s : State) (n core : Nat) (o : Option Word) : SameMap s (s.resaltStatus n core o) := by
  cases o with
  | none => exact .refl s
  | some a => exact sameMap_writeDev s n core a [0x00] false

theorem State.resaltStatus_resalts (s : State) (n core : Nat) (o : Option Word) : (s.resaltStatus n core o).row.resalts = s.row.resalts := by
  cases o with
  | none => rfl
  | some a => exact State.writeDev_resalts ..

section
variable {n tn : Nat} {r : Resalt}

/-- The re-salt of a table goes on: it runs, nothing recovers the partition, and no transaction of its group is open. -/
structure MigrationDue (s : State) (n tn : Nat) (r : Resalt) : Prop where
  live : s.live = true
  running : s.row.resalts.find? (fun x => x.part = n && x.table = tn) = some r
  resalting : ((s.part n).tables.get {} tn).resalting = true
  recovered : n ∉ s.tx.recovering
  closed : s.tx.txs.any (fun x => x.part = n && x.origin = .resalt tn ((s.part n).tables.get {} tn).cursor) = false

theorem exec_resaltGroupMigrate (h : MigrationDue s n tn r) :
    let q := s.part n
    let tb := q.tables.get {} tn
    exec (.resaltGroupMigrate n tn) s = .next (match groupAt (q.salted tb) tb.cursor with
      | some (num, o, g) => (s.served (((groupRows o g).map (rowKeys q num o)).flatten) 1).openTx n (coreDie r.p.core) (coreCluster r.p.core)
          q.lastStarted (.resalt tn tb.cursor) (s.groupEntries n num o g) (s.groupChecks n o g)
      | none => ((s.resaltEnded n tn).resaltStatus n r.p.core r.status).action n r.tag r.ck r.ct) := by
  intro q tb
  change execResaltGroupMigrate n tn s = _
  unfold execResaltGroupMigrate
  dsimp only
  rw [h.running]
  dsimp only
  rw [if_neg (by simp only [h.live, h.resalting, h.recovered]; decide), if_neg (by rw [h.closed]; decide)]
  rfl

theorem resaltGroupMigrate_opens (h : MigrationDue s n tn r) {num g : Nat} {o : Obj}
    (hgroup : groupAt ((s.part n).salted ((s.part n).tables.get {} tn)) ((s.part n).tables.get {} tn).cursor = some (num, o, g)) :
    Completes (exec (.resaltGroupMigrate n tn) s) (fun t => t.mem = s.mem ∧ ∃ x ∈ t.tx.txs, x.num = s.tx.nextTx ∧ x.part = n
      ∧ x.origin = .resalt tn ((s.part n).tables.get {} tn).cursor ∧ x.entries = s.groupEntries n num o g ∧ x.checks = s.groupChecks n o g
      ∧ x.phase = .preparing) := by
  rw [exec_resaltGroupMigrate h, hgroup]
  refine .next ?_
  dsimp only
  have hnext : (s.served (((groupRows o g).map (rowKeys (s.part n) num o)).flatten) 1).tx.nextTx = s.tx.nextTx := by
    rw [State.served_eq]
  refine ⟨(State.openTx_bytes ..).1.trans (State.served_bytes ..).1, ?_⟩
  rw [← hnext]
  exact State.openTx_prepares ..

theorem resaltGroupMigrate_ends (h : MigrationDue s n tn r)
    (hgroup : groupAt ((s.part n).salted ((s.part n).tables.get {} tn)) ((s.part n).tables.get {} tn).cursor = none) :
    Completes (exec (.resaltGroupMigrate n tn) s) (fun t =>
      (t.part n).tables.get {} tn = ((s.part n).tables.get {} tn).resalted
      ∧ t.row.resalts = s.row.resalts.filter (fun x => !(x.part = n && x.table = tn))
      ∧ (r.status = none → t.mem = s.mem)
      ∧ (∀ a, r.status = some a → spaceOf a = 0 → t.mem = Memory.putAll s.mem (List.zip (s.keysOf n r.p.core a 1) [0x00]))) := by
  rw [exec_resaltGroupMigrate h, hgroup]
  refine .next ?_
  dsimp only
  rw [State.action_eq]
  refine ⟨?table, State.resaltStatus_resalts .., fun hnone => ?silent, fun a hsome hspace => ?status⟩
  case table =>
    obtain ⟨-, htables, -⟩ := sameMap_resaltStatus (s.resaltEnded n tn) n r.p.core r.status n
    have hpart : (s.resaltEnded n tn).part n = { s.part n with tables := (s.part n).tables.upd {} tn Table.resalted } :=
      s.part_updPart_same n (fun q => { q with tables := q.tables.upd {} tn Table.resalted })
    change Tab.get {} ((State.resaltStatus (s.resaltEnded n tn) n r.p.core r.status).part n).tables tn = _
    rw [← htables, hpart]
    exact Tab.get_set_same ..
  case silent => rw [hnone]; rfl
  case status =>
    rw [hsome]
    change (State.writeDev _ _ _ _ _ _).mem = _
    rw [State.writeDev_mem, List.length_singleton, State.keysOf_scratch _ _ _ hspace, State.keysOf_scratch _ _ _ hspace]
    rfl

end

/-! ### GRADIENT_CONTRIBUTION (R216, R219, R226) -/

/-- Changing one job of the row engines. -/
def State.updJob (s : State) (job : Nat) (f : RowJob → RowJob) : State :=
  { s with row := { s.row with jobs := s.row.jobs.map (fun x => if x.num = job then f x else x) } }

theorem State.job_updJob (s : State) (job : Nat) (f : RowJob → RowJob) (hnum : ∀ j, (f j).num = j.num) :
    (s.updJob job f).job job = (s.job job).map f := find_updJob s.row.jobs job f hnum

/-- The job whose next contribution has been taken. -/
def RowJob.goOn (j : RowJob) : RowJob := { j with next := j.next + 1 }
/-- The job that met a gradient row with this mark at an index (R216). -/
def RowJob.metBlight (j : RowJob) (i : Nat) (blight : Bool) : RowJob :=
  { j with gradBad := if blight then insertNat j.gradBad (j.bagOf i) else j.gradBad }

/-- A contribution is under way: the job goes on to its next index, with the mark of the gradient row of this one. -/
def State.contributing (s : State) (job i : Nat) (blight : Bool) : State :=
  (s.updJob job RowJob.goOn).updJob job (fun x => x.metBlight i blight)

theorem State.goOn_next {job : Nat} {j : RowJob} (hjob : s.job job = some j) : ((s.updJob job RowJob.goOn).job job).map (·.next) = some (j.next + 1) := by
  rw [State.job_updJob s job RowJob.goOn (fun _ => rfl), hjob]
  rfl

theorem State.contributing_next {job : Nat} {j : RowJob} (hjob : s.job job = some j) (i : Nat) (blight : Bool) :
    ((s.contributing job i blight).job job).map (·.next) = some (j.next + 1) := by
  rw [State.contributing, State.job_updJob _ job (fun x => x.metBlight i blight) (fun _ => rfl), Option.map_map]
  exact State.goOn_next hjob

theorem State.job_of_row {s t : State} (h : t.row = s.row) (job : Nat) : t.job job = s.job job := by
  unfold State.job
  rw [h]

theorem State.putRowAcc_row (s : State) (n : Nat) (a : Word) (x : RowAcc) : (s.putRowAcc n a x).row = s.row := State.writeKeys_row ..

theorem State.overflowSlots_row (s : State) (n : Nat) (x : RowAcc) (t : Table) : (s.overflowSlots n x t).row = s.row := by
  unfold State.overflowSlots
  refine List.foldlRecOn (motive := fun v : State => v.row = s.row) _ _ rfl (fun v hv d _ => ?_)
  refine List.foldlRecOn (motive := fun v : State => v.row = s.row) _ _ hv (fun w hw i _ => ?_)
  dsimp only
  split
  · exact (State.writeKeys_row ..).trans hw
  · exact hw

/-- A contribution writes its accumulator and leaves the row engines alone (R226). -/
theorem State.contribute_row (s : State) (j : RowJob) (t : Table) (e : PlanEntry) (o : Obj) (r i : Nat) : (s.contribute j t e o r i).row = s.row := by
  unfold State.contribute
  dsimp only
  split
  · exact State.putRowAcc_row ..
  · split
    · exact (State.overflowSlots_row ..).trans ((State.putRowAcc_row ..).trans ((State.writeKeys_row ..).trans (State.writeKeys_row ..)))
    · exact (State.putRowAcc_row ..).trans ((State.writeKeys_row ..).trans (State.writeKeys_row ..))

theorem State.countLate_row (s : State) (c n : Nat) (tag : Word) : (s.countLate c n tag).row = s.row :=
  (congrArg State.row (s.countLate_reports c n tag) :)

section
variable {job : Nat} {j : RowJob}

/-- A row-gradient command has an index whose contribution is due. -/
structure ContributionDue (s : State) (job : Nat) (j : RowJob) : Prop where
  live : s.live = true
  found : s.job job = some j
  grad : j.grad = true
  left : j.next < j.cmd.count
  taken : j.rejected = false

theorem exec_gradientContribution (h : ContributionDue s job j) :
    exec (.gradientContribution job) s = .next (match (j.fetches.find j.next).map (fun f => f.kind) with
      | some (FetchKind.row r) => match (s.part j.part).rowObj j.cmd.table r, (s.part j.part).entryOf j.cmd.table with
        | some (_, o), some e =>
          let tb := (s.part j.part).tables.get {} j.cmd.table
          let g := s.gradTerms j tb j.next
          let v := s.contributing job j.next g.2
          if g.1.all (·.isNone) then v
          else if s.late j.part j.step then v.countLate (coreCluster j.p.core) j.part j.tag
          else v.contribute j tb e o r j.next
        | _, _ => (s.updJob job RowJob.goOn).countTable j.part j.cmd.table 13 1
      | _ => (s.updJob job RowJob.goOn).countTable j.part j.cmd.table 13 1) := by
  change execGradientContribution job s = _
  unfold execGradientContribution
  rw [h.found]
  dsimp only
  rw [if_neg (by simp [h.live, h.grad, h.taken, Nat.not_le.2 h.left])]
  rfl

theorem gradientContribution_row (h : ContributionDue s job j) {r num : Nat} {o : Obj} {e : PlanEntry}
    (hrow : (j.fetches.find j.next).map (·.kind) = some (.row r)) (hobj : (s.part j.part).rowObj j.cmd.table r = some (num, o))
    (hentry : (s.part j.part).entryOf j.cmd.table = some e) :
    let tb := (s.part j.part).tables.get {} j.cmd.table
    let cl := coreCluster j.p.core
    Completes (exec (.gradientContribution job) s) (fun t => (t.job job).map (·.next) = some (j.next + 1) ∧
      if (s.gradTerms j tb j.next).1.all (·.isNone) then t.mem = s.mem
      else if s.late j.part j.step then t.mem = s.mem ∧ (t.cluster cl).cnt.late = min ((s.cluster cl).cnt.late + 1) (2 ^ 64 - 1)
      else t.mem = (({ s with row := t.row } : State).contribute j tb e o r j.next).mem) := by
  intro tb cl
  rw [exec_gradientContribution h, hrow]
  dsimp only
  rw [hobj, hentry]
  refine .next ?_
  dsimp only
  generalize s.gradTerms j ((s.part j.part).tables.get {} j.cmd.table) j.next = g
  have hnext := State.contributing_next h.found j.next g.2
  by_cases hnone : g.1.all (·.isNone) = true
  · rw [if_pos hnone, if_pos hnone]
    exact ⟨hnext, rfl⟩
  rw [if_neg hnone, if_neg hnone]
  by_cases hlate : s.late j.part j.step = true
  · rw [if_pos hlate, if_pos hlate, State.job_of_row (State.countLate_row ..)]
    exact ⟨hnext, (State.countLate_bytes ..).1, State.countLate_late ..⟩
  · rw [if_neg hlate, if_neg hlate, State.job_of_row (State.contribute_row ..), State.contribute_row]
    exact ⟨hnext, rfl⟩

theorem gradientContribution_none (h : ContributionDue s job j) {k : FetchKind} (hkind : (j.fetches.find j.next).map (·.kind) = some k)
    (hrow : ∀ r, k ≠ .row r) :
    Completes (exec (.gradientContribution job) s) (fun t => (t.job job).map (·.next) = some (j.next + 1) ∧ t.mem = s.mem) := by
  rw [exec_gradientContribution h, hkind]
  refine .next ?_
  cases k with
  | row r => exact absurd rfl (hrow r)
  | _ => exact ⟨State.goOn_next h.found, rfl⟩

end
end

/-- Settles O32: a group's transaction is open or the table has its new salt; a contribution goes on to the next index. -/
theorem resaltAndContributions : Obligations.ResaltAndContributions := by
  unfold Obligations.ResaltAndContributions
  intro s hlive
  constructor
  · intro n tn r hrun q tb hsalt hrec hclosed
    have hdue : MigrationDue s n tn r := ⟨hlive, hrun, hsalt, hrec, hclosed⟩
    cases hgroup : groupAt (q.salted tb) tb.cursor with
    | none => exact resaltGroupMigrate_ends hdue hgroup
    | some x => exact resaltGroupMigrate_opens hdue hgroup
  · intro job j hjob hgrad hleft htaken
    have hdue : ContributionDue s job j := ⟨hlive, hjob, hgrad, hleft, htaken⟩
    exact ⟨fun r num o e hrow hobj hentry => gradientContribution_row hdue hrow hobj hentry,
      fun k hkind hrow => gradientContribution_none hdue hkind hrow⟩

end Sys2Proof.Machine
end

section
/-! PROOFS. Tables, objects, mirrors and removals: what an accepted descriptor installs, which bytes of the fallow tier read as zero,
what goes once nothing holds it (R176, R271, R286, R288, R406, R443). -/

namespace Sys2Proof.Machine

/-! ### Bytes of the fallow tier that read as zero (R286) -/

theorem Memory.get_filter_not (p : Nat → Bool) (m : List Host.Cell) (k : Nat) :
    Memory.get (m.filter (fun c => !p c.1)) k = if p k then 0 else Memory.get m k := by
  induction m with
  | nil => simp [Memory.get]
  | cons c m ih =>
    obtain ⟨j, b⟩ := c
    by_cases hj : j = k
    · subst hj
      cases hp : p j with
      | true => simpa [hp] using ih
      | false => simp [hp, Memory.get]
    · cases hp : p j with
      | true => simpa [hp, Memory.get, hj] using ih
      | false => simpa [hp, Memory.get, hj] using ih

theorem inRuns_nil (k : Nat) : inRuns [] k = false := Bool.and_false _

theorem State.zeroRuns_get (s : State) (rs : List Run) (k : Nat) :
    Memory.get (s.zeroRuns rs).mem k = if inRuns rs k then 0 else Memory.get s.mem k := Memory.get_filter_not (inRuns rs) s.mem k

/-- Runs read as zero, where there are any. -/
def State.zeroed (s : State) (rs : List Run) : State := if rs = [] then s else s.zeroRuns rs

theorem State.zeroed_eq (s : State) (rs : List Run) : s.zeroed rs
    = { s with mem := (s.zeroed rs).mem, poison := (s.zeroed rs).poison, substd := (s.zeroed rs).substd, tiers := (s.zeroed rs).tiers } := by
  unfold State.zeroed
  split <;> rfl

theorem State.zeroed_get (s : State) (rs : List Run) (k : Nat) :
    Memory.get (s.zeroed rs).mem k = if inRuns rs k then 0 else Memory.get s.mem k := by
  unfold State.zeroed
  split
  · next h => rw [h, inRuns_nil]; rfl
  · exact s.zeroRuns_get rs k

theorem State.zeroed_parts (s : State) (rs : List Run) : (s.zeroed rs).parts = s.parts := (congrArg State.parts (s.zeroed_eq rs) :)
theorem State.zeroed_row (s : State) (rs : List Run) : (s.zeroed rs).row = s.row := (congrArg State.row (s.zeroed_eq rs) :)

/-! ### Copies of a table's rows that are gone (R176, R202) -/

/-- A partition with other ways at which its preloads go on (R202). -/
def Part.rotated (p : Part) (l : List (Nat × Nat × Nat × Nat)) : Part := { p with rotation := l }

theorem State.part_dropCopies_same (s : State) (n t : Nat) :
    (s.dropCopies n t).part n = (s.part n).rotated ((s.part n).rotation.filter (fun x => x.2.1 ≠ t)) :=
  s.part_updPart_same n (fun p => p.rotated (p.rotation.filter (fun x => x.2.1 ≠ t)))

theorem State.part_dropCopies_ne (s : State) (t : Nat) {n m : Nat} (h : m ≠ n) : (s.dropCopies n t).part m = s.part m :=
  s.part_updPart_ne n (fun p => p.rotated (p.rotation.filter (fun x => x.2.1 ≠ t))) h

theorem State.rick_dropCopies (s : State) (n t : Nat) {e : Way} (he : e ∈ (s.dropCopies n t).row.rick) :
    e ∈ s.row.rick ∧ ¬ (e.part = n ∧ e.table = t) := by
  obtain ⟨hmem, hkept⟩ := List.mem_filter.1 he
  exact ⟨hmem, by simpa [Decidable.imp_iff_not_or] using hkept⟩

/-! ### What a command that installs changes beside what it reports -/

/-- A state with partitions, row engines, memory and tiers as another has them. -/
def State.installing (u t : State) : State :=
  { u with parts := t.parts, row := t.row, mem := t.mem, poison := t.poison, substd := t.substd, tiers := t.tiers }

theorem State.installing_of_reports (u : State) {v t : State} (h : BesidesReports v t) : u.installing t = u.installing v := by
  unfold State.installing
  rw [h]

theorem BesidesReports.installing {s u : State} (h : BesidesReports s u) (t : State) : BesidesReports (s.installing t) (u.installing t) := by
  unfold BesidesReports State.installing at *
  rw [h]

theorem BesidesReports.mem {v t : State} (h : BesidesReports v t) : t.mem = v.mem := h.bytes.1
theorem BesidesReports.row {v t : State} (h : BesidesReports v t) : t.row = v.row := (congrArg State.row h :)
theorem BesidesReports.link {v t : State} (h : BesidesReports v t) : t.link = v.link := (congrArg State.link h :)
theorem BesidesReports.clusters {v t : State} (h : BesidesReports v t) : t.clusters = v.clusters := (congrArg State.clusters h :)
theorem BesidesReports.part {v t : State} (h : BesidesReports v t) (m : Nat) : t.part m = v.part m := State.part_of_parts h.parts m

theorem TakesEntry.of_host {u v t : State} {q : QRef} (h : TakesEntry v t q) (hhost : v.host = u.host) : TakesEntry u t q := by
  unfold TakesEntry State.queue State.func at *
  rwa [← hhost]

theorem done_reports (v : State) (c : HostCmd) (r : Word) : BesidesReports v (v.done c r) := complete_reports ..

theorem done_answers (v : State) (c : HostCmd) (r : Word) : Answers v (v.done c r) c 0 0 r := complete_answers ..

theorem fail_answers (v : State) (c : HostCmd) (status detail : Nat) :
    Answers v (v.fail c status detail) c (BitVec.ofNat 16 status) (BitVec.ofNat 16 detail) 0 := complete_answers ..

section
variable {s u : State} {q : QRef} {n : Nat} {c : HostCmd}

/-! ### INSTALL_TABLE (R176, R442) -/

/-- The fallow runs of the rows of a table that is installed for the first time, where no earlier one gave them a record size. -/
def State.freshRuns (u : State) (n num : Nat) (x : Table) : List Run :=
  if ((u.part n).tables.find num).isSome then []
  else ((((u.part n).rowObjs num x).filter (fun y => y.2.oldRec = 0)).map (fun y => y.2.fallowRuns x)).flatten

/-- A state in which started fetches keep the descriptors that a table's install replaces (R176). -/
def State.keptForTable (u : State) (n num : Nat) (x : Table) : State :=
  u.keepOld n (fun k _ => k = num) (fun old => old.salt = x.salt || old.resalting)

/-- A table stands in its partition. -/
def Part.withTable (p : Part) (num : Nat) (x : Table) : Part := { p with tables := p.tables.set num (x.replacing (p.tables.get {} num)) }

/-- A table is installed. -/
def State.tableInstalled (u : State) (n num : Nat) (x : Table) : State :=
  (((u.keptForTable n num x).zeroed (u.freshRuns n num x)).updPart n (·.withTable num x)).dropCopies n num

theorem State.tableInstalled_eq (u : State) (n num : Nat) (x : Table) :
    u.tableInstalled n num x = u.installing (u.tableInstalled n num x) := by
  unfold State.tableInstalled
  generalize hz : (u.keptForTable n num x).zeroed (u.freshRuns n num x) = z
  have hfields := State.zeroed_eq (u.keptForTable n num x) (u.freshRuns n num x)
  rw [hz] at hfields
  rw [hfields]
  rfl

theorem State.part_tableInstalled_same (u : State) (n num : Nat) (x : Table) :
    ∃ l, (u.tableInstalled n num x).part n = ((u.part n).withTable num x).rotated l := by
  unfold State.tableInstalled
  rw [State.part_dropCopies_same, State.part_updPart_same, State.part_of_parts (State.zeroed_parts ..)]
  exact ⟨_, rfl⟩

theorem State.part_tableInstalled_ne (u : State) {n m : Nat} (num : Nat) (x : Table) (h : m ≠ n) : (u.tableInstalled n num x).part m = u.part m :=
  (State.part_dropCopies_ne _ _ h).trans ((State.part_updPart_ne _ _ _ h).trans (State.part_of_parts (State.zeroed_parts ..) m))

theorem State.tableInstalled_get (u : State) (n num : Nat) (x : Table) (k : Nat) :
    Memory.get (u.tableInstalled n num x).mem k = if inRuns (u.freshRuns n num x) k then 0 else Memory.get u.mem k :=
  State.zeroed_get (u.keptForTable n num x) (u.freshRuns n num x) k

theorem State.rick_tableInstalled (u : State) (n num : Nat) (x : Table) {e : Way} (he : e ∈ (u.tableInstalled n num x).row.rick) :
    e ∈ u.row.rick ∧ ¬ (e.part = n ∧ e.table = num) := by
  obtain ⟨hmem, hkept⟩ := State.rick_dropCopies _ n num he
  rw [State.updPart_row, State.zeroed_row] at hmem
  exact ⟨hmem, hkept⟩

/-- The arguments of INSTALL_TABLE are well formed, and what its descriptor names can be reached. -/
structure InstallsTable (u : State) (n : Nat) (c : HostCmd) (x : Table) : Prop where
  number : c.arg 0 < 4096
  zero : c.arg 1 = 0
  rest : c.arg 2 = 0 ∧ c.arg 3 = 0
  length : 128 ≤ c.block.length
  named : u.tableOf n (c.block.take 128) = x
  reach : u.tableReach n c.block x = true

theorem exec_installTable {x : Table} (h : HostRuns s q 0x07 n u c) (ha : InstallsTable u n c x) :
    exec (.installTable q) s = .next (if u.tableCode n (c.arg 0) (c.block.take 128) x = 0 then (u.tableInstalled n (c.arg 0) x).done c 0
      else u.fail c 0x05 (u.tableCode n (c.arg 0) (c.block.take 128) x)) := by
  obtain ⟨hnumber, hzero, ⟨htwo, hthree⟩, hlength, rfl, hreach⟩ := ha
  change execInstallTable q s = _
  refine (hostRow_runs h _).trans (congrArg _ ?_)
  dsimp only
  rw [if_neg ?arguments, if_neg ?reach]
  case arguments => simp [hzero, htwo, hthree]; omega
  case reach => simp [hreach]
  generalize u.tableOf n (c.block.take 128) = x
  cases u.tableCode n (c.arg 0) (c.block.take 128) x with
  | succ k => exact (if_neg (Nat.succ_ne_zero k)).symm
  | zero =>
    rw [if_pos rfl]
    have hfresh : (if ((u.part n).tables.find (c.arg 0)).isNone = true
        then (((u.part n).rowObjs (c.arg 0) x).filter (fun y => y.2.oldRec = 0)).map (fun y => y.2.fallowRuns x) else []).flatten
        = u.freshRuns n (c.arg 0) x := by
      unfold State.freshRuns
      cases (u.part n).tables.find (c.arg 0) <;> rfl
    unfold State.tableInstalled State.zeroed
    rw [← hfresh]
    rfl

theorem installTable_accepted {x : Table} (h : HostRuns s q 0x07 n u c) (ha : InstallsTable u n c x)
    (hcode : u.tableCode n (c.arg 0) (c.block.take 128) x = 0) :
    Completes (exec (.installTable q) s) (fun t => Answers (u.installing t) t c 0 0 0
      ∧ (∀ k, Memory.get t.mem k = if inRuns (u.freshRuns n (c.arg 0) x) k then 0 else Memory.get s.mem k)
      ∧ (t.part n).tables.find (c.arg 0) = some (x.replacing ((u.part n).tables.get {} (c.arg 0)))
      ∧ (t.part n).objects = (s.part n).objects ∧ (∀ m, m ≠ n → t.part m = s.part m)
      ∧ (∀ e ∈ t.row.rick, e ∈ s.row.rick ∧ ¬ (e.part = n ∧ e.table = c.arg 0))) := by
  rw [exec_installTable h ha, if_pos hcode]
  have hdone := done_reports (u.tableInstalled n (c.arg 0) x) c 0
  refine .next ⟨?answers, fun k => ?memory, ?table, ?objects, fun m hm => ?others, fun e he => ?rick⟩
  case answers =>
    rw [State.installing_of_reports u hdone, ← State.tableInstalled_eq]
    exact done_answers ..
  case memory => rw [hdone.mem, State.tableInstalled_get, h.besides.mem]
  case others => rw [hdone.part, State.part_tableInstalled_ne _ _ _ hm, h.besides.part]
  case rick =>
    rw [hdone.row] at he
    rw [← h.besides.row]
    exact State.rick_tableInstalled _ _ _ _ he
  all_goals
    obtain ⟨l, hpart⟩ := u.part_tableInstalled_same n (c.arg 0) x
    rw [hdone.part, hpart]
  case table => exact Tab.find_set_same ..
  case objects => exact (congrArg Part.objects (h.besides.part n) :)

theorem installTable_refused {x : Table} (h : HostRuns s q 0x07 n u c) (ha : InstallsTable u n c x) {k : Nat} (hk : k ≠ 0)
    (hcode : u.tableCode n (c.arg 0) (c.block.take 128) x = k) :
    Completes (exec (.installTable q) s) (fun t => Answers u t c 0x05 (BitVec.ofNat 16 k) 0) := by
  rw [exec_installTable h ha, hcode, if_neg hk]
  exact .next (fail_answers ..)

/-! ### INSTALL_OBJECT (R176, R271, R286) -/

/-- The fallow runs that read as zero where an object takes a number: those of the number's old object and its own. -/
def State.placedRuns (s : State) (n num : Nat) (o : Obj) : List Run :=
  (match (s.part n).objects.find num with | some y => y.fallowRuns (s.objTable n y) | none => []) ++ o.fallowRuns (s.objTable n o)

/-- An object stands in its partition. -/
def Part.withObject (p : Part) (num : Nat) (o : Obj) : Part := { p with objects := p.objects.set num o }

theorem State.placeObj_eq (s : State) (n num : Nat) (o : Obj) :
    s.placeObj n num o = (s.zeroed (s.placedRuns n num o)).updPart n (·.withObject num o) := rfl

theorem State.part_placeObj_same (s : State) (n num : Nat) (o : Obj) : (s.placeObj n num o).part n = (s.part n).withObject num o := by
  rw [State.placeObj_eq, State.part_updPart_same, State.part_of_parts (State.zeroed_parts ..)]

theorem State.part_placeObj_ne (s : State) {n m : Nat} (num : Nat) (o : Obj) (h : m ≠ n) : (s.placeObj n num o).part m = s.part m := by
  rw [State.placeObj_eq, State.part_updPart_ne _ _ _ h, State.part_of_parts (State.zeroed_parts ..)]

theorem State.placeObj_get (s : State) (n num : Nat) (o : Obj) (k : Nat) :
    Memory.get (s.placeObj n num o).mem k = if inRuns (s.placedRuns n num o) k then 0 else Memory.get s.mem k := s.zeroed_get _ k

theorem State.placeObj_installing (s : State) (n num : Nat) (o : Obj) : s.placeObj n num o = s.installing (s.placeObj n num o) := by
  rw [State.placeObj_eq]
  generalize hz : s.zeroed (s.placedRuns n num o) = z
  have hfields := s.zeroed_eq (s.placedRuns n num o)
  rw [hz] at hfields
  rw [hfields]
  rfl

/-- A state in which started fetches keep the descriptors that an object's install replaces (R176). -/
def State.keptForObject (u : State) (n num : Nat) : State := u.keepOld n (fun _ t => num ∈ t.objs || num = t.shadowObj) (fun _ => true)

/-- An object is installed. -/
def State.objectInstalled (u : State) (n num : Nat) (o : Obj) : State :=
  if o.hasRows then ((u.keptForObject n num).placeObj n num o).dropCopies n o.table else (u.keptForObject n num).placeObj n num o

theorem State.objectInstalled_eq (u : State) (n num : Nat) (o : Obj) : u.objectInstalled n num o = u.installing (u.objectInstalled n num o) := by
  unfold State.objectInstalled
  generalize hz : (u.keptForObject n num).placeObj n num o = z
  have hfields := (u.keptForObject n num).placeObj_installing n num o
  rw [hz] at hfields
  rw [hfields]
  split <;> rfl

theorem State.part_objectInstalled_same (u : State) (n num : Nat) (o : Obj) :
    ∃ l, (u.objectInstalled n num o).part n = ((u.part n).withObject num o).rotated l := by
  unfold State.objectInstalled
  split
  · rw [State.part_dropCopies_same, State.part_placeObj_same]
    exact ⟨_, rfl⟩
  · exact ⟨_, State.part_placeObj_same ..⟩

theorem State.part_objectInstalled_ne (u : State) {n m : Nat} (num : Nat) (o : Obj) (h : m ≠ n) :
    (u.objectInstalled n num o).part m = u.part m := by
  unfold State.objectInstalled
  split
  · exact (State.part_dropCopies_ne _ _ h).trans (State.part_placeObj_ne _ _ _ h)
  · exact State.part_placeObj_ne _ _ _ h

theorem State.objectInstalled_get (u : State) (n num : Nat) (o : Obj) (k : Nat) :
    Memory.get (u.objectInstalled n num o).mem k = if inRuns (u.placedRuns n num o) k then 0 else Memory.get u.mem k := by
  have hmem : (u.objectInstalled n num o).mem = ((u.keptForObject n num).placeObj n num o).mem := by
    unfold State.objectInstalled
    split <;> rfl
  rw [hmem]
  exact State.placeObj_get (u.keptForObject n num) n num o k

/-- The arguments of INSTALL_OBJECT are well formed. -/
structure InstallsObject (c : HostCmd) : Prop where
  number : c.arg 0 < 2 ^ 20
  zero : c.arg 1 = 0
  rest : c.arg 2 = 0 ∧ c.arg 3 = 0
  length : 64 ≤ c.block.length

theorem exec_installObject (h : HostRuns s q 0x08 n u c) (ha : InstallsObject c) :
    exec (.installObject q) s = .next (if u.objCode n (c.arg 0) (c.block.take 64) (objOf c.block) = 0
      then (u.objectInstalled n (c.arg 0) (objOf c.block)).done c 0
      else u.fail c 0x05 (u.objCode n (c.arg 0) (c.block.take 64) (objOf c.block))) := by
  obtain ⟨hnumber, hzero, ⟨htwo, hthree⟩, hlength⟩ := ha
  change execInstallObject q s = _
  refine (hostRow_runs h _).trans (congrArg _ ?_)
  dsimp only
  rw [if_neg ?arguments]
  case arguments => simp [hzero, htwo, hthree]; omega
  cases u.objCode n (c.arg 0) (c.block.take 64) (objOf c.block) with
  | zero => rw [if_pos rfl]; rfl
  | succ k => exact (if_neg (Nat.succ_ne_zero k)).symm

theorem installObject_accepted (h : HostRuns s q 0x08 n u c) (ha : InstallsObject c)
    (hcode : u.objCode n (c.arg 0) (c.block.take 64) (objOf c.block) = 0) :
    Completes (exec (.installObject q) s) (fun t => BesidesReports (s.installing t) t ∧ TakesEntry u t q
      ∧ (t.part n).objects.find (c.arg 0) = some (objOf c.block)
      ∧ (∀ k, k ≠ c.arg 0 → (t.part n).objects.find k = (s.part n).objects.find k) ∧ (t.part n).tables = (s.part n).tables
      ∧ (∀ m, m ≠ n → t.part m = s.part m)
      ∧ (∀ k, Memory.get t.mem k = if inRuns (u.placedRuns n (c.arg 0) (objOf c.block)) k then 0 else Memory.get s.mem k)) := by
  rw [exec_installObject h ha, if_pos hcode]
  generalize objOf c.block = o
  have hdone := done_reports (u.objectInstalled n (c.arg 0) o) c 0
  have hfields := u.objectInstalled_eq n (c.arg 0) o
  obtain ⟨-, hentry, -⟩ := done_answers (u.objectInstalled n (c.arg 0) o) c 0
  refine .next ⟨?reports, ?entry, ?object, fun k hk => ?objects, ?tables, fun m hm => ?others, fun k => ?memory⟩
  case reports =>
    refine (h.besides.installing _).trans ?_
    rw [State.installing_of_reports u hdone, ← hfields]
    exact hdone
  case entry =>
    rw [← h.ref_q]
    exact hentry.of_host (congrArg State.host hfields :)
  case others => rw [hdone.part, State.part_objectInstalled_ne _ _ _ hm, h.besides.part]
  case memory => rw [hdone.mem, State.objectInstalled_get, h.besides.mem]
  all_goals
    obtain ⟨l, hpart⟩ := u.part_objectInstalled_same n (c.arg 0) o
    rw [hdone.part, hpart]
  case object => exact Tab.find_set_same ..
  case objects => exact (Tab.find_set_ne _ _ hk).trans (congrArg (fun p : Part => p.objects.find k) (h.besides.part n))
  case tables => exact (congrArg Part.tables (h.besides.part n) :)

theorem installObject_refused (h : HostRuns s q 0x08 n u c) (ha : InstallsObject c) {k : Nat} (hk : k ≠ 0)
    (hcode : u.objCode n (c.arg 0) (c.block.take 64) (objOf c.block) = k) :
    Completes (exec (.installObject q) s) (fun t => Answers u t c 0x05 (BitVec.ofNat 16 k) 0) := by
  rw [exec_installObject h ha, hcode, if_neg hk]
  exact .next (fail_answers ..)

/-! ### INSTALL_MIRROR and MIRROR_COPY (R405, R406) -/

/-- A mirror is placed as any object, and its source's bytes are still to be copied. -/
def Obj.mirroring (o : Obj) (src : Nat) : Obj := { o with mirrorOf := some src, copied := false }

/-- The arguments of INSTALL_MIRROR are well formed, and its object may mirror the source's (R405, R577). -/
structure InstallsMirror (u : State) (n : Nat) (c : HostCmd) (o x : Obj) : Prop where
  number : c.arg 0 < 2 ^ 20
  source : c.arg 1 < 2 ^ 20
  rest : c.arg 2 = 0 ∧ c.arg 3 = 0
  length : 64 ≤ c.block.length
  named : objOf c.block = o
  code : u.objCode n (c.arg 0) (c.block.take 64) o = 0
  room : ((u.part n).objects.filter (fun x => x.2.mirrorOf.isSome)).length < 64
  tier : o.tier = 0
  slices : u.slicesOk n o = true
  serve : (u.part n).cfg.serve = true
  found : (u.part (u.part n).cfg.src).objects.find (c.arg 1) = some x
  alike : x.size = o.size ∧ x.kind = o.kind

theorem exec_installMirror {o x : Obj} (h : HostRuns s q 0x0B n u c) (ha : InstallsMirror u n c o x) :
    exec (.installMirror q) s = .next ((u.placeObj n (c.arg 0) (o.mirroring (c.arg 1))).done c 0) := by
  obtain ⟨hnumber, hsource, ⟨htwo, hthree⟩, hlength, rfl, hcode, hroom, htier, hslices, hserve, hfound, hsize, hkind⟩ := ha
  change execInstallMirror q s = _
  refine (hostRow_runs h _).trans (congrArg _ ?_)
  dsimp only
  rw [if_neg ?arguments, hcode]
  case arguments => simp [htwo, hthree]; omega
  rw [if_neg (Nat.not_le.2 hroom), if_neg ?slices, if_pos hserve, hfound]
  case slices => simp [htier, hslices]
  dsimp only
  rw [if_neg ?alike]
  case alike => simp [hsize, hkind]
  rfl

theorem installMirror_answers {o x : Obj} (h : HostRuns s q 0x0B n u c) (ha : InstallsMirror u n c o x) :
    Completes (exec (.installMirror q) s) (fun t => Answers (u.placeObj n (c.arg 0) (o.mirroring (c.arg 1))) t c 0 0 0
      ∧ (t.part n).objects.find (c.arg 0) = some (o.mirroring (c.arg 1))) := by
  rw [exec_installMirror h ha]
  refine .next ⟨done_answers .., ?_⟩
  rw [(done_reports ..).part, State.part_placeObj_same]
  exact Tab.find_set_same ..

/-- The keys of a source's bytes with those of its mirror's. -/
def State.mirrorPairs (s : State) (part obj src : Nat) (o x : Obj) : List (Nat × Nat) :=
  (List.range o.size).filterMap (fun i => (objKey (s.part (s.part part).cfg.src) src x i).bind
    (fun a => (objKey (s.part part) obj o i).map (fun b => (a, b))))

/-- The granules marked blighted behind a mirror's copy: those whose source is, and none whose source is not (R474). -/
def State.mirrorMarks (s : State) (ps : List (Nat × Nat)) (poison : List Nat) : List Nat :=
  ((ps.filter (fun p => granule p.1 ∈ s.poison)).map (fun p => granule p.2)).foldl insertNat
    (poison.filter (fun g => (ps.filter (fun p => granule p.1 ∉ s.poison)).all (fun p => granule p.2 ≠ g)))

/-- The source's bytes written at their mirror's keys. -/
def State.mirrorWritten (s : State) (ps : List (Nat × Nat)) : State :=
  (s.served (ps.map (·.1)) 0).writeKeys (ps.map (·.2)) (s.readKeys (ps.map (·.1))).1 false

/-- A mirror that its copy has filled. -/
def State.mirrorCopied (s : State) (part obj : Nat) (o : Obj) (ps : List (Nat × Nat)) : State :=
  ({ s.mirrorWritten ps with poison := s.mirrorMarks ps (s.mirrorWritten ps).poison } : State).updPart part (·.withObject obj { o with copied := true })

theorem State.writeKeys_eq (s : State) (ks : List Nat) (data : List Byte) (b : Bool) : s.writeKeys ks data b
    = { s with mem := (s.writeKeys ks data b).mem, poison := (s.writeKeys ks data b).poison, substd := (s.writeKeys ks data b).substd,
               tiers := (s.writeKeys ks data b).tiers } := by
  unfold State.writeKeys
  dsimp only
  split <;> rfl

theorem State.mirrorWritten_eq (s : State) (ps : List (Nat × Nat)) : s.mirrorWritten ps
    = { s with mem := (s.mirrorWritten ps).mem, poison := (s.mirrorWritten ps).poison, substd := (s.mirrorWritten ps).substd,
               tiers := (s.mirrorWritten ps).tiers } := by
  unfold State.mirrorWritten
  rw [State.writeKeys_eq]
  generalize hv : s.served (ps.map (·.1)) 0 = v
  have hfields := s.served_tiers (ps.map (·.1)) 0
  rw [hv] at hfields
  rw [hfields]

theorem exec_mirrorCopy {part obj src : Nat} {o x : Obj} (hlive : s.live = true) (hobj : (s.part part).objects.find obj = some o)
    (hmirror : o.mirrorOf = some src) (hsource : (s.part (s.part part).cfg.src).objects.find src = some x) (hopen : o.copied = false)
    (hrun : (s.part part).cfg.src ∉ s.tx.recovering) :
    exec (.mirrorCopy part obj) s = .next (s.mirrorCopied part obj o (s.mirrorPairs part obj src o x)) := by
  have hsources : (o.mirrorOf.bind fun src => ((s.part (s.part part).cfg.src).objects.find src).map fun x => (src, x)) = some (src, x) := by
    rw [hmirror, Option.bind_some, hsource, Option.map_some]
  change execMirrorCopy part obj s = _
  unfold execMirrorCopy
  dsimp only
  rw [hobj]
  dsimp only
  rw [hsources]
  dsimp only
  rw [if_neg (by simp [hlive, hopen, hrun])]
  rfl

theorem mirrorCopy_fills {part obj src : Nat} {o x : Obj} (hlive : s.live = true) (hobj : (s.part part).objects.find obj = some o)
    (hmirror : o.mirrorOf = some src) (hsource : (s.part (s.part part).cfg.src).objects.find src = some x) (hopen : o.copied = false)
    (hrun : (s.part part).cfg.src ∉ s.tx.recovering) :
    let ps := s.mirrorPairs part obj src o x
    Completes (exec (.mirrorCopy part obj) s) (fun t =>
      t = { s with mem := t.mem, poison := t.poison, substd := t.substd, tiers := t.tiers, parts := t.parts }
      ∧ t.mem = (s.writeKeys (ps.map (·.2)) (s.readKeys (ps.map (·.1))).1 false).mem
      ∧ (t.part part).objects.find obj = some { o with copied := true }) := by
  intro ps
  rw [exec_mirrorCopy hlive hobj hmirror hsource hopen hrun]
  refine .next ⟨?fields, ?memory, ?object⟩
  case fields =>
    unfold State.mirrorCopied
    rw [State.mirrorWritten_eq]
    rfl
  case memory =>
    refine (State.writeKeys_mem ..).trans ?_
    rw [State.writeKeys_mem, (State.served_bytes ..).1]
  case object =>
    rw [State.mirrorCopied, State.part_updPart_same]
    exact Tab.find_set_same ..

/-! ### REMOVE and REMOVE_TAKE_EFFECT (R288, R443) -/

/-- The removal that a REMOVE asks for. -/
def HostCmd.removal (c : HostCmd) : Removal :=
  { isTable := bitAt (c.arg 0) 63, num := if bitAt (c.arg 0) 63 then fld (c.arg 0) 11 0 else fld (c.arg 0) 19 0, cmd := c.ref }

theorem remove_waits (h : HostRuns s q 0x09 n u c) (hone : c.arg 1 = 0) (hrest : c.arg 2 = 0 ∧ c.arg 3 = 0)
    (hbits : (if bitAt (c.arg 0) 63 then fld (c.arg 0) 62 12 else fld (c.arg 0) 62 20) = 0)
    (hfound : if bitAt (c.arg 0) 63 then ((u.part n).tables.find c.removal.num).isSome else ((u.part n).objects.find c.removal.num).isSome)
    (hfree : (if bitAt (c.arg 0) 63 then (u.part n).tableNamed c.removal.num else u.objNamed n c.removal.num) = false) :
    Completes (exec (.remove q) s) (fun t => t = u.updPart n (fun p => { p with removing := p.removing ++ [c.removal] })) := by
  obtain ⟨htwo, hthree⟩ := hrest
  change Completes (execRemove q s) _
  refine h.completes ?_
  change ite _ _ _ = _
  rw [if_neg ?arguments, if_neg ?absent, if_neg ?named]
  · rfl
  case arguments => simp [hbits, hone, htwo, hthree]
  case absent =>
    cases hbit : bitAt (c.arg 0) 63 <;> simpa [HostCmd.removal, hbit, Option.isSome_iff_ne_none] using hfound
  case named =>
    rw [Bool.not_eq_true]
    exact hfree

/-- A partition without what a removal takes away: its table, whose rows keep their record size, or its object. -/
def Part.without (p : Part) (r : Removal) : Part :=
  { p with
    removing := p.removing.filter (· ≠ r)
    tables := if r.isTable then p.tables.del r.num else p.tables
    objects := if r.isTable then
        p.objects.map (fun x => (x.1, if x.2.hasRows && x.2.table = r.num then { x.2 with oldRec := x.2.recSize (p.tables.get {} r.num) } else x.2))
      else p.objects.del r.num
    keepValid := if !r.isTable && p.keepObj = r.num then false else p.keepValid }

/-- A table, its copies and its re-salt are gone. -/
def State.tableRemoved (s : State) (part : Nat) (r : Removal) : State :=
  let v := s.updPart part (·.without r)
  State.dropCopies { v with row := { v.row with resalts := v.row.resalts.filter (fun x => !(x.part = part && x.table = r.num)) } } part r.num

/-- The fallow bytes of an object that goes read as zero (R288). -/
def State.objectFreed (s : State) (part : Nat) : Option Obj → State
  | some o => if o.tier = 2 then s.zeroRuns (o.runs (s.objTable part o)) else s
  | none => s

/-- An object is gone. -/
def State.objectRemoved (s : State) (part : Nat) (r : Removal) : State :=
  (s.objectFreed part ((s.part part).objects.find r.num)).updPart part (·.without r)

theorem State.objectFreed_parts (s : State) (part : Nat) (x : Option Obj) : (s.objectFreed part x).parts = s.parts := by
  cases x with
  | none => rfl
  | some o => exact (apply_ite State.parts ..).trans (ite_self _)

theorem State.objectFreed_host (s : State) (part : Nat) (x : Option Obj) : (s.objectFreed part x).host = s.host := by
  cases x with
  | none => rfl
  | some o => exact (apply_ite State.host ..).trans (ite_self _)

theorem State.objectFreed_get (s : State) (part : Nat) (o : Obj) (k : Nat) :
    Memory.get (s.objectFreed part (some o)).mem k = if inRuns (o.fallowRuns (s.objTable part o)) k then 0 else Memory.get s.mem k := by
  change Memory.get (if o.tier = 2 then s.zeroRuns (o.runs (s.objTable part o)) else s).mem k = _
  unfold Obj.fallowRuns
  split
  · exact s.zeroRuns_get _ k
  · rw [inRuns_nil]
    rfl

theorem exec_removeTakeEffect {part : Nat} {r : Removal} (hlive : s.live = true)
    (hfree : (s.part part).removing.find? (fun r => !s.removalHeld part r) = some r) :
    exec (.removeTakeEffect part) s
      = .next ((if r.isTable then s.tableRemoved part r else s.objectRemoved part r).complete r.cmd 0 0 0) := by
  change execRemoveTakeEffect part s = _
  unfold execRemoveTakeEffect
  rw [hfree]
  dsimp only
  rw [if_neg (by simp [hlive])]
  cases htable : r.isTable with
  | true =>
    unfold State.tableRemoved Part.without
    simp only [htable, if_true]
  | false =>
    unfold State.objectRemoved Part.without
    simp only [htable, Bool.false_eq_true, if_false]
    cases (s.part part).objects.find r.num <;> rfl

theorem takesEntry_complete {v : State} (r : CmdRef) (a b : BitVec 16) (w : Word) (hhost : v.host = s.host) :
    TakesEntry s (v.complete r a b w) r.q := by
  obtain ⟨-, hentry, -⟩ := complete_answers v ⟨r, [], []⟩ a b w
  exact hentry.of_host hhost

theorem removeTakeEffect_table {part : Nat} {r : Removal} (hlive : s.live = true)
    (hfree : (s.part part).removing.find? (fun r => !s.removalHeld part r) = some r) (htable : r.isTable = true) :
    Completes (exec (.removeTakeEffect part) s) (fun t => TakesEntry s t r.cmd.q
      ∧ (t.part part).removing = (s.part part).removing.filter (· ≠ r)
      ∧ ((t.part part).tables.find r.num = none
        ∧ (t.part part).objects.map (fun x => (x.1, { x.2 with oldRec := 0 })) = (s.part part).objects.map (fun x => (x.1, { x.2 with oldRec := 0 }))
        ∧ t.mem = s.mem ∧ ∀ x ∈ t.row.resalts, ¬ (x.part = part ∧ x.table = r.num))
      ∧ ∀ m, m ≠ part → t.part m = s.part m) := by
  rw [exec_removeTakeEffect hlive hfree, if_pos htable]
  have hdone := complete_reports (s.tableRemoved part r) r.cmd 0 0 0
  have hpart : (s.tableRemoved part r).part part
      = ((s.part part).without r).rotated ((s.part part).rotation.filter (fun x => x.2.1 ≠ r.num)) := by
    have hwithout := s.part_updPart_same part (·.without r)
    refine (State.part_dropCopies_same ..).trans ?_
    exact congrArg (fun p : Part => p.rotated (p.rotation.filter (fun x => x.2.1 ≠ r.num))) hwithout
  refine .next ⟨takesEntry_complete _ _ _ _ rfl, ?removing, ⟨?tables, ?objects, hdone.mem, fun x hx => ?resalts⟩, fun m hm => ?others⟩
  case removing => rw [hdone.part, hpart]; rfl
  case tables =>
    rw [hdone.part, hpart]
    exact (congrArg (fun l : Tab Table => l.find r.num) (if_pos htable)).trans (Tab.find_del_same ..)
  case objects =>
    rw [hdone.part, hpart]
    refine (congrArg (List.map (fun x : Nat × Obj => (x.1, { x.2 with oldRec := 0 }))) (if_pos htable)).trans ?_
    rw [List.map_map]
    refine List.map_congr_left fun x _ => Prod.ext rfl ?_
    dsimp only [Function.comp_apply]
    split <;> rfl
  case resalts =>
    rw [hdone.row] at hx
    obtain ⟨-, hkept⟩ := List.mem_filter.1 hx
    simpa [Decidable.imp_iff_not_or] using hkept
  case others => rw [hdone.part]; exact (State.part_dropCopies_ne _ _ hm).trans (s.part_updPart_ne part (·.without r) hm)

theorem removeTakeEffect_object {part : Nat} {r : Removal} (hlive : s.live = true)
    (hfree : (s.part part).removing.find? (fun r => !s.removalHeld part r) = some r) (htable : r.isTable = false) :
    Completes (exec (.removeTakeEffect part) s) (fun t => TakesEntry s t r.cmd.q
      ∧ (t.part part).removing = (s.part part).removing.filter (· ≠ r)
      ∧ ((t.part part).objects.find r.num = none ∧ (t.part part).tables = (s.part part).tables
        ∧ ∀ o, (s.part part).objects.find r.num = some o →
          ∀ k, Memory.get t.mem k = if inRuns (o.fallowRuns (s.objTable part o)) k then 0 else Memory.get s.mem k)
      ∧ ∀ m, m ≠ part → t.part m = s.part m) := by
  have hnot : ¬ r.isTable = true := by simp [htable]
  rw [exec_removeTakeEffect hlive hfree, if_neg hnot]
  have hdone := complete_reports (s.objectRemoved part r) r.cmd 0 0 0
  have hpart : (s.objectRemoved part r).part part = (s.part part).without r := by
    rw [State.objectRemoved, State.part_updPart_same, State.part_of_parts (State.objectFreed_parts ..)]
  refine .next ⟨takesEntry_complete _ _ _ _ (State.objectFreed_host ..), ?removing, ⟨?objects, ?tables, fun o ho k => ?memory⟩, fun m hm => ?others⟩
  case removing => rw [hdone.part, hpart]; rfl
  case objects =>
    rw [hdone.part, hpart]
    exact (congrArg (fun l : Tab Obj => l.find r.num) (if_neg hnot)).trans (Tab.find_del_same ..)
  case tables =>
    rw [hdone.part, hpart]
    exact if_neg hnot
  case memory =>
    rw [hdone.mem, State.objectRemoved, ho]
    exact s.objectFreed_get part o k
  case others =>
    rw [hdone.part, State.objectRemoved, State.part_updPart_ne _ _ _ hm, State.part_of_parts (State.objectFreed_parts ..)]

end
end Sys2Proof.Machine
end

section
/-! PROOFS. Sweep plans, membership images and topology searches: which plan is in force, what an image that takes effect at once
changes, on which links a search leaves (R230, R348, R353); the statement of all that is installed and removed. -/

namespace Sys2Proof.Machine

section
variable {s u : State} {q : QRef} {n : Nat} {c : HostCmd}

/-! ### INSTALL_SWEEP_PLAN (R221, R230, R257) -/

/-- The entries of a plan's descriptor. -/
def planEntries (l : List Byte) : List PlanEntry := (List.range (leAt l 0 4)).map (fun i => planEntryOf (slice l (64 + 128 * i) 128))

/-- The areas that the digest-enabled dense entries cover, each with its entry's number. -/
def State.planCover (u : State) (n : Nat) (l : List Byte) : List (Nat × Word × Nat) :=
  ((List.range (leAt l 0 4)).map (fun i =>
    let e := (planEntries l).getD i {}
    if e.valid && e.dense && e.digest then
      (([e.wDesc] ++ [e.mDesc1, e.mDesc2].take e.moments).map
        (fun a => ((u.desc n (u.leadCore n) a).1.areasLen).map (fun x => (i, x.1, x.2)))).flatten
    else [])).flatten

/-- The plan of a descriptor. -/
def State.planOf (u : State) (n : Nat) (l : List Byte) : Plan :=
  { entries := planEntries l, ck := argCk (leAt l 4 4), ct := argCt (leAt l 4 4), period := leAt l 8 4, group := leAt l 0xC 4,
    report := addrAt l 0x10, shard := addrAt l 0x18, cover := u.planCover n l }

/-- The numbers of a plan's digest-enabled entries. -/
def Plan.digestEntries (pl : Plan) : List Nat :=
  (List.range pl.entries.length).filter (fun i => (pl.entries.getD i {}).valid && (pl.entries.getD i {}).digest)

theorem Plan.mem_digestEntries (pl : Plan) (i : Nat) :
    i ∈ pl.digestEntries ↔ ∃ e, pl.entries[i]? = some e ∧ e.valid = true ∧ e.digest = true := by
  unfold Plan.digestEntries
  rw [List.mem_filter, List.mem_range]
  by_cases hi : i < pl.entries.length
  · simp [hi]
  · simp [hi]

/-- A partition with a plan for the sweep after the one that runs. -/
def Part.nextPlanned (p : Part) (pl : Plan) : Part := { p with nextPlan := some pl }

/-- A partition with a plan in force, every digest entry stale. -/
def Part.planned (p : Part) (pl : Plan) : Part := { p with plan := some pl, nextPlan := none, digests := [], stale := pl.digestEntries }

/-- A plan is installed: for the next sweep while one runs, else at once. -/
def State.planInstalled (u : State) (n : Nat) (pl : Plan) : State :=
  u.updPart n (fun p => if (u.part n).sweep.isSome then p.nextPlanned pl else p.planned pl)

theorem State.part_planInstalled (u : State) (n : Nat) (pl : Plan) : (u.planInstalled n pl).part n
    = if (u.part n).sweep.isSome then (u.part n).nextPlanned pl else (u.part n).planned pl :=
  u.part_updPart_same n (fun p => if (u.part n).sweep.isSome then p.nextPlanned pl else p.planned pl)

theorem State.cfg_planInstalled (u : State) (n : Nat) (pl : Plan) : ((u.planInstalled n pl).part n).cfg = (u.part n).cfg := by
  rw [State.part_planInstalled]
  split <;> rfl

theorem State.planInstalled_eq (u : State) (n : Nat) (pl : Plan) : u.planInstalled n pl
    = if (u.part n).sweep.isSome then u.updPart n (·.nextPlanned pl) else u.takePlan n pl := by
  unfold State.planInstalled
  split <;> rfl

/-- A cluster whose registers show a valid plan. -/
def Cluster.planShown (x : Cluster) : Cluster := { x with planValid := true }

/-- Some clusters show a valid plan. -/
def State.plansShown (s : State) (l : List Nat) : State := l.foldl (fun s k => s.updCluster k Cluster.planShown) s

theorem State.plansShown_eq (s : State) (l : List Nat) : s.plansShown l = { s with clusters := (s.plansShown l).clusters } :=
  List.foldlRecOn (motive := fun t : State => t = { s with clusters := t.clusters }) l _ rfl (fun t ht k _ => by rw [ht]; rfl)

theorem State.planValid_updCluster (s : State) (i k : Nat) :
    ((s.updCluster i Cluster.planShown).cluster k).planValid = true ↔ k = i ∨ (s.cluster k).planValid = true := by
  by_cases hk : k = i
  · subst hk
    simp [Cluster.planShown]
  · rw [State.cluster_updCluster_ne _ _ _ hk]
    simp [hk]

theorem State.planValid_plansShown (s : State) (l : List Nat) (k : Nat) :
    ((s.plansShown l).cluster k).planValid = true ↔ k ∈ l ∨ (s.cluster k).planValid = true := by
  induction l generalizing s with
  | nil => simp [State.plansShown]
  | cons i l ih =>
    refine (ih (s.updCluster i Cluster.planShown)).trans ?_
    rw [State.planValid_updCluster, List.mem_cons, or_left_comm, or_assoc]

/-- The arguments of INSTALL_SWEEP_PLAN are well formed, what its plan names is there, and the plan breaks no condition (R230, R441). -/
structure InstallsPlan (u : State) (n : Nat) (c : HostCmd) : Prop where
  zero : c.arg 0 = 0 ∧ c.arg 1 = 0
  rest : c.arg 2 = 0 ∧ c.arg 3 = 0
  count : leAt c.block 0 4 ≤ 4096
  length : 64 + 128 * leAt c.block 0 4 ≤ c.block.length
  shape : ctShapeOk (argCk (leAt c.block 4 4)) (argCt (leAt c.block 4 4)) = true
  owned : u.ctOwned n (argCk (leAt c.block 4 4)) (argCt (leAt c.block 4 4)) = true
  report : spaceOf (addrAt c.block 0x10) = 0
  tables : ∀ e ∈ planEntries c.block, e.valid = true → e.dense = false →
    ∀ x ∈ e.table :: ([e.mTable1, e.mTable2].take e.moments), ((u.part n).tables.find x).isSome
  reach : ∀ e ∈ planEntries c.block, e.valid = true → u.entryReach n e = true
  code : u.planCode n c.block (planEntries c.block) = 0

theorem exec_installSweepPlan (h : HostRuns s q 0x0A n u c) (ha : InstallsPlan u n c) :
    exec (.installSweepPlan q) s
      = .next (((u.planInstalled n (u.planOf n c.block)).plansShown (u.part n).cfg.clusters).done c 0) := by
  obtain ⟨⟨hzero, hone⟩, ⟨htwo, hthree⟩, hcount, hlength, hshape, howned, hreport, htables, hreach, hcode⟩ := ha
  rw [← State.cfg_planInstalled u n (u.planOf n c.block), State.planInstalled_eq]
  change execInstallSweepPlan q s = _
  refine (hostRow_runs h _).trans (congrArg _ ?_)
  unfold planEntries at hcode htables hreach
  dsimp only
  rw [if_neg ?arguments, if_neg ?named, hcode]
  case arguments => simp [hzero, hone, htwo, hthree, hshape]; omega
  case named =>
    have hno : ∀ t ∈ ((((List.range (leAt c.block 0 4)).map (fun i => planEntryOf (slice c.block (64 + 128 * i) 128))).filter
        (fun e => e.valid && !e.dense)).map (fun e => e.table :: ([e.mTable1, e.mTable2].take e.moments))).flatten,
        ((u.part n).tables.find t).isSome := by
      intro t ht
      obtain ⟨l, hl, htl⟩ := List.mem_flatten.1 ht
      obtain ⟨e, he, rfl⟩ := List.mem_map.1 hl
      obtain ⟨hmem, hboth⟩ := List.mem_filter.1 he
      obtain ⟨hvalid, hdense⟩ := Bool.and_eq_true_iff.1 hboth
      exact htables e hmem hvalid (by simpa using hdense) t htl
    simp only [Bool.or_eq_true, not_or, List.any_eq_true, not_exists, not_and, Bool.and_eq_true]
    refine ⟨⟨⟨by simp [howned], fun t ht => ?_⟩, by simp [hreport]⟩, fun e he hvalid => ?_⟩
    · simpa [Option.isSome_iff_ne_none] using hno t ht
    · simpa using hreach e he hvalid
  rfl

theorem installSweepPlan_installs (h : HostRuns s q 0x0A n u c) (ha : InstallsPlan u n c) :
    Completes (exec (.installSweepPlan q) s) (fun t => Answers { u with parts := t.parts, clusters := t.clusters } t c 0 0 0
      ∧ (if (u.part n).sweep.isSome then (t.part n).nextPlan else (t.part n).plan) = some (u.planOf n c.block)
      ∧ ((u.part n).sweep.isSome = true →
        (t.part n).plan = (u.part n).plan ∧ (t.part n).digests = (u.part n).digests ∧ (t.part n).stale = (u.part n).stale)
      ∧ ((u.part n).sweep = none → (t.part n).digests = [] ∧
        ∀ i, i ∈ (t.part n).stale ↔ ∃ e, (planEntries c.block)[i]? = some e ∧ e.valid = true ∧ e.digest = true)
      ∧ ∀ k ∈ (s.part n).cfg.clusters, (t.cluster k).planValid = true) := by
  rw [exec_installSweepPlan h ha]
  generalize hv : (u.planInstalled n (u.planOf n c.block)).plansShown (u.part n).cfg.clusters = v
  have hdone := done_reports v c 0
  have hshown := State.plansShown_eq (u.planInstalled n (u.planOf n c.block)) (u.part n).cfg.clusters
  rw [hv] at hshown
  have hparts : v.parts = (u.planInstalled n (u.planOf n c.block)).parts := (congrArg State.parts hshown :)
  have hpart : (v.done c 0).part n = if (u.part n).sweep.isSome then (u.part n).nextPlanned (u.planOf n c.block)
      else (u.part n).planned (u.planOf n c.block) := by
    rw [hdone.part, State.part_of_parts hparts, State.part_planInstalled]
  refine .next ⟨?answers, ?plan, fun hsweep => ?running, fun hsweep => ?idle, fun k hk => ?clusters⟩
  case answers =>
    have hfields : ({ u with parts := (v.done c 0).parts, clusters := (v.done c 0).clusters } : State) = v := by
      rw [hdone.parts, hdone.clusters, hshown]
      rfl
    rw [hfields]
    exact done_answers ..
  case plan =>
    rw [hpart]
    split <;> rfl
  case running =>
    rw [hpart, if_pos hsweep]
    exact ⟨rfl, rfl, rfl⟩
  case idle =>
    rw [hpart, if_neg (by simp [hsweep])]
    exact ⟨rfl, (u.planOf n c.block).mem_digestEntries⟩
  case clusters =>
    have hcluster : (v.done c 0).cluster k = v.cluster k := (congrArg (Tab.get {} · k) hdone.clusters :)
    rw [hcluster, ← hv, State.planValid_plansShown]
    exact .inl (h.besides.part n ▸ hk)

/-! ### Flits that leave on links -/

/-- `t` is `s` but for its links and for what it has sent since. -/
structure SendsOnLinks (s t : State) : Prop where
  rest : t = { s with link := { s.link with links := t.link.links }, out := t.out }
  sent : s.out <+: t.out

theorem SendsOnLinks.refl (s : State) : SendsOnLinks s s := ⟨rfl, List.prefix_rfl⟩

theorem SendsOnLinks.trans {s t u : State} (h : SendsOnLinks s t) (k : SendsOnLinks t u) : SendsOnLinks s u := by
  refine ⟨?_, h.sent.trans k.sent⟩
  have hrest := h.rest
  rw [k.rest, hrest]

theorem SendsOnLinks.links {s t : State} (h : SendsOnLinks s t) : BesidesLinks s t := by
  unfold BesidesLinks
  rw [h.rest]

theorem SendsOnLinks.member {s t : State} (h : SendsOnLinks s t) (n : Nat) : t.member n = s.member n := (congrArg (State.member · n) h.rest :)
theorem SendsOnLinks.search {s t : State} (h : SendsOnLinks s t) : t.link.search = s.link.search := (congrArg (fun v => v.link.search) h.rest :)

theorem updLnk_sends (s : State) (k : Nat) (f : Link → Link) : SendsOnLinks s (s.updLnk k f) := ⟨rfl, List.prefix_rfl⟩

theorem send_sends (s : State) (o : Out) : SendsOnLinks s (s.send o) := ⟨rfl, List.prefix_append ..⟩

theorem transmit_sends (s : State) (k : Nat) (f : Flit) : SendsOnLinks s (s.transmit k f) :=
  ((updLnk_sends ..).trans (updLnk_sends ..)).trans (send_sends ..)

theorem pump_sends (s : State) (k m : Nat) : SendsOnLinks s (s.pump k m) := by
  induction m generalizing s with
  | zero => exact .refl s
  | succ m ih =>
    unfold State.pump
    dsimp only
    split
    · split
      · exact ((updLnk_sends ..).trans (transmit_sends ..)).trans (ih _)
      · exact .refl s
    · exact .refl s

theorem sendOn_sends (s : State) (k job : Nat) (f : Flit) : SendsOnLinks s (s.sendOn k job f) := (updLnk_sends ..).trans (pump_sends ..)

/-- The link of the route to a flit's member; none where it is 24 or more. -/
def MemImage.routeTo (m : MemImage) (f : Flit) : Nat := m.routes.getD f.dst 0xFF

theorem routeFlit_sends (s : State) (n : Nat) (f : Flit) (hroute : (s.member n).image.routeTo f < 24) : SendsOnLinks s (s.routeFlit n f) := by
  unfold MemImage.routeTo at hroute
  unfold State.routeFlit
  dsimp only
  rw [if_pos hroute]
  exact sendOn_sends ..

/-- Flits with routes to links leave on them. -/
theorem routeFlits_sends (s : State) (n : Nat) (l : List (Nat × Flit)) (hroutes : ∀ x ∈ l, (s.member n).image.routeTo x.2 < 24) :
    SendsOnLinks s (l.foldl (fun s x => s.routeFlit n x.2) s) :=
  List.foldlRecOn (motive := SendsOnLinks s) l _ (.refl s)
    (fun v hv x hx => hv.trans (routeFlit_sends v n x.2 (by rw [hv.member]; exact hroutes x hx)))

theorem reroute_sends (s : State) (n : Nat) : SendsOnLinks s (s.reroute n) := by
  refine List.foldlRecOn (motive := SendsOnLinks s) (List.range 24) _ (.refl s) (fun v hv k _ => hv.trans ?_)
  dsimp only
  split
  · exact .refl v
  · refine (updLnk_sends ..).trans (routeFlits_sends _ _ _ (fun x hx => ?_))
    obtain ⟨-, hmoves⟩ := List.mem_filter.1 hx
    simp only [Bool.and_eq_true, decide_eq_true_eq] at hmoves
    exact hmoves.2.2

/-! ### INSTALL_MEMBERSHIP (R352, R353) -/

/-- A command whose state differs in links alone from an earlier one answers on that one too. -/
theorem Answers.of_links {u v t : State} {a b : BitVec 16} {w : Word} (h : Answers v t c a b w) (hlinks : BesidesLinks u v) :
    Answers { u with link := t.link } t c a b w := by
  obtain ⟨hreports, hentry, hsent⟩ := h
  have hhost : v.host = u.host := (congrArg State.host hlinks :)
  refine ⟨?_, hentry.of_host hhost, ?_⟩
  · unfold BesidesReports at *
    rw [hreports, hlinks]
  · unfold State.queue State.func at *
    rw [← hhost]
    exact hsent

theorem State.member_of_link {s t : State} (h : t.link = s.link) (n : Nat) : t.member n = s.member n := by
  unfold State.member
  rw [h]

/-- A member with an image to take effect, and the command that brought it. -/
def Member.awaiting (m : Member) (img : MemImage) (r : CmdRef) : Member := { m with pending := some img, pendCmd := some r }

/-- A member whose image has taken effect. -/
def Member.taken (m : Member) (img : MemImage) : Member :=
  { m with
    image := img
    installed := true
    quarantined := m.quarantined && 2 ^ 31 ≤ (img.epoch - m.fenceEpoch).toNat
    pending := none
    pendCmd := none
    held := m.held.filter (fun x => epochCmp x.1.epoch img.epoch = 1)
    heldReports := m.heldReports.filter (fun x => epochCmp x.2.2.1 img.epoch = 1) }

/-- The arguments of INSTALL_MEMBERSHIP are well formed, with an image inline that breaks no condition (R353). -/
structure InstallsMembership (u : State) (n : Nat) (c : HostCmd) (img : MemImage) : Prop where
  zero : c.arg 0 = 0 ∧ c.arg 1 = 0
  rest : c.arg 2 = 0 ∧ c.arg 3 = 0
  image : imageOf c.block = some (img, true)
  code : u.imageReject n img true = 0

theorem exec_installMembership {img : MemImage} (h : HostRuns s q 0x0C n u c) (ha : InstallsMembership u n c img) :
    exec (.installMembership q) s = .next (if u.busyPart n then u.updMember n (·.awaiting img c.ref)
      else (u.updMember n (·.awaiting img c.ref)).putImage n img) := by
  obtain ⟨⟨hzero, hone⟩, ⟨htwo, hthree⟩, himage, hcode⟩ := ha
  have hinline : bitAt 0 63 = false := rfl
  change execInstallMembership q s = _
  refine (hostRow_runs h _).trans (congrArg _ ?_)
  dsimp only
  simp only [hzero, hone, htwo, hthree, hinline, himage, Bool.false_eq_true, if_false, Bool.false_and, ne_eq, not_true_eq_false,
    decide_false, Bool.or_false]
  rw [hcode]
  rfl

/-- A first image for which nothing is held takes effect. -/
theorem putImage_first {img : MemImage} {r : CmdRef} (hfirst : (u.member n).installed = false) (hheld : (u.member n).held = [])
    (hreports : (u.member n).heldReports = []) :
    (u.updMember n (·.awaiting img r)).putImage n img
      = (((u.updMember n (·.awaiting img r)).updMember n (·.taken img)).reroute n).complete r 0 0 0 := by
  have hold : (u.updMember n (·.awaiting img r)).member n = (u.member n).awaiting img r := u.member_updMember_same n (·.awaiting img r)
  unfold State.putImage
  dsimp only
  rw [hold]
  simp only [Member.awaiting, hfirst, hheld, hreports, Bool.false_eq_true, if_false, List.filter_nil, List.foldl_nil]
  rfl

theorem installMembership_waits {img : MemImage} (h : HostRuns s q 0x0C n u c) (ha : InstallsMembership u n c img) (hbusy : u.busyPart n = true) :
    Completes (exec (.installMembership q) s) (fun t => t = u.updMember n (·.awaiting img c.ref)) := by
  rw [exec_installMembership h ha, if_pos hbusy]
  exact .next rfl

theorem installMembership_takes {img : MemImage} (h : HostRuns s q 0x0C n u c) (ha : InstallsMembership u n c img) (hidle : u.busyPart n = false)
    (hfirst : (u.member n).installed = false) (hheld : (u.member n).held = []) (hreports : (u.member n).heldReports = []) :
    Completes (exec (.installMembership q) s) (fun t => Answers { u with link := t.link } t c 0 0 0 ∧ (t.member n).image = img
      ∧ (t.member n).installed = true ∧ (t.member n).pending = none ∧ ∀ m, m ≠ n → t.member m = s.member m) := by
  rw [exec_installMembership h ha, if_neg (by simp [hidle]), putImage_first hfirst hheld hreports]
  generalize hv : (u.updMember n (·.awaiting img c.ref)).updMember n (·.taken img) = v
  have hsends := reroute_sends v n
  have hdone := complete_reports (v.reroute n) c.ref 0 0 0
  have hlinks : BesidesLinks u (v.reroute n) := .trans (by rw [← hv]; rfl) hsends.links
  have hmember : ∀ m, ((v.reroute n).complete c.ref 0 0 0).member m = v.member m := by
    intro m
    rw [← hsends.member]
    exact State.member_of_link hdone.link m
  have hown : v.member n = ((u.member n).awaiting img c.ref).taken img := by
    rw [← hv, State.member_updMember_same, State.member_updMember_same]
  refine .next ⟨(complete_answers ..).of_links hlinks, ?image, ?installed, ?pending, fun m hm => ?others⟩
  case others =>
    rw [hmember, ← hv, State.member_updMember_ne _ _ _ hm, State.member_updMember_ne _ _ _ hm]
    exact State.member_of_link h.besides.link m
  all_goals
    rw [hmember, hown]
    rfl

/-! ### TOPOLOGY_SEARCH (R348) -/

theorem searchOn_sends (s : State) (k : Nat) (m : SearchMsg) : SendsOnLinks s (s.searchOn k m) := (send_sends ..).trans (sendOn_sends ..)

theorem searchOn_sent (s : State) (k : Nat) (m : SearchMsg) : .search k m ∈ (s.searchOn k m).out :=
  (sendOn_sends (s.send (.search k m)) k 8 (bareFlit 6)).sent.mem (List.mem_append_right _ (List.mem_singleton.2 rfl))

theorem sendSearch_sends (s : State) (ks : List Nat) (m : SearchMsg) : SendsOnLinks s (s.sendSearch ks m) :=
  List.foldlRecOn (motive := SendsOnLinks s) ks _ (.refl s) (fun v hv k _ => hv.trans (searchOn_sends v k m))

theorem sendSearch_sent (s : State) (m : SearchMsg) {ks : List Nat} {k : Nat} (hk : k ∈ ks) : .search k m ∈ (s.sendSearch ks m).out := by
  induction ks generalizing s with
  | nil => exact absurd hk List.not_mem_nil
  | cons i ks ih =>
    rcases List.mem_cons.1 hk with rfl | hk
    · exact (sendSearch_sends (s.searchOn k m) ks m).sent.mem (searchOn_sent s k m)
    · exact ih (s.searchOn i m) hk

/-- A search of this module on its way, in the next generation, with the links that are up awaited. -/
def State.ownSearch (u : State) (n num : Nat) (r : CmdRef) : Search :=
  { u.link.search with
    object := num, part := n, cmd := some r, highest := u.link.search.highest + 1, serving := true, own := true, initiator := moduleId,
    parent := 0x1F, children := u.upLinks, restarts := 0, reports := [u.ownReport] }

/-- A search of this module is begun. -/
def State.searchBegun (u : State) (n num : Nat) (r : CmdRef) : State :=
  ({ u with link := { u.link with search := u.ownSearch n num r } } : State).sendSearch u.upLinks (.search (u.link.search.highest + 1) moduleId)

theorem State.search_searchBegun (u : State) (n num : Nat) (r : CmdRef) : (u.searchBegun n num r).link.search = u.ownSearch n num r :=
  (sendSearch_sends ..).search

theorem State.searchBegun_links (u : State) (n num : Nat) (r : CmdRef) : BesidesLinks u (u.searchBegun n num r) :=
  .trans (rfl : BesidesLinks u { u with link := { u.link with search := u.ownSearch n num r } }) (sendSearch_sends ..).links

/-- A search that awaits links goes on. -/
theorem searchReady_awaits (v : State) (h : v.link.search.children ≠ []) : v.searchReady = v := by
  unfold State.searchReady
  exact if_pos (by simp [h])

theorem HostRuns.ports {op : Nat} (h : HostRuns s q op n u c) : u.host.ports = s.host.ports := by
  obtain ⟨-, -, -, ⟨f, rest, -, -, -, -, -, -, rfl⟩ | ⟨st, b, -, -, -, rfl⟩⟩ := h
  · rfl
  · rfl

theorem exec_topologySearch {o : Obj} (h : HostRuns s q 0x0D n u c) (hnumber : c.arg 0 < 2 ^ 20) (hone : c.arg 1 = 0)
    (hrest : c.arg 2 = 0 ∧ c.arg 3 = 0) (hperm : bitAt ((s.host.ports.get {} q.port).perm.toNat) q.fn = true)
    (hobj : (u.part n).objects.find (c.arg 0) = some o) (htier : o.tier = 0) (hnone : u.link.search.own = false) :
    exec (.topologySearch q) s = .next (u.searchBegun n (c.arg 0) c.ref).searchReady := by
  obtain ⟨htwo, hthree⟩ := hrest
  rw [← h.ports] at hperm
  change execTopologySearch q s = _
  refine (hostRow_runs h _).trans (congrArg _ ?_)
  dsimp only
  rw [if_neg ?arguments, if_neg ?allowed, hobj]
  case arguments => simp [hone, htwo, hthree]; omega
  case allowed => rw [hperm]; simp
  dsimp only
  rw [if_neg (by simp [htier]), if_neg (by simp [hnone])]
  rfl

theorem topologySearch_floods {o : Obj} (h : HostRuns s q 0x0D n u c) (hnumber : c.arg 0 < 2 ^ 20) (hone : c.arg 1 = 0)
    (hrest : c.arg 2 = 0 ∧ c.arg 3 = 0) (hperm : bitAt ((s.host.ports.get {} q.port).perm.toNat) q.fn = true)
    (hobj : (u.part n).objects.find (c.arg 0) = some o) (htier : o.tier = 0) (hnone : u.link.search.own = false) (hup : u.upLinks ≠ []) :
    Completes (exec (.topologySearch q) s) (fun t => BesidesLinks u t ∧ t.link.search = u.ownSearch n (c.arg 0) c.ref
      ∧ ∀ k ∈ u.upLinks, .search k (.search (u.link.search.highest + 1) moduleId) ∈ t.out) := by
  have hsearch := u.search_searchBegun n (c.arg 0) c.ref
  rw [exec_topologySearch h hnumber hone hrest hperm hobj htier hnone, searchReady_awaits _ (by rw [hsearch]; exact hup)]
  exact .next ⟨u.searchBegun_links .., hsearch, fun k hk => sendSearch_sent _ _ hk⟩

end

/-! ### All that is installed and removed -/

/-- Settles O48: each command's effect by the lemma of its own; a removal by whether it is of a table or of an object. -/
theorem installsAndRemoves : Obligations.InstallsAndRemoves := by
  unfold Obligations.InstallsAndRemoves
  intro s u q n c num w l rest
  refine ⟨?table, ?object, ?remove, ?takeEffect, ?plan, ?mirror, ?copy, ?membership, ?search⟩
  case table =>
    intro h hnum hw hrest hl x hreach fresh
    have ha : InstallsTable u n c x := ⟨hnum, hw, hrest, hl, rfl, hreach⟩
    exact ⟨installTable_accepted h ha, fun k _ hk hcode => installTable_refused h ha hk hcode⟩
  case object =>
    intro h hnum hw hrest hl o
    have ha : InstallsObject c := ⟨hnum, hw, hrest, hl⟩
    exact ⟨installObject_accepted h ha, fun k _ hk hcode => installObject_refused h ha hk hcode⟩
  case remove =>
    intro h hw hrest isT k hbits hfound hfree
    exact remove_waits h hw hrest hbits hfound hfree
  case takeEffect =>
    intro part r hlive hfree
    cases htable : r.isTable with
    | true => simpa only [if_true] using removeTakeEffect_table hlive hfree htable
    | false => simpa only [Bool.false_eq_true, if_false] using removeTakeEffect_object hlive hfree htable
  case plan =>
    intro h hnum hw hrest cnt ck ct es hcount hl hshape howned hreport htables hreach hcode
    have ha : InstallsPlan u n c := ⟨⟨hnum, hw⟩, hrest, hcount, hl, hshape, howned, hreport, htables, hreach, hcode⟩
    obtain ⟨t, hexec, hanswers, hplan, hrest⟩ := installSweepPlan_installs h ha
    exact ⟨t, hexec, hanswers, ⟨u.planOf n c.block, hplan, rfl, rfl, rfl, rfl, rfl, rfl, rfl⟩, hrest⟩
  case mirror =>
    intro h hnum hw hrest hl o cfg hcode hroom htier hslices hserve x hfound hsize hkind
    exact installMirror_answers h ⟨hnum, hw, hrest, hl, rfl, hcode, hroom, htier, hslices, hserve, hfound, hsize, hkind⟩
  case copy =>
    intro part obj o src x m hlive hobj hmirror hsource hopen hrun
    exact mirrorCopy_fills hlive hobj hmirror hsource hopen hrun
  case membership =>
    intro h hnum hw hrest img himage hcode
    have ha : InstallsMembership u n c img := ⟨⟨hnum, hw⟩, hrest, himage, hcode⟩
    exact ⟨installMembership_waits h ha, installMembership_takes h ha⟩
  case search =>
    intro h hnum hw hrest hperm o hobj htier hnone hup
    obtain ⟨t, hexec, hlinks, hsearch, hsent⟩ := topologySearch_floods h hnum hw hrest hperm hobj htier hnone hup
    exact ⟨t, hexec, hlinks, by rw [hsearch]; rfl, by rw [hsearch]; rfl, by rw [hsearch]; rfl, by rw [hsearch]; rfl, by rw [hsearch]; rfl, hsent⟩

end Sys2Proof.Machine
end

section
/-! PROOFS. Operations that write bytes, and what they leave: all but memory with its marks and packing, the copies of rows and the
stale digests of partitions (R203, R257, R287); clusters that a list of them was gone through for (R263). -/

namespace Sys2Proof.Machine

/-! ### Writes of bytes at keys -/

/-- `t` is `s` but for bytes that were written: memory with its marks and packing, and the copies of rows. -/
def BesidesBytes (s t : State) : Prop :=
  t = { s with mem := t.mem, poison := t.poison, substd := t.substd, tiers := t.tiers, row := t.row }

section
variable {s t u : State}

theorem BesidesBytes.refl (s : State) : BesidesBytes s s := rfl

theorem BesidesBytes.trans (h : BesidesBytes s t) (k : BesidesBytes t u) : BesidesBytes s u := by
  unfold BesidesBytes at *
  rw [k, h]

theorem BesidesBytes.foldl {α : Type} {f : State → α → State} (hf : ∀ v a, BesidesBytes v (f v a)) (l : List α) (s : State) :
    BesidesBytes s (l.foldl f s) :=
  List.foldlRecOn (motive := fun v => BesidesBytes s v) l f (.refl s) (fun v hv a _ => hv.trans (hf v a))

theorem BesidesBytes.parts (h : BesidesBytes s t) : t.parts = s.parts := (congrArg State.parts h :)
theorem BesidesBytes.clusters (h : BesidesBytes s t) : t.clusters = s.clusters := (congrArg State.clusters h :)
theorem BesidesBytes.tx (h : BesidesBytes s t) : t.tx = s.tx := (congrArg State.tx h :)
theorem BesidesBytes.map (h : BesidesBytes s t) : SameMap s t := .of_parts h.parts

end

theorem writeKeys_besidesBytes (s : State) (ks : List Nat) (data : List Byte) (b : Bool) : BesidesBytes s (s.writeKeys ks data b) := by
  unfold State.writeKeys
  dsimp only
  split <;> rfl

theorem markSubst_besidesBytes (s : State) (ks : List Nat) (b : Bool) : BesidesBytes s (s.markSubst ks b) := by
  unfold State.markSubst
  split <;> rfl

theorem refreshCopies_besidesBytes (s : State) (n t : Nat) (ks : List Nat) : BesidesBytes s (s.refreshCopies n t ks) := rfl

theorem putRowAcc_besidesBytes (s : State) (n : Nat) (a : Word) (x : RowAcc) : BesidesBytes s (s.putRowAcc n a x) := writeKeys_besidesBytes ..

/-- Every entry of a transaction or a record is written at its keys (R239, R248). -/
theorem writeEntries_besidesBytes (s : State) (n : Nat) (l : List JEntry) : BesidesBytes s (s.writeEntries n l) :=
  .foldl (fun v _ => (writeKeys_besidesBytes v _ _ _).trans (markSubst_besidesBytes ..)) l s

theorem writeMirrors_besidesBytes (s : State) (n : Nat) (e : JEntry) : BesidesBytes s (s.writeMirrors n e) := by
  refine .foldl (fun v num => ?_) _ s
  split
  · exact .refl v
  · refine .foldl (fun w m => ?_) _ v
    split
    · exact .refl w
    · exact .foldl (fun _ _ => writeKeys_besidesBytes ..) _ w

/-! ### Writes of device bytes (R257) -/

/-- `t` came of `s` by writes of device bytes: partitions may differ in their stale digests beside. -/
structure WritesBytes (s t : State) : Prop where
  rest : t = { s with mem := t.mem, poison := t.poison, substd := t.substd, tiers := t.tiers, row := t.row, parts := t.parts }
  stale : ∀ m, t.part m = { s.part m with stale := (t.part m).stale }

section
variable {s t u : State}

theorem WritesBytes.refl (s : State) : WritesBytes s s := ⟨rfl, fun _ => rfl⟩

theorem WritesBytes.trans (h : WritesBytes s t) (k : WritesBytes t u) : WritesBytes s u where
  rest := k.rest.trans (by rw [h.rest])
  stale := fun m => by rw [k.stale m, h.stale m]

theorem BesidesBytes.writes (h : BesidesBytes s t) : WritesBytes s t where
  rest := Eq.trans h (by rw [h.parts])
  stale := fun m => by rw [State.part_of_parts h.parts]

theorem WritesBytes.foldl {α : Type} {f : State → α → State} (hf : ∀ v a, WritesBytes v (f v a)) (l : List α) (s : State) :
    WritesBytes s (l.foldl f s) :=
  List.foldlRecOn (motive := fun v => WritesBytes s v) l f (.refl s) (fun v hv a _ => hv.trans (hf v a))

theorem WritesBytes.map (h : WritesBytes s t) : SameMap s t := fun m => by
  rw [h.stale m]
  exact ⟨rfl, rfl, rfl⟩

theorem WritesBytes.clusters (h : WritesBytes s t) : t.clusters = s.clusters := (congrArg State.clusters h.rest :)
theorem WritesBytes.tx (h : WritesBytes s t) : t.tx = s.tx := (congrArg State.tx h.rest :)
theorem WritesBytes.link (h : WritesBytes s t) : t.link = s.link := (congrArg State.link h.rest :)
theorem WritesBytes.host (h : WritesBytes s t) : t.host = s.host := (congrArg State.host h.rest :)
theorem WritesBytes.net (h : WritesBytes s t) : t.net = s.net := (congrArg State.net h.rest :)

end

theorem markStale_writes (s : State) (n : Nat) (a : Word) (len : Nat) : WritesBytes s (s.markStale n a len) := by
  unfold State.markStale
  split
  · exact .refl s
  · refine ⟨rfl, fun m => ?_⟩
    by_cases hm : m = n
    · subst hm
      rw [State.part_updPart_same]
    · rw [State.part_updPart_ne _ _ _ hm]

theorem writeDev_writes (s : State) (n core : Nat) (a : Word) (data : List Byte) (b : Bool) : WritesBytes s (s.writeDev n core a data b) := by
  have h := (writeKeys_besidesBytes s (s.keysOf n core a data.length) data b).writes.trans (markStale_writes _ n a data.length)
  unfold State.writeDev
  dsimp only
  split
  · split
    · exact h.trans (refreshCopies_besidesBytes ..).writes
    · exact h
  · exact h

/-! ### Entries and mirrors -/

theorem SameMap.symm {s t : State} (h : SameMap s t) : SameMap t s := fun m =>
  ⟨(h m).1.symm, (h m).2.1.symm, (h m).2.2.symm⟩

/-- Without mirrors nothing is written to them (R405). -/
theorem State.writeMirrors_none {s : State} (h : ∀ m, (s.part m).objects.any (fun o => o.2.mirrorOf.isSome) = false) (n : Nat) (e : JEntry) :
    s.writeMirrors n e = s := by
  have hnone : ∀ m num, (s.part m).objects.filter (fun x => x.2.mirrorOf = some num && x.2.copied) = [] := fun m num =>
    List.filter_eq_nil_iff.mpr fun x hx hmirror => by
      have hx' := List.any_eq_false.mp (h m) x hx
      simp only [Bool.and_eq_true, decide_eq_true_eq] at hmirror
      rw [hmirror.1] at hx'
      exact hx' rfl
  unfold State.writeMirrors
  refine List.foldlRecOn (motive := fun v => v = s) _ _ rfl (fun v hv num _ => ?_)
  subst hv
  split
  · rfl
  · refine List.foldlRecOn (motive := fun w => w = v) _ _ rfl (fun w hw m _ => ?_)
    subst hw
    rw [hnone]
    split <;> rfl

/-- The entries' bytes fall where the layout of memory puts them, on the memory that is there. -/
theorem State.writeEntries_mem_congr {s t : State} (hmap : SameMap s t) (hmem : t.mem = s.mem) (n : Nat) (l : List JEntry) :
    (t.writeEntries n l).mem = (s.writeEntries n l).mem := by
  unfold State.writeEntries
  induction l generalizing s t with
  | nil => exact hmem
  | cons e l ih =>
    have hs := (writeKeys_besidesBytes s (s.keysOf n e.core e.addr e.data.length) e.data e.blight).trans
      (markSubst_besidesBytes _ (s.keysOf n e.core e.addr e.data.length) e.subst)
    have ht := (writeKeys_besidesBytes t (t.keysOf n e.core e.addr e.data.length) e.data e.blight).trans
      (markSubst_besidesBytes _ (t.keysOf n e.core e.addr e.data.length) e.subst)
    refine ih ((SameMap.symm hs.map).trans (hmap.trans ht.map)) ?_
    rw [(State.markSubst_bytes ..).1, (State.markSubst_bytes ..).1, State.writeKeys_mem, State.writeKeys_mem, hmem, hmap.keysOf]

/-! ### Clusters that a list was gone through for -/

/-- What each step of a list makes of its cluster, and leaves alone of the others, every listed cluster ends with. -/
theorem cluster_of_foldl {f : State → Nat → State} {Q : Cluster → Prop} (hset : ∀ s c, Q ((f s c).cluster c))
    (hkeep : ∀ s c k, k ≠ c → (f s c).cluster k = s.cluster k) (l : List Nat) (s : State) {k : Nat} (hk : k ∈ l) :
    Q ((l.foldl f s).cluster k) := by
  have hlast : ∀ (l : List Nat) (s : State), Q (s.cluster k) → Q ((l.foldl f s).cluster k) := fun l s h =>
    List.foldlRecOn (motive := fun v : State => Q (v.cluster k)) l f h (fun v hv c _ => by
      by_cases hkc : k = c
      · subst hkc
        exact hset v k
      · rw [hkeep v c k hkc]
        exact hv)
  induction l generalizing s with
  | nil => cases hk
  | cons c l ih =>
    rcases List.mem_cons.mp hk with rfl | hk
    · exact hlast l _ (hset s k)
    · exact ih (f s c) hk

theorem State.cluster_putSw_same (s : State) (c : Nat) (x : SwState) : (s.putSw c x).cluster c = { s.cluster c with sw := x } :=
  s.cluster_updCluster_same c (fun k => { k with sw := x })

theorem State.cluster_putSw_ne (s : State) {c k : Nat} (x : SwState) (h : k ≠ c) : (s.putSw c x).cluster k = s.cluster k :=
  s.cluster_updCluster_ne c (fun k => { k with sw := x }) h

/-- The swath units of a partition enter a state: only clusters and their activity change (R263, R317). -/
theorem State.allSw_eq (s : State) (n : Nat) (x : SwState) :
    s.allSw n x = { s with clusters := (s.allSw n x).clusters, power := (s.allSw n x).power } :=
  List.foldlRecOn (motive := fun t : State => t = { s with clusters := t.clusters, power := t.power }) _ _ rfl
    (fun t ht c _ => by rw [ht]; rfl)

theorem State.sw_allSw (s : State) (n : Nat) (x : SwState) {k : Nat} (hk : k ∈ (s.part n).cfg.clusters) : ((s.allSw n x).cluster k).sw = x :=
  cluster_of_foldl (Q := fun c => c.sw = x) (fun s c => by rw [s.cluster_putSw_same c x]) (fun s c k h => s.cluster_putSw_ne x h) _ s hk

/-- A swath unit's state is no part of what the replica group says of the partition (R259). -/
theorem State.divergent_allSw (s : State) (n : Nat) (x : SwState) (k : Nat) : ((s.allSw n x).cluster k).divergent = (s.cluster k).divergent :=
  List.foldlRecOn (motive := fun t : State => (t.cluster k).divergent = (s.cluster k).divergent) _ _ rfl (fun t ht c _ => by
    by_cases hkc : k = c
    · subst hkc
      rw [State.cluster_putSw_same, ht]
    · rw [State.cluster_putSw_ne _ _ hkc, ht])

theorem State.settleSw_of_recovered {s : State} {n : Nat} (h : n ∉ s.tx.recovering) : s.settleSw n = s.allSw n (s.swNow n) := if_neg h

/-- Where the swath units show what they do, only clusters and their activity change. -/
theorem State.settleSw_eq (s : State) (n : Nat) :
    s.settleSw n = { s with clusters := (s.settleSw n).clusters, power := (s.settleSw n).power } := by
  unfold State.settleSw
  split
  · rfl
  · exact State.allSw_eq ..

end Sys2Proof.Machine
end

section
/-! PROOFS. The start of a sweep and the sweep of a row block: what becomes of the partition, its swath units and memory, and the
transaction that a block opens (R218, R220, R221, R226, R236, R237, R395). -/

namespace Sys2Proof.Machine

/-! ### Hold points of serve partitions (R422, R432) -/

theorem State.setHoldPoint_eq (s : State) (n : Nat) :
    s.setHoldPoint n = { s with net := { s.net with holdPoint := (s.setHoldPoint n).net.holdPoint } } := by
  unfold State.setHoldPoint
  split <;> rfl

theorem State.countHold_eq (s : State) (n : Nat) : s.countHold n = { s with net := (s.countHold n).net } := by
  unfold State.countHold
  split
  · exact List.foldlRecOn (motive := fun t : State => t = { s with net := t.net }) _ _ rfl (fun t ht m _ => by rw [ht]; rfl)
  · rfl

/-! ### Tables that a sweep skips (R226) -/

theorem State.skipFull_of_not_table (s : State) (n : Nat) {e : PlanEntry} (tag : Word) (h : e.valid = false ∨ e.dense = true) :
    s.skipFull n e tag = s := by
  unfold State.skipFull
  refine if_pos ?_
  rcases h with h | h <;> simp [h]

/-- A skipped table is emptied, counted and reported: partitions, and the states and steps of swath units, stay. -/
theorem State.skipFull_keeps (s : State) (n : Nat) (e : PlanEntry) (tag : Word) : (s.skipFull n e tag).parts = s.parts
    ∧ ∀ k, ((s.skipFull n e tag).cluster k).sw = (s.cluster k).sw ∧ ((s.skipFull n e tag).cluster k).swStep = (s.cluster k).swStep := by
  have hcount (c k : Nat) (f : SwCount → SwCount) :
      ((s.updSw c f).cluster k).sw = (s.cluster k).sw ∧ ((s.updSw c f).cluster k).swStep = (s.cluster k).swStep := by
    unfold State.updSw
    by_cases hk : k = c
    · subst hk
      rw [State.cluster_updCluster_same]
      exact ⟨rfl, rfl⟩
    · rw [State.cluster_updCluster_ne _ _ _ hk]
      exact ⟨rfl, rfl⟩
  have hskip (c : Nat) (f : SwCount → SwCount) {v w : State} (hv : BesidesReports (s.updSw c f) v) (hw : BesidesBytes v w) :
      w.parts = s.parts ∧ ∀ k, (w.cluster k).sw = (s.cluster k).sw ∧ (w.cluster k).swStep = (s.cluster k).swStep :=
    ⟨hw.parts.trans hv.parts, fun k => by simpa only [State.cluster, hw.clusters, hv.clusters] using hcount c k f⟩
  unfold State.skipFull
  dsimp only
  split
  · exact ⟨rfl, fun _ => ⟨rfl, rfl⟩⟩
  · split
    · exact hskip _ _ (discard_reports ..) (.refl _)
    · refine hskip _ _ (discard_reports ..) (BesidesBytes.trans (.foldl (fun v d => ?_) _ _) (putRowAcc_besidesBytes ..))
      exact .foldl (fun w h => writeKeys_besidesBytes ..) _ v

/-! ### SWEEP_START (R218, R220) -/

/-- The full step of the sweep that a tag step names. -/
def Part.stepFor (q : Part) (st : BitVec 16) : Word := fullStep (if q.started then q.lastStarted else 0) st

/-- A partition whose sweep of a step starts. -/
def Part.sweeping (q : Part) (st : BitVec 16) (step : Word) : Part :=
  { q with
    sweep := some { step := step }
    started := true
    lastStarted := step
    sweepDue := q.sweepDue.filter (· ≠ st)
    stepbs := q.stepbs.filter (fun x => x.2 ≠ st) }

/-- A cluster's swath unit starts on a step. -/
def State.startUnit (s : State) (st : BitVec 16) (c : Nat) : State := (s.putSw c .sweeping).updCluster c (fun x => { x with swStep := st })

/-- The state whose partition `n` sweeps a step on all its swath units. -/
def State.sweepBegun (s : State) (n : Nat) (st : BitVec 16) : State :=
  (s.part n).cfg.clusters.foldl (fun v c => v.startUnit st c)
    (((s.setHoldPoint n).countHold n).updPart n (·.sweeping st ((s.part n).stepFor st)))

/-- The tag word of the records about tables that the sweep of a step skips. -/
def skipTag (n : Nat) (st : BitVec 16) : Word := BitVec.ofNat 64 (n * 2 ^ 61 + st.toNat * 2 ^ 33 + 3 * 2 ^ 6)

section
variable {s : State} {n : Nat} {st : BitVec 16}

/-- A sweep is due and nothing holds it back. -/
structure SweepDue (s : State) (n : Nat) (st : BitVec 16) : Prop where
  live : s.live = true
  next : s.nextSweep n = some st
  may : s.mayStart n ((s.part n).stepFor st) = true
  holds : s.holdsMet n = true

theorem exec_sweepStart (h : SweepDue s n st) : exec (.sweepStart n) s = .next (match (s.part n).plan with
    | some pl => pl.entries.foldl (fun v e => v.skipFull n e (skipTag n st)) (s.sweepBegun n st)
    | none => s.sweepBegun n st) := by
  change execSweepStart n s = _
  unfold execSweepStart
  rw [h.next]
  dsimp only
  rw [if_neg]
  · rfl
  · have hlive : (s.setHoldPoint n).live = true := by rw [State.setHoldPoint_eq]; exact h.live
    have hmay : (s.setHoldPoint n).mayStart n ((s.part n).stepFor st) = true := by rw [State.setHoldPoint_eq]; exact h.may
    have hholds : (s.setHoldPoint n).holdsMet n = true := by rw [State.setHoldPoint_eq]; exact h.holds
    change ¬ (!(s.setHoldPoint n).live || !(s.setHoldPoint n).mayStart n ((s.part n).stepFor st) || !(s.setHoldPoint n).holdsMet n) = true
    rw [hlive, hmay, hholds]
    decide

theorem State.cluster_startUnit_same (s : State) (st : BitVec 16) (c : Nat) :
    ((s.startUnit st c).cluster c).sw = .sweeping ∧ ((s.startUnit st c).cluster c).swStep = st := by
  unfold State.startUnit
  rw [State.cluster_updCluster_same, State.cluster_putSw_same]
  exact ⟨rfl, rfl⟩

theorem State.cluster_startUnit_ne (s : State) (st : BitVec 16) {c k : Nat} (h : k ≠ c) : (s.startUnit st c).cluster k = s.cluster k := by
  unfold State.startUnit
  rw [State.cluster_updCluster_ne _ _ _ h, State.cluster_putSw_ne _ _ h]

theorem State.sweepBegun_eq (s : State) (n : Nat) (st : BitVec 16) :
    s.sweepBegun n st = { s.updPart n (·.sweeping st ((s.part n).stepFor st)) with
      clusters := (s.sweepBegun n st).clusters, power := (s.sweepBegun n st).power, net := (s.sweepBegun n st).net } := by
  refine List.foldlRecOn (motive := fun v : State => v = { s.updPart n (·.sweeping st ((s.part n).stepFor st)) with
    clusters := v.clusters, power := v.power, net := v.net }) _ _ ?_ (fun v hv c _ => by rw [hv]; rfl)
  rw [State.countHold_eq, State.setHoldPoint_eq]
  rfl

theorem State.sweepBegun_part (s : State) (n : Nat) (st : BitVec 16) :
    (s.sweepBegun n st).part n = (s.part n).sweeping st ((s.part n).stepFor st) := by
  rw [State.sweepBegun_eq]
  exact s.part_updPart_same n (·.sweeping st ((s.part n).stepFor st))

theorem State.sweepBegun_units (s : State) (n : Nat) (st : BitVec 16) {k : Nat} (hk : k ∈ (s.part n).cfg.clusters) :
    ((s.sweepBegun n st).cluster k).sw = .sweeping ∧ ((s.sweepBegun n st).cluster k).swStep = st :=
  cluster_of_foldl (Q := fun x => x.sw = .sweeping ∧ x.swStep = st) (fun v c => v.cluster_startUnit_same st c)
    (fun v _ _ h => v.cluster_startUnit_ne st h) _ _ hk

theorem State.sweepBegun_mem (s : State) (n : Nat) (st : BitVec 16) : (s.sweepBegun n st).mem = s.mem :=
  (congrArg State.mem (s.sweepBegun_eq n st) :)

theorem sweepStart_starts (h : SweepDue s n st) : Completes (exec (.sweepStart n) s) (fun t =>
    t.part n = (s.part n).sweeping st ((s.part n).stepFor st)
    ∧ (∀ k ∈ (s.part n).cfg.clusters, (t.cluster k).sw = .sweeping ∧ (t.cluster k).swStep = st)
    ∧ ((∀ pl, (s.part n).plan = some pl → ∀ e ∈ pl.entries, e.valid = false ∨ e.dense = true) → t.mem = s.mem)) := by
  rw [exec_sweepStart h]
  refine .next ?_
  have hpart := s.sweepBegun_part n st
  have hunits := fun k (hk : k ∈ (s.part n).cfg.clusters) => s.sweepBegun_units n st hk
  have hmem := s.sweepBegun_mem n st
  generalize s.sweepBegun n st = v at hpart hunits hmem ⊢
  cases (s.part n).plan with
  | none => exact ⟨hpart, hunits, fun _ => hmem⟩
  | some pl =>
    dsimp only
    have hkeeps : ∀ l : List PlanEntry, (l.foldl (fun v e => v.skipFull n e (skipTag n st)) v).parts = v.parts
        ∧ ∀ k, ((l.foldl (fun v e => v.skipFull n e (skipTag n st)) v).cluster k).sw = (v.cluster k).sw
          ∧ ((l.foldl (fun v e => v.skipFull n e (skipTag n st)) v).cluster k).swStep = (v.cluster k).swStep := fun l =>
      List.foldlRecOn (motive := fun w : State => w.parts = v.parts
        ∧ ∀ k, (w.cluster k).sw = (v.cluster k).sw ∧ (w.cluster k).swStep = (v.cluster k).swStep) l _ ⟨rfl, fun _ => ⟨rfl, rfl⟩⟩
        (fun w hw e _ => by
          obtain ⟨hparts, hclusters⟩ := w.skipFull_keeps n e (skipTag n st)
          exact ⟨hparts.trans hw.1, fun k => ⟨(hclusters k).1.trans (hw.2 k).1, (hclusters k).2.trans (hw.2 k).2⟩⟩)
    obtain ⟨hparts, hclusters⟩ := hkeeps pl.entries
    refine ⟨(State.part_of_parts hparts n).trans hpart, fun k hk => ?_, fun hnone => ?_⟩
    · rw [(hclusters k).1, (hclusters k).2]
      exact hunits k hk
    · rw [← hmem]
      exact List.foldlRecOn (motive := fun w : State => w.mem = v.mem) _ _ rfl
        (fun w hw e he => by rw [w.skipFull_of_not_table n _ (hnone pl rfl e he)]; exact hw)

end

/-- Settles O33: what starts is `sweepBegun`, after which a skipped table keeps partitions and swath units (R226). -/
theorem sweepsStart : Obligations.SweepsStart := by
  unfold Obligations.SweepsStart
  intro s n st hlive hnext q step hmay hholds
  exact sweepStart_starts ⟨hlive, hnext, hmay, hholds⟩

/-! ### SWEEP_ROW_BLOCK (R236, R237, R395) -/

/-- The plan entry of a number. -/
def Part.entryAt (q : Part) (i : Nat) : PlanEntry := ((q.plan.map (·.entries)).getD []).getD i {}

/-- What a row block of a plan entry writes. -/
def State.blockOut (s : State) (n : Nat) (e : PlanEntry) (step : Word) (b : Nat × Nat × Nat) : BlockOut :=
  if e.dense then s.denseBlock n e step b else s.tableBlock n e step b

/-- The state in which a row block has been read and its inconsistent records reported. -/
def State.blockRead (s : State) (n c : Nat) (step : Word) (out : BlockOut) : State :=
  (s.served (s.entryKeys n out.entries) 1).reportSwept n c step out.damaged

/-- Reading a row block serves bytes and reports. -/
theorem State.blockRead_keeps (s : State) (n c : Nat) (step : Word) (out : BlockOut) : let t := s.blockRead n c step out
    t.mem = s.mem ∧ t.cores = s.cores ∧ t.parts = s.parts ∧ t.tx = s.tx := by
  intro t
  have hserved := s.served_tiers (s.entryKeys n out.entries) 1
  have hreport : BesidesReports (s.served (s.entryKeys n out.entries) 1) t := .foldl (fun v x => post_reports ..) _ _
  generalize s.served (s.entryKeys n out.entries) 1 = v at hserved hreport
  rw [hreport, hserved]
  exact ⟨rfl, rfl, rfl, rfl⟩

/-- A sweep that has opened one more row block. -/
def Sweep.opening (w : Sweep) (entry block : Nat) (stats : List (Nat × List Byte)) : Sweep :=
  { w.keepStats entry block stats with opened := w.opened ++ [(entry, block)] }

/-- A sweep of a replay that has captured a row block's writes. -/
def Sweep.capturing (w : Sweep) (entry block : Nat) (l : List JEntry) : Sweep :=
  { w with committed := w.committed ++ [(entry, block)], captured := w.captured ++ [(entry, block, l)] }

/-- A partition whose sweep has changed. -/
def Part.onSweep (q : Part) (f : Sweep → Sweep) : Part := { q with sweep := q.sweep.map f }

/-- A transaction of a row block with what the block counts. -/
def Tx.counting (x : Tx) (out : BlockOut) : Tx :=
  { x with elems := out.elems, guarded := out.guarded, skipped := out.skipped, clamps := out.clamps }

/-- The transaction that was opened last counts what its row block counts. -/
def State.countLast (s : State) (out : BlockOut) : State :=
  { s with tx := { s.tx with txs := s.tx.txs.map (fun x => if x.num + 1 = s.tx.nextTx then x.counting out else x) } }

/-- What a capture holds of a row block: its writes in record order without the releases of accumulators (R396). -/
def State.captureOf (s : State) (n c entry block : Nat) (step : Word) (l : List JEntry) : List JEntry :=
  s.finalEntries { num := 0, part := n, coord := clusterDie c, step := step, origin := .sweep entry block,
                   entries := l.filter (fun x => x.kind ≠ 2) }

section
variable {s : State} {n entry block : Nat} {w : Sweep} {b : Nat × Nat × Nat}

/-- A row block of the running sweep is due and no block before it holds it up. -/
structure BlockReady (s : State) (n entry block : Nat) (w : Sweep) (b : Nat × Nat × Nat) : Prop where
  live : s.live = true
  sweep : (s.part n).sweep = some w
  running : w.suspended = false
  recovered : n ∉ s.tx.recovering
  found : (s.entryBlocks n ((s.part n).entryAt entry))[block]? = some b
  fresh : (entry, block) ∉ w.opened
  due : s.blockDue n ((s.part n).entryAt entry) b = true
  order : ((s.part n).entryAt entry).dense = true → ∀ x ∈ w.opened, x.1 = entry → x ∈ w.committed

theorem exec_sweepRowBlock (h : BlockReady s n entry block w b) {out : BlockOut} (hout : s.blockOut n ((s.part n).entryAt entry) w.step b = out) :
    let c := s.sweepCluster n b.2.2
    let u := s.blockRead n c w.step out
    exec (.sweepRowBlock n entry block) s = .next (
      if (s.part n).replay.isSome then
        u.updPart n (·.onSweep (fun w' => (w'.opening entry block out.stats).capturing entry block (u.captureOf n c entry block w.step out.entries)))
      else (State.openTx (u.updPart n (·.onSweep (·.opening entry block out.stats))) n (clusterDie c) c w.step (.sweep entry block) out.entries
        []).countLast out) := by
  intro c u
  subst hout
  change execSweepRowBlock n entry block s = _
  have hwait : (((s.part n).entryAt entry).dense && w.opened.any (fun x => x.1 = entry && x ∉ w.committed)) = false := by
    refine Bool.eq_false_iff.mpr fun hbad => ?_
    simp only [Bool.and_eq_true, List.any_eq_true, decide_eq_true_eq] at hbad
    obtain ⟨hdense, x, hx, hentry, hopen⟩ := hbad
    exact hopen (h.order hdense x hx hentry)
  have hgo : ¬ (!s.live || w.suspended || n ∈ s.tx.recovering || (entry, block) ∈ w.opened || !s.blockDue n ((s.part n).entryAt entry) b
      || (((s.part n).entryAt entry).dense && w.opened.any (fun x => x.1 = entry && x ∉ w.committed))) = true := by
    rw [hwait, h.live, h.running, h.due]
    simp [h.recovered, h.fresh]
  have hfound := h.found
  unfold execSweepRowBlock
  unfold Part.entryAt at hgo hfound
  dsimp only
  rw [h.sweep, hfound]
  dsimp only
  rw [if_neg hgo]
  rfl

theorem part_onSweep {u : State} (hu : u.parts = s.parts) (h : (s.part n).sweep = some w) (f : Sweep → Sweep) :
    ((u.updPart n (·.onSweep f)).part n).sweep = some (f w) := by
  rw [State.part_updPart_same, State.part_of_parts hu, Part.onSweep, h]
  rfl

/-- The transaction that a unit opens last counts what its row block counts. -/
theorem openTx_countLast (v : State) (coord cluster : Nat) (step : Word) (o : TxOrigin) (l : List JEntry) (out : BlockOut) :
    ∃ x ∈ ((v.openTx n coord cluster step o l []).countLast out).tx.txs, x.num = v.tx.nextTx ∧ x.part = n ∧ x.step = step
      ∧ x.origin = o ∧ x.entries = l ∧ x.phase = .preparing ∧ x.skipped = out.skipped := by
  refine ⟨_, List.mem_map.mpr ⟨_, List.mem_append_right _ (List.mem_singleton_self _), if_pos ?_⟩, ?_⟩
  · rfl
  · exact ⟨rfl, rfl, rfl, rfl, rfl, rfl, rfl⟩

theorem sweepRowBlock_opens (h : BlockReady s n entry block w b) :
    let out := s.blockOut n ((s.part n).entryAt entry) w.step b
    Completes (exec (.sweepRowBlock n entry block) s) (fun t => t.mem = s.mem ∧ t.cores = s.cores
      ∧ (∃ v, (t.part n).sweep = some v ∧ v.step = w.step ∧ v.opened = w.opened ++ [(entry, block)]
          ∧ v.committed = (if (s.part n).replay.isSome then w.committed ++ [(entry, block)] else w.committed))
      ∧ if (s.part n).replay.isSome then t.tx = s.tx
        else ∃ x ∈ t.tx.txs, x.num = s.tx.nextTx ∧ x.part = n ∧ x.step = w.step ∧ x.origin = .sweep entry block
          ∧ x.entries = out.entries ∧ x.phase = .preparing ∧ x.skipped = out.skipped) := by
  intro out
  rw [exec_sweepRowBlock h (out := out) rfl]
  refine .next ?_
  obtain ⟨hmem, hcores, hparts, htx⟩ := s.blockRead_keeps n (s.sweepCluster n b.2.2) w.step out
  generalize s.blockRead n (s.sweepCluster n b.2.2) w.step out = u at *
  by_cases hreplay : (s.part n).replay.isSome = true
  · rw [if_pos hreplay, if_pos hreplay, if_pos hreplay]
    exact ⟨hmem, hcores, ⟨_, part_onSweep hparts h.sweep _, rfl, rfl, rfl⟩, htx⟩
  · rw [if_neg hreplay, if_neg hreplay, if_neg hreplay]
    refine ⟨hmem, hcores, ⟨_, part_onSweep hparts h.sweep _, rfl, rfl, rfl⟩, ?_⟩
    rw [← htx]
    exact openTx_countLast (u.updPart n (·.onSweep (·.opening entry block out.stats))) _ _ _ _ _ _

end

/-- Settles O34: a due block is read (`blockRead`), then captured or opened as a transaction; the blocks before it in a narrow dense
tensor have committed (log entry 33). -/
theorem rowBlocksSwept : Obligations.RowBlocksSwept := by
  unfold Obligations.RowBlocksSwept
  intro s n entry block w b q e hlive hsweep hrun hrec hfound hfresh hdue horder out
  exact sweepRowBlock_opens ⟨hlive, hsweep, hrun, hrec, hfound, hfresh, hdue, horder⟩

end Sys2Proof.Machine
end

section
/-! PROOFS. The end of a sweep: the partition that goes on, its swath units, the completion action, the queued requests that are
placed; the exchange of digests and their recomputation (R221, R257 to R259, R263, R422). -/

namespace Sys2Proof.Machine

/-! ### Bytes that a sweep's end writes (R87, R94, R229) -/

theorem writeStats_writes (s : State) (n : Nat) (w : Sweep) : WritesBytes s (s.writeStats n w) := by
  unfold State.writeStats
  split
  · refine .foldl (fun v i => .foldl (fun u k => ?_) _ v) _ s
    split
    · exact writeDev_writes ..
    · exact .refl u
  · exact .refl s

theorem emptyAccs_besidesBytes (s : State) (n : Nat) : BesidesBytes s (s.emptyAccs n) := by
  unfold State.emptyAccs
  split
  · refine .foldl (fun v e => ?_) _ s
    dsimp only
    split
    · exact putRowAcc_besidesBytes ..
    · exact .refl v
  · exact .refl s

/-! ### Requests that are placed when a hold ends (R411, R422) -/

/-- `t` came of `s` by requests that were placed: bytes of slots, the records of serve partitions, counter pairs with the wakes of
their waiters, reports. No operation on its way to a store is lost. -/
structure Places (s t : State) : Prop where
  rest : t = { s with mem := t.mem, poison := t.poison, substd := t.substd, tiers := t.tiers, row := t.row, net := t.net, sync := t.sync,
                      errs := t.errs, host := t.host, out := t.out }
  inflight : t.sync.inflight = s.sync.inflight

section
variable {s t u : State}

theorem Places.refl (s : State) : Places s s := ⟨rfl, rfl⟩

theorem Places.trans (h : Places s t) (k : Places t u) : Places s u where
  rest := k.rest.trans (by rw [h.rest])
  inflight := k.inflight.trans h.inflight

theorem Places.clusters (h : Places s t) : t.clusters = s.clusters := (congrArg State.clusters h.rest :)
theorem Places.parts (h : Places s t) : t.parts = s.parts := (congrArg State.parts h.rest :)

theorem BesidesBytes.places (h : BesidesBytes s t) : Places s t := by
  unfold BesidesBytes at h
  rw [h]
  exact ⟨rfl, rfl⟩

theorem BesidesReports.places (h : BesidesReports s t) : Places s t := by
  unfold BesidesReports at h
  rw [h]
  exact ⟨rfl, rfl⟩

end

theorem updServe_places (s : State) (n : Nat) (f : Serve → Serve) : Places s (s.updServe n f) := ⟨rfl, rfl⟩

theorem addPair_places (s : State) (id k : Nat) (consumed : Bool) : Places s (s.addPair id k consumed) := by
  unfold State.addPair
  extract_lets x v src written woken
  have h : Places s woken := ⟨rfl, rfl⟩
  split
  · exact h.trans (post_reports ..).places
  · exact h

theorem place_places (s : State) (n : Nat) (bytes route : List Byte) (port arrived deadline : Nat) :
    Places s (s.place n bytes route port arrived deadline) := by
  have hput (v : State) (a : Word) (l : List Byte) : Places v (v.putServe n a l) := (writeKeys_besidesBytes ..).places
  exact (((((hput _ _ _).trans (hput _ _ _)).trans (hput _ _ _)).trans (updServe_places ..)).trans (updServe_places ..)).trans (addPair_places ..)

theorem placeQueued_places (s : State) (n k : Nat) : Places s (s.placeQueued n k) := by
  induction k generalizing s with
  | zero => exact .refl s
  | succ k ih =>
    unfold State.placeQueued
    split
    · exact .refl s
    · split
      · exact ((updServe_places ..).trans (place_places ..)).trans (ih _)
      · exact .refl s

theorem State.placeQueued_of_empty {s : State} {n : Nat} (h : (s.serve n).queue = []) (k : Nat) : s.placeQueued n k = s := by
  cases k with
  | zero => rfl
  | succ k =>
    unfold State.placeQueued
    rw [h]

theorem endHold_places (s : State) (n : Nat) : Places s (s.endHold n) := by
  unfold State.endHold
  refine List.foldlRecOn (motive := fun v => Places s v) _ _ ⟨rfl, rfl⟩ (fun v hv m _ => ?_)
  split
  · exact hv.trans (placeQueued_places ..)
  · exact hv

/-- Where no request is queued the end of a hold writes nothing. -/
theorem State.endHold_mem {s : State} (h : ∀ m, (s.serve m).queue = []) (n : Nat) : (s.endHold n).mem = s.mem := by
  unfold State.endHold
  dsimp only
  have hfree : ∀ m, (({ s with net := { s.net with holdPoint := s.net.holdPoint.del n } } : State).serve m).queue = [] := h
  have hmem : ({ s with net := { s.net with holdPoint := s.net.holdPoint.del n } } : State).mem = s.mem := rfl
  generalize ({ s with net := { s.net with holdPoint := s.net.holdPoint.del n } } : State) = v at hfree hmem ⊢
  have hstays := List.foldlRecOn (motive := fun u : State => u = v) (List.range 8)
    (fun u m => if (u.part m).cfg.serve && (u.part m).cfg.src = n then u.placeQueued m 4096 else u) rfl (fun u hu m _ => by
      rw [hu, State.placeQueued_of_empty (hfree m), ite_self])
  rw [hstays, hmem]

/-! ### The end of a sweep (R221, R263) -/

/-- A partition whose sweep is over, with the step that it has completed last. -/
def Part.sweepOver (q : Part) (step : Word) : Part := { q with sweep := none, lastCompleted := step }

/-- A partition whose next plan, where it has one, is in force. -/
def Part.planTurned (q : Part) : Part := match q.nextPlan with | some pl => q.planned pl | none => q

/-- The state of a partition's swath units after the sweep of a step. -/
def Part.restState (q : Part) (step : Word) : SwState := if q.exports.any (fun x => q.started && x.step = step) then .exporting else .idle

theorem Part.planTurned_frame (q : Part) : q.planTurned.sweep = q.sweep ∧ q.planTurned.lastCompleted = q.lastCompleted
    ∧ q.planTurned.lastDigestOk = q.lastDigestOk := by
  unfold Part.planTurned
  split <;> exact ⟨rfl, rfl, rfl⟩

theorem Part.planTurned_plan (q : Part) : q.planTurned.plan = if q.nextPlan.isSome then q.nextPlan else q.plan := by
  unfold Part.planTurned
  split
  · next pl h => rw [h]; rfl
  · next h => rw [h]; rfl

theorem State.part_planTurn (s : State) (n : Nat) : (s.planTurn n).part n = (s.part n).planTurned := by
  unfold State.planTurn Part.planTurned
  cases (s.part n).nextPlan with
  | some pl => exact s.part_updPart_same n (·.planned pl)
  | none => rfl

theorem State.planTurn_keeps (s : State) (n : Nat) : let t := s.planTurn n
    t.clusters = s.clusters ∧ t.net = s.net ∧ t.mem = s.mem ∧ t.sync = s.sync := by
  unfold State.planTurn
  split <;> exact ⟨rfl, rfl, rfl, rfl⟩

/-- The completion action of a plan is on its way, tagged as the work that completes (R37, R152). -/
theorem State.action_sent (s : State) (n : Nat) (tag : Word) (ck : BitVec 2) (ct : BitVec 17) (act : SyncDo)
    (h : (ck = 1 ∧ act = .setFlag ct.toNat) ∨ (ck = 2 ∧ act = .produce ct.toNat 1) ∨ (ck = 3 ∧ act = .consume ct.toNat 1)) :
    ⟨.unit n, fld ct.toNat 16 14, act, inClass tag .sync⟩ ∈ (s.action n tag ck ct).sync.inflight := by
  rcases h with ⟨rfl, rfl⟩ | ⟨rfl, rfl⟩ | ⟨rfl, rfl⟩ <;> exact List.mem_append_right _ (List.mem_singleton_self _)

/-- What the end of the sweep `w` of partition `n` leaves. -/
structure SweepEnds (s t : State) (n : Nat) (w : Sweep) : Prop where
  part : t.part n = ((s.part n).sweepOver w.step).planTurned
  units : ∀ k ∈ (s.part n).cfg.clusters, (t.cluster k).sw = (s.part n).restState w.step ∧ (t.cluster k).divergent = (s.cluster k).divergent
  action : ∀ pl act, (s.part n).plan = some pl →
    (pl.ck = 1 ∧ act = .setFlag pl.ct.toNat) ∨ (pl.ck = 2 ∧ act = .produce pl.ct.toNat 1) ∨ (pl.ck = 3 ∧ act = .consume pl.ct.toNat 1) →
    ⟨.unit n, fld pl.ct.toNat 16 14, act, inClass (s.partTag n (w.step.setWidth 16) .transaction) .sync⟩ ∈ t.sync.inflight
  mem : (∀ m, (s.serve m).queue = []) → t.mem = s.mem

/-- The state whose sweep is over, its swath units at rest, its merged records posted. -/
def State.sweepClosed (s : State) (n : Nat) (w : Sweep) : State :=
  ((s.updPart n (fun q => q.sweepOver (if (s.part n).replay.isSome then q.lastCompleted else w.step))).settleSw n).flushMerges n

/-- The completion action of the plan under which a partition has swept. -/
def State.planAction (s : State) (n : Nat) (w : Sweep) (plan : Option Plan) : State :=
  match plan with
  | some pl => s.action n (s.partTag n (w.step.setWidth 16) .transaction) pl.ck pl.ct
  | none => s

theorem State.planAction_keeps (s : State) (n : Nat) (w : Sweep) (plan : Option Plan) : let t := s.planAction n w plan
    t.parts = s.parts ∧ t.clusters = s.clusters ∧ t.net = s.net ∧ t.mem = s.mem := by
  cases plan with
  | none => exact ⟨rfl, rfl, rfl, rfl⟩
  | some pl =>
    dsimp only [State.planAction]
    rw [State.action_eq]
    exact ⟨rfl, rfl, rfl, rfl⟩

theorem State.endSweep_eq (s : State) (n : Nat) (w : Sweep) :
    s.endSweep n w = (((s.sweepClosed n w).planAction n w (s.part n).plan).planTurn n).endHold n := by
  unfold State.endSweep State.planAction
  dsimp only
  cases (s.part n).plan <;> rfl

section
variable {s : State} {n : Nat} {w : Sweep}

theorem sweepClosed_leaves (hreplay : (s.part n).replay = none) (hrec : n ∉ s.tx.recovering) : let t := s.sweepClosed n w
    t.part n = (s.part n).sweepOver w.step
      ∧ (∀ k ∈ (s.part n).cfg.clusters, (t.cluster k).sw = (s.part n).restState w.step ∧ (t.cluster k).divergent = (s.cluster k).divergent)
      ∧ t.net = s.net ∧ t.mem = s.mem := by
  intro t
  generalize ha : s.updPart n (fun q => q.sweepOver (if (s.part n).replay.isSome then q.lastCompleted else w.step)) = a
  have hpart : a.part n = (s.part n).sweepOver w.step := by
    rw [← ha, State.part_updPart_same, hreplay]
    rfl
  have hsettled : a.settleSw n = a.allSw n ((s.part n).restState w.step) := by
    rw [State.settleSw_of_recovered (by rw [← ha]; exact hrec)]
    unfold State.swNow
    rw [hpart]
    rfl
  have hflush : BesidesReports (a.allSw n ((s.part n).restState w.step)) t := by
    rw [← hsettled, ← ha]
    exact flushMerges_reports ..
  obtain ⟨hkparts, hknet, hkmem⟩ : (a.allSw n ((s.part n).restState w.step)).parts = a.parts
      ∧ (a.allSw n ((s.part n).restState w.step)).net = a.net ∧ (a.allSw n ((s.part n).restState w.step)).mem = a.mem := by
    rw [State.allSw_eq]
    exact ⟨rfl, rfl, rfl⟩
  refine ⟨?part, fun k hk => ?units, ?net, ?mem⟩
  case part => rw [State.part_of_parts hflush.parts, State.part_of_parts hkparts, hpart]
  case units =>
    have hcluster : t.cluster k = (a.allSw n ((s.part n).restState w.step)).cluster k := by
      unfold State.cluster
      rw [hflush.clusters]
    rw [hcluster, State.sw_allSw a n _ (by rw [hpart]; exact hk), State.divergent_allSw, ← ha]
    exact ⟨rfl, rfl⟩
  case net => rw [(congrArg State.net hflush :), hknet, ← ha]; rfl
  case mem => rw [hflush.mem, hkmem, ← ha]; rfl

theorem endSweep_ends (hreplay : (s.part n).replay = none) (hrec : n ∉ s.tx.recovering) : SweepEnds s (s.endSweep n w) n w := by
  obtain ⟨hpart, hunits, hnet, hmem⟩ := sweepClosed_leaves (w := w) hreplay hrec
  rw [State.endSweep_eq]
  generalize s.sweepClosed n w = c at hpart hunits hnet hmem ⊢
  obtain ⟨haparts, haclusters, hanet, hamem⟩ := c.planAction_keeps n w (s.part n).plan
  obtain ⟨htclusters, htnet, htmem, htsync⟩ := (c.planAction n w (s.part n).plan).planTurn_keeps n
  have hhold := endHold_places ((c.planAction n w (s.part n).plan).planTurn n) n
  refine ⟨?part, fun k hk => ?units, fun pl act hplan hact => ?action, fun hqueues => ?mem⟩
  case part =>
    rw [State.part_of_parts hhold.parts, State.part_planTurn, State.part_of_parts haparts, hpart]
  case units =>
    unfold State.cluster at hunits ⊢
    rw [hhold.clusters, htclusters, haclusters]
    exact hunits k hk
  case action =>
    rw [hhold.inflight, htsync, hplan]
    have htag : c.partTag n (w.step.setWidth 16) .transaction = s.partTag n (w.step.setWidth 16) .transaction := by
      unfold State.partTag
      rw [hpart]
      rfl
    rw [← htag]
    exact c.action_sent n _ pl.ck pl.ct act hact
  case mem =>
    rw [State.endHold_mem, htmem, hamem, hmem]
    intro m
    unfold State.serve at hqueues ⊢
    rw [htnet, hanet, hnet]
    exact hqueues m

end

/-! ### SWEEP_COMPLETE (R221, R258) -/

/-- What a partition presents to a member of its replica group (R258). -/
def State.digestFor (s : State) (n : Nat) (w : Sweep) (i : Nat) : Out :=
  .digest n i w.step { member := (s.member n).image.own, ready := s.digestReady n, digest := (s.part n).shardDigest }
    (s.partTag n (w.step.setWidth 16) .exchange)

theorem State.sendDigest_eq (s : State) (n : Nat) (w : Sweep) : s.sendDigest n w = { s with
    out := s.out ++ if (s.member n).quarantined then [] else ((s.replicas n).filter (· ≠ (s.member n).image.own)).map (s.digestFor n w) } := by
  have hsend (l : List Nat) (v : State) (hv : v.digestFor n w = s.digestFor n w) (hm : v.member n = s.member n) :
      l.foldl (fun v i => v.send (.digest n i w.step
        { member := (s.member n).image.own, ready := v.digestReady n, digest := (v.part n).shardDigest }
        (v.partTag n (w.step.setWidth 16) .exchange))) v = { v with out := v.out ++ l.map (s.digestFor n w) } := by
    induction l generalizing v with
    | nil => simp
    | cons i l ih =>
      have hi : Out.digest n i w.step { member := (s.member n).image.own, ready := v.digestReady n, digest := (v.part n).shardDigest }
          (v.partTag n (w.step.setWidth 16) .exchange) = s.digestFor n w i := by rw [← hv, ← hm]; rfl
      rw [List.foldl_cons, hi, ih (v.send (s.digestFor n w i)) hv hm, List.map_cons, ← List.singleton_append, ← List.append_assoc]
      rfl
  unfold State.sendDigest
  dsimp only
  split
  · rw [List.append_nil]
  · exact hsend _ s rfl rfl

section
variable {s : State} {n : Nat} {w : Sweep}

/-- A sweep of the training state whose row blocks have all committed. -/
structure SweepAtEnd (s : State) (n : Nat) (w : Sweep) : Prop where
  live : s.live = true
  sweep : (s.part n).sweep = some w
  running : w.suspended = false
  first : w.digestDue = false
  recovered : n ∉ s.tx.recovering
  done_ : s.sweepDone n w = true
  training : (s.part n).replay = none

/-- The period of a partition's digest exchange, 0 where it makes none. -/
def Part.period (q : Part) : Nat := (q.plan.map (·.period)).getD 0

/-- A partition whose sweep waits for the exchange of digests. -/
def Part.exchanging (q : Part) (w : Sweep) : Part := { q with sweep := some { w with digestDue := true }, lastCompleted := w.step }

/-- The bytes that a sweep's end writes: statistics and the counts of accumulators. -/
def State.sweepWritten (s : State) (n : Nat) (w : Sweep) : State := (s.writeStats n w).emptyAccs n

theorem sweepWritten_writes (s : State) (n : Nat) (w : Sweep) : WritesBytes s (s.sweepWritten n w) :=
  (writeStats_writes s n w).trans (emptyAccs_besidesBytes ..).writes

theorem exec_sweepComplete (h : SweepAtEnd s n w) : exec (.sweepComplete n) s = .next (
    if (s.part n).period ≠ 0 ∧ w.step.toNat % (s.part n).period = 0 then
      (((s.sweepWritten n w).allSw n .digesting).updPart n (·.exchanging w)).sendDigest n w
    else (s.sweepWritten n w).endSweep n w) := by
  change execSweepComplete n s = _
  unfold execSweepComplete
  dsimp only
  rw [h.sweep]
  dsimp only
  rw [if_neg (by simp [h.live, h.running, h.first, h.recovered, h.done_]), h.training]
  exact congrArg _ (if_congr (by rw [Bool.and_eq_true, decide_eq_true_eq, decide_eq_true_eq]; rfl) rfl rfl)

end

end Sys2Proof.Machine
end

section
/-! PROOFS. The end of a sweep with and without its digest exchange, and digests that are computed again (R221, R257 to R259, R263). -/

namespace Sys2Proof.Machine

section
variable {s : State} {n : Nat} {w : Sweep}

/-! ### SWEEP_COMPLETE (R221, R258) -/

/-- At its period a sweep waits for the exchange, to which every other member of the replica group is sent the shard's digest. -/
theorem sweepComplete_exchanges (s : State) (n : Nat) (w : Sweep) :
    let t := (((s.sweepWritten n w).allSw n .digesting).updPart n (·.exchanging w)).sendDigest n w
    (t.part n).sweep = some { w with digestDue := true } ∧ (t.part n).lastCompleted = w.step
      ∧ (∀ k ∈ (s.part n).cfg.clusters, (t.cluster k).sw = .digesting)
      ∧ ((s.member n).quarantined = false → ∀ i ∈ s.replicas n, i ≠ (s.member n).image.own →
          ∃ d tag, .digest n i w.step d tag ∈ t.out ∧ d.member = (s.member n).image.own ∧ d.digest = (s.part n).shardDigest) := by
  intro t
  have hwrites := sweepWritten_writes s n w
  have hcfg := (hwrites.map n).2.2
  have hsw := fun k hk => (s.sweepWritten n w).sw_allSw n .digesting (k := k) hk
  generalize hu : ((s.sweepWritten n w).allSw n .digesting).updPart n (·.exchanging w) = u
  have hpart : u.part n = ((s.sweepWritten n w).part n).exchanging w := by
    rw [← hu, State.part_updPart_same, State.allSw_eq]
    rfl
  have hlink : u.link = s.link := by
    rw [← hu, ← hwrites.link]
    exact (congrArg State.link (State.allSw_eq ..) :)
  have hclusters : u.clusters = ((s.sweepWritten n w).allSw n .digesting).clusters := by rw [← hu]; rfl
  have ht : t = u.sendDigest n w := by rw [← hu]
  rw [State.sendDigest_eq] at ht
  have hplan : (u.part n).plan = (s.part n).plan := by rw [hpart, hwrites.stale n]; rfl
  have hmember : u.member n = s.member n := by unfold State.member; rw [hlink]
  have hreplicas : u.replicas n = s.replicas n := by
    unfold State.replicas State.groupOf
    rw [hplan, hmember]
  have hdigest : (u.part n).shardDigest = (s.part n).shardDigest := by
    rw [hpart, hwrites.stale n]
    rfl
  refine ⟨?_, ?_, fun k hk => ?_, fun hfree i hi hne => ?_⟩
  · rw [ht]
    exact congrArg Part.sweep hpart
  · rw [ht]
    exact congrArg Part.lastCompleted hpart
  · have hk' := hsw k (hcfg ▸ hk)
    unfold State.cluster at hk' ⊢
    rw [ht]
    change (u.clusters.get {} k).sw = _
    rw [hclusters]
    exact hk'
  · rw [ht, hmember, hreplicas]
    refine ⟨{ member := (u.member n).image.own, ready := u.digestReady n, digest := (u.part n).shardDigest },
      u.partTag n (w.step.setWidth 16) .exchange, List.mem_append_right _ ?_, congrArg (·.image.own) hmember, hdigest⟩
    rw [if_neg (by rw [hfree]; decide)]
    exact List.mem_map.mpr ⟨i, List.mem_filter.mpr ⟨hi, decide_eq_true hne⟩, rfl⟩

theorem Part.sweepOver_planTurned (q : Part) (step : Word) : (q.sweepOver step).planTurned.sweep = none
    ∧ (q.sweepOver step).planTurned.lastCompleted = step ∧ (q.sweepOver step).planTurned.lastDigestOk = q.lastDigestOk
    ∧ (q.sweepOver step).planTurned.plan = if q.nextPlan.isSome then q.nextPlan else q.plan := by
  obtain ⟨hsweep, hlast, hok⟩ := (q.sweepOver step).planTurned_frame
  exact ⟨hsweep, hlast, hok, (q.sweepOver step).planTurned_plan⟩

/-- Away from the period of the exchange the sweep is over. -/
theorem sweepComplete_ends (h : SweepAtEnd s n w) : let t := (s.sweepWritten n w).endSweep n w
    (t.part n).lastCompleted = w.step ∧ (t.part n).sweep = none
      ∧ (∀ k ∈ (s.part n).cfg.clusters, (t.cluster k).sw = (s.part n).restState w.step)
      ∧ (t.part n).plan = (if (s.part n).nextPlan.isSome then (s.part n).nextPlan else (s.part n).plan)
      ∧ (∀ pl act, (s.part n).plan = some pl → (pl.ck = 1 ∧ act = .setFlag pl.ct.toNat) ∨ (pl.ck = 2 ∧ act = .produce pl.ct.toNat 1)
            ∨ (pl.ck = 3 ∧ act = .consume pl.ct.toNat 1) →
          ⟨.unit n, fld pl.ct.toNat 16 14, act, inClass (s.partTag n (w.step.setWidth 16) .transaction) .sync⟩ ∈ t.sync.inflight) := by
  intro t
  have hwrites := sweepWritten_writes s n w
  have hstale := hwrites.stale n
  have hends : SweepEnds (s.sweepWritten n w) t n w :=
    endSweep_ends (by rw [hstale]; exact h.training) (by rw [hwrites.tx]; exact h.recovered)
  generalize s.sweepWritten n w = v at hwrites hstale hends
  obtain ⟨hsweep, hlast, -, hplan⟩ := (v.part n).sweepOver_planTurned w.step
  have htag : v.partTag n (w.step.setWidth 16) .transaction = s.partTag n (w.step.setWidth 16) .transaction := by
    unfold State.partTag
    rw [hstale]
  refine ⟨?_, ?_, fun k hk => ?_, ?_, fun pl act hpl hact => ?_⟩
  · rw [hends.part, hlast]
  · rw [hends.part, hsweep]
  · rw [(hends.units k ((hwrites.map n).2.2 ▸ hk)).1, hstale]
    rfl
  · rw [hends.part, hplan, hstale]
  · rw [← htag]
    exact hends.action pl act (by rw [hstale]; exact hpl) hact

theorem sweepComplete_completes (h : SweepAtEnd s n w) :
    Completes (exec (.sweepComplete n) s) (fun t => (t.part n).lastCompleted = w.step ∧
      if (s.part n).period ≠ 0 ∧ w.step.toNat % (s.part n).period = 0 then
        (t.part n).sweep = some { w with digestDue := true } ∧ (∀ k ∈ (s.part n).cfg.clusters, (t.cluster k).sw = .digesting)
        ∧ ((s.member n).quarantined = false → ∀ i ∈ s.replicas n, i ≠ (s.member n).image.own →
            ∃ d tag, .digest n i w.step d tag ∈ t.out ∧ d.member = (s.member n).image.own ∧ d.digest = (s.part n).shardDigest)
      else (t.part n).sweep = none ∧ (∀ k ∈ (s.part n).cfg.clusters, (t.cluster k).sw = (s.part n).restState w.step)
        ∧ (t.part n).plan = (if (s.part n).nextPlan.isSome then (s.part n).nextPlan else (s.part n).plan)
        ∧ (∀ pl act, (s.part n).plan = some pl → (pl.ck = 1 ∧ act = .setFlag pl.ct.toNat) ∨ (pl.ck = 2 ∧ act = .produce pl.ct.toNat 1)
              ∨ (pl.ck = 3 ∧ act = .consume pl.ct.toNat 1) →
            ⟨.unit n, fld pl.ct.toNat 16 14, act, inClass (s.partTag n (w.step.setWidth 16) .transaction) .sync⟩ ∈ t.sync.inflight)) := by
  rw [exec_sweepComplete h]
  refine .next ?_
  split
  · obtain ⟨hsweep, hlast, hunits, hsent⟩ := sweepComplete_exchanges s n w
    exact ⟨hlast, hsweep, hunits, hsent⟩
  · exact sweepComplete_ends h

/-! ### DIGEST_EXCHANGE (R258, R259) -/

/-- The digests that the exchange compares, each with its member: those that other ready members of the replica group presented,
and the own one where the shard is ready. -/
def State.digestsHeld (s : State) (n : Nat) (others : List PeerDigest) : List (Nat × Nat) :=
  (others.filter (fun o => o.ready && o.member ∈ s.replicas n && o.member ≠ (s.member n).image.own)).map (fun o => (o.member, o.digest))
    ++ (if s.digestReady n then [((s.member n).image.own, (s.part n).shardDigest)] else [])

/-- Whether the shard agrees with the majority. -/
def State.agrees (s : State) (n : Nat) (others : List PeerDigest) : Bool :=
  decide (majority (s.digestsHeld n others) = some (s.part n).shardDigest)

/-- The 64 bytes of an exchange's report: step, digest, status. -/
def digestReport (step : Word) (own : Nat) (ready agreed : Bool) : List Byte :=
  leBytes 8 step.toNat ++ leBytes 32 own ++ [if ready = false then 0x02 else if agreed then 0x00 else 0x01] ++ leBytes 23 0

theorem digestReport_length (step : Word) (own : Nat) (ready agreed : Bool) : (digestReport step own ready agreed).length = 64 := by
  unfold digestReport
  simp only [List.length_append, length_leBytes, List.length_singleton]

/-- A cluster's swath unit learns whether its shard diverges. -/
def State.diverge (s : State) (d : Bool) (c : Nat) : State := s.updCluster c (fun x => { x with divergent := d })

/-- The partition and its clusters with the outcome of the comparison. -/
def State.compared (s : State) (n : Nat) (ready agreed : Bool) : State :=
  if ready then
    ((s.part n).cfg.clusters.foldl (fun v c => v.diverge (!agreed) c) s).updPart n (fun q => { q with divergent := !agreed, lastDigestOk := agreed })
  else s.updPart n (fun q => { q with lastDigestOk := false })

/-- The record of a shard that disagrees with the majority (R259). -/
def State.divergenceRecord (s : State) (n : Nat) (w : Sweep) : ErrRec :=
  { cls := 0x06, cause := 0x02, unit := unitCode .exchange, loc := BitVec.ofNat 32 (clusterDie ((s.part n).cfg.clusters.headD 0)),
    addr := w.step, detail := BitVec.ofNat 64 (s.part n).shardDigest }

/-- The state after the comparison, the divergence recorded. -/
def State.exchanged (s : State) (n : Nat) (w : Sweep) (ready agreed : Bool) : State :=
  if ready && !agreed then (s.compared n ready agreed).post (s.divergenceRecord n w) [n] else s.compared n ready agreed

/-- What the comparison of digests leaves. -/
structure Compared (s t : State) (n : Nat) (ready agreed : Bool) : Prop where
  part : ∃ d, t.part n = { s.part n with divergent := d, lastDigestOk := ready && agreed }
  map : SameMap s t
  units : ∀ k ∈ (s.part n).cfg.clusters, (t.cluster k).divergent = if ready then !agreed else (s.cluster k).divergent
  net : t.net = s.net
  tx : t.tx = s.tx
  mem : t.mem = s.mem

theorem State.cluster_diverge_same (s : State) (d : Bool) (c : Nat) : (s.diverge d c).cluster c = { s.cluster c with divergent := d } :=
  s.cluster_updCluster_same c _

theorem State.cluster_diverge_ne (s : State) (d : Bool) {c k : Nat} (h : k ≠ c) : (s.diverge d c).cluster k = s.cluster k :=
  s.cluster_updCluster_ne c _ h

theorem compared_compares (s : State) (n : Nat) (ready agreed : Bool) : Compared s (s.compared n ready agreed) n ready agreed := by
  unfold State.compared
  cases ready with
  | false =>
    rw [if_neg (by decide)]
    exact ⟨⟨(s.part n).divergent, s.part_updPart_same n _⟩, .updPart _ _ _ ⟨rfl, rfl, rfl⟩, fun _ _ => rfl, rfl, rfl, rfl⟩
  | true =>
    rw [if_pos rfl]
    have hunits : ∀ k ∈ (s.part n).cfg.clusters,
        (((s.part n).cfg.clusters.foldl (fun v c => v.diverge (!agreed) c) s).cluster k).divergent = !agreed := fun k hk =>
      cluster_of_foldl (Q := fun x => x.divergent = !agreed) (fun v c => by rw [v.cluster_diverge_same])
        (fun v c k h => v.cluster_diverge_ne _ h) _ s hk
    have hrest : (s.part n).cfg.clusters.foldl (fun v c => v.diverge (!agreed) c) s
        = { s with clusters := ((s.part n).cfg.clusters.foldl (fun v c => v.diverge (!agreed) c) s).clusters } :=
      List.foldlRecOn (motive := fun v : State => v = { s with clusters := v.clusters }) _ _ rfl (fun v hv c _ => by rw [hv]; rfl)
    generalize (s.part n).cfg.clusters.foldl (fun v c => v.diverge (!agreed) c) s = v at hunits hrest ⊢
    have hparts : v.parts = s.parts := (congrArg State.parts hrest :)
    have hnet : v.net = s.net := (congrArg State.net hrest :)
    have htx : v.tx = s.tx := (congrArg State.tx hrest :)
    have hmem : v.mem = s.mem := (congrArg State.mem hrest :)
    refine ⟨⟨!agreed, ?_⟩, (SameMap.of_parts hparts).trans (.updPart _ _ _ ⟨rfl, rfl, rfl⟩), hunits, hnet, htx, hmem⟩
    rw [State.part_updPart_same, State.part_of_parts hparts, Bool.true_and]

theorem exchanged_compares (s : State) (n : Nat) (w : Sweep) (ready agreed : Bool) : Compared s (s.exchanged n w ready agreed) n ready agreed := by
  have h := compared_compares s n ready agreed
  unfold State.exchanged
  split
  · have hpost : BesidesReports (s.compared n ready agreed) ((s.compared n ready agreed).post (s.divergenceRecord n w) [n]) := post_reports ..
    generalize (s.compared n ready agreed).post (s.divergenceRecord n w) [n] = v at hpost
    refine ⟨?_, h.map.trans (.of_parts hpost.parts), ?_, ?_, ?_, ?_⟩
    · rw [hpost.part]; exact h.part
    · intro k hk
      unfold State.cluster
      rw [hpost.clusters]
      exact h.units k hk
    · exact (congrArg State.net hpost :).trans h.net
    · exact (congrArg State.tx hpost :).trans h.tx
    · exact hpost.mem.trans h.mem
  · exact h

/-- The exchange of digests is due and the partition has a plan. -/
structure ExchangeDue (s : State) (n : Nat) (w : Sweep) (pl : Plan) : Prop where
  live : s.live = true
  sweep : (s.part n).sweep = some w
  due : w.digestDue = true
  plan : (s.part n).plan = some pl
  recovered : n ∉ s.tx.recovering

theorem exec_digestExchange {pl : Plan} (h : ExchangeDue s n w pl) (others : List PeerDigest) :
    let u := s.exchanged n w (s.digestReady n) (s.agrees n others)
    exec (.digestExchange n others) s = .next
      ((u.writeDev n (u.leadCore n) pl.report (digestReport w.step (s.part n).shardDigest (s.digestReady n) (s.agrees n others))
        false).endSweep n w) := by
  intro u
  change execDigestExchange n others s = _
  unfold execDigestExchange
  dsimp only
  rw [h.sweep, h.plan]
  dsimp only
  rw [if_neg (by simp [h.live, h.due, h.recovered])]
  have hstatus : (if (!s.digestReady n) = true then (0x02 : Byte) else if majority (s.digestsHeld n others) = some (s.part n).shardDigest
      then 0x00 else 0x01) = (if s.digestReady n = false then 0x02 else if s.agrees n others then 0x00 else 0x01) :=
    if_congr (by rw [Bool.not_eq_true']) rfl (if_congr (decide_eq_true_iff ..).symm rfl rfl)
  unfold digestReport
  rw [← hstatus]
  rfl

theorem digestExchange_ends {pl : Plan} (h : ExchangeDue s n w pl) (hreplay : (s.part n).replay = none) (others : List PeerDigest) :
    let ready := s.digestReady n
    let agreed := s.agrees n others
    Completes (exec (.digestExchange n others) s) (fun t =>
      (t.part n).sweep = none ∧ (t.part n).lastCompleted = w.step ∧ (t.part n).lastDigestOk = (ready && agreed)
      ∧ (∀ k ∈ (s.part n).cfg.clusters, (t.cluster k).sw = (s.part n).restState w.step
          ∧ (t.cluster k).divergent = (if ready then !agreed else (s.cluster k).divergent))
      ∧ ((∀ m, (s.serve m).queue = []) → t.mem = Memory.putAll s.mem
          (List.zip (s.keysOf n (s.leadCore n) pl.report 64) (digestReport w.step (s.part n).shardDigest ready agreed)))) := by
  intro ready agreed
  rw [exec_digestExchange h]
  refine .next ?_
  have hcompared : Compared s (s.exchanged n w ready agreed) n ready agreed := exchanged_compares ..
  generalize s.exchanged n w ready agreed = u at hcompared ⊢
  have hlead : u.leadCore n = s.leadCore n := by
    unfold State.leadCore State.leadOf
    rw [(hcompared.map n).2.2]
  rw [hlead]
  have hmem := u.writeDev_mem n (s.leadCore n) pl.report (digestReport w.step (s.part n).shardDigest ready agreed) false
  rw [digestReport_length, hcompared.mem, ← hcompared.map.keysOf] at hmem
  have hwrites := writeDev_writes u n (s.leadCore n) pl.report (digestReport w.step (s.part n).shardDigest ready agreed) false
  generalize u.writeDev n (s.leadCore n) pl.report (digestReport w.step (s.part n).shardDigest ready agreed) false = v at hmem hwrites
  obtain ⟨d, hpart⟩ := hcompared.part
  have hvpart : v.part n = { s.part n with divergent := d, lastDigestOk := ready && agreed, stale := (v.part n).stale } := by
    rw [hwrites.stale n, hpart]
  have hends : SweepEnds v (v.endSweep n w) n w :=
    endSweep_ends (by rw [hvpart]; exact hreplay) (by rw [hwrites.tx, hcompared.tx]; exact h.recovered)
  obtain ⟨hsweep, hlast, hok, -⟩ := (v.part n).sweepOver_planTurned w.step
  refine ⟨?_, ?_, ?_, fun k hk => ?_, fun hqueues => ?_⟩
  · rw [hends.part, hsweep]
  · rw [hends.part, hlast]
  · rw [hends.part, hok, hvpart]
  · obtain ⟨hsw, hdivergent⟩ := hends.units k (by rw [hvpart]; exact hk)
    refine ⟨?_, ?_⟩
    · rw [hsw, hvpart]
      rfl
    · rw [hdivergent, ← hcompared.units k hk]
      unfold State.cluster
      rw [hwrites.clusters]
  · rw [hends.mem, hmem]
    intro m
    unfold State.serve at hqueues ⊢
    rw [hwrites.net, hcompared.net]
    exact hqueues m

/-! ### DIGEST_RECOMPUTE (R257) -/

theorem digestRecompute_computes {entry : Nat} (hlive : s.live = true) (hstale : entry ∈ (s.part n).stale) :
    Completes (exec (.digestRecompute n entry) s) (fun t => t = { s with parts := t.parts, tiers := t.tiers }
      ∧ (t.part n).stale = (s.part n).stale.filter (· ≠ entry) ∧ (t.part n).digests = (s.part n).digests.set entry (s.entryDigest n entry)) := by
  change Completes (execDigestRecompute n entry s) _
  unfold execDigestRecompute
  rw [if_pos (by simp [hlive, hstale])]
  refine .next ?_
  rw [State.served_tiers]
  refine ⟨rfl, ?_⟩
  rw [State.part_updPart_same]
  exact ⟨rfl, rfl⟩

end

/-- Settles O35: a sweep's end goes on to `endSweep_ends`, at once or behind the exchange, in which a quarantined partition takes no
part (log entry 63); a digest is that of the committed bytes (log entry 33). -/
theorem sweepsComplete : Obligations.SweepsComplete := by
  unfold Obligations.SweepsComplete
  intro s n w hlive q me after
  exact ⟨fun hsweep hrun hdue hrec hdone hreplay => sweepComplete_completes ⟨hlive, hsweep, hrun, hdue, hrec, hdone, hreplay⟩,
    fun pl others hsweep hdue hplan hreplay hrec => digestExchange_ends ⟨hlive, hsweep, hdue, hplan, hrec⟩ hreplay others,
    fun entry hstale => digestRecompute_computes hlive hstale⟩

end Sys2Proof.Machine
end

section
/-! PROOFS. The phases of a transaction: where a die's next record goes, the report of a written record, the durable point and what
holds it back, retirement (R239 to R243, R248, R253, R254). -/

namespace Sys2Proof.Machine

/-! ### Transactions that end (R154, R254, R255) -/

theorem State.tx_gateWaited (s : State) (num : Nat) : (s.gateWaited num).tx = s.tx := by
  unfold State.gateWaited
  split
  · split <;> rfl
  · rfl

theorem State.tx_dropTx (s : State) (num : Nat) : (s.dropTx num).tx = { s.tx with
    txs := s.tx.txs.filter (fun t => t.num ≠ num)
    waiting := s.tx.waiting.filter (fun r => r.tx ≠ num)
    journal := s.tx.journal.filter (fun r => r.tx ≠ num) } := by
  dsimp only [State.dropTx]
  rw [State.tx_gateWaited]

/-- The register that a stalled TXC returns its outcome in. -/
def Ctx.commitReg (c : Ctx) : BitVec 5 := match c.stalledOn with | some (.commit _ sd) => sd | _ => 0

/-- A context whose TXC has returned a code. -/
def Ctx.txReturned (c : Ctx) (sd : BitVec 5) (code : Nat) : Ctx :=
  { ({ c with tx := none, txid := 0 } : Ctx).setS sd (BitVec.ofNat 64 code) with state := .ready, stalledOn := none, pc := c.pc + 8 }

/-- The transaction of a number is gone, no byte is written. -/
structure TxGone (s t : State) (num : Nat) : Prop where
  mem : t.mem = s.mem
  txs : t.tx.txs = s.tx.txs.filter (fun y => y.num ≠ num)
  journal : t.tx.journal = s.tx.journal.filter (fun r => r.tx ≠ num)

/-- The transaction of a context is gone and its TXC has returned a code. -/
structure TxReturns (s t : State) (p : At) (num code : Nat) : Prop extends TxGone s t num where
  ctx : t.ctx p = (s.ctx p).txReturned (s.ctx p).commitReg code
  others : ∀ p', p' ≠ p → t.ctx p' = s.ctx p'

theorem dropTx_goes (s : State) (num : Nat) : TxGone s (s.dropTx num) num :=
  ⟨(State.dropTx_bytes s num).1, by rw [State.tx_dropTx], by rw [State.tx_dropTx]⟩

theorem TxGone.of_tx {s t u : State} {num : Nat} (h : TxGone s t num) (htx : u.tx = t.tx) (hmem : u.mem = t.mem) : TxGone s u num :=
  ⟨hmem.trans h.mem, by rw [htx, h.txs], by rw [htx, h.journal]⟩

theorem endTx_returns (s : State) (p : At) (num code : Nat) : TxReturns s ((s.endTx p (s.ctx p).commitReg num code).goOn p) p num code := by
  let v : State := (s.dropTx num).updCtx p (fun c => ({ c with tx := none, txid := 0 } : Ctx).setS (s.ctx p).commitReg (BitVec.ofNat 64 code))
  have hend : ∀ w, w = s.endTx p (s.ctx p).commitReg num code → w.cores = v.cores ∧ w.tx = v.tx ∧ w.mem = v.mem := by
    rintro w rfl
    unfold State.endTx
    dsimp only
    split <;> exact ⟨rfl, rfl, rfl⟩
  obtain ⟨hcores, htx, hmem⟩ := hend _ rfl
  generalize s.endTx p (s.ctx p).commitReg num code = w at hcores htx hmem
  have hctx : w.ctx p = ({ s.ctx p with tx := none, txid := 0 } : Ctx).setS (s.ctx p).commitReg (BitVec.ofNat 64 code) := by
    rw [State.ctx_of_cores hcores, State.ctx_updCtx_same, (TxOnly.dropTx s num).ctx]
  refine { toTxGone := (dropTx_goes s num).of_tx htx hmem, ctx := ?_, others := fun p' hp' => ?_ }
  · have hpc (c : Ctx) (r : BitVec 5) (x : Word) : (c.setS r x).pc = c.pc := by rw [Ctx.setS_eq]
    unfold State.goOn
    rw [State.ctx_updCtx_same, hctx, hpc]
    rfl
  · unfold State.goOn
    rw [State.ctx_updCtx_ne _ _ hp', State.ctx_of_cores hcores, State.ctx_updCtx_ne _ _ hp', (TxOnly.dropTx s num).ctx]

/-! ### JOURNAL_RECORD_PLACE (R243) -/

section
variable {s : State}

/-- A record behind its pad does not cross the ring's end. -/
theorem State.padFor_fits (s : State) (d : Nat) {len : Nat} (h : len ≤ ringBytes) :
    (s.ringHead d + s.padFor d len) % ringBytes + len ≤ ringBytes := by
  have hpos : 0 < ringBytes := by decide
  have hlt := Nat.mod_lt (s.ringHead d) hpos
  unfold State.padFor
  dsimp only
  split
  · have hround : (s.ringHead d + (ringBytes - s.ringHead d % ringBytes)) % ringBytes = 0 := by
      have hsplit := Nat.div_add_mod (s.ringHead d) ringBytes
      rw [show s.ringHead d + (ringBytes - s.ringHead d % ringBytes) = ringBytes * (s.ringHead d / ringBytes + 1) by
        rw [Nat.mul_add, Nat.mul_one]; omega, Nat.mul_mod_right]
    omega
  · rw [Nat.add_zero]
    omega

theorem exec_journalRecordPlace {die : Nat} {r : JRec} {rest : List JRec} (hlive : s.live = true)
    (hmine : s.tx.waiting.filter (fun x => x.die = die) = r :: rest) (hroom : s.hasRoom r = true) :
    exec (.journalRecordPlace die) s = .next (State.placeRec { s with tx := { s.tx with
      waiting := dropFirst (fun x => x.die = die && x.tx = r.tx && x.type = r.type) s.tx.waiting } } r) := by
  change execJournalRecordPlace die s = _
  unfold execJournalRecordPlace
  dsimp only
  rw [hmine, List.find?_cons_of_pos (by simp [hroom])]
  dsimp only
  rw [if_neg (by simp [hlive])]

theorem journalRecordPlace_places {die : Nat} {r : JRec} {rest : List JRec} (hlive : s.live = true)
    (hmine : s.tx.waiting.filter (fun x => x.die = die) = r :: rest) (hroom : s.hasRoom r = true) :
    Completes (exec (.journalRecordPlace die) s) (fun t => t = { s with tx := t.tx } ∧ t.tx.txs = s.tx.txs
      ∧ t.tx.heads.get 0 die = s.tx.heads.get 0 die + s.padFor die r.len + r.len
      ∧ ∃ x ∈ t.tx.journal, x.tx = r.tx ∧ x.type = r.type ∧ x.die = die ∧ x.state = .writing ∧ x.len = r.len
        ∧ x.off = s.tx.heads.get 0 die + s.padFor die r.len ∧ (r.len ≤ ringBytes → x.off % ringBytes + x.len ≤ ringBytes)) := by
  have hr : r ∈ s.tx.waiting.filter (fun x => x.die = die) := hmine ▸ List.mem_cons_self
  have hdie : r.die = die := of_decide_eq_true (List.mem_filter.mp hr).2
  rw [exec_journalRecordPlace hlive hmine hroom]
  subst hdie
  refine .next ⟨rfl, rfl, Tab.get_set_same .., _, List.mem_append_right _ (List.mem_singleton_self _), rfl, rfl, rfl, rfl, rfl, rfl,
    s.padFor_fits r.die⟩

/-! ### TX_PREPARED (R239) -/

/-- A record of a transaction whose records have changed. -/
theorem State.of_mem_updRecs {num : Nat} {f : JRec → JRec} {r : JRec} (hf : ∀ r, (f r).tx = r.tx ∧ (f r).type = r.type)
    (hr : r ∈ (s.updRecs num f).tx.journal) (htx : r.tx = num) (htype : r.type ≠ 4) :
    ∃ r₀ ∈ s.tx.journal, r = f r₀ ∧ r₀.tx = num := by
  obtain ⟨r₀, hmem, rfl⟩ := List.mem_map.mp hr
  by_cases h : (r₀.tx = num && r₀.type ≠ 4) = true
  · rw [if_pos h] at *
    exact ⟨r₀, hmem, rfl, (hf r₀).1 ▸ htx⟩
  · rw [if_neg h] at htx htype
    exact absurd (by simp [htx, htype]) h

/-- A transaction that has changed. -/
theorem State.of_mem_updTxn {num : Nat} {f : Tx → Tx} {x : Tx} (hx : x ∈ (s.updTxn num f).tx.txs) (hnum : x.num = num) :
    ∃ x₀ ∈ s.tx.txs, x = f x₀ ∧ x₀.num = num := by
  obtain ⟨x₀, hmem, rfl⟩ := List.mem_map.mp hx
  by_cases h : x₀.num = num
  · rw [if_pos h]
    exact ⟨x₀, hmem, rfl, h⟩
  · rw [if_neg h] at hnum
    exact absurd hnum h

theorem txPrepared_reports {tx die : Nat} (bad : Bool) (hlive : s.live = true)
    (hwritten : s.tx.journal.any (fun r => r.tx = tx && r.die = die && r.type ≤ 2 && r.state = .writing) = true) :
    Completes (exec (.txPrepared tx die bad) s) (fun t => t = { s with tx := t.tx }
      ∧ (∀ r ∈ t.tx.journal, r.tx = tx → r.die = die → r.type ≤ 2 → r.state = .prepared)
      ∧ ∀ x ∈ t.tx.txs, x.num = tx → die ∈ x.prepared ∧ (bad = true → x.badRedo = true)) := by
  change Completes (execTxPrepared tx die bad s) _
  unfold execTxPrepared
  rw [if_pos (by rw [hlive, hwritten]; rfl)]
  refine .next ⟨rfl, fun r hr htx hdie htype => ?_, fun x hx hnum => ?_⟩
  · obtain ⟨r₀, -, rfl, -⟩ := State.of_mem_updRecs (s := s) (fun r => by split <;> exact ⟨rfl, rfl⟩) hr htx (by omega)
    have hsame (r : JRec) : (if r.die = die && r.type ≤ 2 then { r with state := JState.prepared } else r).die = r.die
        ∧ (if r.die = die && r.type ≤ 2 then { r with state := JState.prepared } else r).type = r.type := by
      split <;> exact ⟨rfl, rfl⟩
    rw [(hsame r₀).1] at hdie
    rw [(hsame r₀).2] at htype
    rw [if_pos (by simp [hdie, htype])]
  · obtain ⟨x₀, -, rfl, -⟩ := State.of_mem_updTxn hx hnum
    exact ⟨mem_addOnce .., fun hbad => by rw [hbad]; exact Bool.or_true _⟩

/-! ### TX_DURABLE_POINT (R239 to R242, R253, R254, R288, R513) -/

/-- Whether a version word that a transaction checks has changed since it was read. -/
def State.versionChanged (s : State) (x : Tx) : Bool := x.checks.any (fun c => s.commitCount x.part c.1 ≠ c.2)

/-- The code that a transaction fails with at its durable point, where one applies. -/
def State.failCode (s : State) (x : Tx) : Option Nat :=
  if x.badRedo && !x.origin.ofContext then some 5
  else if s.versionChanged x then some 1
  else if x.origin.ofContext then s.txCode x else none

/-- What becomes of a transaction at its durable point that no code applies to. -/
def State.durablePoint (s : State) (x : Tx) : State :=
  if !s.txFits x then s
  else if !s.gateOpen then s.updTxn x.num (fun y => { y with gateSince := some (y.gateSince.getD s.now) })
  else s.makeDurable x

/-- A transaction is at its durable point and nothing makes it wait. -/
structure AtDurablePoint (s : State) (tx : Nat) (x : Tx) : Prop where
  live : s.live = true
  found : s.txn tx = some x
  recovered : x.part ∉ s.tx.recovering
  prepared : s.allPrepared x = true
  first : s.txMustWait x = false

theorem State.num_of_txn {tx : Nat} {x : Tx} (h : s.txn tx = some x) : x.num = tx := by
  simpa using List.find?_some h

variable {tx : Nat} {x : Tx}

theorem exec_txDurablePoint (h : AtDurablePoint s tx x) :
    exec (.txDurablePoint tx) s = .next ((s.failCode x).elim (s.durablePoint x) (s.failTx x)) := by
  have hnum := State.num_of_txn h.found
  subst hnum
  change execTxDurablePoint x.num s = _
  unfold execTxDurablePoint State.failCode State.durablePoint State.versionChanged
  rw [h.found]
  dsimp only
  rw [if_neg (by simp [h.live, h.recovered, h.prepared, h.first])]
  congr 1
  cases x.origin with
  | context p =>
    simp only [TxOrigin.ofContext, Bool.not_true, Bool.and_false, Bool.false_eq_true, if_false, if_true]
    split
    · rfl
    · cases s.txCode x <;> rfl
  | _ =>
    simp only [TxOrigin.ofContext, Bool.not_false, Bool.and_true, Bool.false_eq_true, if_false]
    split
    · rfl
    · split <;> rfl

theorem TxOrigin.ofContext_false {o : TxOrigin} (h : ∀ p, o ≠ .context p) : o.ofContext = false := by
  cases o with
  | context p => exact absurd rfl (h p)
  | _ => rfl

theorem failCode_of_unit (hunit : ∀ p, x.origin ≠ .context p) (h : x.badRedo = true ∨ s.versionChanged x = true) :
    ∃ c, s.failCode x = some c := by
  unfold State.failCode
  rw [TxOrigin.ofContext_false hunit]
  rcases h with h | h
  · exact ⟨5, by simp [h]⟩
  · rw [h]
    split
    · exact ⟨5, rfl⟩
    · exact ⟨1, rfl⟩

theorem failCode_of_context {p : At} (hcontext : x.origin = .context p) (hsame : s.versionChanged x = false) : s.failCode x = s.txCode x := by
  unfold State.failCode
  simp [hcontext, hsame, TxOrigin.ofContext]

theorem failCode_none (hgood : ((∀ p, x.origin ≠ .context p) ∧ x.badRedo = false) ∨ ((∃ p, x.origin = .context p) ∧ s.txCode x = none))
    (hsame : s.versionChanged x = false) : s.failCode x = none := by
  rcases hgood with ⟨hunit, hgood⟩ | ⟨⟨p, hcontext⟩, hcode⟩
  · unfold State.failCode
    simp [hgood, hsame, TxOrigin.ofContext_false hunit]
  · rw [failCode_of_context hcontext hsame, hcode]

/-- A unit's transaction that fails is gone, its work to be done again. -/
theorem failTx_goes (hunit : ∀ p, x.origin ≠ .context p) (himport : x.origin ≠ .imported) (code : Nat) :
    TxGone s (s.failTx x code) x.num := by
  have hdrop := dropTx_goes s x.num
  unfold State.failTx
  cases horigin : x.origin with
  | context p => exact absurd horigin (hunit p)
  | imported => exact absurd horigin himport
  | sweep e b => exact hdrop.of_tx rfl rfl
  | permute coll first count => exact hdrop.of_tx rfl rfl
  | resalt table group => exact hdrop
  | background => exact hdrop

/-- An import's transaction is prepared again. -/
theorem failTx_imported (himport : x.origin = .imported) (code : Nat) : let t := s.failTx x code
    t.mem = s.mem ∧ ∃ y ∈ t.tx.txs, y.num = x.num ∧ y.phase = .preparing ∧ y.badRedo = false ∧ y.entries = x.entries := by
  unfold State.failTx
  rw [himport]
  exact ⟨(dropTx_goes s x.num).mem, _, List.mem_append_right _ (List.mem_singleton_self _), rfl, rfl, rfl, rfl⟩

/-- The TXC of a context's transaction that fails returns the code. -/
theorem failTx_returns {p : At} (hcontext : x.origin = .context p) (code : Nat) : TxReturns s (s.failTx x code) p x.num code := by
  unfold State.failTx
  rw [hcontext]
  exact endTx_returns s p x.num code

/-! ### The durable mark (R239, R240) -/

/-- Neither bytes nor transactions have changed. -/
def SameTx (s t : State) : Prop := t.mem = s.mem ∧ t.tx = s.tx

theorem SameTx.refl (s : State) : SameTx s s := ⟨rfl, rfl⟩

theorem SameTx.trans {s t u : State} (h : SameTx s t) (k : SameTx t u) : SameTx s u := ⟨k.1.trans h.1, k.2.trans h.2⟩

theorem SameTx.foldl {α : Type} {f : State → α → State} (hf : ∀ v a, SameTx v (f v a)) (l : List α) (s : State) : SameTx s (l.foldl f s) :=
  List.foldlRecOn (motive := fun v => SameTx s v) l f (.refl s) (fun v hv a _ => hv.trans (hf v a))

theorem BesidesReports.sameTx {s t : State} (h : BesidesReports s t) : SameTx s t := ⟨h.mem, (congrArg State.tx h :)⟩

theorem redigest_sameTx (s : State) (n : Nat) (l : List Nat) : SameTx s (s.redigest n l) :=
  .foldl (fun v i => by
    split
    · exact .refl v
    · exact .refl v) l s

theorem countTable_sameTx (s : State) (n t i k : Nat) : SameTx s (s.countTable n t i k) := ⟨rfl, rfl⟩

theorem sweepCounts_sameTx (s : State) (x : Tx) (e : Nat) : SameTx s (s.sweepCounts x e) := by
  unfold State.sweepCounts
  extract_lets table counted clamped
  have hclamped : SameTx counted clamped := .foldl (fun v c => countTable_sameTx v ..) _ _
  have hcounted : SameTx s counted := ⟨rfl, rfl⟩
  exact (hcounted.trans hclamped).trans (.foldl (fun _ _ => (post_reports ..).sameTx) _ _)

theorem committed_sameTx (s : State) (x : Tx) : SameTx s (s.committed x) := by
  unfold State.committed
  split
  · exact sweepCounts_sameTx (s.updPart ..) ..
  · exact ⟨rfl, rfl⟩
  · exact .refl s

theorem served_frame (s : State) (ks : List Nat) (cls : Nat) : SameTx s (s.served ks cls) ∧ (s.served ks cls).parts = s.parts := by
  rw [State.served_tiers]
  exact ⟨⟨rfl, rfl⟩, rfl⟩

theorem refreshCopies_sameTx (s : State) (n t : Nat) (ks : List Nat) : SameTx s (s.refreshCopies n t ks) := ⟨rfl, rfl⟩

/-- Counting the chunks of fallow pools posts records and changes the tiers (R288). -/
theorem notePools_frame (s : State) (ks : List Nat) : SameTx s (s.notePools ks) ∧ (s.notePools ks).parts = s.parts := by
  have hnote (v : State) (ch : Nat) : SameTx v (v.notePool ch) ∧ (v.notePool ch).parts = v.parts := by
    have hpost (c : Bool) (v : State) (e : ErrRec) (l : List Nat) : BesidesReports v (if c then v.post e l else v) := by
      split
      · exact post_reports ..
      · exact .refl v
    unfold State.notePool
    extract_lets used pool hi top x note high full
    have hhigh : BesidesReports v high := hpost ..
    have hfull : BesidesReports high full := hpost ..
    have h := hhigh.trans hfull
    split
    · exact ⟨h.sameTx, h.parts⟩
    · exact ⟨h.sameTx, h.parts⟩
  refine List.foldlRecOn (motive := fun v : State => SameTx s v ∧ v.parts = s.parts) _ _ ⟨.refl s, rfl⟩ (fun v hv ch _ => ?_)
  exact ⟨hv.1.trans (hnote v ch).1, (hnote v ch).2.trans hv.2⟩

theorem TxOnly.txView {s t : State} (h : TxOnly s t) (x : Tx) : TxOnly (s.txView x) (t.txView x) := by
  unfold State.txView
  split
  · unfold TxOnly at *
    rw [h]
    rfl
  · exact h

theorem TxOnly.map {s t : State} (h : TxOnly s t) : SameMap s t := .of_parts (congrArg State.parts h :)

theorem txView_objects (s : State) (x : Tx) (m : Nat) : ((s.txView x).part m).objects = (s.part m).objects := by
  unfold State.txView
  split
  · by_cases hm : m = x.part
    · subst hm
      rw [State.part_updPart_same]
    · rw [State.part_updPart_ne _ _ _ hm]
  · rfl

theorem State.tx_txView (s : State) (x : Tx) : (s.txView x).tx = s.tx := by
  unfold State.txView
  split <;> rfl

/-- A transaction that another one's applied granules may conflict with (R253). -/
def Tx.meets (y : Tx) (num : Nat) (g : List Nat) : Tx :=
  if y.num ≠ num && (y.phase = .opened || y.phase = .preparing) then { y with others := (y.others ++ g).dedup } else y

theorem Tx.meets_keeps (y : Tx) (num : Nat) (g : List Nat) : (y.meets num g).num = y.num ∧ (y.meets num g).phase = y.phase := by
  unfold Tx.meets
  split <;> exact ⟨rfl, rfl⟩

/-- The transactions that are open or being prepared learn of an applied one's granules (R253). -/
def TxState.conflicting (tx : TxState) (num : Nat) (g : List Nat) : TxState := { tx with txs := tx.txs.map (·.meets num g) }

/-- A transaction's writes reach their homes, and those that conflict with it learn of it (R239, R253). -/
theorem applyTx_writes (hmirrors : ∀ m, (s.part m).objects.any (fun o => o.2.mirrorOf.isSome) = false) (l : List JEntry) :
    (s.applyTx x l).mem = ((s.txView x).writeEntries x.part l).mem ∧ ∃ g, (s.applyTx x l).tx = s.tx.conflicting x.num g := by
  unfold State.applyTx
  extract_lets written ks noted mirrored g tx marked copied cover
  have hwritten : BesidesBytes (s.txView x) written := writeEntries_besidesBytes ..
  have hnoted : SameTx written noted ∧ noted.parts = written.parts := by
    have hserved := served_frame written ks (if x.origin = .imported then 2 else written.classOf x.part)
    have hpools := notePools_frame (written.served ks (if x.origin = .imported then 2 else written.classOf x.part)) ks
    exact ⟨hserved.1.trans hpools.1, hpools.2.trans hserved.2⟩
  have hmirrored : mirrored = noted := by
    have hnone : ∀ m, (noted.part m).objects.any (fun o => o.2.mirrorOf.isSome) = false := fun m => by
      rw [State.part_of_parts hnoted.2, State.part_of_parts hwritten.parts, txView_objects]
      exact hmirrors m
    exact List.foldlRecOn (motive := fun v => v = noted) l _ rfl (fun v hv e _ => by rw [hv, State.writeMirrors_none hnone])
  have hcopied : SameTx marked copied := .foldl (fun v tn => refreshCopies_sameTx v ..) _ _
  have hmarked : marked.mem = written.mem ∧ marked.tx = s.tx.conflicting x.num g := by
    have hmirroredTx : mirrored.tx = s.tx := by rw [hmirrored, hnoted.1.2, hwritten.tx, State.tx_txView]
    have htx : marked.tx = mirrored.tx.conflicting x.num g := rfl
    have hmem : marked.mem = mirrored.mem := rfl
    rw [htx, hmem, hmirroredTx, hmirrored, hnoted.1.1]
    exact ⟨rfl, rfl⟩
  split
  · exact ⟨hcopied.1.trans hmarked.1, g, hcopied.2.trans hmarked.2⟩
  · have hdigested := redigest_sameTx copied x.part cover
    exact ⟨(hdigested.1.trans hcopied.1).trans hmarked.1, g, (hdigested.2.trans hcopied.2).trans hmarked.2⟩

/-- The records of a transaction with their durable mark, its writes to their die with them. -/
def State.durableRec (s : State) (x : Tx) (r : JRec) : JRec :=
  { r with state := .durable }.withEntries (if r.type = 3 then [] else (((s.txView x).finalEntries x).map ((s.txView x).entryOn x.part r.die)).flatten)

/-- The state whose transaction and records carry the durable mark. -/
def State.markDurable (s : State) (x : Tx) : State :=
  ((s.gateWaited x.num).updRecs x.num (s.durableRec x)).updTxn x.num (fun y => { y with phase := .durable, gateSince := none })

theorem State.makeDurable_eq (s : State) (x : Tx) :
    s.makeDurable x = ((s.markDurable x).applyTx x ((s.txView x).finalEntries x)).committed x := rfl

/-- At the durable point the writes are at their homes, records and transaction durable (R239). -/
theorem makeDurable_writes (hmirrors : ∀ m, (s.part m).objects.any (fun o => o.2.mirrorOf.isSome) = false) : let t := s.makeDurable x
    t.mem = ((s.txView x).writeEntries x.part ((s.txView x).finalEntries x)).mem
      ∧ (∀ r ∈ t.tx.journal, r.tx = x.num → r.type ≠ 4 → r.state = .durable) ∧ ∀ y ∈ t.tx.txs, y.num = x.num → y.phase = .durable := by
  intro t
  have hmark : TxOnly s (s.markDurable x) := (TxOnly.gateWaited s x.num).trans rfl
  have hview := hmark.txView x
  obtain ⟨hmem, g, htx⟩ := applyTx_writes (s := s.markDurable x) (x := x)
    (fun m => by rw [State.part_of_parts (congrArg State.parts hmark :)]; exact hmirrors m) ((s.txView x).finalEntries x)
  obtain ⟨hcommitMem, hcommitTx⟩ := committed_sameTx ((s.markDurable x).applyTx x ((s.txView x).finalEntries x)) x
  have ht : t = ((s.markDurable x).applyTx x ((s.txView x).finalEntries x)).committed x := s.makeDurable_eq x
  have htxs : t.tx = (s.markDurable x).tx.conflicting x.num g := by rw [ht, hcommitTx, htx]
  refine ⟨?_, fun r hr hnum htype => ?_, fun y hy hnum => ?_⟩
  · rw [ht, hcommitMem, hmem]
    exact State.writeEntries_mem_congr hview.map (congrArg State.mem hview :) x.part _
  · rw [htxs] at hr
    obtain ⟨r₀, -, rfl, -⟩ := State.of_mem_updRecs (s := s.gateWaited x.num) (f := s.durableRec x) (fun _ => ⟨rfl, rfl⟩) hr hnum htype
    rfl
  · rw [htxs] at hy
    obtain ⟨y₁, hy₁, rfl⟩ := List.mem_map.mp hy
    obtain ⟨hsameNum, hsamePhase⟩ := y₁.meets_keeps x.num g
    rw [hsamePhase]
    rw [hsameNum] at hnum
    obtain ⟨y₀, -, rfl, -⟩ := State.of_mem_updTxn hy₁ hnum
    rfl

/-! ### TX_RETIRE (R239, R254, R262) -/

theorem importNext_keeps (s : State) (n : Nat) : let t := s.importNext n
    t.mem = s.mem ∧ t.tx.journal = s.tx.journal ∧ ∀ y ∈ t.tx.txs, y ∈ s.tx.txs ∨ y.num = s.tx.nextTx := by
  intro t
  refine ⟨(State.importNext_bytes s n).1, ?_⟩
  dsimp only [t, State.importNext]
  split
  · exact ⟨rfl, fun y hy => .inl hy⟩
  · next x _ =>
    split
    · have htx : (State.complete (s.updPart n (fun q => { q with importing := none })) x.cmd 0 0 (BitVec.ofNat 64 x.sections)).tx = s.tx :=
        (congrArg State.tx (complete_reports ..) :)
      rw [htx]
      exact ⟨rfl, fun y hy => .inl hy⟩
    · refine ⟨rfl, fun y hy => ?_⟩
      rcases List.mem_append.mp hy with hy | hy
      · exact .inl (List.mem_filter.mp hy).1
      · exact .inr (by rw [List.mem_singleton.mp hy]; rfl)

theorem exec_txRetire (hlive : s.live = true) (hfound : s.txn tx = some x) (hdurable : x.phase = .durable) :
    exec (.txRetire tx) s = .next ((s.freeRecs tx).retireTx x) := by
  change execTxRetire tx s = _
  unfold execTxRetire
  rw [hfound]
  dsimp only
  rw [if_pos (by simp [hlive, hdurable])]

/-- The records of a transaction are free (R239). -/
theorem State.freeRecs_eq (s : State) (num : Nat) : s.freeRecs num = { s with tx := { s.tx with
    journal := (s.freeRecs num).tx.journal, freed := (s.freeRecs num).tx.freed } } := rfl

/-- A transaction that retires is gone with its records. -/
theorem retireTx_goes (hfresh : x.num < s.tx.nextTx) : let t := s.retireTx x
    t.mem = s.mem ∧ (∀ r ∈ t.tx.journal, r.tx ≠ x.num) ∧ ∀ y ∈ t.tx.txs, y.num ≠ x.num := by
  have hgone {t : State} (h : TxGone s t x.num) : t.mem = s.mem ∧ (∀ r ∈ t.tx.journal, r.tx ≠ x.num) ∧ ∀ y ∈ t.tx.txs, y.num ≠ x.num := by
    refine ⟨h.mem, fun r hr => ?_, fun y hy => ?_⟩
    · rw [h.journal] at hr
      exact of_decide_eq_true (List.mem_filter.mp hr).2
    · rw [h.txs] at hy
      exact of_decide_eq_true (List.mem_filter.mp hy).2
  unfold State.retireTx
  split
  · next p _ => exact hgone (endTx_returns s p x.num 0).toTxGone
  · obtain ⟨hmem, hjournal, htxs⟩ := importNext_keeps (s.dropTx x.num) x.part
    obtain ⟨hdmem, hdjournal, hdtxs⟩ := hgone (dropTx_goes s x.num)
    refine ⟨hmem.trans hdmem, fun r hr => hdjournal r (hjournal ▸ hr), fun y hy => ?_⟩
    rcases htxs y hy with hold | hnew
    · exact hdtxs y hold
    · rw [hnew, State.tx_dropTx]
      exact Nat.ne_of_gt hfresh
  · exact hgone (dropTx_goes s x.num)

theorem retireTx_returns {p : At} (hcontext : x.origin = .context p) : TxReturns s (s.retireTx x) p x.num 0 := by
  unfold State.retireTx
  rw [hcontext]
  exact endTx_returns s p x.num 0

theorem txRetire_retires (hlive : s.live = true) (hfound : s.txn tx = some x) (hdurable : x.phase = .durable) (hfresh : tx < s.tx.nextTx) :
    Completes (exec (.txRetire tx) s) (fun t => t.mem = s.mem ∧ (∀ r ∈ t.tx.journal, r.tx ≠ tx) ∧ (∀ y ∈ t.tx.txs, y.num ≠ tx)
      ∧ ∀ p, x.origin = .context p → t.ctx p = (s.ctx p).txReturned (s.ctx p).commitReg 0 ∧ (∀ p', p' ≠ p → t.ctx p' = s.ctx p')
        ∧ t.tx.txs = s.tx.txs.filter (fun y => y.num ≠ tx)) := by
  have hnum := State.num_of_txn hfound
  subst hnum
  rw [exec_txRetire hlive hfound hdurable]
  have hfreed := s.freeRecs_eq x.num
  generalize s.freeRecs x.num = u at hfreed
  have hmem : u.mem = s.mem := (congrArg State.mem hfreed :)
  have htxs : u.tx.txs = s.tx.txs := (congrArg (fun v : State => v.tx.txs) hfreed :)
  have hnext : u.tx.nextTx = s.tx.nextTx := (congrArg (fun v : State => v.tx.nextTx) hfreed :)
  have hctx : ∀ p, u.ctx p = s.ctx p := State.ctx_of_cores (congrArg State.cores hfreed :)
  obtain ⟨hgmem, hgjournal, hgtxs⟩ := retireTx_goes (s := u) (x := x) (by rw [hnext]; exact hfresh)
  refine .next ⟨hgmem.trans hmem, hgjournal, hgtxs, fun p hcontext => ?_⟩
  have hreturns := retireTx_returns (s := u) hcontext
  refine ⟨?_, fun p' hp' => ?_, ?_⟩
  · rw [hreturns.ctx, hctx]
  · rw [hreturns.others p' hp', hctx]
  · rw [hreturns.txs, htxs]

end

/-- Settles O36: a die's record behind its pad (`padFor_fits`), the report of a written one, the durable point by the code that applies
(`exec_txDurablePoint`; an import's bad record is prepared again, log entry 62), retirement (log entry 32). -/
theorem transactionPhases : Obligations.TransactionPhases := by
  unfold Obligations.TransactionPhases
  intro s hlive Returns
  have hreg : ∀ p m sd, (s.ctx p).stalledOn = some (.commit m sd) → (s.ctx p).commitReg = sd := fun p m sd h => by
    unfold Ctx.commitReg
    rw [h]
  have hreturns {t : State} {p : At} {x : Tx} {code : Nat} (h : TxReturns s t p x.num code) : Returns t p x code := fun m sd hstall =>
    ⟨by rw [h.ctx, hreg p m sd hstall]; rfl, h.others, h.mem, h.txs⟩
  refine ⟨fun die r rest hmine hroom => journalRecordPlace_places hlive hmine hroom,
    fun tx die bad hwritten => txPrepared_reports bad hlive hwritten, ?_, fun tx x hfound hdurable hfresh => ?_⟩
  · intro tx x hfound hrec hprep hfirst v changed
    have hnum := State.num_of_txn hfound
    subst hnum
    rw [exec_txDurablePoint ⟨hlive, hfound, hrec, hprep, hfirst⟩]
    refine ⟨fun hunit himport hbad => ?_, fun himport hbad => ?_, fun p c hcontext hsame hcode => ?_, fun hgood hsame => ?_⟩
    · obtain ⟨c, hcode⟩ := failCode_of_unit hunit hbad
      have hgone := failTx_goes (s := s) hunit himport c
      rw [hcode]
      exact .next ⟨hgone.mem, hgone.txs⟩
    · have hcode : s.failCode x = some 5 := by simp [State.failCode, himport, hbad, TxOrigin.ofContext]
      rw [hcode]
      exact .next (failTx_imported himport 5)
    · rw [failCode_of_context hcontext hsame, hcode]
      exact .next (hreturns (failTx_returns hcontext c))
    · rw [failCode_none hgood hsame]
      dsimp only [Option.elim, State.durablePoint]
      refine ⟨fun hfits => by rw [hfits]; rfl, fun hfits hgate => ?_, fun hfits hgate hmirrors => ?_⟩
      · rw [hfits, hgate]
        exact .next ⟨rfl, rfl⟩
      · rw [hfits, hgate]
        exact .next (makeDurable_writes hmirrors)
  · obtain ⟨t, hexec, hmem, hjournal, htxs, hctx⟩ := txRetire_retires hlive hfound hdurable hfresh
    refine ⟨t, hexec, hmem, fun r hr hnum => absurd hnum (hjournal r hr), htxs, fun p hcontext m sd hstall => ?_⟩
    obtain ⟨hreturned, hothers, hrest⟩ := hctx p hcontext
    exact ⟨by rw [hreturned, hreg p m sd hstall]; rfl, hothers, hmem, by rw [hrest, State.num_of_txn hfound]⟩

end Sys2Proof.Machine
end

section
/-! PROOFS. Recovery: a record that it replays, discards or finds unreadable, the transactions that it ends or prepares again, the
swath units that go on (R247 to R250, R263). -/

namespace Sys2Proof.Machine

/-! ### One record (R248, R249) -/

theorem mem_insertNat (l : List Nat) (k x : Nat) : x ∈ insertNat l k ↔ x = k ∨ x ∈ l := by
  induction l with
  | nil => simp [insertNat]
  | cons j l ih =>
    unfold insertNat
    split
    · next h => subst h; simp
    · split
      · simp
      · simp only [List.mem_cons, ih]
        tauto

theorem mem_foldl_insertNat (ks l : List Nat) (x : Nat) : x ∈ ks.foldl insertNat l ↔ x ∈ ks ∨ x ∈ l := by
  induction ks generalizing l with
  | nil => simp
  | cons k ks ih =>
    rw [List.foldl_cons, ih, mem_insertNat, List.mem_cons]
    tauto

/-- The blocks whose targets become blighted are poisoned: an entry outside every table's rows at its own bytes (R249). -/
theorem blightTargets_poisons (s : State) (n : Nat) {l : List JEntry} {e : JEntry} (he : e ∈ l) (hrows : s.rowsAt n e.addr e.data.length = [])
    {k : Nat} (hk : k ∈ s.keysOf n e.core e.addr e.data.length) : granule k ∈ (s.blightTargets n l).poison := by
  unfold State.blightTargets
  refine (mem_foldl_insertNat _ _ _).mpr (.inl (List.mem_dedup.mpr (List.mem_map.mpr ⟨k, ?_, rfl⟩)))
  refine List.mem_flatten.mpr ⟨_, List.mem_map.mpr ⟨e, he, rfl⟩, ?_⟩
  rw [hrows]
  exact hk

/-- Recovery has gone through a record: transactions and records stand, memory is laid out as it was. -/
structure RecordDone (s t : State) : Prop where
  tx : t.tx = s.tx
  map : SameMap s t

theorem RecordDone.refl (s : State) : RecordDone s s := ⟨rfl, .refl s⟩

theorem RecordDone.trans {s t u : State} (h : RecordDone s t) (k : RecordDone t u) : RecordDone s u := ⟨k.tx.trans h.tx, h.map.trans k.map⟩

theorem BesidesBytes.recordDone {s t : State} (h : BesidesBytes s t) : RecordDone s t := ⟨h.tx, h.map⟩

section
variable {s : State}

/-- A discarded record is counted (R248, R264). -/
def State.discardRec (s : State) (r : JRec) : State := s.updSw r.cluster (fun c => { c with discarded := sat64 (c.discarded + 1) })

theorem discardRec_done (s : State) (r : JRec) : RecordDone s (s.discardRec r) := ⟨rfl, .refl s⟩

/-- The writes of a record that is replayed, at their homes and in mirrors. -/
def State.rewritten (s : State) (r : JRec) : State := r.entries.foldl (fun v e => v.writeMirrors r.part e) (s.writeEntries r.part r.entries)

theorem rewritten_besidesBytes (s : State) (r : JRec) : BesidesBytes s (s.rewritten r) :=
  (writeEntries_besidesBytes ..).trans (.foldl (fun v _ => writeMirrors_besidesBytes v ..) _ _)

theorem replayRec_frame (s : State) (r : JRec) : RecordDone s (s.replayRec r) ∧ (s.replayRec r).mem = (s.rewritten r).mem := by
  unfold State.replayRec
  extract_lets ks written counted
  have hwritten : RecordDone s written := (rewritten_besidesBytes s r).recordDone
  have hcounted : RecordDone written counted := ⟨rfl, .refl _⟩
  have hcopied : RecordDone counted ((counted.tablesOf r.part r.entries).foldl (fun v tn => v.refreshCopies r.part tn ks) counted)
      ∧ ((counted.tablesOf r.part r.entries).foldl (fun v tn => v.refreshCopies r.part tn ks) counted).mem = counted.mem :=
    List.foldlRecOn (motive := fun v : State => RecordDone counted v ∧ v.mem = counted.mem) _ _ ⟨.refl _, rfl⟩ (fun v hv tn _ =>
      ⟨hv.1.trans (refreshCopies_besidesBytes ..).recordDone, hv.2⟩)
  exact ⟨(hwritten.trans hcounted).trans hcopied.1, hcopied.2⟩

/-- A record is replayed at its homes where no object has mirrors. -/
theorem replayRec_mem (hmirrors : ∀ m, (s.part m).objects.any (fun o => o.2.mirrorOf.isSome) = false) (r : JRec) :
    (s.replayRec r).mem = (s.writeEntries r.part r.entries).mem := by
  have hparts := (writeEntries_besidesBytes s r.part r.entries).parts
  have hsame : s.rewritten r = s.writeEntries r.part r.entries :=
    List.foldlRecOn (motive := fun v => v = s.writeEntries r.part r.entries) r.entries _ rfl (fun v hv e _ => by
      rw [hv, State.writeMirrors_none]
      intro m
      rw [State.part_of_parts hparts]
      exact hmirrors m)
  rw [(replayRec_frame s r).2, hsame]

theorem lostRec_done (s : State) (r : JRec) : RecordDone s (s.lostRec r) := by
  have hpost : BesidesReports (s.blightTargets r.part r.entries) (s.lostRec r) := post_reports ..
  exact ⟨(congrArg State.tx hpost :), .of_parts hpost.parts⟩

/-- What recovery makes of one record. -/
theorem recoverRec_eq (found : List RecRead) (s : State) (r : JRec) : State.recoverRec found s r =
    if s.readable found r = false then (if r.type ≤ 2 && r.state = .durable then s.lostRec r else s.discardRec r)
    else if r.state = .writing || r.state = .free || !r.passes found then s.discardRec r
    else if 3 ≤ r.type || r.state = .applied then s
    else if r.state = .durable || (1 < r.mask.length && s.tx.journal.any (fun x => x.tx = r.tx && x.type = 3 && x.state = .durable && x.passes found))
    then s.replayRec r else s.discardRec r := by
  unfold State.recoverRec
  exact if_congr (by rw [Bool.not_eq_true']) rfl rfl

theorem recoverRec_done (found : List RecRead) (s : State) (r : JRec) : RecordDone s (State.recoverRec found s r) := by
  rw [recoverRec_eq]
  split
  · split
    · exact lostRec_done s r
    · exact discardRec_done s r
  · split
    · exact discardRec_done s r
    · split
      · exact .refl s
      · split
        · exact (replayRec_frame s r).1
        · exact discardRec_done s r

/-- A record that was never written whole, is applied or free, or holds no redo data writes nothing (R248). -/
theorem recoverRec_mem {found : List RecRead} {r : JRec} (h : r.state = .writing ∨ r.state = .applied ∨ r.state = .free ∨ 3 ≤ r.type) :
    (State.recoverRec found s r).mem = s.mem := by
  rw [recoverRec_eq]
  split
  · split
    · exact (State.lostRec_bytes s r).1
    · rfl
  · split
    · rfl
    · next hwhole =>
      simp only [Bool.or_eq_true, decide_eq_true_eq, not_or] at hwhole
      rw [if_pos (by simpa [hwhole.1.1, hwhole.1.2, or_comm] using h)]

end

/-! ### The partition's transactions (R250) -/

/-- Recovery has gone through a transaction: bytes, the partitions that recover and their clusters stay, no record joins a ring. -/
structure TxDone (s t : State) : Prop where
  mem : t.mem = s.mem
  recovering : t.tx.recovering = s.tx.recovering
  journal : ∀ r ∈ t.tx.journal, r ∈ s.tx.journal
  cfg : ∀ m, (t.part m).cfg = (s.part m).cfg

theorem TxDone.refl (s : State) : TxDone s s := ⟨rfl, rfl, fun _ h => h, fun _ => rfl⟩

theorem TxDone.trans {s t u : State} (h : TxDone s t) (k : TxDone t u) : TxDone s u where
  mem := k.mem.trans h.mem
  recovering := k.recovering.trans h.recovering
  journal := fun r hr => h.journal r (k.journal r hr)
  cfg := fun m => (k.cfg m).trans (h.cfg m)

theorem TxDone.of_tx {s t : State} (htx : t.tx = s.tx) (hmem : t.mem = s.mem) (hcfg : ∀ m, (t.part m).cfg = (s.part m).cfg) : TxDone s t :=
  ⟨hmem, by rw [htx], fun _ h => htx ▸ h, hcfg⟩

theorem BesidesReports.txDone {s t : State} (h : BesidesReports s t) : TxDone s t :=
  .of_tx (congrArg State.tx h :) h.mem (fun m => by rw [h.part])

theorem dropTx_done (s : State) (num : Nat) : TxDone s (s.dropTx num) := by
  have hparts : (s.dropTx num).parts = s.parts := (congrArg State.parts (TxOnly.dropTx s num) :)
  refine ⟨(dropTx_goes s num).mem, by rw [State.tx_dropTx], fun r hr => ?_, fun m => by rw [State.part_of_parts hparts]⟩
  rw [(dropTx_goes s num).journal] at hr
  exact (List.mem_filter.mp hr).1

theorem updPart_done (s : State) (n : Nat) (f : Part → Part) (h : (f (s.part n)).cfg = (s.part n).cfg) : TxDone s (s.updPart n f) := by
  refine .of_tx rfl rfl (fun m => ?_)
  by_cases hm : m = n
  · subst hm
    rw [State.part_updPart_same, h]
  · rw [State.part_updPart_ne _ _ _ hm]

theorem prepareTx_done (s : State) (x : Tx) : TxDone s (s.prepareTx x) := ⟨rfl, rfl, fun _ h => h, fun _ => rfl⟩

theorem openTx_done (s : State) (n coord cluster : Nat) (step : Word) (o : TxOrigin) (l : List JEntry) (checks : List (Word × Nat)) :
    TxDone s (s.openTx n coord cluster step o l checks) := ⟨rfl, rfl, fun _ h => h, fun _ => rfl⟩

theorem updCtx_done (s : State) (p : At) (f : Ctx → Ctx) : TxDone s (s.updCtx p f) := .of_tx rfl rfl (fun _ => rfl)

theorem updSw_done (s : State) (c : Nat) (f : SwCount → SwCount) : TxDone s (s.updSw c f) := .of_tx rfl rfl (fun _ => rfl)

/-- The end of a context's transaction changes contexts and counts beside. -/
theorem endTx_done (s : State) (p : At) (sd : BitVec 5) (num code : Nat) : TxDone s ((s.endTx p sd num code).goOn p) := by
  refine TxDone.trans ?_ (updCtx_done ..)
  have hdropped (f : Ctx → Ctx) : TxDone s ((s.dropTx num).updCtx p f) := (dropTx_done s num).trans (updCtx_done ..)
  unfold State.endTx
  dsimp only
  split
  · exact hdropped _
  · exact (hdropped _).trans (updSw_done ..)

theorem importNext_done (s : State) (n : Nat) : TxDone s (s.importNext n) := by
  unfold State.importNext
  split
  · exact .refl s
  · dsimp only
    split
    · exact (updPart_done s n _ (by rfl)).trans (complete_reports ..).txDone
    · exact (updPart_done s n _ (by rfl)).trans (openTx_done ..)

theorem failTx_done (s : State) (x : Tx) (code : Nat) : TxDone s (s.failTx x code) := by
  unfold State.failTx
  split
  · exact endTx_done ..
  · exact (dropTx_done s x.num).trans (updPart_done _ _ _ (by rfl))
  · exact (dropTx_done s x.num).trans (.of_tx rfl rfl (fun _ => rfl))
  · exact (dropTx_done s x.num).trans (prepareTx_done ..)
  · exact dropTx_done s x.num

theorem retireTx_done (s : State) (x : Tx) : TxDone s (s.retireTx x) := by
  unfold State.retireTx
  split
  · exact endTx_done ..
  · exact (dropTx_done s x.num).trans (importNext_done ..)
  · exact dropTx_done s x.num

theorem recoverTx_done (s : State) (x : Tx) : TxDone s (s.recoverTx x) := by
  unfold State.recoverTx
  split
  · exact .refl s
  · split
    · exact retireTx_done s x
    · split
      · exact (dropTx_done s x.num).trans (prepareTx_done ..)
      · exact (dropTx_done s x.num).trans (prepareTx_done ..)
      · exact failTx_done s x 1

/-! ### RECOVERY (R247, R248, R263) -/

theorem mem_of_dropPads {die : Nat} {l : List JRec} {r : JRec} (h : r ∈ dropPads die l) : r ∈ l := by
  induction l with
  | nil => exact h
  | cons a l ih =>
    unfold dropPads at h
    split at h
    · split at h
      · exact List.mem_cons_of_mem _ (ih h)
      · exact h
    · rcases List.mem_cons.mp h with rfl | h
      · exact List.mem_cons_self
      · exact List.mem_cons_of_mem _ (ih h)

theorem mem_of_foldl_dropPads (ds : List Nat) {l : List JRec} {r : JRec} (h : r ∈ ds.foldl (fun l d => dropPads d l) l) : r ∈ l := by
  induction ds generalizing l with
  | nil => exact h
  | cons d ds ih => exact mem_of_dropPads (ih h)

/-- The partition's records on the rings, die by die. -/
def State.recordsOf (s : State) (n : Nat) : List JRec :=
  ((List.range 8).map (fun d => s.tx.journal.filter (fun r => r.die = d && r.part = n))).flatten

theorem State.part_of_mem_recordsOf {s : State} {n : Nat} {r : JRec} (h : r ∈ s.recordsOf n) : r.part = n := by
  obtain ⟨l, hl, hr⟩ := List.mem_flatten.mp h
  obtain ⟨d, -, rfl⟩ := List.mem_map.mp hl
  exact (by simpa using (List.mem_filter.mp hr).2 : r.die = d ∧ r.part = n).2

/-- The state whose rings hold no record of the partition, which no longer recovers. -/
def State.ringsCleared (s : State) (n : Nat) (recs : List JRec) : State :=
  { s with tx := { s.tx with
    journal := (List.range 8).foldl (fun l d => dropPads d l) (s.tx.journal.filter (fun r => r.part ≠ n))
    freed := s.tx.freed ++ (recs.filter (fun (r : JRec) => r.type ≤ 2 && r.state = JState.durable)).map (fun (r : JRec) =>
      { r with state := JState.free })
    waiting := s.tx.waiting.filter (fun r => r.part ≠ n)
    recovering := s.tx.recovering.filter (· ≠ n) } }

/-- A swath unit that recovered shows what it does now. -/
def State.swResumes (s : State) (n c : Nat) : State := if (s.cluster c).sw = .recovering then s.putSw c (s.swNow n) else s

/-- The state after the records and the transactions of a partition. -/
def State.txsRecovered (s : State) (n : Nat) (found : List RecRead) : State :=
  let u := ((s.recordsOf n).foldl (State.recoverRec found) s).ringsCleared n (s.recordsOf n)
  (u.tx.txs.filter (fun x => x.part = n)).foldl State.recoverTx u

section
variable {s : State} {n : Nat} {found : List RecRead}

theorem exec_recovery (hlive : s.live = true) (hrec : n ∈ s.tx.recovering) :
    exec (.recovery ⟨n, found⟩) s = .next
      (((s.txsRecovered n found).part n).cfg.clusters.foldl (fun v c => v.swResumes n c) (s.txsRecovered n found)) := by
  change execRecovery ⟨n, found⟩ s = _
  unfold execRecovery
  dsimp only
  rw [if_neg (by simp [hlive, hrec])]
  rfl

theorem State.swNow_ne_recovering (s : State) (n : Nat) : s.swNow n ≠ .recovering := by
  unfold State.swNow
  dsimp only
  split
  · split <;> decide
  · split <;> decide

theorem State.swResumes_same (s : State) (n c : Nat) : ((s.swResumes n c).cluster c).sw ≠ .recovering := by
  unfold State.swResumes
  split
  · rw [State.cluster_putSw_same]
    exact s.swNow_ne_recovering n
  · next h => exact h

theorem State.swResumes_ne (s : State) (n : Nat) {c k : Nat} (h : k ≠ c) : (s.swResumes n c).cluster k = s.cluster k := by
  unfold State.swResumes
  split
  · exact s.cluster_putSw_ne _ h
  · rfl

theorem recordsRecovered_done (s : State) (found : List RecRead) (l : List JRec) : RecordDone s (l.foldl (State.recoverRec found) s) :=
  List.foldlRecOn (motive := fun v : State => RecordDone s v) l _ (.refl s) (fun v hv r _ => hv.trans (recoverRec_done found v r))

/-- What recovery leaves, with the state `u` after the records and its transactions gone through. -/
theorem txsRecovered_leaves (s : State) (n : Nat) (found : List RecRead) : let t := s.txsRecovered n found
    n ∉ t.tx.recovering ∧ (∀ r ∈ t.tx.journal, r.part ≠ n) ∧ t.mem = ((s.recordsOf n).foldl (State.recoverRec found) s).mem
      ∧ ∀ m, (t.part m).cfg = (s.part m).cfg := by
  intro t
  have hrecords := recordsRecovered_done s found (s.recordsOf n)
  generalize hu : (s.recordsOf n).foldl (State.recoverRec found) s = u at hrecords
  have ht : t =
      ((u.ringsCleared n (s.recordsOf n)).tx.txs.filter (fun x => x.part = n)).foldl State.recoverTx (u.ringsCleared n (s.recordsOf n)) := by
    rw [← hu]
    rfl
  have hdone : TxDone (u.ringsCleared n (s.recordsOf n)) t := by
    rw [ht]
    exact List.foldlRecOn (motive := fun v => TxDone (u.ringsCleared n (s.recordsOf n)) v) _ _ (.refl _)
      (fun v hv x _ => hv.trans (recoverTx_done v x))
  refine ⟨?_, fun r hr => ?_, hdone.mem, fun m => (hdone.cfg m).trans (hrecords.map m).2.2.symm⟩
  · rw [hdone.recovering]
    exact fun h => absurd rfl (of_decide_eq_true (List.mem_filter.mp h).2)
  · exact of_decide_eq_true (List.mem_filter.mp (mem_of_foldl_dropPads _ (hdone.journal r hr))).2

/-- The swath units that go on change clusters and their activity. -/
theorem swResumes_foldl (s : State) (n : Nat) (l : List Nat) : let t := l.foldl (fun v c => v.swResumes n c) s
    t = { s with clusters := t.clusters, power := t.power } :=
  List.foldlRecOn (motive := fun t : State => t = { s with clusters := t.clusters, power := t.power }) l _ rfl (fun v hv c _ => by
    rw [hv]
    unfold State.swResumes
    split <;> rfl)

/-- A single record whose transaction is gone leaves what its recovery left. -/
theorem txsRecovered_single (htxs : s.tx.txs.filter (fun x => x.part = n) = []) {r : JRec} (h : s.recordsOf n = [r]) :
    s.txsRecovered n found = (State.recoverRec found s r).ringsCleared n [r] := by
  unfold State.txsRecovered
  rw [h]
  dsimp only [List.foldl_cons, List.foldl_nil]
  have hsame : ((State.recoverRec found s r).ringsCleared n [r]).tx.txs = s.tx.txs := (congrArg TxState.txs (recoverRec_done found s r).tx :)
  rw [hsame, htxs]
  rfl

/-- A record that cannot be read is reported, its targets poisoned (R249). -/
theorem lostRec_reports (s : State) (r : JRec) :
    (∃ e ∈ (s.lostRec r).errs.log, e.cls = 0x02 ∧ e.cause = 0x05 ∧
        e.unit = unitCode .turf ∧ e.loc = BitVec.ofNat 32 r.die ∧ e.tag = r.tag)
      ∧ (s.lostRec r).poison = (s.blightTargets r.part r.entries).poison := by
  refine ⟨⟨_, List.mem_of_getLast? (State.post_getLast? ..), rfl, rfl, rfl, rfl, rfl⟩, ?_⟩
  have hpost : BesidesReports (s.blightTargets r.part r.entries) (s.lostRec r) := post_reports ..
  exact (congrArg State.poison hpost :)

theorem recovery_leaves (hlive : s.live = true) (hrec : n ∈ s.tx.recovering) : Completes (exec (.recovery ⟨n, found⟩) s) (fun t =>
    n ∉ t.tx.recovering ∧ (∀ r ∈ t.tx.journal, r.part ≠ n) ∧ t.mem = ((s.recordsOf n).foldl (State.recoverRec found) s).mem
      ∧ (∀ c ∈ (s.part n).cfg.clusters, (t.cluster c).sw ≠ .recovering)
      ∧ t.errs = (s.txsRecovered n found).errs ∧ t.poison = (s.txsRecovered n found).poison) := by
  rw [exec_recovery hlive hrec]
  refine .next ?_
  obtain ⟨hrecovering, hjournal, hmem, hcfg⟩ := txsRecovered_leaves s n found
  rw [hcfg]
  have hunits : ∀ c ∈ (s.part n).cfg.clusters,
      (((s.part n).cfg.clusters.foldl (fun v c => v.swResumes n c) (s.txsRecovered n found)).cluster c).sw ≠ .recovering := fun c hc =>
    cluster_of_foldl (Q := fun k => k.sw ≠ .recovering) (fun v c => v.swResumes_same n c) (fun v c k h => v.swResumes_ne n h) _ _ hc
  have hframe := swResumes_foldl (s.txsRecovered n found) n (s.part n).cfg.clusters
  dsimp only at hframe
  generalize (s.part n).cfg.clusters.foldl (fun v c => v.swResumes n c) (s.txsRecovered n found) = t at hunits hframe ⊢
  have htx : t.tx = (s.txsRecovered n found).tx := (congrArg State.tx hframe :)
  refine ⟨by rw [htx]; exact hrecovering, by rw [htx]; exact hjournal, ?_, hunits,
    (congrArg State.errs hframe :), (congrArg State.poison hframe :)⟩
  exact (congrArg State.mem hframe :).trans hmem

end

/-- Settles O37: recovery goes through records (`recoverRec_eq`), then transactions (`TxDone`), then swath units (log entry 32). -/
theorem recoveryReplays : Obligations.RecoveryReplays := by
  unfold Obligations.RecoveryReplays
  intro s n found hlive hrec recs
  obtain ⟨t, hexec, hrecovering, hjournal, hmem, hunits, herrs, hpoison⟩ := recovery_leaves (found := found) hlive hrec
  refine ⟨t, hexec, hrecovering, hjournal, hmem, hunits, fun hnone => ?_, fun r hone hdurable htype => ?_⟩
  · rw [hmem]
    exact List.foldlRecOn (motive := fun v : State => v.mem = s.mem) recs _ rfl (fun v hv r hr => by rw [recoverRec_mem (hnone r hr), hv])
  · have hrecs : s.recordsOf n = [r] := hone
    have hpart : r.part = n := State.part_of_mem_recordsOf (s := s) (by rw [hrecs]; exact List.mem_cons_self)
    rw [hrecs] at hmem
    change t.mem = (State.recoverRec found s r).mem at hmem
    refine ⟨fun hread hpass hmirrors => ?_, fun hread hfail => ?_, fun hlost htxs => ?_⟩
    · rw [hmem, recoverRec_eq, if_neg (by simp [hread]), if_neg (by simp [hdurable, hpass]), if_neg (by simp [hdurable]; omega),
        if_pos (by simp [hdurable]), replayRec_mem hmirrors, hpart]
    · rw [hmem, recoverRec_eq, if_neg (by simp [hread]), if_pos (by simp [hfail])]
      rfl
    · have hrecord : State.recoverRec found s r = s.lostRec r := by
        rw [recoverRec_eq, if_pos hlost, if_pos (by simp [htype, hdurable])]
      rw [txsRecovered_single htxs hrecs, hrecord] at herrs hpoison
      obtain ⟨hlog, htargets⟩ := lostRec_reports s r
      refine ⟨by rw [hmem, hrecord, (State.lostRec_bytes s r).1], by rw [herrs]; exact hlog, fun e he hrows k hk => ?_⟩
      rw [hpoison]
      change granule k ∈ (s.lostRec r).poison
      rw [htargets, hpart]
      exact blightTargets_poisons s n he hrows hk

end Sys2Proof.Machine
end

section
/-! PROOFS. Exports of the committed state, imports of a stream, the start and the end of a replay (R260 to R262, R295, R395 to R397,
R442, R444). -/

namespace Sys2Proof.Machine

theorem State.parts_settleSw (s : State) (n : Nat) : (s.settleSw n).parts = s.parts := (congrArg State.parts (s.settleSw_eq n) :)

/-! ### EXPORT (R260, R442) -/

/-- The `Export` that a command asks for. -/
def HostCmd.asExport (c : HostCmd) : Export :=
  ⟨BitVec.ofNat 64 (c.arg 0), if bitAt (c.arg 1) 63 then some (fld (c.arg 1) 3 0) else none, fld (c.arg 1) 9 0, BitVec.ofNat 64 (c.arg 2),
    BitVec.ofNat 32 (c.arg 3), c.ref⟩

/-- A partition with one more `Export`. -/
def Part.exporting (p : Part) (x : Export) : Part := { p with exports := p.exports ++ [x] }

/-- Whether a partition's sweep of a step after an `Export`'s has started. -/
def Part.pastStep (p : Part) (step : Word) : Bool := p.started && step.toNat < p.lastStarted.toNat

section
variable {s u : State} {q : QRef} {n : Nat} {c : HostCmd}

/-- An `Export` that names a checkpoint slot or an open connection, of a partition in training. -/
structure Exportable (u : State) (n : Nat) (c : HostCmd) : Prop where
  key : c.arg 3 < 2 ^ 32
  training : (u.part n).replay = none
  target : if bitAt (c.arg 1) 63 then fld (c.arg 1) 62 4 = 0
    else fld (c.arg 1) 62 10 = 0 ∧ (u.net.conns.find (n * 4096 + fld (c.arg 1) 9 0)).isSome = true

theorem exec_exportCmd (h : HostRuns s q 0x0E n u c) (hok : Exportable u n c) : exec (.exportCmd q) s = .next (
    if (u.part n).pastStep (BitVec.ofNat 64 (c.arg 0)) then u.fail c 0x08 0
    else
      let v := u.updPart n (·.exporting c.asExport)
      if (u.part n).sweep.isNone then v.settleSw n else v) := by
  change execExportCmd q s = _
  unfold execExportCmd
  rw [hostRow_runs h]
  congr 1
  obtain ⟨hkey, htraining, htarget⟩ := hok
  dsimp only
  rw [htraining]
  cases hslot : bitAt (c.arg 1) 63 with
  | true =>
    rw [hslot, if_pos rfl] at htarget
    rw [if_neg (by simp [htarget]; omega)]
    refine if_congr (by simp [Part.pastStep]) rfl ?_
    rw [HostCmd.asExport, hslot]
    rfl
  | false =>
    rw [hslot, if_neg (by decide)] at htarget
    obtain ⟨y, hy⟩ := Option.isSome_iff_exists.mp htarget.2
    rw [if_neg (by simp [htarget.1]; omega)]
    refine if_congr (by simp [Part.pastStep, hy]) rfl ?_
    rw [HostCmd.asExport, hslot]
    rfl

/-- An `Export` of a step that can still be read is kept. -/
theorem exportCmd_keeps (h : HostRuns s q 0x0E n u c) (hok : Exportable u n c) (hlate : (u.part n).pastStep (BitVec.ofNat 64 (c.arg 0)) = false) :
    Completes (exec (.exportCmd q) s) (fun t => t = { u with parts := t.parts, clusters := t.clusters, power := t.power }
      ∧ (t.part n) = (u.part n).exporting c.asExport ∧ (∀ m, m ≠ n → t.part m = u.part m)
      ∧ ((u.part n).sweep.isSome = true → t.clusters = u.clusters)) := by
  rw [exec_exportCmd h hok, if_neg (by simp [hlate])]
  have hsame : (u.updPart n (·.exporting c.asExport)).part n = (u.part n).exporting c.asExport := State.part_updPart_same ..
  have hother : ∀ m, m ≠ n → (u.updPart n (·.exporting c.asExport)).part m = u.part m := fun m hm => State.part_updPart_ne _ _ _ hm
  dsimp only
  refine .next ?_
  split
  · next hidle =>
    have hparts := State.part_of_parts (State.parts_settleSw (u.updPart n (·.exporting c.asExport)) n)
    refine ⟨?_, (hparts n).trans hsame, fun m hm => (hparts m).trans (hother m hm), fun hrun => ?_⟩
    · rw [State.settleSw_eq]
      rfl
    · rw [Option.isNone_iff_eq_none] at hidle
      rw [hidle] at hrun
      cases hrun
  · exact ⟨rfl, hsame, hother, fun _ => rfl⟩

/-- An `Export` of a step whose successor's sweep has started is refused. -/
theorem exportCmd_refuses (h : HostRuns s q 0x0E n u c) (hok : Exportable u n c) (hlate : (u.part n).pastStep (BitVec.ofNat 64 (c.arg 0)) = true) :
    Completes (exec (.exportCmd q) s) (Answers u · c 0x08 0 0) := by
  rw [exec_exportCmd h hok, if_pos hlate]
  exact .next (fail_answers ..)

/-! ### EXPORT_RUN (R260, R261, R444) -/

/-- The stream of a partition's committed state. -/
def State.exportStream (s : State) (n : Nat) (x : Export) : List Byte :=
  s.streamOf n 0x534C4758 x.step (s.part n).shardDigest { all := true, blocks := [] }

/-- A checkpoint slot holds a stream. -/
def State.putCheckpoint (s : State) (k : Nat) (l : List Byte) : State := { s with net := { s.net with ckpts := s.net.ckpts.set k l } }

/-- The state whose `Export` has read what it sends. -/
def State.exportRead (s : State) (n : Nat) (x : Export) : State :=
  ((s.checkpointReads n).updPart n (fun p => { p with exports := p.exports.filter (· ≠ x) })).settleSw n

theorem State.checkpointReads_tiers (s : State) (n : Nat) : s.checkpointReads n = { s with tiers := (s.checkpointReads n).tiers } := by
  unfold State.checkpointReads
  refine List.foldlRecOn (motive := fun v : State => v = { s with tiers := v.tiers }) _ _ rfl (fun v hv e _ => ?_)
  split
  · rw [State.served_tiers, hv]
  · exact hv

theorem State.exportRead_eq (s : State) (n : Nat) (x : Export) : s.exportRead n x =
    { s.updPart n (fun p => { p with exports := p.exports.filter (· ≠ x) }) with
      tiers := (s.exportRead n x).tiers, clusters := (s.exportRead n x).clusters, power := (s.exportRead n x).power } := by
  have hread := s.checkpointReads_tiers n
  unfold State.exportRead
  generalize s.checkpointReads n = v at hread ⊢
  rw [State.settleSw_eq, hread]
  rfl

/-- The `Export` has run: its request is gone, its command takes an entry. -/
def ExportRan (s t : State) (n : Nat) (x : Export) : Prop :=
  t.mem = s.mem ∧ (t.part n).exports = (s.part n).exports.filter (· ≠ x) ∧ TakesEntry s t x.cmd.q

/-- An `Export` that completes with a status after what else it does. -/
theorem exportRan_complete {x : Export} {v : State} (hmem : v.mem = s.mem) (hparts : v.parts = (s.exportRead n x).parts) (hhost : v.host = s.host)
    (a b : BitVec 16) (w : Word) : ExportRan s (v.complete x.cmd a b w) n x := by
  have hcomplete := complete_reports v x.cmd a b w
  refine ⟨hcomplete.mem.trans hmem, ?_, takesEntry_complete x.cmd a b w hhost⟩
  rw [hcomplete.part, State.part_of_parts hparts, State.exportRead_eq]
  exact congrArg Part.exports (s.part_updPart_same n (fun p => { p with exports := p.exports.filter (· ≠ x) }))

/-- An `Export` of the step that a partition has completed last, with nothing that holds it back. -/
structure ExportDue (s : State) (n : Nat) (x : Export) : Prop where
  live : s.live = true
  found : (s.part n).exports.find? (fun x => (s.part n).started && x.step = (s.part n).lastCompleted) = some x
  idle : (s.part n).sweep = none
  training : (s.part n).replay = none
  recovered : n ∉ s.tx.recovering

theorem exec_exportRun {x : Export} (h : ExportDue s n x) : exec (.exportRun n) s = .next (
    match x.checkpoint with
    | some slot =>
      if checkpointCap < s.checkpointBytes n slot + (s.exportStream n x).length then (s.exportRead n x).complete x.cmd 0x07 0 0
      else if !s.gateOpen then s
      else ((s.exportRead n x).putCheckpoint (n * 16 + slot) (s.exportStream n x)).complete x.cmd 0 0 (BitVec.ofNat 64 (s.exportStream n x).length)
    | none =>
      if (s.net.conns.find (n * 4096 + x.conn)).isNone then (s.exportRead n x).complete x.cmd 0x08 0 0
      else ((s.exportRead n x).send (.rdmaWrite n x.conn x.remote x.rkey (s.exportStream n x))).complete x.cmd 0 0
        (BitVec.ofNat 64 (s.exportStream n x).length)) := by
  change execExportRun n s = _
  unfold execExportRun
  dsimp only
  rw [h.found]
  dsimp only
  rw [if_neg (by simp [h.live, h.idle, h.training, h.recovered])]
  cases x.checkpoint <;> rfl

theorem exportRun_runs {x : Export} (h : ExportDue s n x) :
    (∀ slot, x.checkpoint = some slot → s.checkpointBytes n slot + (s.exportStream n x).length ≤ checkpointCap → s.gateOpen = true →
      Completes (exec (.exportRun n) s) (fun t => t.net.ckpts.get [] (n * 16 + slot) = s.exportStream n x ∧ ExportRan s t n x))
    ∧ (∀ slot, x.checkpoint = some slot → checkpointCap < s.checkpointBytes n slot + (s.exportStream n x).length →
      Completes (exec (.exportRun n) s) (fun t => t.net.ckpts = s.net.ckpts ∧ ExportRan s t n x))
    ∧ (x.checkpoint = none → Completes (exec (.exportRun n) s) (fun t => t.net.ckpts = s.net.ckpts ∧ ExportRan s t n x
      ∧ ((s.net.conns.find (n * 4096 + x.conn)).isSome = true → .rdmaWrite n x.conn x.remote x.rkey (s.exportStream n x) ∈ t.out))) := by
  rw [exec_exportRun h]
  have hread := s.exportRead_eq n x
  have hmem : (s.exportRead n x).mem = s.mem := (congrArg State.mem hread :)
  have hhost : (s.exportRead n x).host = s.host := (congrArg State.host hread :)
  have hnet : (s.exportRead n x).net = s.net := (congrArg State.net hread :)
  have hckpts (v : State) (a b : BitVec 16) (w : Word) : (v.complete x.cmd a b w).net = v.net := (congrArg State.net (complete_reports ..) :)
  refine ⟨fun slot hslot hfits hgate => ?_, fun slot hslot hfull => ?_, fun hconn => ?_⟩
  · rw [hslot]
    dsimp only
    rw [if_neg (by omega), if_neg (by simp [hgate])]
    refine .next ⟨?_, exportRan_complete (v := (s.exportRead n x).putCheckpoint _ _) hmem rfl hhost 0 0 _⟩
    rw [hckpts]
    exact Tab.get_set_same ..
  · rw [hslot]
    dsimp only
    rw [if_pos hfull]
    exact .next ⟨by rw [hckpts, hnet], exportRan_complete hmem rfl hhost 7 0 0⟩
  · rw [hconn]
    dsimp only
    split
    · next hnone =>
      refine .next ⟨by rw [hckpts, hnet], exportRan_complete hmem rfl hhost 8 0 0, fun hsome => ?_⟩
      rw [Option.isNone_iff_eq_none.mp hnone] at hsome
      cases hsome
    · refine .next ⟨?_, exportRan_complete (v := (s.exportRead n x).send _) hmem rfl hhost 0 0 _, fun _ => ?_⟩
      · rw [hckpts]
        exact congrArg NetState.ckpts hnet
      · exact complete_out _ _ _ _ _ (List.mem_append_right _ (List.mem_singleton_self _))

/-! ### IMPORT (R262, R295, R442) -/

/-- The stream that an import reads: a checkpoint slot, or the bytes of an object. -/
def State.importStream (u : State) (n a : Nat) : List Byte :=
  if bitAt a 63 then u.net.ckpts.get [] (n * 16 + fld a 3 0)
  else match (u.part n).objects.find (fld a 19 0) with
    | some o => (u.readDev n 0 (BitVec.ofNat 64 ((3 + o.tier) * 2 ^ 60 + fld a 19 0 * 2 ^ 40)) o.size).1
    | none => []

/-- The sections of a stream that match. -/
def State.sectsOf (u : State) (n : Nat) (l : List Byte) : List (List JEntry) := u.importSects n (leAt l 0x18 4) (l.drop 64) []

/-- The import of some sections that a command starts, in batches. -/
def HostCmd.importFor (c : HostCmd) (sects : List (List JEntry)) : Import := ⟨c.ref, sects.length, (sects.map batchesOf).flatten⟩

/-- A partition whose import of some sections has batches to write. -/
def Part.importsNow (p : Part) (x : Import) : Part := { p with importing := some x }

/-- An import that names a checkpoint slot or an object of a partition in training, which stands at a boundary. -/
structure Importable (s u : State) (n : Nat) (c : HostCmd) : Prop where
  rest : s.atRest n = true
  zeros : c.arg 1 = 0 ∧ c.arg 2 = 0 ∧ c.arg 3 = 0
  training : (u.part n).replay = none
  source : if bitAt (c.arg 0) 63 then fld (c.arg 0) 62 4 = 0
    else fld (c.arg 0) 62 20 = 0 ∧ ((u.part n).objects.find (fld (c.arg 0) 19 0)).isSome = true

theorem exec_importCmd (h : HostRuns s q 0x0F n u c) (hok : Importable s u n c) : exec (.importCmd q) s = .next (
    let l := u.importStream n (c.arg 0)
    if leAt l 0 4 ≠ 0x534C4758 ∨ leAt l 4 2 ≠ 1 then u.done c 0
    else (u.updPart n (·.importsNow (c.importFor (u.sectsOf n l)))).importNext n) := by
  obtain ⟨hrest, ⟨h1, h2, h3⟩, htraining, hsource⟩ := hok
  have ⟨_, hbound, _⟩ := h
  change execImportCmd q s = _
  unfold execImportCmd
  rw [hbound, if_neg (by simp [hrest]), hostRow_runs h]
  congr 1
  dsimp only
  rw [htraining, h1, h2, h3]
  cases hslot : bitAt (c.arg 0) 63 with
  | true =>
    rw [hslot, if_pos rfl] at hsource
    rw [if_neg (by simp [hsource]), if_neg (by simp), if_neg (by simp)]
    unfold State.importStream
    rw [hslot]
    exact if_congr (by simp) rfl rfl
  | false =>
    rw [hslot, if_neg (by decide)] at hsource
    obtain ⟨o, ho⟩ := Option.isSome_iff_exists.mp hsource.2
    rw [if_neg (by simp [hsource.1]), if_neg (by simp [ho]), if_neg (by simp)]
    unfold State.importStream
    rw [hslot]
    exact if_congr (by simp [ho]) rfl rfl

/-- A stream of another kind imports nothing. -/
theorem importCmd_ignores (h : HostRuns s q 0x0F n u c) (hok : Importable s u n c)
    (hbad : ¬ (leAt (u.importStream n (c.arg 0)) 0 4 = 0x534C4758 ∧ leAt (u.importStream n (c.arg 0)) 4 2 = 1)) :
    Completes (exec (.importCmd q) s) (Answers u · c 0 0 0) := by
  rw [exec_importCmd h hok]
  dsimp only
  rw [if_pos (not_and_or.mp hbad)]
  exact .next (done_answers ..)

/-- A stream with the magic and version of an `Export`'s starts an import. -/
theorem importCmd_starts (h : HostRuns s q 0x0F n u c) (hok : Importable s u n c) (hmagic : leAt (u.importStream n (c.arg 0)) 0 4 = 0x534C4758)
    (hversion : leAt (u.importStream n (c.arg 0)) 4 2 = 1) :
    exec (.importCmd q) s = .next ((u.updPart n (·.importsNow (c.importFor (u.sectsOf n (u.importStream n (c.arg 0)))))).importNext n) := by
  rw [exec_importCmd h hok]
  dsimp only
  rw [if_neg (by simp [hmagic, hversion])]

/-- An import without a batch completes. -/
theorem importNext_completes {x : Import} (hcmd : x.cmd = c.ref) (hnone : x.batches = []) : let t := (u.updPart n (·.importsNow x)).importNext n
    Answers { u with parts := t.parts } t c 0 0 (BitVec.ofNat 64 x.sections) ∧ (t.part n).importing = none := by
  have hpart : (u.updPart n (·.importsNow x)).part n = (u.part n).importsNow x := State.part_updPart_same ..
  unfold State.importNext
  rw [hpart]
  dsimp only [Part.importsNow]
  rw [hnone, hcmd]
  dsimp only
  generalize hv : (u.updPart n fun p => { p with importing := some x }).updPart n (fun q => { q with importing := none }) = v
  have hanswers := complete_answers v c 0 0 (BitVec.ofNat 64 x.sections)
  have hparts := (complete_reports v c.ref 0 0 (BitVec.ofNat 64 x.sections)).parts
  have hsame : ({ u with parts := v.parts } : State) = v := by rw [← hv]; rfl
  refine ⟨?_, ?_⟩
  · rw [hparts, hsame]
    exact hanswers
  · rw [State.part_of_parts hparts, ← hv, State.part_updPart_same]

/-- An import with batches opens the first one's transaction. -/
theorem importNext_opens {x : Import} {b : List JEntry} {r : List (List JEntry)} (hsome : x.batches = b :: r) :
    let t := (u.updPart n (·.importsNow x)).importNext n
    t.mem = u.mem ∧ (t.part n).importing = some { x with batches := r }
      ∧ ∃ y ∈ t.tx.txs, y.num = u.tx.nextTx ∧ y.part = n ∧ y.origin = .imported ∧ y.phase = .preparing ∧ y.entries = b := by
  have hpart : (u.updPart n (·.importsNow x)).part n = (u.part n).importsNow x := State.part_updPart_same ..
  unfold State.importNext
  rw [hpart]
  dsimp only [Part.importsNow]
  rw [hsome]
  dsimp only
  generalize hv : (u.updPart n fun p => { p with importing := some x }).updPart n
    (fun q => { q with importing := some { cmd := x.cmd, sections := x.sections, batches := r } }) = v
  have hopen (coord cluster : Nat) (step : Word) : (v.openTx n coord cluster step .imported b []).parts = v.parts := rfl
  refine ⟨?_, ?_, ?_⟩
  · rw [(State.openTx_bytes ..).1, ← hv]
    rfl
  · rw [State.part_of_parts (hopen ..), ← hv, State.part_updPart_same]
  · obtain ⟨y, hy, hnum, hpartOf, horigin, hentries, -, hphase⟩ := v.openTx_prepares n (clusterDie ((u.part n).cfg.clusters.headD 0))
      ((u.part n).cfg.clusters.headD 0) (u.part n).lastStarted .imported b []
    exact ⟨y, hy, by rw [hnum, ← hv]; rfl, hpartOf, horigin, hphase, hentries⟩

/-! ### REPLAY_START (R395) -/

/-- A partition that replays a step. -/
def Part.replays (p : Part) (c : HostCmd) : Part :=
  { p with
    replay := some { step := BitVec.ofNat 64 (c.arg 0), object := c.arg 1, cmd := some c.ref, heldStarted := p.lastStarted, heldAny := p.started }
    started := true
    lastStarted := BitVec.ofNat 64 (c.arg 0) - 1 }

theorem exec_replayStart (h : HostRuns s q 0x10 n u c) (hobj : c.arg 1 < 2 ^ 20) (hzero : c.arg 2 = 0 ∧ c.arg 3 = 0) {o : Obj}
    (hfound : (u.part n).objects.find (c.arg 1) = some o) (htier : o.tier < 2) (htraining : (u.part n).replay = none)
    (hidle : (u.part n).sweep = none) : exec (.replayStart q) s = .next (u.updPart n (·.replays c)) := by
  change execReplayStart q s = _
  unfold execReplayStart
  rw [hostRow_runs h]
  dsimp only
  rw [if_neg (by simp [hzero]; omega), hfound]
  dsimp only
  rw [if_neg (by omega), if_neg (by simp [htraining, hidle])]
  rfl

/-! ### REPLAY_END (R397) -/

theorem clearAccs_writes (s : State) (n : Nat) (pick : Nat → Bool) : WritesBytes s (s.clearAccs n pick) := by
  unfold State.clearAccs
  split
  · exact .refl s
  · refine .foldl (fun v i => ?_) _ s
    dsimp only
    split
    · exact .refl v
    · split
      · exact (WritesBytes.foldl (fun w r => writeDev_writes ..) _ v).trans (writeDev_writes ..)
      · refine BesidesBytes.writes (BesidesBytes.trans (.foldl (fun w d => ?_) _ v) (putRowAcc_besidesBytes ..))
        exact .foldl (fun x h => writeKeys_besidesBytes ..) _ w

/-- The entries of a plan whose accumulators a replay's sweep has read. -/
def State.replayRead (u : State) (n : Nat) (r : Replay) (i : Nat) : Bool :=
  r.swept || i ∈ (match (u.part n).sweep with | some w => w.opened.map (fun x => x.1) | none => [] : List Nat)

/-- A partition whose replay is over, at the step that it held before. -/
def Part.replayOver (p : Part) (r : Replay) : Part :=
  { p with
    replay := none
    sweep := none
    sweepDue := p.sweepDue.filter (· ≠ r.step.setWidth 16)
    stepbs := p.stepbs.filter (fun x => x.2 ≠ r.step.setWidth 16)
    started := r.heldAny
    lastStarted := r.heldStarted }

theorem exec_replayEnd (h : HostRuns s q 0x11 n u c) (hzero : c.arg 0 = 0 ∧ c.arg 1 = 0 ∧ c.arg 2 = 0 ∧ c.arg 3 = 0) {r : Replay}
    (hreplay : (u.part n).replay = some r) (hcmd : r.cmd = none) : exec (.replayEnd q) s =
      .next (((((u.clearAccs n (u.replayRead n r)).updPart n (·.replayOver r)).settleSw n).planTurn n).done c 0) := by
  change execReplayEnd q s = _
  unfold execReplayEnd
  rw [hostRow_runs h]
  dsimp only
  rw [if_neg (by simp [hzero]), hreplay]
  dsimp only
  rw [hcmd]
  rfl

theorem Part.replayOver_planTurned (p : Part) (r : Replay) : (p.replayOver r).planTurned.replay = none ∧ (p.replayOver r).planTurned.sweep = none
    ∧ (p.replayOver r).planTurned.started = r.heldAny ∧ (p.replayOver r).planTurned.lastStarted = r.heldStarted := by
  unfold Part.planTurned
  split <;> exact ⟨rfl, rfl, rfl, rfl⟩

/-- Without a sweep no swath unit of a recovered partition sweeps (R263). -/
theorem settleSw_rests {v : State} (hidle : (v.part n).sweep = none) (hrec : n ∉ v.tx.recovering) {k : Nat} (hk : k ∈ (v.part n).cfg.clusters) :
    ((v.settleSw n).cluster k).sw ≠ .sweeping := by
  rw [State.settleSw_of_recovered hrec, State.sw_allSw _ _ _ hk]
  unfold State.swNow
  dsimp only
  rw [hidle]
  dsimp only
  split <;> decide

theorem State.planTurn_eq (s : State) (n : Nat) : s.planTurn n = { s with parts := (s.planTurn n).parts } := by
  unfold State.planTurn
  split <;> rfl

/-- What the end of a replay leaves of the state `v` whose accumulators are empty. -/
theorem replayEnd_leaves (v : State) (r : Replay) : let t := (((v.updPart n (·.replayOver r)).settleSw n).planTurn n).done c 0
    BesidesReports { v with parts := t.parts, clusters := t.clusters, power := t.power } t ∧ TakesEntry v t c.ref.q
      ∧ (t.part n).replay = none ∧ (t.part n).sweep = none
      ∧ (n ∉ v.tx.recovering → ∀ k ∈ (v.part n).cfg.clusters, (t.cluster k).sw ≠ .sweeping)
      ∧ (t.part n).started = r.heldAny ∧ (t.part n).lastStarted = r.heldStarted := by
  intro t
  have hover : (v.updPart n (·.replayOver r)).part n = (v.part n).replayOver r := State.part_updPart_same ..
  have hsettled := (v.updPart n (·.replayOver r)).settleSw_eq n
  have hunits := fun hrec k hk => settleSw_rests (n := n) (v := v.updPart n (·.replayOver r)) (k := k) (by rw [hover]; rfl) hrec
    (by rw [hover]; exact hk)
  have hparts := State.part_of_parts (State.parts_settleSw (v.updPart n (·.replayOver r)) n) n
  generalize hw : (v.updPart n (·.replayOver r)).settleSw n = w at hsettled hunits hparts
  have hturned := w.planTurn_eq n
  have hpart := w.part_planTurn n
  rw [hparts, hover] at hpart
  obtain ⟨hreplay, hsweep, hstarted, hlast⟩ := (v.part n).replayOver_planTurned r
  have ht : t = (w.planTurn n).done c 0 := by rw [← hw]
  have hreports : BesidesReports (w.planTurn n) t := ht ▸ done_reports ..
  have hanswers : TakesEntry (w.planTurn n) t c.ref.q := by
    obtain ⟨-, hentry, -⟩ := done_answers (w.planTurn n) c 0
    exact ht ▸ hentry
  have hrest : w.planTurn n = { v with parts := (w.planTurn n).parts, clusters := (w.planTurn n).clusters, power := (w.planTurn n).power } := by
    rw [hturned, hsettled]
    rfl
  have htpart : t.part n = ((v.part n).replayOver r).planTurned := (hreports.part n).trans hpart
  refine ⟨?_, hanswers.of_host (congrArg State.host hrest :), by rw [htpart, hreplay], by rw [htpart, hsweep], fun hrec k hk => ?_,
    by rw [htpart, hstarted], by rw [htpart, hlast]⟩
  · have hpower : t.power = (w.planTurn n).power := (congrArg State.power hreports :)
    rw [hreports.parts, hreports.clusters, hpower, ← hrest]
    exact hreports
  · have hclusters : t.clusters = w.clusters := hreports.clusters.trans (congrArg State.clusters hturned :)
    have hcluster : t.cluster k = w.cluster k := by
      unfold State.cluster
      rw [hclusters]
    rw [hcluster]
    exact hunits hrec k hk

end

/-- Settles O49: a kept `Export` (`exec_exportCmd`), its run (`exec_exportRun`), an import's sections (`exec_importCmd`), the start and the
end of a replay (log entry 46). -/
theorem exportsAndReplays : Obligations.ExportsAndReplays := by
  unfold Obligations.ExportsAndReplays
  intro s u q n c a0 a1 rest
  refine ⟨?_, ?_, ?_, ?_, ?_⟩
  · intro h hkey htraining htarget step x late
    have hok : Exportable u n c := ⟨hkey, htraining, htarget⟩
    have hpast : (u.part n).pastStep step = true ↔ late := by simp [Part.pastStep, late]
    exact ⟨fun hearly => exportCmd_keeps h hok (by simpa [← hpast] using hearly), fun hlate => exportCmd_refuses h hok (hpast.mpr hlate)⟩
  · intro n x slot p l hfound hlive hidle htraining hrec Ran
    obtain ⟨hstored, hfull, hsent⟩ := exportRun_runs ⟨hlive, hfound, hidle, htraining, hrec⟩
    exact ⟨hstored slot, hfull slot, hsent⟩
  · intro h hrest hzero hzeros htraining hsource l
    have hok : Importable s u n c := ⟨hrest, ⟨hzero, hzeros⟩, htraining, hsource⟩
    refine ⟨?_, importCmd_ignores h hok⟩
    intro hmagic hversion sects
    have hstarts := importCmd_starts h hok hmagic hversion
    split
    · next hnone => exact ⟨_, hstarts, importNext_completes rfl hnone⟩
    · next b r hsome =>
      obtain ⟨hmem, himporting, hopened⟩ := importNext_opens (u := u) (n := n) (x := c.importFor sects) hsome
      exact ⟨_, hstarts, hmem.trans h.besides.mem, himporting, hopened⟩
  · intro h hobj hzeros o hfound htier htraining hidle
    refine ⟨_, exec_replayStart h hobj hzeros hfound htier htraining hidle, rfl, fun m hm => ?_, ?_⟩
    · rw [State.part_updPart_ne _ _ _ hm, h.besides.part]
    · rw [State.part_updPart_same]
      exact ⟨rfl, rfl, rfl, rfl⟩
  · intro h h0 h1 hzeros r hreplay hcmd opened v
    have hwrites := clearAccs_writes u n (u.replayRead n r)
    obtain ⟨hbeside, htakes, hover, hsweep, hunits, hstarted, hlast⟩ := replayEnd_leaves (n := n) (c := c) (u.clearAccs n (u.replayRead n r)) r
    refine ⟨_, exec_replayEnd h ⟨h0, h1, hzeros⟩ hreplay hcmd, hbeside, ?_, hover, hsweep, fun hrec k hk => hunits ?_ k ?_, hstarted, hlast⟩
    · rw [← h.ref_q]
      exact htakes.of_host hwrites.host
    · rw [hwrites.tx]
      exact hrec
    · rw [← (hwrites.map n).2.2]
      exact hk

end Sys2Proof.Machine
end

section
/-! PROOFS. Reservation applies, windows and throttle levels (O38): what an apply answers, what every stack and channel is given as a
window begins, how a temperature moves a level (R277 to R280, R301, R302). -/

namespace Sys2Proof.Machine

/-! ### MEM_APPLY (R277, R301, R302) -/

/-- The share of the rick cache that each partition has staged. -/
def State.stagedShares (s : State) : List Nat := (List.range 8).map (fun n => (s.part n).rickStaged.toNat)

/-- The staged tables, as the next window takes them (R277). -/
def State.staged (s : State) : RsvTable :=
  { near := s.tiers.nearStaged, fallow := s.tiers.fallowStaged, rick := s.stagedShares }

/-- The tiers after an apply has ended with its code (R277). -/
def State.memApplied (s : State) : TierState :=
  { s.tiers with
    memBusy := false
    memResult := BitVec.ofNat 8 s.memCode.1
    memDetail := BitVec.ofNat 8 s.memCode.2
    pending := if s.memCode.1 = 1 then some s.staged else s.tiers.pending }

theorem exec_memApply {s : State} {v : BitVec 32} (hl : s.live = true) (hv : v.getLsbD 31 = true) (hb : s.tiers.memBusy = false)
    (hh : s.errs.handover = none) : exec (.memApply .mgmt v) s = .next ({ s with tiers := s.memApplied } : State).tryLicence := by
  change execMemApply .mgmt v s = _
  unfold execMemApply State.writeMemCtrl
  simp only [hl, hv, hb, hh]
  rfl

section
variable {s : State}

theorem State.memCode_share (h : ∃ x ∈ s.stagedShares, 504 < x) : s.memCode = (6, 0) := by
  have hany : s.stagedShares.any (504 < ·) = true := by simpa using h
  unfold State.memCode
  exact if_pos hany

/-- Every code of an apply is a result byte (R302). -/
theorem State.memCode_lt (s : State) : s.memCode.1 < 256 := by
  unfold State.memCode
  dsimp only
  split
  · decide
  · split
    · simp
    · split_ifs
      · decide
      · decide
      · split <;> simp

theorem State.memResult_eq_one : BitVec.ofNat 8 s.memCode.1 = 1 ↔ s.memCode.1 = 1 := by
  have hlt := s.memCode_lt
  rw [← BitVec.toNat_inj, BitVec.toNat_ofNat, Nat.mod_eq_of_lt hlt]
  rfl

/-- An apply passes only where every sum keeps its limit (R302). -/
theorem State.memCode_passes (h : s.memCode.1 = 1) :
    (∀ i < 16, ((List.range 8).map (fun p => (s.tiers.nearStaged.get {} (rsvKey i p)).total)).sum + 64 ≤ 1280)
      ∧ ((List.range 8).map (fun p => (s.tiers.fallowStaged.get {} p).total)).sum + 160 ≤ 3520 ∧ s.stagedShares.sum ≤ 504 := by
  unfold State.memCode at h
  dsimp only at h
  split at h
  · cases h
  · split at h
    · cases h
    next hnear =>
      split_ifs at h with hfallow hshares
      · cases h
      · cases h
      · refine ⟨fun i hi => ?_, by omega, Nat.le_of_not_lt hshares⟩
        have hnot := List.find?_eq_none.mp hnear i (List.mem_range.mpr hi)
        simpa using hnot

end

theorem memApply_ends {s : State} {v : BitVec 32} (hl : s.live = true) (hv : v.getLsbD 31 = true) (hb : s.tiers.memBusy = false)
    (hh : s.errs.handover = none) : Completes (exec (.memApply .mgmt v) s) (fun t => t.mem = s.mem ∧ t.tiers = s.memApplied) := by
  have hlicence := ({ s with tiers := s.memApplied } : State).tryLicence_eq
  rw [exec_memApply hl hv hb hh]
  exact .next ⟨(congrArg State.mem hlicence :), (congrArg State.tiers hlicence :)⟩

/-! ### Records that a loop over numbers sets -/

/-- A loop over the numbers below `n` in which each step sets its own record and keeps the others leaves every one of them set. -/
theorem foldl_range_sets {α : Type} {f : State → Nat → State} {get : State → Nat → α} {P : State → Prop} {s : State} (v : Nat → α)
    (hs : P s) (hkeeps : ∀ t i, P t → P (f t i)) (hset : ∀ t i, P t → get t i = get s i → get (f t i) i = v i)
    (hother : ∀ t i j, j ≠ i → get (f t i) j = get t j) (n : Nat) :
    P ((List.range n).foldl f s) ∧ (∀ i < n, get ((List.range n).foldl f s) i = v i)
      ∧ ∀ i, n ≤ i → get ((List.range n).foldl f s) i = get s i := by
  induction n with
  | zero => exact ⟨hs, fun i hi => absurd hi (Nat.not_lt_zero i), fun _ _ => rfl⟩
  | succ n ih =>
    obtain ⟨hP, hdone, hleft⟩ := ih
    rw [List.range_succ, List.foldl_append, List.foldl_cons, List.foldl_nil]
    refine ⟨hkeeps _ _ hP, fun i hi => ?_, fun i hi => ?_⟩
    · by_cases hin : i = n
      · rw [hin]
        exact hset _ _ hP (hleft n (Nat.le_refl n))
      · rw [hother _ _ _ hin]
        exact hdone i (by omega)
    · rw [hother _ _ _ (by omega)]
      exact hleft i (by omega)

/-! ### RESERVATION_WINDOW (R273, R277, R279, R280) -/

/-- A partition with its active share of the rick cache. -/
def Part.withRick (q : Part) (n : Nat) : Part := { q with rickActive := n }

/-- The tables that wait become the active ones as a window begins (R277). -/
def State.tablesTaken (s : State) : State :=
  match s.tiers.pending with
  | some t =>
    let s := (List.range 8).foldl (fun s n => s.updPart n (fun q => q.withRick (t.rick.getD n 0))) s
    { s with tiers := { s.tiers with pending := none, nearActive := t.near, fallowActive := t.fallow } }
  | none => s

/-- A stack as the window that begins now finds it: level, credits, shedding (R279, R280). -/
def State.nearGiven (s : State) (i : Nat) : MemSt := (s.near i).window true i s.now (fun p => s.tiers.nearActive.get {} (rsvKey i p))
/-- A channel as the window that begins now finds it (R279, R280). -/
def State.chanGiven (s : State) (i : Nat) : MemSt := (s.chan i).window false i s.now (fun p => s.tiers.fallowActive.get {} p)
/-- The window begins at one stack. -/
def State.nearWindow (s : State) (i : Nat) : State := (s.updNear i (fun _ => s.nearGiven i)).noteShed true i (s.near i) (s.nearGiven i)
/-- The window begins at one channel. -/
def State.chanWindow (s : State) (i : Nat) : State := (s.updChan i (fun _ => s.chanGiven i)).noteShed false i (s.chan i) (s.chanGiven i)

theorem exec_reservationWindow {s : State} (hl : s.live = true) (hw : s.tiers.lastWindow < s.now / 100000) :
    exec .reservationWindow s = .next ((List.range 32).foldl State.chanWindow ((List.range 16).foldl State.nearWindow
      ({ s with tiers := { s.tiers with lastWindow := s.now / 100000 } } : State).tablesTaken)) := by
  have hdue : (!s.live || decide (s.now / 100000 ≤ s.tiers.lastWindow)) = false := by simp [hl, hw]
  change execReservationWindow s = _
  unfold execReservationWindow
  exact congrArg Host.Outcome.next (if_neg (ne_true_of_eq_false hdue))

/-- What the start of a window makes of the tables: those that waited are in force, or the old ones stay (R277). -/
structure TakesTables (s t : State) : Prop where
  rest : t = { s with
    parts := t.parts
    tiers := { s.tiers with pending := none, nearActive := t.tiers.nearActive, fallowActive := t.tiers.fallowActive } }
  taken : ∀ x, s.tiers.pending = some x →
    t.tiers.nearActive = x.near ∧ t.tiers.fallowActive = x.fallow ∧ ∀ n < 8, (t.part n).rickActive = x.rick.getD n 0
  kept : s.tiers.pending = none →
    t.tiers.nearActive = s.tiers.nearActive ∧ t.tiers.fallowActive = s.tiers.fallowActive ∧ t.parts = s.parts

theorem State.tablesTaken_none {s : State} (h : s.tiers.pending = none) : s.tablesTaken = s := by
  unfold State.tablesTaken
  rw [h]

/-- The partitions with the shares of a table (R277). -/
def State.sharesTaken (s : State) (x : RsvTable) : State :=
  (List.range 8).foldl (fun t n => t.updPart n (fun q => q.withRick (x.rick.getD n 0))) s

theorem State.tablesTaken_some {s : State} {x : RsvTable} (h : s.tiers.pending = some x) : s.tablesTaken = { s.sharesTaken x with
    tiers := { (s.sharesTaken x).tiers with pending := none, nearActive := x.near, fallowActive := x.fallow } } := by
  unfold State.tablesTaken
  rw [h]
  rfl

theorem State.sharesTaken_sets (s : State) (x : RsvTable) :
    s.sharesTaken x = { s with parts := (s.sharesTaken x).parts } ∧ ∀ n < 8, ((s.sharesTaken x).part n).rickActive = x.rick.getD n 0 := by
  obtain ⟨hrest, hset, -⟩ := foldl_range_sets (f := fun t n => t.updPart n (fun q => q.withRick (x.rick.getD n 0)))
    (get := fun t n => (t.part n).rickActive) (P := fun t => t = { s with parts := t.parts }) (s := s) (fun n => x.rick.getD n 0) rfl
    (fun t n ht => (congrArg (fun v : State => v.updPart n (fun q => q.withRick (x.rick.getD n 0))) ht).trans rfl)
    (fun t n _ _ => by rw [State.part_updPart_same]; rfl) (fun t n m hm => by rw [State.part_updPart_ne _ _ _ hm]) 8
  exact ⟨hrest, hset⟩

theorem tablesTaken_takes (s : State) : TakesTables s s.tablesTaken := by
  cases hp : s.tiers.pending with
  | none =>
    rw [State.tablesTaken_none hp]
    exact ⟨by rw [← hp], fun x hx => (nomatch hp.symm.trans hx), fun _ => ⟨rfl, rfl, rfl⟩⟩
  | some x =>
    obtain ⟨hrest, hset⟩ := s.sharesTaken_sets x
    rw [State.tablesTaken_some hp]
    generalize s.sharesTaken x = t at hrest hset
    refine ⟨by rw [hrest], fun y hy => ?_, fun hnone => nomatch hp.symm.trans hnone⟩
    obtain rfl : x = y := Option.some.inj (hp.symm.trans hy)
    exact ⟨rfl, rfl, hset⟩

theorem noteShed_reports (s : State) (near : Bool) (i : Nat) (a b : MemSt) : BesidesReports s (s.noteShed near i a b) := by
  unfold State.noteShed
  split
  · exact .refl s
  · exact post_reports ..

/-- `t` is `s` but for the records of stacks and channels and what was reported. -/
def BesidesWindows (s t : State) : Prop :=
  t = { s with tiers := { s.tiers with nears := t.tiers.nears, chans := t.tiers.chans }, errs := t.errs, host := t.host, out := t.out }

theorem BesidesWindows.trans {s t u : State} (h : BesidesWindows s t) (k : BesidesWindows t u) : BesidesWindows s u := by
  unfold BesidesWindows at *
  rw [k, h]

theorem BesidesWindows.now {s t : State} (h : BesidesWindows s t) : t.now = s.now := (congrArg State.now h :)
theorem BesidesWindows.parts {s t : State} (h : BesidesWindows s t) : t.parts = s.parts := (congrArg State.parts h :)
theorem BesidesWindows.mem {s t : State} (h : BesidesWindows s t) : t.mem = s.mem := (congrArg State.mem h :)
theorem BesidesWindows.tiers {s t : State} (h : BesidesWindows s t) :
    t.tiers = { s.tiers with nears := t.tiers.nears, chans := t.tiers.chans } := (congrArg State.tiers h :)
theorem BesidesWindows.nearActive {s t : State} (h : BesidesWindows s t) : t.tiers.nearActive = s.tiers.nearActive := by rw [h.tiers]
theorem BesidesWindows.fallowActive {s t : State} (h : BesidesWindows s t) : t.tiers.fallowActive = s.tiers.fallowActive := by rw [h.tiers]

theorem BesidesReports.windows {s t : State} (h : BesidesReports s t) : BesidesWindows s t := by
  unfold BesidesReports at h
  unfold BesidesWindows
  rw [h]

theorem nearWindow_besides (s : State) (i : Nat) : BesidesWindows s (s.nearWindow i) :=
  BesidesWindows.trans (t := s.updNear i (fun _ => s.nearGiven i)) rfl (noteShed_reports ..).windows

theorem chanWindow_besides (s : State) (i : Nat) : BesidesWindows s (s.chanWindow i) :=
  BesidesWindows.trans (t := s.updChan i (fun _ => s.chanGiven i)) rfl (noteShed_reports ..).windows

theorem State.tiers_nearWindow (s : State) (i : Nat) : (s.nearWindow i).tiers = (s.updNear i (fun _ => s.nearGiven i)).tiers :=
  (congrArg State.tiers (noteShed_reports ..) :)

theorem State.tiers_chanWindow (s : State) (i : Nat) : (s.chanWindow i).tiers = (s.updChan i (fun _ => s.chanGiven i)).tiers :=
  (congrArg State.tiers (noteShed_reports ..) :)

theorem State.near_of_tiers {s t : State} (h : t.tiers = s.tiers) (i : Nat) : t.near i = s.near i := by
  unfold State.near
  rw [h]

theorem State.chan_of_tiers {s t : State} (h : t.tiers = s.tiers) (i : Nat) : t.chan i = s.chan i := by
  unfold State.chan
  rw [h]

/-- Every stack is given its level and its credits. -/
theorem nearWindows_given (s : State) : BesidesWindows s ((List.range 16).foldl State.nearWindow s)
    ∧ (∀ i < 16, ((List.range 16).foldl State.nearWindow s).near i = s.nearGiven i)
    ∧ ((List.range 16).foldl State.nearWindow s).tiers.chans = s.tiers.chans := by
  obtain ⟨⟨hrest, hchans⟩, hset, -⟩ := foldl_range_sets (f := State.nearWindow) (get := State.near)
    (P := fun t => BesidesWindows s t ∧ t.tiers.chans = s.tiers.chans) (s := s) s.nearGiven ⟨rfl, rfl⟩
    (fun t i ht => ⟨ht.1.trans (nearWindow_besides t i), by rw [State.tiers_nearWindow]; exact ht.2⟩)
    (fun t i ht hi => by
      rw [State.near_of_tiers (State.tiers_nearWindow t i), State.near_updNear_same, State.nearGiven, hi, ht.1.now, ht.1.nearActive]
      rfl)
    (fun t i j hj => by rw [State.near_of_tiers (State.tiers_nearWindow t i), State.near_updNear_ne _ _ _ hj]) 16
  exact ⟨hrest, hset, hchans⟩

/-- Every channel is given its level and its credits. -/
theorem chanWindows_given (s : State) : BesidesWindows s ((List.range 32).foldl State.chanWindow s)
    ∧ (∀ i < 32, ((List.range 32).foldl State.chanWindow s).chan i = s.chanGiven i)
    ∧ ((List.range 32).foldl State.chanWindow s).tiers.nears = s.tiers.nears := by
  obtain ⟨⟨hrest, hnears⟩, hset, -⟩ := foldl_range_sets (f := State.chanWindow) (get := State.chan)
    (P := fun t => BesidesWindows s t ∧ t.tiers.nears = s.tiers.nears) (s := s) s.chanGiven ⟨rfl, rfl⟩
    (fun t i ht => ⟨ht.1.trans (chanWindow_besides t i), by rw [State.tiers_chanWindow]; exact ht.2⟩)
    (fun t i ht hi => by
      rw [State.chan_of_tiers (State.tiers_chanWindow t i), State.chan_updChan_same, State.chanGiven, hi, ht.1.now, ht.1.fallowActive]
      rfl)
    (fun t i j hj => by rw [State.chan_of_tiers (State.tiers_chanWindow t i), State.chan_updChan_ne _ _ _ hj]) 32
  exact ⟨hrest, hset, hnears⟩

/-- A window that begins: the tables that waited are taken, then every stack and every channel is given what it has for the window. -/
theorem reservationWindow_begins {s : State} (hl : s.live = true) (hw : s.tiers.lastWindow < s.now / 100000) :
    Completes (exec .reservationWindow s) (fun t =>
      (∃ u, TakesTables { s with tiers := { s.tiers with lastWindow := s.now / 100000 } } u ∧ BesidesWindows u t)
      ∧ (∀ i < 16, t.near i = (s.near i).window true i s.now (fun p => t.tiers.nearActive.get {} (rsvKey i p)))
      ∧ ∀ i < 32, t.chan i = (s.chan i).window false i s.now (fun p => t.tiers.fallowActive.get {} p)) := by
  rw [exec_reservationWindow hl hw]
  have htables := tablesTaken_takes { s with tiers := { s.tiers with lastWindow := s.now / 100000 } }
  generalize ({ s with tiers := { s.tiers with lastWindow := s.now / 100000 } } : State).tablesTaken = u at htables ⊢
  obtain ⟨hnears, hnear, hchans⟩ := nearWindows_given u
  obtain ⟨hrest, hchan, hkept⟩ := chanWindows_given ((List.range 16).foldl State.nearWindow u)
  generalize (List.range 16).foldl State.nearWindow u = v at hnears hnear hchans hrest hchan hkept ⊢
  generalize (List.range 32).foldl State.chanWindow v = t at hrest hchan hkept ⊢
  have hbesides := hnears.trans hrest
  have hunow : u.now = s.now := (congrArg State.now htables.rest :)
  have hunears : u.tiers.nears = s.tiers.nears := (congrArg (fun x : State => x.tiers.nears) htables.rest :)
  have huchans : u.tiers.chans = s.tiers.chans := (congrArg (fun x : State => x.tiers.chans) htables.rest :)
  refine .next ⟨⟨u, htables, hbesides⟩, fun i hi => ?_, fun i hi => ?_⟩
  · have hsame : t.near i = v.near i := by
      unfold State.near
      rw [hkept]
    rw [hsame, hnear i hi, hbesides.nearActive, State.nearGiven, hunow]
    unfold State.near
    rw [hunears]
  · rw [hchan i hi, hrest.fallowActive, State.chanGiven, hnears.now, hunow]
    unfold State.chan
    rw [hchans, huchans]

/-! ### THROTTLE_TEMP_CHANGE (R279) -/

section
variable {m : MemSt} {now temp throttle critical : Nat}

/-- The level whose entry point a temperature has reached (R279). -/
def throttleWant (temp throttle critical : Nat) : Nat := if critical ≤ temp then 2 else if throttle ≤ temp then 1 else 0

/-- A stack or channel with a temperature report. -/
def MemSt.measured (m : MemSt) (temp throttle critical : Nat) : MemSt := { m with temp := temp, throttle := throttle, critical := critical }

theorem MemSt.report_raises (h : m.nextLevel ≤ throttleWant temp throttle critical) :
    m.report now temp throttle critical
      = { m.measured temp throttle critical with nextLevel := throttleWant temp throttle critical, belowSince := none } := if_pos h

theorem MemSt.report_cools (h : throttleWant temp throttle critical < m.nextLevel) :
    m.report now temp throttle critical = (m.measured temp throttle critical).cool now := if_neg (Nat.not_le.mpr h)

theorem MemSt.cool_capped (h : m.capped = true) : m.cool now = { m with nextLevel := 2, belowSince := none } := if_pos h

theorem MemSt.cool_warm (hc : m.capped = false) (h : m.entryTemp < m.temp + 5) : m.cool now = { m with belowSince := none } := by
  have hwarm : m.coolSince now = none := by
    unfold MemSt.coolSince
    rw [if_neg (by simp [h])]
  unfold MemSt.cool
  rw [if_neg (ne_true_of_eq_false hc), hwarm]

theorem MemSt.coolSince_below (hlevel : m.nextLevel ≠ 0) (h : m.temp + 5 ≤ m.entryTemp) : m.coolSince now = some (m.belowSince.getD now) :=
  if_pos (by simp [hlevel, h])

/-- A level falls one step once 10 ms have passed 5 °C below its entry point; the next 10 ms count from then on (log entry 36). -/
theorem MemSt.cool_falls (hc : m.capped = false) (hlevel : m.nextLevel ≠ 0) (h : m.temp + 5 ≤ m.entryTemp)
    (hten : m.belowSince.getD now + 10000000 ≤ now) :
    m.cool now = { m with
      nextLevel := m.nextLevel - 1
      belowSince := if m.nextLevel - 1 ≠ 0 ∧ m.temp + 5 ≤ (if m.nextLevel - 1 = 2 then m.critical else m.throttle) then some now else none } := by
  unfold MemSt.cool
  rw [if_neg (ne_true_of_eq_false hc), MemSt.coolSince_below hlevel h]
  dsimp only
  rw [if_pos hten]
  simp [MemSt.coolSince, MemSt.entryTemp]

theorem MemSt.cool_waits (hc : m.capped = false) (hlevel : m.nextLevel ≠ 0) (h : m.temp + 5 ≤ m.entryTemp)
    (hten : ¬ m.belowSince.getD now + 10000000 ≤ now) : m.cool now = { m with belowSince := some (m.belowSince.getD now) } := by
  unfold MemSt.cool
  rw [if_neg (ne_true_of_eq_false hc), MemSt.coolSince_below hlevel h]
  exact if_neg hten

theorem MemSt.cool_keeps (m : MemSt) (now : Nat) :
    m.cool now = { m with nextLevel := (m.cool now).nextLevel, belowSince := (m.cool now).belowSince } := by
  unfold MemSt.cool
  split
  · rfl
  · split
    · split <;> rfl
    · rfl

/-- A report moves the level and its clock alone, beside what was measured (R279). -/
theorem MemSt.report_keeps (m : MemSt) (now temp throttle critical : Nat) : m.report now temp throttle critical
    = { m.measured temp throttle critical with
        nextLevel := (m.report now temp throttle critical).nextLevel
        belowSince := (m.report now temp throttle critical).belowSince } := by
  by_cases h : m.nextLevel ≤ throttleWant temp throttle critical
  · rw [MemSt.report_raises h]
  · rw [MemSt.report_cools (Nat.not_le.mp h)]
    exact MemSt.cool_keeps ..

end

theorem exec_throttle_stack {s : State} (hl : s.live = true) (i temp throttle critical : Nat) :
    exec (.throttleTempChange (.stack i) temp throttle critical) s
      = .next (s.updNear i (fun m => m.report s.now temp throttle critical)) := by
  change execThrottleTempChange (.stack i) temp throttle critical s = _
  simp [execThrottleTempChange, hl]

theorem exec_throttle_channel {s : State} (hl : s.live = true) (i temp throttle critical : Nat) :
    exec (.throttleTempChange (.channel i) temp throttle critical) s
      = .next (s.updChan i (fun m => m.report s.now temp throttle critical)) := by
  change execThrottleTempChange (.channel i) temp throttle critical s = _
  simp [execThrottleTempChange, hl]

/-- Settles O38: an apply leaves `memApplied`, a window `nearGiven` and `chanGiven` under the tables taken; a report raises a level or
lets it cool (one step at a time: log entry 36; the order of the checks: log entry 27). -/
theorem reservationsAndThrottling : Obligations.ReservationsAndThrottling := by
  unfold Obligations.ReservationsAndThrottling
  refine ⟨fun s hl => ⟨fun v hv hb hh => ?_, fun hw => ?_⟩, fun s i temp throttle critical hl => ?_⟩
  · intro shares
    obtain ⟨t, ht, hmem, htiers⟩ := memApply_ends hl hv hb hh
    have hresult : t.tiers.memResult = BitVec.ofNat 8 s.memCode.1 := by rw [htiers]; rfl
    have hcode : t.tiers.memResult = 1 ↔ s.memCode.1 = 1 := by rw [hresult]; exact State.memResult_eq_one
    have hpending : t.tiers.pending = if s.memCode.1 = 1 then some s.staged else s.tiers.pending := by rw [htiers]; rfl
    refine ⟨t, ht, ?_⟩
    refine ⟨by rw [htiers]; rfl, hmem, by rw [htiers]; rfl, by rw [htiers]; rfl, by rw [htiers]; rfl, fun hshare => ?_, fun hone => ?_, fun hne => ?_⟩
    · rw [hresult, State.memCode_share hshare]
      rfl
    · obtain ⟨hnear, hfallow, hsum⟩ := State.memCode_passes (hcode.mp hone)
      exact ⟨hnear, hfallow, hsum, hpending.trans (if_pos (hcode.mp hone))⟩
    · exact hpending.trans (if_neg (mt hcode.mpr hne))
  · obtain ⟨t, ht, ⟨u, htables, hbesides⟩, hnear, hchan⟩ := reservationWindow_begins hl hw
    have hwindow : u.tiers.lastWindow = s.now / 100000 := (congrArg (fun x : State => x.tiers.lastWindow) htables.rest :)
    have hpending : u.tiers.pending = none := (congrArg (fun x : State => x.tiers.pending) htables.rest :)
    have hmem : t.mem = s.mem := hbesides.mem.trans (congrArg State.mem htables.rest :)
    refine ⟨t, ht, hmem, by rw [hbesides.tiers, hwindow], by rw [hbesides.tiers, hpending], fun x hx => ?_, fun hnone => ?_, hnear, hchan⟩
    · obtain ⟨hn, hf, hrick⟩ := htables.taken x hx
      exact ⟨hbesides.nearActive.trans hn, hbesides.fallowActive.trans hf, fun n hn => by rw [State.part_of_parts hbesides.parts, hrick n hn]⟩
    · obtain ⟨hn, hf, hp⟩ := htables.kept hnone
      exact ⟨hbesides.nearActive.trans hn, hbesides.fallowActive.trans hf, hbesides.parts.trans hp⟩
  · intro want entry Rule
    have hrule : ∀ m : MemSt, Rule m (m.report s.now temp throttle critical) := fun m => by
      refine ⟨fun h => ?_, fun h hcap => ?_, fun h hcap hwarm => ?_, fun h hcap hbelow => ?_, ?_⟩
      · rw [MemSt.report_raises h]
        exact ⟨rfl, rfl⟩
      · rw [MemSt.report_cools h, MemSt.cool_capped (m := m.measured temp throttle critical) hcap]
        exact ⟨rfl, rfl⟩
      · rw [MemSt.report_cools h, MemSt.cool_warm (m := m.measured temp throttle critical) hcap hwarm]
        exact ⟨rfl, rfl⟩
      · have hlevel : m.nextLevel ≠ 0 := Nat.ne_zero_of_lt h
        rw [MemSt.report_cools h]
        by_cases hten : m.belowSince.getD s.now + 10000000 ≤ s.now
        · rw [if_pos hten, MemSt.cool_falls (m := m.measured temp throttle critical) hcap hlevel hbelow hten]
          exact ⟨rfl, rfl⟩
        · rw [if_neg hten, MemSt.cool_waits (m := m.measured temp throttle critical) hcap hlevel hbelow hten]
          exact ⟨rfl, rfl⟩
      · rw [MemSt.report_keeps]
        exact ⟨rfl, rfl, rfl, rfl, rfl⟩
    rw [exec_throttle_stack hl, exec_throttle_channel hl]
    refine ⟨.next ⟨?_, fun j hj => State.near_updNear_ne _ _ _ hj, rfl, rfl⟩, .next ⟨?_, fun j hj => State.chan_updChan_ne _ _ _ hj, rfl, rfl⟩⟩
    · rw [State.near_updNear_same]
      exact hrule _
    · rw [State.chan_updChan_same]
      exact hrule _

end Sys2Proof.Machine
end

section
/-! PROOFS. Fallow writes, the end of a chunk wait, fallow reads, row remaps (O39): what a queued write leaves when it is done, what a
move has read, what becomes of a row that is due (R287 to R289, R291, R292). -/

namespace Sys2Proof.Machine

/-! ### What leaves bytes and the fallow write queue alone -/

/-- The end of a move touches no record of the memory tiers. -/
theorem State.dropTx_tiers (s : State) (num : Nat) : (s.dropTx num).tiers = s.tiers := by
  have h : (s.gateWaited num).tiers = s.tiers := by
    unfold State.gateWaited
    split
    · split <;> rfl
    · rfl
  exact h

theorem State.abortTx_tiers (s : State) (p : At) : (s.abortTx p).tiers = s.tiers := by
  unfold State.abortTx
  split
  · rfl
  · dsimp only
    split
    · rfl
    · exact State.dropTx_tiers ..

theorem State.afterRetire_tiers (s : State) (p : At) : (s.afterRetire p).tiers = s.tiers := by
  unfold State.afterRetire
  split
  · exact State.abortTx_tiers ..
  · rfl

theorem State.payOwed_tiers (s : State) (p : At) : (s.payOwed p).tiers = s.tiers :=
  List.foldlRecOn (motive := fun t : State => t.tiers = s.tiers) (s.ctx p).owed State.sendSync rfl (fun _ ht _ _ => ht)

theorem State.issued_tiers (s : State) (p : At) : (s.issued p).tiers = s.tiers := rfl

theorem State.afterDrain_drained {s : State} {p : At} (h : (s.ctx p).drained = true) : s.afterDrain p =
    match (s.ctx p).stalledOn with
    | some .fence => (s.payOwed p).goOn p
    | some (.release op) => ((s.payOwed p).issued p).sendSync op
    | _ => (s.payOwed p).afterRetire p := by
  unfold State.afterDrain
  exact if_neg (by simp [h])

theorem State.afterDrain_tiers (s : State) (p : At) : (s.afterDrain p).tiers = s.tiers := by
  by_cases hd : (s.ctx p).drained = true
  · rw [State.afterDrain_drained hd]
    split
    · exact s.payOwed_tiers p
    · rw [State.sendSync_tiers, State.issued_tiers, s.payOwed_tiers]
    · rw [State.afterRetire_tiers, s.payOwed_tiers]
  · rw [State.afterDrain_undrained (by simpa using hd)]

theorem State.action_tiers (s : State) (n : Nat) (tag : Word) (ck : BitVec 2) (ct : BitVec 17) : (s.action n tag ck ct).tiers = s.tiers := by
  unfold State.action
  dsimp only
  split <;> rfl

theorem State.finishMove_tiers (s : State) (p : At) (m : Move) : (s.finishMove p m).tiers = s.tiers :=
  (State.afterDrain_tiers ..).trans (State.action_tiers ..)

/-- Neither bytes nor the queue of fallow writes have changed. -/
def SamePuts (s t : State) : Prop := t.mem = s.mem ∧ t.tiers.fallowQ = s.tiers.fallowQ

section
variable {s t u : State}

theorem SamePuts.refl (s : State) : SamePuts s s := ⟨rfl, rfl⟩

theorem SamePuts.trans (h : SamePuts s t) (k : SamePuts t u) : SamePuts s u := ⟨k.1.trans h.1, k.2.trans h.2⟩

theorem SamePuts.of_tiers (hm : t.mem = s.mem) (ht : t.tiers = s.tiers) : SamePuts s t := ⟨hm, by rw [ht]⟩

theorem BesidesWindows.samePuts (h : BesidesWindows s t) : SamePuts s t := ⟨h.mem, by rw [h.tiers]⟩

end

theorem BesidesWindows.refl (s : State) : BesidesWindows s s := rfl

theorem served_windows (s : State) (ks : List Nat) (cls : Nat) : BesidesWindows s (s.served ks cls) := by
  unfold BesidesWindows
  rw [State.served_eq]

theorem notePool_windows (s : State) (ch : Nat) : BesidesWindows s (s.notePool ch) := by
  have hnote (b : Bool) (v : State) (r : ErrRec) (l : List Nat) : BesidesWindows v (if b then v.post r l else v) := by
    split
    · exact (post_reports ..).windows
    · exact .refl v
  unfold State.notePool
  extract_lets used pool hi top x note high full
  have hfull : BesidesWindows s full := (hnote _ s _ _).trans (hnote _ high _ _)
  split
  · exact hfull
  · exact hfull.trans rfl

/-- Counting the chunks of pools touches the records of channels and posts records (R288). -/
theorem notePools_windows (s : State) (ks : List Nat) : BesidesWindows s (s.notePools ks) :=
  List.foldlRecOn (motive := BesidesWindows s) _ _ (.refl s) (fun _ hv ch _ => hv.trans (notePool_windows _ ch))

theorem State.writeKeys_fallowQ (s : State) (ks : List Nat) (data : List Byte) (b : Bool) :
    (s.writeKeys ks data b).tiers.fallowQ = s.tiers.fallowQ := by
  unfold State.writeKeys
  dsimp only
  split <;> rfl

theorem markSubst_samePuts (s : State) (ks : List Nat) (b : Bool) : SamePuts s (s.markSubst ks b) := by
  unfold State.markSubst
  split <;> exact ⟨rfl, rfl⟩

theorem markStale_samePuts (s : State) (n : Nat) (a : Word) (len : Nat) : SamePuts s (s.markStale n a len) := by
  unfold State.markStale
  split <;> exact ⟨rfl, rfl⟩

theorem finishMove_samePuts (s : State) (p : At) (m : Move) : SamePuts s (s.finishMove p m) :=
  .of_tiers (State.finishMove_bytes ..).1 (State.finishMove_tiers ..)

/-! ### FALLOW_WRITE and FALLOW_CHUNK_WAIT_END (R287, R288) -/

section
variable {s : State} {i ch : Nat} {x : FallowPut}

/-- A queued write's bytes are at their home, and it has left the queue. -/
def State.putLanded (s : State) (i : Nat) (x : FallowPut) : State :=
  (((({ s with tiers := { s.tiers with fallowQ := dropAt s.tiers.fallowQ i } } : State).served x.keys
    (s.classOf (s.partNum x.p.core))).writeKeys x.keys x.data x.blight).markSubst x.keys x.subst).notePools x.keys

/-- What a queued write that is done does to its move: digests, copies of rows, the end of the move with its last write. -/
def State.putFollowed (s : State) (n : Nat) (x : FallowPut) (m : Move) : State :=
  let s := s.markStale n m.dst m.len
  let s := match (s.part n).objects.find (fld m.dst.toNat 59 40) with
    | some o => if o.kind = 1 then s.refreshCopies n o.table x.keys else s
    | none => s
  if m.queued && s.tiers.fallowQ.all (fun y => !(y.p = x.p && y.move = x.move)) then s.finishMove x.p m else s

theorem State.doPut_eq (s : State) (i : Nat) (x : FallowPut) : s.doPut i x =
    match (s.ctx x.p).moves.find? (fun m => m.num = x.move) with
    | some m => (s.putLanded i x).putFollowed (s.partNum x.p.core) x m
    | none => s.putLanded i x := rfl

theorem State.putLanded_leaves (s : State) (i : Nat) (x : FallowPut) : (s.putLanded i x).mem = Memory.putAll s.mem (List.zip x.keys x.data)
    ∧ (s.putLanded i x).tiers.fallowQ = dropAt s.tiers.fallowQ i := by
  unfold State.putLanded
  generalize hleft : ({ s with tiers := { s.tiers with fallowQ := dropAt s.tiers.fallowQ i } } : State) = left
  have hserved := (served_windows left x.keys (s.classOf (s.partNum x.p.core))).samePuts
  generalize left.served x.keys (s.classOf (s.partNum x.p.core)) = v at hserved ⊢
  have hmarked := (markSubst_samePuts (v.writeKeys x.keys x.data x.blight) x.keys x.subst).trans (notePools_windows _ x.keys).samePuts
  constructor
  · rw [hmarked.1, State.writeKeys_mem, hserved.1, ← hleft]
  · rw [hmarked.2, State.writeKeys_fallowQ, hserved.2, ← hleft]

theorem putFollowed_samePuts (s : State) (n : Nat) (x : FallowPut) (m : Move) : SamePuts s (s.putFollowed n x m) := by
  unfold State.putFollowed
  extract_lets stale copied
  have hcopied : SamePuts stale copied := by
    unfold copied
    split
    · split
      · exact ⟨rfl, rfl⟩
      · exact .refl stale
    · exact .refl stale
  have h := (markStale_samePuts s n m.dst m.len).trans hcopied
  split
  · exact h.trans (finishMove_samePuts ..)
  · exact h

/-- A queued write that is done has written its bytes and left the queue (R287). -/
theorem State.doPut_leaves (s : State) (i : Nat) (x : FallowPut) :
    (s.doPut i x).mem = Memory.putAll s.mem (List.zip x.keys x.data) ∧ (s.doPut i x).tiers.fallowQ = dropAt s.tiers.fallowQ i := by
  obtain ⟨hmem, hqueue⟩ := s.putLanded_leaves i x
  rw [State.doPut_eq]
  split
  · obtain ⟨hm, hq⟩ := putFollowed_samePuts (s.putLanded i x) (s.partNum x.p.core) x _
    exact ⟨hm.trans hmem, hq.trans hqueue⟩
  · exact ⟨hmem, hqueue⟩

theorem exec_fallowWrite (hl : s.live = true) (hx : s.tiers.fallowQ[i]? = some x) (hb : s.putBlocked i x = false)
    (hr : s.partNum x.p.core ∉ s.tx.recovering) : exec (.fallowWrite i) s = .next (if s.fallowFits x.keys x.data then s.doPut i x
      else { s with tiers := { s.tiers with fallowQ := updAt (fun y => { y with waits := true }) s.tiers.fallowQ i } }) := by
  change execFallowWrite i s = _
  unfold execFallowWrite
  cases hfits : s.fallowFits x.keys x.data <;> simp [hx, hl, hb, hr, hfits]

/-- The writes of a channel that have waited and find their chunks now (R288). -/
def State.mayGo (s : State) (ch k : Nat) (y : FallowPut) : Bool :=
  y.waits && y.channel = ch && !s.putBlocked k y && s.partNum y.p.core ∉ s.tx.recovering && s.fallowFits y.keys y.data

theorem exec_fallowChunkWaitEnd (hl : s.live = true) (hx : s.tiers.fallowQ[i]? = some x) (hgo : s.mayGo ch i x = true)
    (hfirst : ∀ j < i, ∀ y, s.tiers.fallowQ[j]? = some y → s.mayGo ch j y = false) :
    exec (.fallowChunkWaitEnd ch) s = .next (s.doPut i x) := by
  have hable : (List.range s.tiers.fallowQ.length).find? (fun k => match s.tiers.fallowQ[k]? with
      | some y => s.mayGo ch k y
      | none => false) = some i := by
    obtain ⟨hlen, -⟩ := List.getElem?_eq_some_iff.mp hx
    refine List.find?_range_eq_some.mpr ⟨by rw [hx]; exact hgo, List.mem_range.mpr hlen, fun j hj => ?_⟩
    rw [List.getElem?_eq_getElem (hj.trans hlen)]
    simp only [hfirst j hj _ (List.getElem?_eq_getElem (hj.trans hlen)), Bool.not_false]
  have hexec : exec (.fallowChunkWaitEnd ch) s = .next (if !s.live then s
      else match (List.range s.tiers.fallowQ.length).find? (fun k => match s.tiers.fallowQ[k]? with
          | some y => s.mayGo ch k y
          | none => false) with
        | some i => match s.tiers.fallowQ[i]? with
          | some x => s.doPut i x
          | none => s
        | none => s) := rfl
  rw [hexec, hl, hable]
  dsimp only
  rw [hx]
  rfl

end

/-! ### FALLOW_READ (R289) -/

theorem exec_fallowRead {s : State} {p : At} {i : Nat} {m : Move} {a : Word} (hl : s.live = true) (hm : (s.ctx p).moves[i]? = some m)
    (hsrc : m.src = some a) (hspace : spaceOf a = 5) (hbytes : m.bytes = none) (hheld : s.heldObj (s.partNum p.core) a = false)
    (holder : s.olderOverlap p m.num a m.len = false) :
    let ks := s.keysOf (s.partNum p.core) p.core a m.len
    exec (.fallowRead p i) s = .next ((s.served ks (s.classOf (s.partNum p.core))).updCtx p (fun c => { c with
      moves := c.moves.map (fun x => if x.num = m.num then
        { x with bytes := some (s.readKeys ks).1, blight := (s.readKeys ks).2, subst := s.substAt ks } else x) })) := by
  intro ks
  change execFallowRead p i s = _
  unfold execFallowRead
  simp [hm, hsrc, hl, hspace, hbytes, hheld, holder, ks]

/-! ### ROW_REMAP (R291, R292) -/

@[simp] theorem Tab.get_del_same {α : Type} (d : α) (t : Tab α) (k : Nat) : (t.del k).get d k = d := by
  induction t with
  | nil => rfl
  | cons x t ih =>
    obtain ⟨j, b⟩ := x
    by_cases h : j = k
    · simpa [Tab.del, h] using ih
    · simpa [Tab.del, Tab.get, h] using ih

/-- The corrected errors of a row are counted (R291, R472). -/
def State.rowCounted (s : State) (i row : Nat) : RemapWhy → State
  | .uncorrectable => s
  | .corrections n => (s.rowErrors i row n).countCorrected ⟨.near, i⟩ n

/-- Granules that could not be corrected are lost, those that are not marked yet (R292, R474). -/
def State.rowLost (s : State) (i : Nat) (lost : List Nat) : State :=
  lost.foldl (fun s o => if granule (nearKey i o) ∈ s.poison then s else s.lose (nearKey i o)) s

/-- A record of a row's repair, or of one that waits (R292). -/
def State.rowRecorded (s : State) (i c : Nat) : State :=
  s.post { cls := 0x07, cause := BitVec.ofNat 8 c, unit := unitCode .near, loc := BitVec.ofNat 32 i } []

/-- A stack whose row is repaired in a resource of its bank (R292). -/
def MemSt.repaired (m : MemSt) (i row : Nat) : MemSt :=
  { m with
    remapsFree := m.remapsFree - 1
    pendingRows := m.pendingRows.filter (· ≠ row)
    rowErrs := m.rowErrs.del row
    bytes := updAt (fun b => sat64 (b + 2 * Config.dramRowBytes i)) m.bytes 4 }

/-- A stack with a row whose repair waits for a resource (R292). -/
def MemSt.pends (m : MemSt) (row : Nat) : MemSt := { m with pendingRows := m.pendingRows ++ [row] }

section
variable {s : State} {i row : Nat} {why : RemapWhy} {lost : List Nat}

theorem MemSt.remapDue_iff (m : MemSt) (row : Nat) (why : RemapWhy) :
    m.remapDue row why = true ↔ why = .uncorrectable ∨ ∃ k, why = .corrections k ∧ 4 ≤ m.rowErrs.get 0 row + k := by
  cases why with
  | uncorrectable => simp [MemSt.remapDue]
  | corrections n => simp [MemSt.remapDue]

theorem exec_rowRemap (hl : s.live = true) (ho : (s.near i).outOfService = false) (r : Bool) :
    exec (.rowRemap i row why r lost) s = .next (if !(s.near i).remapDue row why then s.rowCounted i row why
      else if r && 0 < (s.near i).remapsFree then
        let v := ((s.rowCounted i row why).updNear i (fun m => m.repaired i row)).rowLost i lost
        ({ v with tiers := { v.tiers with remapped := v.tiers.remapped ++ [(i, row)] } } : State).rowRecorded i 4
      else if row ∈ (s.near i).pendingRows then (s.rowCounted i row why).rowLost i lost
      else (((s.rowCounted i row why).updNear i (fun m => m.pends row)).rowLost i lost).rowRecorded i 5) := by
  have hon : (!s.live || (s.near i).outOfService) = false := by rw [hl, ho]; rfl
  change execRowRemap i row why r lost s = _
  unfold execRowRemap
  refine congrArg Host.Outcome.next ((if_neg (ne_true_of_eq_false hon)).trans ?_)
  cases why <;> rfl

/-- Counting a row's corrected errors touches that count and the hour's corrections alone. -/
theorem State.rowCounted_keeps (s : State) (i row : Nat) (why : RemapWhy) :
    (s.rowCounted i row why).mem = s.mem ∧ (s.rowCounted i row why).tiers.remapped = s.tiers.remapped
      ∧ (s.rowCounted i row why).near i = { s.near i with rowErrs := ((s.rowCounted i row why).near i).rowErrs } := by
  cases why with
  | uncorrectable => exact ⟨rfl, rfl, rfl⟩
  | corrections n =>
    have hnear : (s.rowCounted i row (.corrections n)).near i = _ := s.near_updNear_same i (fun m => { m with rowErrs := m.rowErrs.upd 0 row (· + n) })
    exact ⟨rfl, rfl, by rw [hnear]⟩

theorem State.lose_tiers (s : State) (k : Nat) : (s.lose k).tiers = s.tiers := rfl
theorem State.lose_poison (s : State) (k : Nat) : (s.lose k).poison = insertNat s.poison (granule k) := rfl

theorem State.rowLost_cons (s : State) (i o : Nat) (lost : List Nat) : s.rowLost i (o :: lost)
    = (if granule (nearKey i o) ∈ s.poison then s else s.lose (nearKey i o)).rowLost i lost := rfl

/-- What a list of lost granules leaves: they are marked, the tiers' records are as they were (R474). -/
theorem State.rowLost_leaves (s : State) (i : Nat) (lost : List Nat) : (s.rowLost i lost).tiers = s.tiers
    ∧ (lost = [] → (s.rowLost i lost).mem = s.mem) ∧ (∀ g ∈ s.poison, g ∈ (s.rowLost i lost).poison)
    ∧ ∀ o ∈ lost, granule (nearKey i o) ∈ (s.rowLost i lost).poison := by
  induction lost generalizing s with
  | nil => exact ⟨rfl, fun _ => rfl, fun _ h => h, fun _ h => nomatch h⟩
  | cons o lost ih =>
    have hstep : ∃ v : State, s.rowLost i (o :: lost) = v.rowLost i lost ∧ v.tiers = s.tiers ∧ (∀ g ∈ s.poison, g ∈ v.poison)
        ∧ granule (nearKey i o) ∈ v.poison := by
      rw [State.rowLost_cons]
      split
      next hmarked => exact ⟨s, rfl, rfl, fun _ h => h, hmarked⟩
      next =>
        refine ⟨s.lose (nearKey i o), rfl, s.lose_tiers _, ?_⟩
        rw [State.lose_poison]
        exact ⟨fun g hg => (mem_insertNat _ _ g).mpr (.inr hg), (mem_insertNat _ _ _).mpr (.inl rfl)⟩
    obtain ⟨v, heq, htiers, hkept, hnew⟩ := hstep
    obtain ⟨ht, -, hold, hlost⟩ := ih v
    rw [heq]
    refine ⟨ht.trans htiers, (fun h => nomatch h), fun g hg => hold g (hkept g hg), fun x hx => ?_⟩
    rcases List.mem_cons.mp hx with rfl | hx
    · exact hold _ hnew
    · exact hlost x hx

theorem State.rowRecorded_keeps (s : State) (i c : Nat) : (s.rowRecorded i c).mem = s.mem ∧ (s.rowRecorded i c).poison = s.poison
    ∧ (s.rowRecorded i c).tiers = s.tiers := by
  obtain ⟨hmem, hpoison, -, htiers⟩ := s.post_keeps
    { cls := 0x07, cause := BitVec.ofNat 8 c, unit := unitCode .near, loc := BitVec.ofNat 32 i } []
  exact ⟨hmem, hpoison, htiers⟩

/-- The stack `i` of `t` is `m`; granules of a row of `s` are lost in `t` as the list says (R292, R474). -/
structure RowLeft (s t : State) (i : Nat) (lost : List Nat) (m : MemSt) : Prop where
  near : t.near i = m
  mem : lost = [] → t.mem = s.mem
  marked : ∀ o ∈ lost, granule (nearKey i o) ∈ t.poison

/-- A stack of a row that is due changes, and the row's granules are lost. -/
theorem rowLost_left (s : State) (i row : Nat) (why : RemapWhy) (lost : List Nat) (f : MemSt → MemSt) :
    let v := ((s.rowCounted i row why).updNear i f).rowLost i lost
    RowLeft s v i lost (f ((s.rowCounted i row why).near i)) ∧ v.tiers.remapped = s.tiers.remapped := by
  intro v
  obtain ⟨hmem, hremapped, -⟩ := s.rowCounted_keeps i row why
  obtain ⟨htiers, hkept, -, hmarked⟩ := ((s.rowCounted i row why).updNear i f).rowLost_leaves i lost
  refine ⟨⟨?_, fun h => (hkept h).trans hmem, hmarked⟩, ?_⟩
  · rw [State.near_of_tiers htiers, State.near_updNear_same]
  · rw [htiers]
    exact hremapped

/-- A row that is due is repaired where its bank has a resource (R291, R292). -/
theorem rowRemap_repairs (hl : s.live = true) (ho : (s.near i).outOfService = false) (hdue : (s.near i).remapDue row why = true)
    (hfree : 0 < (s.near i).remapsFree) : Completes (exec (.rowRemap i row why true lost) s) (fun t =>
      RowLeft s t i lost (((s.rowCounted i row why).near i).repaired i row) ∧ t.tiers.remapped = s.tiers.remapped ++ [(i, row)]) := by
  obtain ⟨⟨hnear, hmem, hmarked⟩, hremapped⟩ := rowLost_left s i row why lost (fun m => m.repaired i row)
  rw [exec_rowRemap hl ho, hdue, if_neg (by decide), if_pos (by simpa using hfree)]
  dsimp only
  generalize ((s.rowCounted i row why).updNear i (fun m => m.repaired i row)).rowLost i lost = v at hnear hmem hmarked hremapped ⊢
  obtain ⟨hm, hp, ht⟩ := ({ v with tiers := { v.tiers with remapped := v.tiers.remapped ++ [(i, row)] } } : State).rowRecorded_keeps i 4
  refine .next ⟨⟨?_, fun h => hm.trans (hmem h), fun o hmem => hp ▸ hmarked o hmem⟩, ?_⟩
  · rw [State.near_of_tiers ht]
    exact hnear
  · rw [ht, ← hremapped]

/-- A row that is due and has no resource is recorded as pending (R292). -/
theorem rowRemap_pends (hl : s.live = true) (ho : (s.near i).outOfService = false) (hdue : (s.near i).remapDue row why = true)
    (hnew : row ∉ (s.near i).pendingRows) : Completes (exec (.rowRemap i row why false lost) s) (fun t =>
      RowLeft s t i lost (((s.rowCounted i row why).near i).pends row) ∧ t.tiers.remapped = s.tiers.remapped) := by
  obtain ⟨⟨hnear, hmem, hmarked⟩, hremapped⟩ := rowLost_left s i row why lost (fun m => m.pends row)
  rw [exec_rowRemap hl ho, hdue, if_neg (by decide), if_neg (by simp), if_neg hnew]
  generalize ((s.rowCounted i row why).updNear i (fun m => m.pends row)).rowLost i lost = v at hnear hmem hmarked hremapped ⊢
  obtain ⟨hm, hp, ht⟩ := v.rowRecorded_keeps i 5
  exact .next ⟨⟨(State.near_of_tiers ht i).trans hnear, fun h => hm.trans (hmem h), fun o hmem => hp ▸ hmarked o hmem⟩, by rw [ht, hremapped]⟩

/-- Fewer corrected errors of a row are counted (R291). -/
theorem rowRemap_counts (hl : s.live = true) (ho : (s.near i).outOfService = false) (hdue : (s.near i).remapDue row why = false) (r : Bool) :
    exec (.rowRemap i row why r lost) s = .next (s.rowCounted i row why) := by
  rw [exec_rowRemap hl ho, hdue]
  rfl

end

/-- Settles O39: a queued write that is done by `doPut_leaves`, a wait that ends by the first write that may go, a row by `rowCounted`,
`repaired` or `pends` and the granules `rowLost` (log entry 36). -/
theorem fallowAndRemaps : Obligations.FallowAndRemaps := by
  unfold Obligations.FallowAndRemaps
  intro s hl able
  refine ⟨fun i x hx hb hable => ⟨fun hfits => ?_, fun hfits => ?_⟩, ?_, fun p i m a hm hsrc hspace hbytes hheld holder => ?_,
    fun i row why lost ho => ?_⟩
  · have hr : s.partNum x.p.core ∉ s.tx.recovering := by simpa [able] using hable
    obtain ⟨hmem, hqueue⟩ := s.doPut_leaves i x
    rw [exec_fallowWrite hl hx hb hr, if_pos hfits]
    exact .next ⟨hmem, .of_putAll hmem, hqueue⟩
  · have hr : s.partNum x.p.core ∉ s.tx.recovering := by simpa [able] using hable
    rw [exec_fallowWrite hl hx hb hr, if_neg (ne_true_of_eq_false hfits)]
    exact .next ⟨rfl, rfl⟩
  · intro ch i x mayGo hx hgo hfirst
    rw [exec_fallowChunkWaitEnd hl hx hgo hfirst]
    exact .next (s.doPut_leaves i x)
  · intro ks
    rw [exec_fallowRead hl hm hsrc hspace hbytes hheld holder]
    refine .next ⟨(State.served_bytes ..).1, ?_⟩
    have hctx : (s.served ks (s.classOf (s.partNum p.core))).ctx p = s.ctx p := by
      rw [State.served_tiers]
      rfl
    rw [State.ctx_updCtx_same, hctx]
  · intro due Lost
    obtain ⟨-, -, hcounted⟩ := s.rowCounted_keeps i row why
    refine ⟨fun hdue hfree => ?_, fun hdue hnew => ?_, fun k r hwhy hfew => ?_⟩
    · obtain ⟨t, ht, ⟨hnear, hmem, hmarked⟩, hremapped⟩ :=
        rowRemap_repairs (lost := lost) hl ho ((MemSt.remapDue_iff ..).mpr hdue) hfree
      refine ⟨t, ht, ?_, ?_, hremapped, hmem, hmarked⟩
      · rw [hnear, hcounted]
        rfl
      · rw [hnear]
        exact Tab.get_del_same ..
    · obtain ⟨t, ht, ⟨hnear, hmem, hmarked⟩, hremapped⟩ :=
        rowRemap_pends (lost := lost) hl ho ((MemSt.remapDue_iff ..).mpr hdue) hnew
      refine ⟨t, ht, ?_, hremapped, hmem, hmarked⟩
      rw [hnear, hcounted]
      rfl
    · subst hwhy
      have hdue : (s.near i).remapDue row (.corrections k) = false := decide_eq_false (Nat.not_le.mpr hfew)
      rw [rowRemap_counts hl ho hdue]
      exact .next ⟨s.near_updNear_same i (fun m => { m with rowErrs := m.rowErrs.upd 0 row (· + k) }), rfl, rfl⟩

end Sys2Proof.Machine
end

section
/-! PROOFS. Corrected summaries, merge intervals, scrubbing and repair (O40): what is posted and counted, what a sweep reads, what
becomes of a granule that is lost and of its repair (R291, R472, R474, R476 to R479). -/

namespace Sys2Proof.Machine

/-! ### Records that are posted (R471, R472) -/

/-- A posted record changes of the errors the log and its sequence alone. -/
theorem State.post_errs (s : State) (r : ErrRec) (parts : List Nat) : (s.post r parts).errs =
    { s.errs with
      log := pushLog s.errs.log { r with seq := s.errs.nextSeq, time := s.now }
      nextSeq := s.errs.nextSeq + 1
      readAll := false } := by
  unfold State.post
  refine List.foldlRecOn (motive := fun t : State => t.errs = _) _ _ rfl fun t ht n _ => ?_
  split
  · exact (State.ringPost_errs ..).trans ht
  · exact ht

/-- The hour's record of a unit that has corrected errors (R472). -/
def State.correctedPosted (s : State) (x : UnitRef × Nat) : State :=
  if x.2 = 0 then s else s.post { cls := 0x01, cause := 0x01, unit := unitCode x.1.kind, loc := BitVec.ofNat 32 x.1.index, count := x.2 } []

theorem exec_correctedSummary {s : State} (hl : s.live = true) (hh : s.errs.hourMark < s.now / 3600000000000) :
    exec .correctedSummary s = .next (s.errs.corrected.foldl State.correctedPosted
      { s with errs := { s.errs with corrected := [], hourMark := s.now / 3600000000000 } }) := by
  have hdue : (!s.live || decide (s.now / 3600000000000 ≤ s.errs.hourMark)) = false := by simp [hl, hh]
  change execCorrectedSummary s = _
  unfold execCorrectedSummary
  exact congrArg Host.Outcome.next (if_neg (ne_true_of_eq_false hdue))

/-- The hour's records: one for each unit that has corrected errors. -/
theorem correctedPosted_foldl (l : List (UnitRef × Nat)) (s : State) : BesidesReports s (l.foldl State.correctedPosted s)
    ∧ (l.foldl State.correctedPosted s).errs.corrected = s.errs.corrected ∧ (l.foldl State.correctedPosted s).errs.hourMark = s.errs.hourMark
    ∧ (l.foldl State.correctedPosted s).errs.nextSeq = s.errs.nextSeq + (l.filter (fun x => x.2 ≠ 0)).length := by
  induction l generalizing s with
  | nil => exact ⟨rfl, rfl, rfl, rfl⟩
  | cons x l ih =>
    obtain ⟨hreports, hcorrected, hhour, hseq⟩ := ih (s.correctedPosted x)
    rw [List.foldl_cons]
    by_cases hx : x.2 = 0
    · rw [show s.correctedPosted x = s from if_pos hx] at hreports hcorrected hhour hseq ⊢
      exact ⟨hreports, hcorrected, hhour, by rw [hseq, List.filter_cons_of_neg (by simpa using hx)]⟩
    · have hpost : s.correctedPosted x = s.post _ [] := if_neg hx
      have herrs := s.post_errs { cls := 0x01, cause := 0x01, unit := unitCode x.1.kind, loc := BitVec.ofNat 32 x.1.index, count := x.2 } []
      rw [← hpost] at herrs
      refine ⟨(hpost ▸ post_reports ..).trans hreports, by rw [hcorrected, herrs], by rw [hhour, herrs], ?_⟩
      rw [hseq, herrs, List.filter_cons_of_pos (by simpa using hx), List.length_cons, Nat.add_right_comm]
      rfl

/-! ### Merge intervals (R472) -/

section
variable {s : State} {u : UnitRef} {c : Nat} {m : Merge}

theorem exec_discardMergeIntervalEnd (hl : s.live = true) (hm : s.errs.merges.find? (fun m => m.unit = u && m.cause = c) = some m)
    (hend : m.until_ ≤ s.now) : exec (.discardMergeIntervalEnd u c) s = .next (if m.count = 0
      then { s with errs := { s.errs with merges := s.errs.merges.filter (· ≠ m) } } else s.postMerge m) := by
  have hover : (!s.live || decide (s.now < m.until_)) = false := by simp [hl, hend]
  change execDiscardMergeIntervalEnd u c s = _
  unfold execDiscardMergeIntervalEnd
  rw [hm]
  exact congrArg Host.Outcome.next (if_neg (ne_true_of_eq_false hover))

/-- The intervals of a unit and cause begin anew (R472). -/
def Merge.renewed (x m : Merge) (now : Nat) : Merge :=
  if x.unit = m.unit && x.cause = m.cause then { x with count := 0, until_ := now + 1000000 } else x

theorem Merge.renewed_of_match {x m : Merge} (hu : (x.renewed m now).unit = m.unit) (hc : (x.renewed m now).cause = m.cause) :
    (x.renewed m now).count = 0 ∧ (x.renewed m now).until_ = now + 1000000 := by
  by_cases h : (x.unit = m.unit && x.cause = m.cause) = true
  · rw [show x.renewed m now = { x with count := 0, until_ := now + 1000000 } from if_pos h]
    exact ⟨rfl, rfl⟩
  · rw [show x.renewed m now = x from if_neg h] at hu hc
    exact absurd (by simp [hu, hc]) h

theorem State.postMerge_errs (s : State) (m : Merge) : (s.postMerge m).errs.merges = s.errs.merges.map (fun x => x.renewed m s.now)
    ∧ (s.postMerge m).errs.nextSeq = s.errs.nextSeq + 1 := by
  unfold State.postMerge
  rw [State.post_errs]
  exact ⟨rfl, rfl⟩

end

/-! ### Sweeps of a scrubber (R291, R476) -/

section
variable {s t : State} {tier : Nat}

theorem State.updScrub_errs (s : State) (tier : Nat) (f : Scrub → Scrub) : s.updScrub tier f = { s with errs := (s.updScrub tier f).errs }
    ∧ (s.updScrub tier f).errs.corrected = s.errs.corrected ∧ (s.updScrub tier f).errs.nextSeq = s.errs.nextSeq := by
  unfold State.updScrub
  split
  · exact ⟨rfl, rfl, rfl⟩
  · split <;> exact ⟨rfl, rfl, rfl⟩

theorem State.scrub_updScrub (s : State) (tier : Nat) (f : Scrub → Scrub) : (s.updScrub tier f).scrub tier = f (s.scrub tier) := by
  unfold State.updScrub State.scrub
  split
  · rfl
  · split <;> rfl

theorem State.scrub_of_errs (h : t.errs = s.errs) (tier : Nat) : t.scrub tier = s.scrub tier := by
  unfold State.scrub
  rw [h]

/-- A sweep is due: none has run, or the last one is through and its period is over (R476). -/
def State.sweepDue (s : State) (tier : Nat) : Bool :=
  !(s.scrub tier).active || (s.sweptAll tier && (s.scrub tier).startedAt + (s.scrub tier).periodH * 3600000000000 ≤ s.now)

/-- The corrected errors of every row of every stack count anew (R291). -/
def State.rowsAnew (s : State) : State :=
  { s with tiers := { s.tiers with nears := s.tiers.nears.map (fun x => (x.1, { x.2 with rowErrs := [] })) } }

theorem exec_scrubSweepStart (hl : s.live = true) (ht : tier < 3) (he : (s.scrub tier).enable = true) :
    exec (.scrubSweepStart tier) s = .next (if s.sweepDue tier then
      let v := s.updScrub tier (fun x => { x with active := true, startedAt := s.now, seen := [] })
      if tier = 1 then v.rowsAnew else v
    else s) := by
  have hcond : (s.live && tier < 3 && (s.scrub tier).enable && s.sweepDue tier) = s.sweepDue tier := by simp [hl, ht, he]
  change execScrubSweepStart tier s = _
  rw [← hcond]
  rfl

theorem State.rowErrs_rowsAnew (s : State) (i : Nat) : (s.rowsAnew.near i).rowErrs = [] := by
  have h : s.rowsAnew.near i = { s.near i with rowErrs := [] } :=
    Tab.get_map (fun m : MemSt => { m with rowErrs := [] }) {} rfl s.tiers.nears i
  rw [h]

end

/-! ### Granules -/

/-- The keys of a granule's bytes. -/
def granKeys (g : Nat) : List Nat := (List.range (granSize g)).map (g + ·)

theorem granSize_cases (g : Nat) : granSize g = 8 ∨ granSize g = 32 ∨ granSize g = 64 := by
  unfold granSize
  split_ifs <;> simp

theorem granSize_of_region {g k : Nat} (h : keyRegion k = keyRegion g) : granSize k = granSize g := by
  unfold granSize
  rw [h]

theorem granule_eq_self_iff (g : Nat) : granule g = g ↔ g % granSize g = 0 := by
  have hle := Nat.mod_le g (granSize g)
  unfold granule
  omega

/-- Every byte of a granule has that granule (R474). -/
theorem granule_add {g i : Nat} (hg : granule g = g) (hi : i < granSize g) : granule (g + i) = g := by
  rw [granule_eq_self_iff] at hg
  have hregion : keyRegion (g + i) = keyRegion g := by
    unfold keyRegion
    rcases granSize_cases g with h | h | h <;> rw [h] at hg hi <;> omega
  unfold granule
  rw [granSize_of_region hregion]
  rcases granSize_cases g with h | h | h <;> rw [h] at hg hi ⊢ <;> omega

theorem granule_of_mem_granKeys {g k : Nat} (hg : granule g = g) (hk : k ∈ granKeys g) : granule k = g := by
  obtain ⟨i, hi, rfl⟩ := List.mem_map.mp hk
  exact granule_add hg (List.mem_range.mp hi)

/-- A write of a whole granule clears its mark (R474). -/
theorem not_mem_poisonAfter_granKeys {g : Nat} (hg : granule g = g) (ps : List Nat) : g ∉ poisonAfter ps (granKeys g) false := by
  have hgran : (granKeys g).map granule = List.replicate (granSize g) g := by
    refine List.eq_replicate_iff.mpr ⟨by simp [granKeys], fun k hk => ?_⟩
    obtain ⟨j, hj, rfl⟩ := List.mem_map.mp hk
    exact granule_of_mem_granKeys hg hj
  have hsize : granSize g ≠ 0 := by rcases granSize_cases g with h | h | h <;> omega
  have hwhole : ((granKeys g).filter (fun k => granule k = g)).dedup.length = granSize g := by
    have hnodup : (granKeys g).Nodup := List.nodup_range.map (fun a b h => Nat.add_left_cancel h)
    rw [List.filter_eq_self.mpr (fun k hk => by simpa using granule_of_mem_granKeys hg hk), hnodup.dedup]
    simp [granKeys]
  unfold poisonAfter
  rw [hgran, List.replicate_dedup hsize, List.foldl_cons, List.foldl_nil, if_neg (by decide), if_pos hwhole]
  simp

/-! ### SCRUB_GRANULE (R476, R477) -/

section
variable {s : State} {tier g : Nat}

/-- Counting the bytes served changes of a stack's record those counts alone (R305). -/
theorem State.served_near (s : State) (ks : List Nat) (cls k : Nat) :
    (s.served ks cls).near k = { s.near k with bytes := ((s.served ks cls).near k).bytes } := by
  unfold State.served
  dsimp only
  refine List.foldlRecOn (motive := fun t : State => t.near k = { s.near k with bytes := (t.near k).bytes }) _ _ ?_ (fun t ht _ _ => ht)
  refine List.foldlRecOn (motive := fun t : State => t.near k = { s.near k with bytes := (t.near k).bytes }) _ _ rfl (fun t ht i _ => ?_)
  by_cases hk : k = i
  · subst hk
    rw [State.near_updNear_same, ht]
  · rw [State.near_updNear_ne _ _ _ hk]
    exact ht

/-- A granule has been read in the sweep (R476). -/
def State.granuleRead (s : State) (tier g : Nat) : State :=
  (s.updScrub tier (fun x => { x with seen := insertNat x.seen g })).served (granKeys g) 3

/-- The read granule had a corrected error (R291, R472). -/
def State.granuleCorrected (s : State) (g : Nat) : State :=
  let v := (s.served (granKeys g) 3).countCorrected (unitAt g) 1
  if keyRegion g = 4 then v.rowErrors (unitAt g).index (Config.dramRow (unitAt g).index ((g - 4 * 2 ^ 60) % 2 ^ 36)) 1 else v

/-- The record of a granule that scrubbing found lost (R477). -/
def State.lossRec (s : State) (g : Nat) : ErrRec :=
  { cls := 0x02, cause := 0x02, unit := unitCode (unitAt g).kind, loc := BitVec.ofNat 32 (unitAt g).index, addr := s.addrOf g,
    tbl := BitVec.ofNat 32 (((s.objAt g).bind s.rowOf).getD (0, 0)).1, detail := BitVec.ofNat 64 (((s.objAt g).bind s.rowOf).getD (0, 0)).2 }

/-- The read granule could not be corrected (R477). -/
def State.granuleLost (s : State) (g : Nat) : State :=
  let v := (s.lose g).post (s.lossRec g) []
  { v with errs := { v.errs with repairs := addOnce v.errs.repairs g } }

/-- A granule of the tier that a running sweep has not read yet. -/
structure State.Unread (s : State) (tier g : Nat) : Prop where
  enable : (s.scrub tier).enable = true
  active : (s.scrub tier).active = true
  region : keyRegion g = tierRegion tier
  first : granule g = g
  unseen : g ∉ (s.scrub tier).seen

theorem exec_scrubGranule (hl : s.live = true) (h : s.Unread tier g) (found : Found) :
    exec (.scrubGranule tier g found) s = .next (match found with
      | .clean => s.granuleRead tier g
      | .corrected => (s.granuleRead tier g).granuleCorrected g
      | .uncorrectable => if g ∈ (s.granuleRead tier g).poison then s.granuleRead tier g else (s.granuleRead tier g).granuleLost g) := by
  obtain ⟨henable, hactive, hregion, hfirst, hunseen⟩ := h
  have hreads : (!s.live || !(s.scrub tier).enable || !(s.scrub tier).active || keyRegion g ≠ tierRegion tier || granule g ≠ g
      || g ∈ (s.scrub tier).seen) = false := by simp [hl, henable, hactive, hregion, hfirst, hunseen]
  change execScrubGranule tier g found s = _
  unfold execScrubGranule
  refine congrArg Host.Outcome.next ((if_neg (ne_true_of_eq_false hreads)).trans ?_)
  cases found <;> rfl

theorem exec_scrubGranule_seen (h : g ∈ (s.scrub tier).seen) (found : Found) : exec (.scrubGranule tier g found) s = .next s := by
  change execScrubGranule tier g found s = _
  unfold execScrubGranule
  exact congrArg Host.Outcome.next (if_pos (by simp [h]))

/-- Reading a granule notes it in the sweep and counts its bytes (R305, R476). -/
theorem State.granuleRead_leaves (s : State) (tier g : Nat) : s.granuleRead tier g =
      { s with errs := (s.granuleRead tier g).errs, tiers := (s.granuleRead tier g).tiers }
    ∧ (s.granuleRead tier g).scrub tier = { s.scrub tier with seen := insertNat (s.scrub tier).seen g }
    ∧ (s.granuleRead tier g).errs.corrected = s.errs.corrected ∧ (s.granuleRead tier g).errs.nextSeq = s.errs.nextSeq
    ∧ ∀ k, ((s.granuleRead tier g).near k).rowErrs = (s.near k).rowErrs := by
  obtain ⟨hrest, hcorrected, hseq⟩ := s.updScrub_errs tier (fun x => { x with seen := insertNat x.seen g })
  have hscrub := s.scrub_updScrub tier (fun x => { x with seen := insertNat x.seen g })
  unfold State.granuleRead
  generalize s.updScrub tier (fun x => { x with seen := insertNat x.seen g }) = v at hrest hcorrected hseq hscrub ⊢
  have hserved := v.served_tiers (granKeys g) 3
  have herrs : (v.served (granKeys g) 3).errs = v.errs := by rw [hserved]
  refine ⟨?_, (State.scrub_of_errs herrs tier).trans hscrub, by rw [herrs, hcorrected], by rw [herrs, hseq], fun k => ?_⟩
  · rw [hserved, hrest]
  · have hnear : v.near k = s.near k := by rw [hrest]; rfl
    rw [State.served_near, hnear]

/-- A unit's corrected errors of the hour after further ones (R472). -/
theorem State.correctedOf_countCorrected (s : State) (u : UnitRef) (k : Nat) :
    ((s.countCorrected u k).errs.corrected.find? (fun x => x.1 = u)).map (·.2)
      = some (((s.errs.corrected.find? (fun x => x.1 = u)).map (·.2)).getD 0 + k) := by
  have hgone : (s.errs.corrected.filter (fun x => x.1 ≠ u)).find? (fun x => x.1 = u) = none := by
    rw [List.find?_eq_none]
    intro x hx
    simpa using (List.mem_filter.mp hx).2
  unfold State.countCorrected
  dsimp only
  rw [List.find?_append, hgone]
  simp

theorem State.granuleCorrected_leaves (s : State) (g : Nat) : (s.granuleCorrected g).mem = s.mem
    ∧ (s.granuleCorrected g).errs = ((s.served (granKeys g) 3).countCorrected (unitAt g) 1).errs
    ∧ (keyRegion g = 4 → let k := (unitAt g).index
        let row := Config.dramRow k ((g - 4 * 2 ^ 60) % 2 ^ 36)
        ((s.granuleCorrected g).near k).rowErrs.get 0 row = (s.near k).rowErrs.get 0 row + 1) := by
  have hmem : ((s.served (granKeys g) 3).countCorrected (unitAt g) 1).mem = s.mem := (State.served_bytes ..).1
  unfold State.granuleCorrected
  dsimp only
  split
  next h =>
    refine ⟨hmem, rfl, fun _ => ?_⟩
    unfold State.rowErrors
    rw [State.near_updNear_same]
    have hnear : ((s.served (granKeys g) 3).countCorrected (unitAt g) 1).near (unitAt g).index = (s.served (granKeys g) 3).near (unitAt g).index := rfl
    rw [hnear, State.served_near]
    exact Tab.get_set_same ..
  next h => exact ⟨hmem, rfl, fun h4 => absurd h4 h⟩

/-- A lost granule is marked and queued for repair, every byte of another granule is as it was (R474, R477). -/
theorem State.granuleLost_leaves {s : State} {g : Nat} (hg : granule g = g) : g ∈ (s.granuleLost g).poison
    ∧ g ∈ (s.granuleLost g).errs.repairs ∧ (s.granuleLost g).errs.nextSeq = s.errs.nextSeq + 1
    ∧ ∀ k, granule k ≠ g → Memory.get (s.granuleLost g).mem k = Memory.get s.mem k := by
  obtain ⟨hmem, hpoison, -, -⟩ := (s.lose g).post_keeps (s.lossRec g) []
  refine ⟨?_, mem_addOnce .., State.post_nextSeq .., fun k hk => ?_⟩
  · change g ∈ ((s.lose g).post (s.lossRec g) []).poison
    rw [hpoison, State.lose_poison, hg]
    exact (mem_insertNat _ _ _).mpr (.inl rfl)
  · change Memory.get ((s.lose g).post (s.lossRec g) []).mem k = _
    rw [hmem]
    refine Memory.get_putAll_ne _ _ _ fun x hx hkey => hk ?_
    obtain ⟨i, hi, rfl⟩ := List.mem_map.mp hx
    rw [← hkey]
    dsimp only
    rw [hg]
    exact granule_add hg (List.mem_range.mp hi)

end

/-! ### SCRUB_REPAIR (R257, R478, R479) -/

section
variable {s t u : State} {g n : Nat}

/-- The partition whose bytes a granule holds: its object's, or its turf slice's. -/
def State.repairPart (s : State) (g : Nat) : Nat :=
  match s.objAt g with
  | some y => y.part
  | none => s.partNum ((g - 2 ^ 60) / sliceBytes)

/-- The row that the record of a granule's repair names. -/
def State.repairRow (s : State) (g : Nat) : Nat := (((s.objAt g).bind s.rowOf).map (·.2)).getD 0

/-- A granule's repair is over (R479). -/
def State.repairDone (s : State) (g : Nat) : State :=
  { s with errs := { s.errs with repairs := s.errs.repairs.filter (· ≠ g) } }

/-- The record of a repair that has ended (R478, R479). -/
def State.repairRecorded (s : State) (g c row : Nat) : State :=
  s.post { cls := 0x03, cause := BitVec.ofNat 8 c, unit := unitCode (unitAt g).kind, loc := BitVec.ofNat 32 (unitAt g).index,
           addr := s.addrOf g, detail := BitVec.ofNat 64 row } []

/-- The copies of an object's rows hold what the repair wrote (R203). -/
def State.copiesRepaired (s : State) (n g : Nat) : Option ObjAt → State
  | some y => if y.obj.kind = 1 then s.refreshCopies n y.obj.table (granKeys g) else s
  | none => s

/-- A granule's repair commits the bytes of its source (R257, R478). -/
def State.repairCommitted (s : State) (n g : Nat) (l : List Byte) : State :=
  let v := (((s.repairDone g).writeKeys (granKeys g) l false).notePools (granKeys g)).copiesRepaired n g (s.objAt g)
  v.redigest n (v.coverOf n (s.addrOf g) (granKeys g).length)

/-- Bytes, marks and what waits for repair are as they were. -/
structure SameRepairs (s t : State) : Prop where
  mem : t.mem = s.mem
  poison : t.poison = s.poison
  repairs : t.errs.repairs = s.errs.repairs

theorem SameRepairs.refl (s : State) : SameRepairs s s := ⟨rfl, rfl, rfl⟩

theorem SameRepairs.trans (h : SameRepairs s t) (k : SameRepairs t u) : SameRepairs s u :=
  ⟨k.mem.trans h.mem, k.poison.trans h.poison, k.repairs.trans h.repairs⟩

theorem post_sameRepairs (s : State) (r : ErrRec) (l : List Nat) : SameRepairs s (s.post r l) := by
  obtain ⟨hmem, hpoison, -, -⟩ := s.post_keeps r l
  exact ⟨hmem, hpoison, by rw [State.post_errs]⟩

theorem notePool_sameRepairs (s : State) (ch : Nat) : SameRepairs s (s.notePool ch) := by
  have hnote (b : Bool) (v : State) (r : ErrRec) (l : List Nat) : SameRepairs v (if b then v.post r l else v) := by
    split
    · exact post_sameRepairs ..
    · exact .refl v
  unfold State.notePool
  extract_lets used pool hi top x note high full
  have hfull : SameRepairs s full := (hnote _ s _ _).trans (hnote _ high _ _)
  split
  · exact hfull
  · exact hfull.trans ⟨rfl, rfl, rfl⟩

theorem notePools_sameRepairs (s : State) (ks : List Nat) : SameRepairs s (s.notePools ks) :=
  List.foldlRecOn (motive := SameRepairs s) _ _ (.refl s) (fun _ hv ch _ => hv.trans (notePool_sameRepairs _ ch))

theorem copiesRepaired_sameRepairs (s : State) (n g : Nat) (x : Option ObjAt) : SameRepairs s (s.copiesRepaired n g x) := by
  unfold State.copiesRepaired
  split
  · split <;> exact ⟨rfl, rfl, rfl⟩
  · exact .refl s

theorem redigest_sameRepairs (s : State) (n : Nat) (l : List Nat) : SameRepairs s (s.redigest n l) :=
  List.foldlRecOn (motive := SameRepairs s) _ _ (.refl s) (fun v hv i _ => by
    split
    · exact hv
    · exact hv.trans ⟨rfl, rfl, rfl⟩)

/-- A repair that has no bytes to write ends with its record (R479). -/
theorem repairDone_recorded (s : State) (g c row : Nat) : ((s.repairDone g).repairRecorded g c row).mem = s.mem
    ∧ ((s.repairDone g).repairRecorded g c row).poison = s.poison
    ∧ ((s.repairDone g).repairRecorded g c row).errs.repairs = s.errs.repairs.filter (· ≠ g) := by
  obtain ⟨hmem, hpoison, hrepairs⟩ := post_sameRepairs (s.repairDone g) _ []
  exact ⟨hmem, hpoison, hrepairs⟩

/-- A repair that commits has written its source's bytes and cleared the granule's mark (R474, R478). -/
theorem State.repairCommitted_leaves {s : State} {g : Nat} (hg : granule g = g) (n : Nat) (l : List Byte) :
    (s.repairCommitted n g l).mem = Memory.putAll s.mem (List.zip (granKeys g) l) ∧ g ∉ (s.repairCommitted n g l).poison
      ∧ (s.repairCommitted n g l).errs.repairs = s.errs.repairs.filter (· ≠ g) := by
  obtain ⟨hmem, hpoison, hrepairs⟩ := ((notePools_sameRepairs ((s.repairDone g).writeKeys (granKeys g) l false) (granKeys g)).trans
    (copiesRepaired_sameRepairs _ n g (s.objAt g))).trans (redigest_sameRepairs _ n _)
  have hwritten : ((s.repairDone g).writeKeys (granKeys g) l false).poison = poisonAfter s.poison (granKeys g) false
      ∧ ((s.repairDone g).writeKeys (granKeys g) l false).errs = (s.repairDone g).errs := by
    unfold State.writeKeys
    dsimp only
    split <;> exact ⟨rfl, rfl⟩
  refine ⟨hmem.trans (State.writeKeys_mem ..), ?_, hrepairs.trans (congrArg ErrState.repairs hwritten.2)⟩
  rw [show (s.repairCommitted n g l).poison = _ from hpoison, hwritten.1]
  exact not_mem_poisonAfter_granKeys hg s.poison

theorem exec_scrubRepair (hl : s.live = true) (hg : g ∈ s.errs.repairs) (peer : Option PeerBlock) :
    exec (.scrubRepair g peer) s = .next (if g ∉ s.poison then (s.repairDone g).repairRecorded g 5 (s.repairRow g)
      else match s.repairSource (s.repairPart g) (s.addrOf g) (granKeys g) peer with
        | none => (s.repairDone g).repairRecorded g 6 (s.repairRow g)
        | some (c, l) => if s.repairPart g ∈ s.tx.recovering || !s.gateOpen || !s.fallowFits (granKeys g) l then s
          else (s.repairCommitted (s.repairPart g) g l).repairRecorded g c (s.repairRow g)) := by
  have hqueued : (!s.live || decide (g ∉ s.errs.repairs)) = false := by simp [hl, hg]
  change execScrubRepair g peer s = _
  unfold execScrubRepair
  exact congrArg Host.Outcome.next (if_neg (ne_true_of_eq_false hqueued))

end

/-- Settles O40: posts by `post_errs`, a sweep by `sweepDue`, a granule by what the scrubber found (which granules a sweep reads: log
entry 67), a repair by its source; merge windows: log entry 48, repairs: log entry 49. -/
theorem scrubbingAndMerging : Obligations.ScrubbingAndMerging := by
  unfold Obligations.ScrubbingAndMerging
  intro s hl
  refine ⟨fun hh => ?_, fun u c m hm hend => ?_, fun tier ht he => ?_, fun tier g found hseen => exec_scrubGranule_seen hseen found,
    fun tier g he ha hr hg hunseen => ?_, fun g peer hqueued => ⟨fun hclean => ?_, fun hlost n hn => ?_⟩⟩
  case refine_1 =>
    rw [exec_correctedSummary hl hh]
    obtain ⟨hreports, hcorrected, hhour, hseq⟩ := correctedPosted_foldl s.errs.corrected
      { s with errs := { s.errs with corrected := [], hourMark := s.now / 3600000000000 } }
    have hhours : BesidesReports s { s with errs := { s.errs with corrected := [], hourMark := s.now / 3600000000000 } } := rfl
    exact .next ⟨hcorrected, hhour, hhours.trans hreports, hseq⟩
  case refine_2 =>
    rw [exec_discardMergeIntervalEnd hl hm hend]
    by_cases hcount : m.count = 0
    · rw [if_pos hcount]
      exact .next ⟨rfl, by rw [if_pos hcount]; exact ⟨rfl, rfl⟩⟩
    · obtain ⟨hmerges, hseq⟩ := s.postMerge_errs m
      have hmatch := List.find?_some hm
      simp only [Bool.and_eq_true, decide_eq_true_eq] at hmatch
      obtain ⟨rfl, rfl⟩ := hmatch
      rw [if_neg hcount]
      refine .next ⟨postMerge_reports .., ?_⟩
      rw [if_neg hcount, hmerges]
      refine ⟨hseq, fun x hx hu hc => ?_⟩
      obtain ⟨y, -, rfl⟩ := List.mem_map.mp hx
      exact Merge.renewed_of_match hu hc
  case refine_3 =>
    intro x
    rw [exec_scrubSweepStart hl ht he]
    refine ⟨fun hdue => ?_, fun hactive hunswept => ?_⟩
    · have hsweep : s.sweepDue tier = true := by
        unfold State.sweepDue
        simpa using hdue
      have hscrub := s.scrub_updScrub tier (fun x => { x with active := true, startedAt := s.now, seen := [] })
      obtain ⟨hrest, -, -⟩ := s.updScrub_errs tier (fun x => { x with active := true, startedAt := s.now, seen := [] })
      rw [if_pos hsweep]
      dsimp only
      generalize s.updScrub tier (fun x => { x with active := true, startedAt := s.now, seen := [] }) = v at hscrub hrest ⊢
      by_cases h1 : tier = 1
      · rw [if_pos h1]
        refine .next ⟨?_, hscrub, fun hne => absurd h1 hne, fun _ => v.rowErrs_rowsAnew⟩
        unfold State.rowsAnew
        rw [hrest]
      · rw [if_neg h1]
        exact .next ⟨by rw [hrest], hscrub, fun _ => by rw [hrest], fun h => absurd h h1⟩
    · have hsweep : s.sweepDue tier = false := by
        unfold State.sweepDue
        simp [show (s.scrub tier).active = true from hactive, hunswept]
      rw [if_neg (ne_true_of_eq_false hsweep)]
  case refine_4 =>
    have hunread : s.Unread tier g := ⟨he, ha, hr, hg, hunseen⟩
    obtain ⟨hrest, hscrub, hcorrected, hseq, hrows⟩ := s.granuleRead_leaves tier g
    have hmem : (s.granuleRead tier g).mem = s.mem := by rw [hrest]
    have hpoison : (s.granuleRead tier g).poison = s.poison := by rw [hrest]
    refine ⟨?_, ?_, fun hclean => ?_⟩ <;> rw [exec_scrubGranule hl hunread]
    · exact .next ⟨hrest, hscrub⟩
    · obtain ⟨hm, herrs, hrow⟩ := (s.granuleRead tier g).granuleCorrected_leaves g
      refine .next ⟨hm.trans hmem, fun h4 => (hrow h4).trans (by rw [hrows]), ?_⟩
      dsimp only
      rw [herrs, State.correctedOf_countCorrected, State.served_tiers, hcorrected]
    · obtain ⟨hmarked, hrepairs, hposted, hbytes⟩ := State.granuleLost_leaves (s := s.granuleRead tier g) hg
      dsimp only
      rw [hpoison, if_neg hclean]
      refine .next ⟨hmarked, hrepairs, by rw [hposted, hseq], fun k hk => ?_⟩
      rw [hbytes k hk, hmem]
  case refine_5 =>
    obtain ⟨hmem, -, hrepairs⟩ := repairDone_recorded s g 5 (s.repairRow g)
    rw [exec_scrubRepair hl hqueued, if_pos hclean]
    exact .next ⟨hmem, hrepairs⟩
  case refine_6 =>
    have hpart : s.repairPart g = n := hn
    intro ks
    rw [exec_scrubRepair hl hqueued, if_neg (not_not_intro hlost), hpart]
    refine ⟨fun hnone => ?_, fun c l hsource hrec hgate hfits hg => ?_⟩
    · rw [show s.repairSource n (s.addrOf g) (granKeys g) peer = none from hnone]
      exact .next (repairDone_recorded s g 6 (s.repairRow g))
    · have hready : (n ∈ s.tx.recovering || !s.gateOpen || !s.fallowFits (granKeys g) l) = false := by
        rw [show s.fallowFits (granKeys g) l = true from hfits]
        simp [hrec, hgate]
      obtain ⟨hmem, hclean, hrepairs⟩ := State.repairCommitted_leaves (s := s) hg n l
      obtain ⟨hm, hp, hr⟩ := post_sameRepairs (s.repairCommitted n g l) _ []
      rw [show s.repairSource n (s.addrOf g) (granKeys g) peer = some (c, l) from hsource]
      dsimp only
      rw [if_neg (ne_true_of_eq_false hready)]
      exact .next ⟨hm.trans hmem, fun h => hclean (hp ▸ h), hr.trans hrepairs⟩

end Sys2Proof.Machine
end

section
/-! PROOFS. A fragment of a record that its ring cannot hold tears the stream, so not every fragment that comes in order is stored (O50,
R457, R460). -/

namespace Sys2Proof.Machine

/-! ### RECORD_FRAGMENT of a record that is too long (R460) -/

section
variable {s : State} {n k port : Nat} {d : Datagram} {x : Stream} {r : PartialRec}

theorem State.stream_updStream (s : State) (n k : Nat) (f : Stream → Stream) : (s.updStream n k f).stream n k = (s.stream n k).map f := by
  unfold State.updStream
  split
  next x hx => rw [hx]; exact Tab.find_set_same ..
  next hx => rw [hx]; rfl

theorem State.stream_streamCount (s : State) (m i n k : Nat) : (s.streamCount m i).stream n k = s.stream n k := rfl

/-- A torn stream has no record in parts (R460). -/
theorem State.partialRec_tearStream (s : State) (n k seq : Nat) : ((s.tearStream n k seq).stream n k).bind (·.partialRec) = none := by
  unfold State.tearStream
  rw [State.stream_updStream]
  cases s.stream n k <;> rfl

/-- A fragment of the record in parts whose length the ring cannot hold is not stored: the stream is torn (R460). -/
theorem recordFragment_tears (hl : s.live = true) (haddr : s.addressed port d (fld (s.nport port).udp.toNat 15 0) = true)
    (hwhole : d.fragmented = false) (hok : fragOk d.payload = true)
    (hx : s.stream (leAt d.payload 6 1) (fragOf d.payload).stream = some x) (hr : x.partialRec = some r)
    (hnew : (fragOf d.payload).seq ∉ x.discarded) (hseq : (fragOf d.payload).seq = r.seq) (hlong : x.size < (fragOf d.payload).recLen + 64) :
    Completes (exec (.recordFragment port d) s) (fun t =>
      (t.stream (leAt d.payload 6 1) (fragOf d.payload).stream).bind (·.partialRec) = none) := by
  have hexec : exec (.recordFragment port d) s = .next (((s.updStream (leAt d.payload 6 1) (fragOf d.payload).stream
      (fun y => { y with port := port, route := routeOf port d })).tearStream (leAt d.payload 6 1) (fragOf d.payload).stream r.seq).streamCount
      (leAt d.payload 6 1) 5) := by
    change execRecordFragment port d s = _
    unfold execRecordFragment
    simp only [hl, haddr, hwhole, hok, hx, hr, if_neg hnew, if_pos hseq, if_pos hlong]
    rfl
  rw [hexec]
  exact .next (State.partialRec_tearStream ..)

end

/-! ### The counterexample -/

/-- Record 9 of 192 bytes, whose first 64 have come. -/
def halfRecord : PartialRec := { seq := 9, length := 192, next := 64, at_ := 0, first := 0, last := 0 }

/-- A stream with that record in parts, in a ring of 128 bytes. -/
def shortStream : Stream := { die := 0, offset := 0, size := 128, pair := 0, partialRec := some halfRecord }

/-- Network port 7 is up, and partition 0 has that stream, its number 0. -/
def shortRingState : State :=
  { State.reset with net := { State.reset.net with ports := [(7, { up := true, ip4 := 1 })], streams := [(0, shortStream)] } }

/-- The next byte of the record, in its fragment (R457). -/
def halfRecordFrag : List Byte :=
  leBytes 4 0x534C5253 ++ leBytes 4 1 ++ leBytes 4 0 ++ leBytes 4 1 ++ leBytes 8 9 ++ leBytes 4 192 ++ leBytes 4 64 ++ List.replicate 32 0 ++ [7]

/-- That fragment as it comes to port 7. -/
def halfRecordDgram : Datagram :=
  { fragmented := false, ipv := 4, vlan := 0, clientPort := 0, ownPort := 0x4C41, clientIp := [0, 0, 0, 0], ownIp := [0, 0, 0, 1],
    mac := [0, 0, 0, 0, 0, 0], payload := halfRecordFrag }

/-- The fragment comes in order, and the ring cannot hold its record. -/
theorem shortRing_takes : let f := fragOf halfRecordFrag
    shortRingState.live = true ∧ shortRingState.addressed 7 halfRecordDgram (fld (shortRingState.nport 7).udp.toNat 15 0) = true
      ∧ fragOk halfRecordFrag = true ∧ f.stream = 0 ∧ leAt halfRecordFrag 6 1 = 0 ∧ shortRingState.stream 0 0 = some shortStream
      ∧ f.seq ∉ shortStream.discarded ∧ f.seq = halfRecord.seq ∧ f.recLen = halfRecord.length ∧ f.off = halfRecord.next
      ∧ f.off + f.len < halfRecord.length ∧ shortStream.size < f.recLen + 64 := by decide

/-- Refutes O50: the clause of a fragment in order does not ask that the record fits its ring, and in `shortRingState` it does not fit:
the fragment tears the stream and the record in parts is gone (R460). The command itself never begins a record that does not fit. -/
theorem not_networkTraffic : ¬ Obligations.NetworkTraffic := by
  unfold Obligations.NetworkTraffic
  intro h
  obtain ⟨hlive, haddr, hok, hstream, hpart, hx, hnew, hseq, hlen, hoff, hpartial, hlong⟩ := shortRing_takes
  obtain ⟨-, -, -, -, -, hfragment, -⟩ := h shortRingState hlive
  have hx' : shortRingState.stream (leAt halfRecordFrag 6 1) 0 = some shortStream := by rw [hpart, hx]
  obtain ⟨hstored, -⟩ := hfragment 7 halfRecordDgram 0 shortStream haddr rfl hok hstream hx' hnew
  obtain ⟨t, ht, -, hkept⟩ := hstored halfRecord rfl hseq hlen hoff hpartial
  obtain ⟨u, hu, hgone⟩ := recordFragment_tears (d := halfRecordDgram) hlive haddr rfl hok (by rw [← hx', ← hstream]; rfl) rfl hnew hseq hlong
  obtain rfl : t = u := outcome_next_inj (ht.symm.trans hu)
  rw [show (fragOf halfRecordDgram.payload).stream = 0 from hstream] at hgone
  exact nomatch hkept.symm.trans hgone

end Sys2Proof.Machine
end

section
/-! PROOFS. SYNC_STORE_OPERATION: what the store of a die does with a flag, a counter pair, a read and a wait (R306, R311 to R315). -/

namespace Sys2Proof.Machine

section
variable {s t u : State} {die i id k : Nat} {consumed : Bool} {op : SyncOp} {p : At}

/-! ### Waiters whose condition holds are woken (R313) -/

/-- Every waiter of `s` whose condition holds in `t` has its wake there and waits no more; every other one still waits. -/
def WakesMet (s t : State) : Prop :=
  ∀ w ∈ s.sync.waiters, if t.condMet w.cond then w ∉ t.sync.waiters ∧ w.p ∈ t.sync.wakes else w ∈ t.sync.waiters

theorem State.pair_of_sync (h : t.sync = s.sync) (x : Nat) : t.pair x = s.pair x := by
  unfold State.pair
  rw [h]

/-- A condition looks at flags, pairs and lines alone. -/
theorem State.condMet_congr (hflags : t.sync.flags = s.sync.flags) (hpairs : t.sync.pairs = s.sync.pairs) (hlines : t.sync.lines = s.sync.lines)
    (c : WaitCond) : t.condMet c = s.condMet c := by
  unfold State.condMet State.pair State.line
  rw [hflags, hpairs, hlines]

theorem WakesMet.of_sync (h : WakesMet s t) (hsync : u.sync = t.sync) : WakesMet s u := by
  intro w hw
  rw [State.condMet_congr (s := t) (t := u) (by rw [hsync]) (by rw [hsync]) (by rw [hsync]), hsync]
  exact h w hw

theorem wakeSatisfied_wakes (s : State) : WakesMet s s.wakeSatisfied := by
  intro w hw
  rw [State.condMet_congr (s := s) (t := s.wakeSatisfied) rfl rfl rfl]
  split
  next hmet =>
    refine ⟨fun hstays => ?_, List.mem_append_right _ (List.mem_map_of_mem (List.mem_filter.mpr ⟨hw, hmet⟩))⟩
    exact absurd hmet (by simpa using (List.mem_filter.mp hstays).2)
  next hunmet => exact List.mem_filter.mpr ⟨hw, by simpa using hunmet⟩

/-! ### Flags (R311) -/

/-- The flag written, before anyone is woken. -/
def State.flagged (s : State) (id : Nat) (v : Bool) : State :=
  { s with sync := { s.sync with flags := if v then insertNat s.sync.flags id else s.sync.flags.filter (· ≠ id) } }

/-- A flag that is set joins the set flags, one that is cleared leaves them. -/
theorem mem_flags_putFlag (s : State) (id : Nat) (v : Bool) (x : Nat) :
    x ∈ (s.putFlag id v).sync.flags ↔ if v then x = id ∨ x ∈ s.sync.flags else x ≠ id ∧ x ∈ s.sync.flags := by
  cases v with
  | true => exact mem_insertNat ..
  | false =>
    change x ∈ s.sync.flags.filter (· ≠ id) ↔ x ≠ id ∧ x ∈ s.sync.flags
    rw [List.mem_filter, decide_eq_true_iff, and_comm]

theorem putFlag_wakes (s : State) (id : Nat) (v : Bool) : WakesMet s (s.putFlag id v) := wakeSatisfied_wakes (s.flagged id v)

/-! ### Counter pairs (R314) -/

/-- A pair one of whose counters has risen by `k`, held at the limit. -/
def raisedPair (x : Nat × Nat) (k : Nat) (consumed : Bool) : Nat × Nat := if consumed then (x.1, sat64 (x.2 + k)) else (sat64 (x.1 + k), x.2)

/-- The pair `id` has risen, no other one, and whoever waited for that is woken; memory is as it was. -/
structure Raises (s t : State) (id k : Nat) (consumed : Bool) : Prop where
  mem : t.mem = s.mem
  wakes : WakesMet s t
  pairs : ∀ x, t.pair x = if x = id then raisedPair (s.pair id) k consumed else s.pair x

/-- What leaves memory and the sync stores alone passes through. -/
theorem Raises.of_sync (h : Raises s t id k consumed) (hmem : u.mem = t.mem) (hsync : u.sync = t.sync) : Raises s u id k consumed where
  mem := hmem.trans h.mem
  wakes := h.wakes.of_sync hsync
  pairs x := (State.pair_of_sync hsync x).trans (h.pairs x)

/-- The counter of a pair written, before anyone is woken. -/
def State.raised (s : State) (id k : Nat) (consumed : Bool) : State :=
  { s with sync := { s.sync with pairs := s.sync.pairs.set id (raisedPair (s.pair id) k consumed) } }

theorem State.pair_raised (s : State) (id k : Nat) (consumed : Bool) (x : Nat) :
    (s.raised id k consumed).pair x = if x = id then raisedPair (s.pair id) k consumed else s.pair x := by
  split
  next h =>
    rw [h]
    exact Tab.get_set_same ..
  next h => exact Tab.get_set_ne _ _ _ h

theorem raised_wakeSatisfied_raises (s : State) (id k : Nat) (consumed : Bool) : Raises s (s.raised id k consumed).wakeSatisfied id k consumed :=
  ⟨rfl, wakeSatisfied_wakes (s.raised id k consumed), State.pair_raised s id k consumed⟩

/-- An add is the counter written and the waiters woken; beside that it can post the record of R314. -/
theorem addPair_reports (s : State) (id k : Nat) (consumed : Bool) :
    BesidesReports (s.raised id k consumed).wakeSatisfied (s.addPair id k consumed) := by
  unfold State.addPair
  extract_lets x value sync written woken
  have hwoken : woken = (s.raised id k consumed).wakeSatisfied := by cases consumed <;> rfl
  rw [← hwoken]
  split
  · exact post_reports ..
  · exact .refl woken

theorem BesidesReports.sync (h : BesidesReports s t) : t.sync = s.sync := (congrArg State.sync h :)
theorem BesidesReports.net (h : BesidesReports s t) : t.net = s.net := (congrArg State.net h :)

theorem addPair_raises (s : State) (id k : Nat) (consumed : Bool) : Raises s (s.addPair id k consumed) id k consumed :=
  (raised_wakeSatisfied_raises s id k consumed).of_sync (addPair_reports s id k consumed).mem (addPair_reports s id k consumed).sync

/-! ### What watches the pairs (R411, R412, R459) -/

/-- The pair `id` is none that the part watches as serve partitions: no reply pair where its produced counter rises, no
request pair where its consumed counter does. -/
def Unwatched (s : State) (id : Nat) (consumed : Bool) : Prop :=
  ∀ n < 8, ((s.part n).cfg.enable && (s.part n).cfg.serve) = true → (if consumed then (s.serve n).requestPair else (s.serve n).replyPair) ≠ id

theorem State.serveHook_unwatched (h : Unwatched s id consumed) : s.serveHook id consumed = s := by
  unfold State.serveHook
  refine List.foldlRecOn (motive := fun v => v = s) _ _ rfl (fun v hv n hn => ?_)
  subst hv
  dsimp only
  split
  next => rfl
  next hserves =>
    have hpair := h n (List.mem_range.mp hn) (by simpa using hserves)
    cases consumed with
    | true => rw [if_neg (by simp), if_neg (by simpa using hpair)]
    | false => rw [if_neg (by simpa using hpair), if_neg (by simp)]

theorem Unwatched.addPair (h : Unwatched s id consumed) (k : Nat) : Unwatched (s.addPair id k consumed) id consumed := by
  have hreports := addPair_reports s id k consumed
  unfold Unwatched State.part State.serve at *
  rw [hreports.net, hreports.parts]
  exact h

/-- An add that no serve partition watches is the add alone. -/
theorem addPair_serveHook_raises (h : Unwatched s id consumed) (k : Nat) :
    Raises s ((s.addPair id k consumed).serveHook id consumed) id k consumed := by
  rw [State.serveHook_unwatched (h.addPair k)]
  exact addPair_raises s id k consumed

/-- `t` is `s` but for the state of the network ports and what leaves the module. -/
def BesidesNet (s t : State) : Prop := t = { s with net := t.net, out := t.out }

theorem BesidesNet.trans (h : BesidesNet s t) (k : BesidesNet t u) : BesidesNet s u := by
  unfold BesidesNet at *
  rw [k, h]

theorem updStream_besidesNet (s : State) (n k : Nat) (f : Stream → Stream) : BesidesNet s (s.updStream n k f) := by
  unfold State.updStream
  split <;> rfl

theorem sendCredit_besidesNet (s : State) (n k : Nat) : BesidesNet s (s.sendCredit n k) := by
  unfold State.sendCredit
  split
  · rfl
  · dsimp only
    split
    · rfl
    · exact BesidesNet.trans (t := s.send _) rfl (updStream_besidesNet ..)

theorem streamHook_besidesNet (s : State) (id : Nat) : BesidesNet s (s.streamHook id) := by
  unfold State.streamHook
  refine List.foldlRecOn (motive := fun v => BesidesNet s v) _ _ rfl (fun v hv x _ => ?_)
  split
  · exact hv.trans (sendCredit_besidesNet ..)
  · exact hv

theorem Raises.streamHook (h : Raises s t id k consumed) (x : Nat) : Raises s (t.streamHook x) id k consumed :=
  h.of_sync (congrArg State.mem (streamHook_besidesNet t x) :) (congrArg State.sync (streamHook_besidesNet t x) :)

/-! ### Reads (R315) -/

/-- The state in which a read has answered its register. -/
def State.answered (s : State) (p : At) (sr : BitVec 5) (v : Word) : State := ((s.setS p sr v).afterRetire p).unstall p.core

/-- Beyond its register the context and memory are as they were. -/
theorem State.answered_goesOn (s : State) (p : At) (sr : BitVec 5) (v : Word) : GoesOn (s.setS p sr v) (s.answered p sr v) p :=
  (GoesOn.afterRetire _ p).trans (.unstall _ p)

theorem State.getS_answered (s : State) (p : At) (sr : BitVec 5) (v : Word) : ((s.answered p sr v).ctx p).getS sr = if sr = 0 then 0 else v := by
  rw [Ctx.getS_congr (s.answered_goesOn p sr v).work.s, State.ctx_setS_same, Ctx.getS_setS, if_pos rfl]

/-! ### SYNC_STORE_OPERATION (R306, R307) -/

/-- The operation has come to its store. -/
def State.opTaken (s : State) (die : Nat) (op : SyncOp) : State :=
  { s with sync := { s.sync with inflight := dropFirst (fun o => o.die = die && o.src = op.src) s.sync.inflight } }

theorem exec_syncStoreOperation (hl : s.live = true) (hop : (s.sync.inflight.filter (fun o => o.die = die))[i]? = some op)
    (hfirst : ((s.sync.inflight.filter (fun o => o.die = die)).take i).any (fun o => o.src = op.src) = false) :
    exec (.syncStoreOperation die i) s = .next ((s.opTaken die op).applySync op) := by
  change execSyncStoreOperation die i s = _
  unfold execSyncStoreOperation
  simp only [hop, hl, hfirst]
  rfl

theorem applySync_produce (src : SyncSrc) (die : Nat) (tag : Word) (h : Unwatched s id false) :
    Raises s (s.applySync ⟨src, die, .produce id k, tag⟩) id k false := addPair_serveHook_raises h k

theorem applySync_consume (src : SyncSrc) (die : Nat) (tag : Word) (h : Unwatched s id true) :
    Raises s (s.applySync ⟨src, die, .consume id k, tag⟩) id k true := (addPair_serveHook_raises h k).streamHook id

/-- A wait whose condition holds is woken at once, another one is registered (R313). -/
theorem applySync_wait (s : State) (p : At) (die : Nat) (w : WaitCond) (tag : Word) :
    let t := s.applySync ⟨.ctx p, die, .wait w, tag⟩
    t.mem = s.mem ∧
      if s.condMet w then t.sync.wakes = s.sync.wakes ++ [p] ∧ t.sync.waiters = s.sync.waiters
      else t.sync.waiters = s.sync.waiters ++ [{ p := p, cond := w }] ∧ t.sync.wakes = s.sync.wakes := by
  unfold State.applySync
  dsimp only
  split
  · exact ⟨rfl, rfl, rfl⟩
  · exact ⟨rfl, rfl, rfl⟩

end

/-- Settles O21, operation by operation: `opTaken` leaves memory, registers, flags, pairs and waiters, so what the store does to it
is done to `s`. -/
theorem syncStoreOutcomes : Obligations.SyncStoreOutcomes := by
  unfold Obligations.SyncStoreOutcomes
  intro s die i op hop hfirst hl
  rw [exec_syncStoreOperation hl hop hfirst]
  have hcond : (s.opTaken die op).condMet = s.condMet := funext (State.condMet_congr rfl rfl rfl)
  refine .next ?_
  obtain ⟨src, d, act, tag⟩ := op
  cases act with
  | setFlag id => exact ⟨fun _ => rfl, mem_flags_putFlag _ id true, putFlag_wakes _ id true⟩
  | clearFlag id => exact ⟨fun _ => rfl, mem_flags_putFlag _ id false, putFlag_wakes _ id false⟩
  | produce id k =>
    refine ⟨fun hother => absurd rfl (hother id k).1, fun hunwatched => ?_⟩
    obtain ⟨hmem, hwakes, hpairs⟩ := applySync_produce (s := s.opTaken die _) (k := k) src d tag hunwatched
    exact ⟨hmem, hwakes, hpairs⟩
  | consume id k =>
    refine ⟨fun hother => absurd rfl (hother id k).2, fun hunwatched => ?_⟩
    obtain ⟨hmem, hwakes, hpairs⟩ := applySync_consume (s := s.opTaken die _) (k := k) src d tag hunwatched
    exact ⟨hmem, hwakes, hpairs⟩
  | read id consumed sr =>
    cases src with
    | unit n => exact ⟨fun _ => rfl, rfl, rfl⟩
    | ctx p => exact ⟨fun _ => (State.answered_goesOn _ p sr _).mem, State.getS_answered _ p sr _⟩
  | wait w =>
    cases src with
    | unit n => exact ⟨fun _ => rfl, rfl, rfl⟩
    | ctx p =>
      obtain ⟨hmem, hwait⟩ := applySync_wait (s.opTaken die _) p d w tag
      rw [hcond] at hwait
      exact ⟨fun _ => hmem, hwait⟩

end Sys2Proof.Machine
end

section
/-! PROOFS. Peer links: flits that come and leave, retries, keepalives, the states of a link, its lanes, time flits, searches and
fencing (R335, R336, R340 to R346, R349, R354, R357). -/

namespace Sys2Proof.Machine

section
variable {s t u : State} {k : Nat}

theorem BesidesReports.lnk (h : BesidesReports s t) (k : Nat) : t.lnk k = s.lnk k := (congrArg (State.lnk · k) h :)

/-! ### What sending on one link changes (R340) -/

/-- A link that may have sent: what it has received, its state and its lanes are as they were. -/
def Link.sentAs (l m : Link) : Prop :=
  m = { l with txSeq := m.txSeq, replay := m.replay, queued := m.queued, credits := m.credits, cnt := m.cnt }

theorem Link.sentAs.trans {l m n : Link} (h : l.sentAs m) (g : m.sentAs n) : l.sentAs n := by
  unfold Link.sentAs at *
  rw [g, h]

/-- Every other link is as it was. -/
structure OtherLinks (s t : State) (k : Nat) : Prop where
  kept : ∀ j, j ≠ k → t.lnk j = s.lnk j

theorem OtherLinks.refl (s : State) (k : Nat) : OtherLinks s s k := ⟨fun _ _ => rfl⟩

theorem OtherLinks.trans (h : OtherLinks s t k) (g : OtherLinks t u k) : OtherLinks s u k := ⟨fun j hj => (g.kept j hj).trans (h.kept j hj)⟩

theorem updLnk_others (s : State) (k : Nat) (f : Link → Link) : OtherLinks s (s.updLnk k f) k := ⟨fun _ hj => State.lnk_updLnk_ne s k f hj⟩

/-- `t` is `s` but for what link `k` has sent or queued. -/
structure SendsOn (s t : State) (k : Nat) : Prop where
  sends : SendsOnLinks s t
  others : OtherLinks s t k
  own : (s.lnk k).sentAs (t.lnk k)

theorem SendsOn.refl (s : State) (k : Nat) : SendsOn s s k := ⟨.refl s, .refl s k, rfl⟩

theorem SendsOn.trans (h : SendsOn s t k) (g : SendsOn t u k) : SendsOn s u k :=
  ⟨h.sends.trans g.sends, h.others.trans g.others, h.own.trans g.own⟩

theorem SendsOn.updLnk (s : State) (k : Nat) (f : Link → Link) (hf : (s.lnk k).sentAs (f (s.lnk k))) : SendsOn s (s.updLnk k f) k :=
  ⟨updLnk_sends .., updLnk_others .., by rwa [State.lnk_updLnk_same]⟩

theorem linkCount_sendsOn (s : State) (k i : Nat) : SendsOn s (s.linkCount k i) k := .updLnk s k _ (by exact rfl)

theorem send_sendsOn (s : State) (k : Nat) (o : Out) : SendsOn s (s.send o) k := ⟨send_sends .., ⟨fun _ _ => rfl⟩, rfl⟩

theorem transmit_sendsOn (s : State) (k : Nat) (f : Flit) : SendsOn s (s.transmit k f) k :=
  ((SendsOn.updLnk s k _ (by exact rfl)).trans (linkCount_sendsOn ..)).trans (send_sendsOn ..)

theorem pump_sendsOn (s : State) (k n : Nat) : SendsOn s (s.pump k n) k := by
  induction n generalizing s with
  | zero => exact .refl s k
  | succ n ih =>
    unfold State.pump
    dsimp only
    split
    · split
      · exact ((SendsOn.updLnk s k _ (by exact rfl)).trans (transmit_sendsOn ..)).trans (ih _)
      · exact .refl s k
    · exact .refl s k

theorem sendFlit_sendsOn (s : State) (k : Nat) (f : Flit) : SendsOn s (s.sendFlit k f) k :=
  (SendsOn.updLnk s k _ (by exact rfl)).trans (pump_sendsOn ..)

/-- A link that is up, with nothing queued and room for a flit, sends one of its own at once (R340). -/
structure Link.Free (l : Link) : Prop where
  up : l.st = .up
  queue : l.queued = []
  room : l.replay.length < 2048

theorem sendFlit_free {f : Flit} (h : (s.lnk k).Free) (hf : f.type ≠ 1) :
    (s.sendFlit k f).out = s.out ++ [.flit k ((s.lnk k).stamp f)] ∧ ((s.sendFlit k f).lnk k).txSeq = (s.lnk k).txSeq + 1 := by
  obtain ⟨hup, hqueue, hroom⟩ := h
  have hsent : s.sendFlit k f = ((s.updLnk k (fun l => { l with queued := l.queued ++ [(8, f)] })).updLnk k
      (fun l => { l with queued := dropAt l.queued 0 })).transmit k f := by
    unfold State.sendFlit State.sendOn
    have hmay : ({ s.lnk k with queued := [(8, f)] } : Link).maySend f = true := by
      have htype : decide (f.type ≠ 1) = true := decide_eq_true hf
      simp only [Link.maySend, hup, hroom, htype, Bool.true_or]
      rfl
    simp only [State.lnk_updLnk_same, hqueue, List.nil_append, List.length_singleton]
    simp [State.pump, Link.firstReady, hqueue, hmay]
  rw [hsent]
  refine ⟨?_, ?_⟩
  · simp [State.transmit, State.send, Link.stamp, State.linkCount]
  · simp [State.transmit, State.send, Link.stamp, State.linkCount, State.lnk, State.updLnk]

/-- Of `s` only link `k` has changed, to `l`. -/
structure LinkNow (s v : State) (k : Nat) (l : Link) : Prop where
  rest : v = { s with link := { s.link with links := v.link.links } }
  others : OtherLinks s v k
  own : v.lnk k = l

theorem LinkNow.refl (s : State) (k : Nat) : LinkNow s s k (s.lnk k) := ⟨rfl, .refl s k, rfl⟩

section
variable {v : State} {l : Link}

theorem LinkNow.updLnk (h : LinkNow s v k l) (f : Link → Link) : LinkNow s (v.updLnk k f) k (f l) where
  rest := (congrArg (State.updLnk · k f) h.rest).trans (by rw [h.rest]; rfl)
  others := h.others.trans (updLnk_others v k f)
  own := by rw [State.lnk_updLnk_same, h.own]

theorem LinkNow.member (h : LinkNow s v k l) (n : Nat) : v.member n = s.member n := (congrArg (State.member · n) h.rest :)
theorem LinkNow.part (h : LinkNow s v k l) (n : Nat) : v.part n = s.part n := (congrArg (State.part · n) h.rest :)
theorem LinkNow.now (h : LinkNow s v k l) : v.now = s.now := (congrArg State.now h.rest :)

theorem LinkNow.linkCount (h : LinkNow s v k l) (i : Nat) : LinkNow s (v.linkCount k i) k { l with cnt := updAt (fun x => sat64 (x + 1)) l.cnt i } :=
  h.updLnk _

/-- A flit of the link itself leaves behind those that are queued, and at once from a free link. -/
theorem LinkNow.sendFlit (h : LinkNow s v k l) {g : Flit} (hg : g.type ≠ 1) :
    let t := v.sendFlit k g
    BesidesLinks s t ∧ OtherLinks s t k ∧ l.sentAs (t.lnk k)
      ∧ (l.Free → t.out = s.out ++ [.flit k (l.stamp g)] ∧ (t.lnk k).txSeq = l.txSeq + 1) := by
  intro t
  have hsends := sendFlit_sendsOn v k g
  have hbeside : BesidesLinks s v := by
    unfold BesidesLinks
    rw [h.rest]
  have hout : v.out = s.out := (congrArg State.out h.rest :)
  obtain ⟨hrest, hothers, rfl⟩ := h
  refine ⟨hbeside.trans hsends.sends.links, hothers.trans hsends.others, hsends.own, fun hfree => ?_⟩
  rw [← hout]
  exact sendFlit_free hfree hg

/-- A record about the link (R471). -/
theorem LinkNow.post (h : LinkNow s v k l) (r : ErrRec) :
    let t := v.post r []
    t.lnk k = l ∧ OtherLinks s t k ∧ t.errs.nextSeq = s.errs.nextSeq + 1 := by
  intro t
  have hreports : BesidesReports v t := post_reports ..
  refine ⟨(hreports.lnk k).trans h.own, h.others.trans ⟨fun j _ => hreports.lnk j⟩, ?_⟩
  rw [State.post_nextSeq, h.rest]

end

/-! ### Flits that come (R337, R340, R341) -/

/-- A retry has been asked for from the flit numbered `rx` on. -/
def State.asked (s : State) (k : Nat) (rx : BitVec 12) : State :=
  ((s.updLnk k (fun l => { l with discarding := true })).linkCount k 3).sendFlit k { bareFlit 2 with first := rx.toNat }

theorem exec_flitReceive_bad (hl : s.live = true) (hup : (s.lnk k).st = .up) {f : Flit} {crc : BitVec 64} (hcrc : Flit.crc f ≠ crc) :
    exec (.flitReceive k f crc) s = .next ((s.linkCount k 2).asked k (s.lnk k).rxSeq) := by
  change execFlitReceive k f crc s = _
  unfold execFlitReceive
  simp only [hl, hup, hcrc, Bool.not_true, Bool.and_false, Bool.false_eq_true, if_false, if_true, ne_eq, not_true_eq_false, not_false_eq_true,
    decide_false, Bool.or_false]
  rfl

theorem exec_flitReceive_early (hl : s.live = true) (hup : (s.lnk k).st = .up) (hdisc : (s.lnk k).discarding = false) {f : Flit}
    (hseq : f.seq ≠ (s.lnk k).rxSeq) :
    exec (.flitReceive k f (Flit.crc f)) s = .next ((s.updLnk k (fun l => { l with lastGood := s.now })).asked k (s.lnk k).rxSeq) := by
  change execFlitReceive k f _ s = _
  unfold execFlitReceive
  simp only [hl, hup, hdisc, hseq, Bool.not_true, Bool.false_eq_true, if_false, if_true, ne_eq, not_true_eq_false, not_false_eq_true,
    decide_false, Bool.or_false, Bool.false_and]
  rfl

/-- Asking for a retry leaves what has come in order; a free link asks at once. -/
theorem LinkNow.asked {v : State} {l : Link} (h : LinkNow s v k l) :
    let t := v.asked k l.rxSeq
    BesidesLinks s t ∧ OtherLinks s t k ∧ (t.lnk k).discarding = true ∧ (t.lnk k).rxSeq = l.rxSeq ∧ (t.lnk k).lastGood = l.lastGood
      ∧ (l.Free → ∃ g, t.out = s.out ++ [.flit k g] ∧ g.type = 2 ∧ g.first = l.rxSeq.toNat ∧ g.seq = l.txSeq ∧ (t.lnk k).txSeq = l.txSeq + 1) := by
  intro t
  obtain ⟨hbeside, hothers, hown, hsent⟩ := ((h.updLnk (fun l => { l with discarding := true })).linkCount 3).sendFlit
    (g := { bareFlit 2 with first := l.rxSeq.toNat }) (show (2 : BitVec 4) ≠ 1 by decide)
  refine ⟨hbeside, hothers, (congrArg Link.discarding hown :), (congrArg Link.rxSeq hown :), (congrArg Link.lastGood hown :), fun hfree => ?_⟩
  obtain ⟨hout, hseq⟩ := hsent ⟨hfree.up, hfree.queue, hfree.room⟩
  exact ⟨_, hout, rfl, rfl, rfl, hseq⟩

/-- A flit that has been accepted: in order, with what it acknowledges (R340, R342). -/
def State.accepted (s : State) (k : Nat) (f : Flit) : State :=
  ((s.updLnk k (fun l => { l with lastGood := s.now })).updLnk k (fun l => { l with
    rxSeq := l.rxSeq + 1
    discarding := false
    replay := l.replay.filter (fun x => 2048 ≤ (f.ack - x.seq).toNat)
    freed := if f.type = 1 then updAt (· + 1) ((List.range 8).map (fun i => l.freed.getD i 0)) f.cls.toNat else l.freed })).linkCount k 1

/-- The link of a flit that has been accepted. -/
def Link.accepted (l : Link) (f : Flit) (now : Nat) : Link :=
  { l with
    lastGood := now
    rxSeq := l.rxSeq + 1
    discarding := false
    replay := l.replay.filter (fun x => 2048 ≤ (f.ack - x.seq).toNat)
    freed := if f.type = 1 then updAt (· + 1) ((List.range 8).map (fun i => l.freed.getD i 0)) f.cls.toNat else l.freed
    cnt := updAt (fun x => sat64 (x + 1)) l.cnt 1 }

theorem accepted_linkNow (s : State) (k : Nat) (f : Flit) : LinkNow s (s.accepted k f) k ((s.lnk k).accepted f s.now) :=
  (((LinkNow.refl s k).updLnk _).updLnk _).linkCount 1

theorem exec_flitReceive_next (hl : s.live = true) (hup : (s.lnk k).st = .up) (hqueue : (s.lnk k).queued = []) {f : Flit}
    (hseq : f.seq = (s.lnk k).rxSeq) :
    exec (.flitReceive k f (Flit.crc f)) s = .next ((s.accepted k f).flitBody k f) := by
  have hnone : ((s.accepted k f).lnk k).queued = [] := by
    rw [(accepted_linkNow s k f).own]
    exact hqueue
  have hbody : (s.accepted k f).flitBody k f = ((s.accepted k f).pump k ((s.accepted k f).lnk k).queued.length).flitBody k f := by
    rw [hnone]
    rfl
  rw [hbody]
  change execFlitReceive k f _ s = _
  unfold execFlitReceive
  simp only [hl, hup, hseq, Bool.not_true, Bool.false_eq_true, if_false, ne_eq, not_true_eq_false, decide_false, Bool.or_false]
  rfl

/-- A flit whose destination is this member is none to pass on. -/
theorem Member.flit_own {m : Member} {f : Flit} (hdst : m.installed = true → f.dst = m.image.own) :
    (m.installed && decide (f.dst ≠ m.image.own)) = false := by
  cases hi : m.installed with
  | false => rfl
  | true => simp [hdst hi]

/-- A data flit of a newer epoch is held for its partition (R354). -/
theorem flitBody_newer {f : Flit} (htype : f.type = 1) (hon : (s.part f.part).cfg.enable = true)
    (hdst : (s.member f.part).installed = true → f.dst = (s.member f.part).image.own)
    (hnewer : epochCmp f.epoch (s.member f.part).image.epoch = 1) :
    s.flitBody k f = s.updMember f.part (fun m => { m with held := m.held ++ [(f, k, s.now)] }) := by
  unfold State.flitBody State.dataFlit
  simp only [htype, hon, hnewer, Bool.and_assoc, Member.flit_own hdst]
  rfl

/-! ### Retries (R341) -/

/-- A flit of the replay buffer leaves once more. -/
def State.resend (s : State) (k : Nat) (f : Flit) : State := (s.linkCount k 0).send (.flit k { f with ack := (s.lnk k).rxSeq - 1 })

theorem resend_leaves (l : List Flit) (s : State) :
    let t := l.foldl (fun v f => v.resend k f) s
    BesidesLinks s t ∧ OtherLinks s t k ∧ (t.lnk k).replay = (s.lnk k).replay
      ∧ t.out = s.out ++ l.map (fun f => .flit k { f with ack := (s.lnk k).rxSeq - 1 }) := by
  induction l generalizing s with
  | nil => exact ⟨rfl, .refl s k, rfl, (List.append_nil _).symm⟩
  | cons f l ih =>
    have hlnk : (s.resend k f).lnk k = { s.lnk k with cnt := ((s.resend k f).lnk k).cnt } := by
      change (s.linkCount k 0).lnk k = { s.lnk k with cnt := ((s.linkCount k 0).lnk k).cnt }
      rw [State.linkCount, State.lnk_updLnk_same]
    have hsent : (s.resend k f).out = s.out ++ [.flit k { f with ack := (s.lnk k).rxSeq - 1 }] := rfl
    obtain ⟨hbeside, hothers, hreplay, hout⟩ := ih (s.resend k f)
    have hcounts : OtherLinks s (s.resend k f) k := ⟨(linkCount_sendsOn s k 0).others.kept⟩
    refine ⟨BesidesLinks.trans (t := s.resend k f) rfl hbeside, hcounts.trans hothers, ?_, ?_⟩
    · exact hreplay.trans (by rw [hlnk])
    · rw [List.foldl_cons, hout, hsent, hlnk, List.map_cons, List.append_assoc]
      rfl

/-- In a replay buffer whose flits differ in number, none is replayed twice at once. -/
theorem replay_count_le {l : List Flit} (h : (l.map (·.seq)).Nodup) (seq : BitVec 12) (now : Nat) :
    ((l.map (fun f => (f.seq, now))).filter (fun x => x.1 = seq)).length ≤ 1 := by
  have hcount := List.nodup_iff_count_le_one.mp h seq
  rw [← List.countP_eq_length_filter, List.countP_map]
  rw [List.count, List.countP_map] at hcount
  refine le_trans (le_of_eq (List.countP_congr fun f _ => ?_)) hcount
  simp

/-- The first retry of a link replays from the number asked for on. -/
theorem replayFrom_first (hnone : (s.lnk k).retryTimes = []) (hnodup : ((s.lnk k).replay.map (·.seq)).Nodup) (seq : BitVec 12) :
    ∃ times, s.replayFrom k seq
      = ((s.lnk k).replay.dropWhile (fun f => f.seq ≠ seq)).foldl (fun v f => v.resend k f) (s.updLnk k (fun l => { l with retryTimes := times })) := by
  refine ⟨_, if_neg ?_⟩
  rw [List.any_eq_true]
  rintro ⟨f, -, hf⟩
  have hle := replay_count_le (hnodup.sublist ((List.dropWhile_sublist (fun f => f.seq ≠ seq)).map _)) f.seq s.now
  simp only [hnone, List.filter_nil, List.nil_append, decide_eq_true_eq] at hf
  omega

theorem exec_retryRequestReceive (hl : s.live = true) (hup : (s.lnk k).st = .up) (seq : BitVec 12) :
    exec (.retryRequestReceive k seq) s = .next (s.replayFrom k seq) := by
  change execRetryRequestReceive k seq s = _
  unfold execRetryRequestReceive
  rw [if_pos (by simp [hl, hup])]

/-! ### Link states (R343) -/

theorem exec_linkDownTimeout (hl : s.live = true) (hup : (s.lnk k).st = .up) (hlate : (s.lnk k).lastGood + 8000 ≤ s.now) :
    exec (.linkDownTimeout k) s = .next (s.goDown k) := by
  change execLinkDownTimeout k s = _
  unfold execLinkDownTimeout
  rw [if_pos (by simp [hl, hup, hlate])]

/-- `t` is `s` but for reports, of which it may have posted more (R471). -/
structure PostsMore (s t : State) : Prop where
  reports : BesidesReports s t
  seq : s.errs.nextSeq ≤ t.errs.nextSeq

theorem PostsMore.refl (s : State) : PostsMore s s := ⟨.refl s, le_rfl⟩

theorem PostsMore.trans (h : PostsMore s t) (g : PostsMore t u) : PostsMore s u := ⟨h.reports.trans g.reports, h.seq.trans g.seq⟩

theorem suspect_postsMore (s : State) (n member reason link : Nat) : PostsMore s (s.suspect n member reason link) :=
  ⟨post_reports .., by rw [State.suspect, State.post_nextSeq]; exact Nat.le_succ _⟩

theorem suspects_postsMore (s : State) (reason link : Nat) (f : MemImage → Nat → Bool) : PostsMore s (s.suspects reason link f) := by
  refine List.foldlRecOn (motive := PostsMore s) _ _ (.refl s) fun v hv n _ => ?_
  dsimp only
  split
  · exact hv
  · exact List.foldlRecOn (motive := PostsMore s) _ _ hv fun w hw i _ => hw.trans (suspect_postsMore w n i reason link)

theorem searchDisturbed_idle (h : s.link.search.serving = false) : s.searchDisturbed = s := if_pos (by simp [h])

/-- The choice of a time parent changes the time state alone (R346). -/
theorem chooseParent_eq (s : State) : s.chooseParent = { s with link := { s.link with time := s.chooseParent.link.time } } := by
  unfold State.chooseParent
  rfl

/-- A link whose neighbour is lost (R343). -/
def Link.lost (l : Link) (now : Nat) : Link := { l with st := .down, downAt := now, width := 0, discarding := false, advRoot := none }

def State.lowered (s : State) (k : Nat) : State := (s.updLnk k (·.lost s.now)).linkCount k 7

theorem lowered_linkNow (s : State) (k : Nat) : LinkNow s (s.lowered k) k
    { (s.lnk k).lost s.now with cnt := updAt (fun x => sat64 (x + 1)) (s.lnk k).cnt 7 } := ((LinkNow.refl s k).updLnk _).linkCount 7

/-- A link that has lost its neighbour, before the records of that. -/
def State.lost (s : State) (k : Nat) : State :=
  if (s.lowered k).link.time.parentLink = k then (s.lowered k).chooseParent else s.lowered k

theorem State.lost_eq (s : State) (k : Nat) :
    s.lost k = { s.lowered k with link := { (s.lowered k).link with time := (s.lost k).link.time } } := by
  unfold State.lost
  split
  · exact chooseParent_eq _
  · rfl

/-- A link goes down with records while no search is served (R343). -/
theorem goDown_leaves (h : s.link.search.serving = false) :
    let t := s.goDown k
    (t.lnk k).st = .down ∧ (t.lnk k).downAt = s.now ∧ OtherLinks s t k ∧ t.mem = s.mem ∧ t.parts = s.parts ∧ s.errs.nextSeq < t.errs.nextSeq := by
  intro t
  obtain ⟨hrest, hothers, hown⟩ := lowered_linkNow s k
  generalize hp : (s.lost k).post { cls := 0x08, cause := 0x02, unit := unitCode .link, loc := BitVec.ofNat 32 k, detail := ((s.lost k).lnk k).laneMap } [] = p
  have hmore := suspects_postsMore p 0 k (fun m i => m.routes.getD i 0xFF = k)
  have hreports : BesidesReports (s.lost k) _ := BesidesReports.trans (hp ▸ post_reports ..) hmore.reports
  have hidle : (p.suspects 0 k (fun m i => m.routes.getD i 0xFF = k)).link.search.serving = false := by
    rw [hreports.link, s.lost_eq, hrest]
    exact h
  have ht : t = p.suspects 0 k (fun m i => m.routes.getD i 0xFF = k) := by
    rw [← searchDisturbed_idle hidle, ← hp]
    rfl
  have hlnk (j : Nat) : t.lnk j = (s.lowered k).lnk j := by
    rw [ht, hreports.lnk, s.lost_eq]
    rfl
  have hposted : p.errs.nextSeq = s.errs.nextSeq + 1 := by
    rw [← hp, State.post_nextSeq, s.lost_eq, hrest]
  refine ⟨?_, ?_, hothers.trans ⟨fun j _ => hlnk j⟩, ?_, ?_, ?_⟩
  · rw [hlnk, hown]
    rfl
  · rw [hlnk, hown]
    rfl
  · rw [ht, hreports.mem, s.lost_eq, hrest]
  · rw [ht, hreports.parts, s.lost_eq, hrest]
  · rw [ht]
    exact lt_of_lt_of_le (hposted ▸ Nat.lt_succ_self _) hmore.seq

/-- The link of a training that succeeded (R333, R336, R343). -/
def Link.trained (l : Link) (r : TrainResult) (k now : Nat) : Link :=
  { l with
    st := .up, lanes := activeLanes r.lanes, width := lanesIn (activeLanes r.lanes), failed := (List.range 5).filter (fun i => !r.lanes.getLsbD i),
    advRoot := none, peer := r.peer, peerLink := r.peerLink, peerResetting := false,
    discarding := false, retryTimes := [], credits := [], freed := (List.range 8).map (fun i => Config.linkCredits k i), lastGood := now, lastKeep := now }

theorem linkUp_linkNow (s : State) (k : Nat) (r : TrainResult) :
    LinkNow s (s.linkUp k r.lanes r.peer r.peerLink) k ((s.lnk k).trained r k s.now) := (LinkNow.refl s k).updLnk _

/-- A link that trained is up (R343). -/
theorem linkRetrain_up {r : TrainResult} (hl : s.live = true) (hst : (s.lnk k).st = .training ∨ ((s.lnk k).st = .down ∧ (s.lnk k).downAt + 10000000 ≤ s.now))
    (hok : r.ok = true) (hlanes : 3 ≤ lanesIn r.lanes) (hreplay : (s.lnk k).replay = []) (hqueue : (s.lnk k).queued = [])
    (hidle : s.link.search.serving = false) :
    ∃ r', exec (.linkRetrain k r) s = .next ((s.linkUp k r.lanes r.peer r.peerLink).post r' []) := by
  have hown (e : ErrRec) := ((linkUp_linkNow s k r).post e).1
  have hquiet (e : ErrRec) : ((s.linkUp k r.lanes r.peer r.peerLink).post e []).searchDisturbed = (s.linkUp k r.lanes r.peer r.peerLink).post e [] :=
    searchDisturbed_idle (by rw [(post_reports ..).link]; exact hidle)
  change ∃ r', execLinkRetrain k r s = _
  unfold execLinkRetrain
  dsimp only
  rw [if_neg (by simpa [hl, or_iff_not_imp_left] using hst), if_pos (by simp [hok, hlanes])]
  simp only [hown, Link.trained, hreplay, hqueue]
  exact ⟨_, congrArg _ (hquiet _)⟩

theorem linkRetrain_down {r : TrainResult} (hl : s.live = true) (hst : (s.lnk k).st = .training ∨ ((s.lnk k).st = .down ∧ (s.lnk k).downAt + 10000000 ≤ s.now))
    (hbad : r.ok = false ∨ lanesIn r.lanes < 3) :
    exec (.linkRetrain k r) s = .next (s.updLnk k (fun l => { l with st := .down, downAt := s.now })) := by
  change execLinkRetrain k r s = _
  unfold execLinkRetrain
  dsimp only
  rw [if_neg (by simpa [hl, or_iff_not_imp_left] using hst), if_neg (by rcases hbad with h | h <;> simp [h])]

/-- At most four of the lanes that trained are active (R333). -/
theorem lanesIn_activeLanes : ∀ t : BitVec 5, lanesIn (activeLanes t) = min 4 (lanesIn t) := by decide

/-! ### Lanes (R335, R336) -/

/-- The bit of a lane in a lane map. -/
def laneBit (i : Nat) : BitVec 5 := BitVec.ofNat 5 (2 ^ i)

theorem getLsbD_laneBit (i j : Nat) : (laneBit i).getLsbD j = (decide (j < 5) && decide (i = j)) := by
  unfold laneBit
  rw [BitVec.getLsbD_ofNat, Nat.testBit_two_pow]

/-- A link with lanes that have failed and lanes that are active (R336, R372). -/
def State.relaned (s : State) (k : Nat) (failed : List Nat) (lanes : BitVec 5) : State :=
  (s.updLnk k (fun l => { l with failed := failed, lanes := lanes, width := lanesIn lanes })).linkCount k 6

theorem relaned_linkNow (s : State) (k : Nat) (failed : List Nat) (lanes : BitVec 5) : LinkNow s (s.relaned k failed lanes) k
    { s.lnk k with failed := failed, lanes := lanes, width := lanesIn lanes, cnt := updAt (fun x => sat64 (x + 1)) (s.lnk k).cnt 6 } :=
  ((LinkNow.refl s k).updLnk _).linkCount 6

/-- An active lane that fails is replaced by a spare. -/
theorem laneFailure_replaced {lane i : Nat} (hl : s.live = true) (hup : (s.lnk k).st = .up) (hlane : lane < 5) (hnew : lane ∉ (s.lnk k).failed)
    (hfew : (s.lnk k).failed.length < 2) (hactive : (s.lnk k).lanes.getLsbD lane = true) (hreplay : (s.lnk k).replay = [])
    (hspare : (List.range 5).find? (fun i => !(s.lnk k).lanes.getLsbD i && i ∉ (s.lnk k).failed ++ [lane]) = some i) :
    ∃ r, exec (.laneFailure k lane) s
      = .next ((s.relaned k ((s.lnk k).failed ++ [lane]) (((s.lnk k).lanes &&& ~~~ laneBit lane) ||| laneBit i)).post r []) := by
  have hlost : ¬ 3 ≤ ((s.lnk k).failed ++ [lane]).length := by
    rw [List.length_append, List.length_singleton]
    omega
  change ∃ r, execLaneFailure k lane s = _
  unfold execLaneFailure
  extract_lets l failed spare bit active lanes v w
  have hactive : active = true := hactive
  have hspare : spare = some i := hspare
  have hlanes : lanes = (l.lanes &&& ~~~ laneBit lane) ||| laneBit i := by
    simp only [lanes, hactive, hspare]
    rfl
  have hreplay : (w.lnk k).replay = [] := by
    rw [(post_reports ..).lnk]
    simpa [v, State.linkCount] using hreplay
  rw [if_neg (by simp [l, hl, hup, hnew, hlane]), if_neg hlost, if_pos hactive, hreplay, ← hlanes]
  exact ⟨_, rfl⟩

/-- The lane that failed is out and its spare is in. -/
theorem getLsbD_replaced {m : BitVec 5} {failed : List Nat} {lane i : Nat}
    (hspare : (List.range 5).find? (fun i => !m.getLsbD i && i ∉ failed ++ [lane]) = some i) :
    ((m &&& ~~~ laneBit lane) ||| laneBit i).getLsbD lane = false ∧ ((m &&& ~~~ laneBit lane) ||| laneBit i).getLsbD i = true := by
  have hi : i < 5 := List.mem_range.mp (List.mem_of_find?_eq_some hspare)
  have hfree := List.find?_some hspare
  simp only [Bool.and_eq_true, decide_eq_true_eq, List.mem_append, List.mem_singleton, not_or] at hfree
  obtain ⟨-, -, hne⟩ := hfree
  simp [getLsbD_laneBit, hne, hi]

/-! ### Time (R345, R346) -/

theorem filterMap_range_single {α : Type} (x : α) (k n : Nat) :
    (List.range n).filterMap (fun j => if j = k then some x else none) = if k < n then [x] else [] := by
  induction n with
  | zero => rfl
  | succ n ih =>
    rw [List.range_succ, List.filterMap_append, ih]
    by_cases h : n = k
    · simp [h]
    · have hk : k < n + 1 ↔ k < n := by omega
      simp [h, hk]

/-- The only neighbour whose link is up advertises: it is the parent if its root is below this module's (R346). -/
theorem timeParent_advertised {a : Word × Nat × Word} (honly : ∀ j, j ≠ k → (s.lnk j).st ≠ .up) (hup : (s.lnk k).st = .up) (hk : k < 24) :
    (s.updLnk k (fun l => { l with advRoot := some a })).timeParent = if a.1 < moduleId then some (k, a.1, a.2.1, a.2.2) else none := by
  have hadverts : (s.updLnk k (fun l => { l with advRoot := some a })).adverts = [(k, a.1, a.2.1, a.2.2)] := by
    refine Eq.trans (congrArg (fun f => List.filterMap f (List.range 24)) (funext fun j => ?_))
      ((filterMap_range_single (k, a.1, a.2.1, a.2.2) k 24).trans (if_pos hk))
    by_cases hj : j = k
    · rw [hj, State.lnk_updLnk_same, if_pos hup, if_pos rfl]
      rfl
    · rw [State.lnk_updLnk_ne _ _ _ hj, if_neg (honly j hj), if_neg hj]
  rw [State.timeParent, hadverts]
  simp [Option.filter]

/-- A time flit leaves with the parent chosen anew; a module in step does not jump (R345 to R347). -/
theorem exec_timeFlitExchange (hl : s.live = true) (hup : (s.lnk k).st = .up) (x : TimeExchange) (hlocked : s.link.time.locked = true)
    (hsync : s.link.time.inSync = false) :
    let v := s.updLnk k (fun l => { l with advRoot := some (x.root, x.depth, x.neighbour) })
    ∃ y f, exec (.timeFlitExchange k x) s = .next (({ v.fresh with link := { v.link with time := y } } : State).sendFlit k f)
      ∧ y.locked = true
      ∧ (∀ a, v.timeParent = some a → y.parentLink = a.1 ∧ y.depth = a.2.2.1 + 1 ∧ y.root = a.2.1
        ∧ y.offsetPs = if a.1 = k then ((x.t2 - x.t1) + (x.t3 - x.t4)) * 50 else s.link.time.offsetPs)
      ∧ (v.timeParent = none → y.parentLink = 0x1F ∧ y.depth = 0 ∧ y.root = moduleId ∧ y.offsetPs = 0) := by
  intro v
  change ∃ y f, execTimeFlitExchange k x s = _ ∧ _
  unfold execTimeFlitExchange
  extract_lets t ps
  have htlocked : t.locked = true := hlocked
  have htsync : t.inSync = false := hsync
  rw [if_neg (by simp [hl, hup])]
  cases v.timeParent with
  | none =>
    dsimp only
    simp only [htlocked, htsync, Bool.not_true, Bool.false_and, Bool.false_eq_true, if_false, Bool.true_or]
    exact ⟨_, _, rfl, rfl, fun _ ha => by simp at ha, fun _ => ⟨rfl, rfl, rfl, rfl⟩⟩
  | some a =>
    dsimp only
    simp only [htlocked, htsync, Bool.not_true, Bool.false_and, Bool.false_eq_true, if_false, Bool.true_or]
    refine ⟨_, _, rfl, rfl, fun b hb => ?_, fun hnone => by simp at hnone⟩
    obtain rfl := Option.some.inj hb
    exact ⟨rfl, rfl, rfl, rfl⟩

/-- What a time flit leaves beside the time that was taken from it. -/
theorem timed_sends (s : State) (k : Nat) (g : Link → Link) (y : TimeSync) (f : Flit) :
    let v := s.updLnk k g
    let t := ({ v.fresh with link := { v.link with time := y } } : State).sendFlit k f
    BesidesLinks s.fresh t ∧ OtherLinks s t k ∧ (g (s.lnk k)).sentAs (t.lnk k) ∧ t.link.time = y := by
  intro v t
  obtain ⟨hsends, hothers, hown⟩ := sendFlit_sendsOn ({ v.fresh with link := { v.link with time := y } } : State) k f
  have hlnk : ({ v.fresh with link := { v.link with time := y } } : State).lnk k = g (s.lnk k) := State.lnk_updLnk_same s k g
  have hbefore : OtherLinks s ({ v.fresh with link := { v.link with time := y } } : State) k := ⟨(updLnk_others s k g).kept⟩
  refine ⟨BesidesLinks.trans (t := { v.fresh with link := { v.link with time := y } }) rfl hsends.links, hbefore.trans hothers, hlnk ▸ hown, ?_⟩
  exact (congrArg (fun v : State => v.link.time) hsends.rest :)

/-! ### Searches (R349) -/

/-- A search of a higher generation is served from link `k`. -/
def State.serving (s : State) (k g : Nat) (init : Word) : State :=
  { s.fresh with link := { s.link with search := { s.link.search with
      highest := g, serving := true, own := false, initiator := init, parent := k, children := s.upLinks.filter (· ≠ k), restarts := 0,
      reports := [s.ownReport] } } }

theorem exec_searchFlitReceive {g : Nat} {init : Word} (hl : s.live = true) (hup : (s.lnk k).st = .up) (hnewer : s.link.search.highest < g)
    (hown : s.link.search.own = false) (hothers : s.upLinks.filter (· ≠ k) ≠ []) :
    exec (.searchFlitReceive k (.search g init)) s
      = .next ((s.serving k g init).sendSearch (s.upLinks.filter (· ≠ k)) (.search g init)) := by
  have hwaits := searchReady_awaits ((s.serving k g init).sendSearch (s.upLinks.filter (· ≠ k)) (.search g init)) (by
    rw [(sendSearch_sends ..).search]
    exact hothers)
  rw [← hwaits]
  change execSearchFlitReceive k (.search g init) s = _
  unfold execSearchFlitReceive
  simp only [hl, hup, hnewer, hown, decide_true, Bool.true_or]
  rfl

/-! ### Fencing (R357) and held flits (R354) -/

theorem exec_fencedReplyReceive {part : Nat} {epoch : BitVec 32} (hl : s.live = true) (hon : (s.member part).installed = true)
    (hnewer : epochCmp epoch (s.member part).image.epoch = 1) (hnone : ∀ c ∈ s.link.colls, c.part ≠ part) :
    ∃ r, exec (.fencedReplyReceive part epoch) s
      = .next ((s.updMember part (fun m => { m with quarantined := true, fenceEpoch := epoch })).post r [part]) := by
  have hends (r : ErrRec) (v : State) (hv : v.link.colls = s.link.colls) : (v.post r [part]).endColls part 0x03 = v.post r [part] := by
    have hempty : (v.post r [part]).link.colls.filter (fun c => c.part = part) = [] := by
      rw [(post_reports ..).link, hv]
      exact List.filter_eq_nil_iff.mpr (fun c hc => by simpa using hnone c hc)
    rw [State.endColls, hempty]
    rfl
  change ∃ r, execFencedReplyReceive part epoch s = _
  unfold execFencedReplyReceive
  dsimp only
  rw [if_neg (by simp [hl, hon, hnewer])]
  exact ⟨_, congrArg _ (hends _ _ rfl)⟩

/-- A partition in quarantine, with a record of that. -/
theorem quarantined_posted (s : State) (part : Nat) (epoch : BitVec 32) (r : ErrRec) :
    let m := s.member part
    let t := (s.updMember part (fun m => { m with quarantined := true, fenceEpoch := epoch })).post r [part]
    t.member part = { m with quarantined := true, fenceEpoch := epoch } ∧ t.mem = s.mem ∧ t.errs.nextSeq = s.errs.nextSeq + 1 := by
  intro m t
  have hreports : BesidesReports _ t := post_reports ..
  exact ⟨by rw [State.member_of_link hreports.link, State.member_updMember_same], hreports.mem, State.post_nextSeq ..⟩

/-- A member without what it has held for 10 ms (R354). -/
def Member.expired (m : Member) (now : Nat) : Member :=
  { m with held := m.held.filter (fun x => ¬ x.2.2 + 10000000 ≤ now), heldReports := m.heldReports.filter (fun x => ¬ x.2.2.2.2.2 + 10000000 ≤ now) }

theorem exec_newerEpochHoldExpiry (hl : s.live = true) (part : Nat) :
    ∃ n, exec (.newerEpochHoldExpiry part) s = .next ((s.updMember part (·.expired s.now)).xuCount part 3 n) := by
  have hexpired : (fun m : Member => m.expired s.now) = fun m => { m with
      held := m.held.filter (fun x => !decide (x.2.2 + 10000000 ≤ s.now))
      heldReports := m.heldReports.filter (fun x => !decide (x.2.2.2.2.2 + 10000000 ≤ s.now)) } := by
    simp only [Member.expired, decide_not]
  rw [hexpired]
  change ∃ n, execNewerEpochHoldExpiry part s = _
  unfold execNewerEpochHoldExpiry
  dsimp only
  rw [if_neg (by simp [hl])]
  exact ⟨_, rfl⟩

/-! ### Keepalives (R343) -/

theorem exec_keepaliveTimer (hl : s.live = true) (hup : (s.lnk k).st = .up) :
    exec (.keepaliveTimer k) s = .next ((s.updLnk k (fun l => { l with lastKeep := s.now, freed := [] })).sendFlit k
      { bareFlit 0 with credits := (s.lnk k).freed, first := k, vals := [(s.lnk k).lanes.toNat] }) := by
  change execKeepaliveTimer k s = _
  unfold execKeepaliveTimer
  rw [if_neg (by simp [hl, hup])]

end

/-- Settles O51: what an event does to link `k` is `LinkNow`, what then leaves is `SendsOn`, a link that goes down is `goDown_leaves`
(links and lanes: log entry 39; time and searches: log entry 40; memberships: log entry 42). -/
theorem linkEvents : Obligations.LinkEvents := by
  unfold Obligations.LinkEvents
  intro s k hl l others
  refine ⟨fun hup => ⟨fun f crc hcrc => ?bad, fun f hdisc hseq => ?early, fun f hseq htype hqueue hon hdst hnewer => ?held,
      fun seq htimes hnodup => ?retry, fun hqueue hroom => ?keepalive, fun hlate hidle => ?down,
      fun lane i hlane hnew hfew hactive hreplay hspare => ?lane, fun x hlocked hsync => ?time, fun g init hnewer hown hkids => ?search⟩,
    fun r hst => ⟨fun hok hlanes hreplay hqueue hidle => ?trained, fun hbad => ?untrained⟩,
    fun part epoch => ?fenced, fun part => ?expired⟩
  case bad =>
    obtain ⟨hbeside, hothers, hdisc, hrx, -, hask⟩ := ((LinkNow.refl s k).linkCount 2).asked
    rw [exec_flitReceive_bad hl hup hcrc]
    exact .next ⟨hbeside, hdisc, hrx, hothers.kept, fun hqueue hroom => hask ⟨hup, hqueue, hroom⟩⟩
  case early =>
    obtain ⟨-, hothers, hasking, hrx, hgood, hask⟩ := ((LinkNow.refl s k).updLnk (fun l => { l with lastGood := s.now })).asked
    rw [exec_flitReceive_early hl hup hdisc hseq]
    exact .next ⟨hasking, hgood, hrx, hothers.kept, fun hqueue hroom => hask ⟨hup, hqueue, hroom⟩⟩
  case held =>
    have haccepted := accepted_linkNow s k f
    rw [exec_flitReceive_next hl hup hqueue hseq]
    generalize s.accepted k f = v at haccepted ⊢
    rw [← haccepted.member] at hdst hnewer
    rw [← haccepted.part] at hon
    rw [flitBody_newer htype hon hdst hnewer, haccepted.now, ← haccepted.member]
    obtain ⟨hrest, hothers, hown⟩ := haccepted
    refine .next ⟨?_, (congrArg Link.rxSeq hown :), (congrArg Link.discarding hown :), (congrArg Link.replay hown :), hothers.kept,
      congrArg Member.held (State.member_updMember_same ..)⟩
    rw [hrest]
    rfl
  case retry =>
    obtain ⟨times, hreplays⟩ := replayFrom_first htimes hnodup seq
    obtain ⟨hbeside, hothers, hreplay, hout⟩ := resend_leaves (k := k) ((s.lnk k).replay.dropWhile (fun f => f.seq ≠ seq))
      (s.updLnk k (fun l => { l with retryTimes := times }))
    rw [State.lnk_updLnk_same] at hreplay hout
    rw [exec_retryRequestReceive hl hup, hreplays]
    exact .next ⟨(updLnk_links s k _).trans hbeside, ((updLnk_others s k _).trans hothers).kept, hreplay, hout⟩
  case keepalive =>
    obtain ⟨hbeside, hothers, hown, hsent⟩ := ((LinkNow.refl s k).updLnk (fun l => { l with lastKeep := s.now, freed := [] })).sendFlit
      (g := { bareFlit 0 with credits := (s.lnk k).freed, first := k, vals := [(s.lnk k).lanes.toNat] }) (show (0 : BitVec 4) ≠ 1 by decide)
    obtain ⟨hout, hseq⟩ := hsent ⟨hup, hqueue, hroom⟩
    rw [exec_keepaliveTimer hl hup]
    exact .next ⟨hbeside, hothers.kept, (congrArg Link.lastKeep hown :), (congrArg Link.freed hown :), hseq,
      _, hout, rfl, rfl, rfl, rfl, rfl, rfl, rfl, rfl⟩
  case down =>
    obtain ⟨hst, hat, hothers, hmem, hparts, hseq⟩ := goDown_leaves (k := k) hidle
    rw [exec_linkDownTimeout hl hup hlate]
    exact .next ⟨hst, hat, hothers.kept, hmem, hparts, hseq⟩
  case lane =>
    obtain ⟨r, hexec⟩ := laneFailure_replaced hl hup hlane hnew hfew hactive hreplay hspare
    obtain ⟨hown, hothers, hseq⟩ := (relaned_linkNow s k (l.failed ++ [lane]) ((l.lanes &&& ~~~ laneBit lane) ||| laneBit i)).post r
    obtain ⟨hout, hin⟩ := getLsbD_replaced hspare
    rw [hexec]
    exact .next ⟨(congrArg Link.failed hown :), hown ▸ hout, hown ▸ hin, (congrArg Link.st hown).trans hup, by rw [hown], hseq, hothers.kept⟩
  case time =>
    obtain ⟨y, f, hexec, hy, hparent, hroot⟩ := exec_timeFlitExchange hl hup x hlocked hsync
    obtain ⟨hbeside, hothers, hown, htime⟩ := timed_sends s k (fun l => { l with advRoot := some (x.root, x.depth, x.neighbour) }) y f
    rw [hexec]
    refine .next ⟨hbeside, hothers.kept, (congrArg Link.advRoot hown :), (congrArg TimeSync.locked htime).trans hy, fun honly hk => ?_⟩
    have hsingle := timeParent_advertised (a := (x.root, x.depth, x.neighbour)) honly hup hk
    rw [htime]
    by_cases hlower : x.root < moduleId
    · obtain ⟨hlink, hdepth, hwhose, hoffset⟩ := hparent _ (hsingle.trans (if_pos hlower))
      exact (if_pos hlower).mpr ⟨hlink, hdepth, hwhose, hoffset.trans (if_pos rfl)⟩
    · exact (if_neg hlower).mpr (hroot (hsingle.trans (if_neg hlower)))
  case search =>
    rw [exec_searchFlitReceive hl hup hnewer hown hkids]
    have hsends := sendSearch_sends (s.serving k g init) (s.upLinks.filter (· ≠ k)) (.search g init)
    have hsearch := hsends.search
    refine .next ⟨?_, ?_, ?_, ?_, ?_, fun j hj => sendSearch_sent _ _ hj⟩
    · rw [hsends.rest]
      rfl
    all_goals
      rw [hsearch]
      rfl
  case trained =>
    obtain ⟨r', hexec⟩ := linkRetrain_up hl hst hok hlanes hreplay hqueue hidle
    obtain ⟨hown, hothers, hseq⟩ := (linkUp_linkNow s k r).post r'
    rw [hexec]
    refine .next ?_
    rw [hown]
    exact ⟨rfl, rfl, lanesIn_activeLanes r.lanes, rfl, rfl, by simp [Link.trained], hseq, hothers.kept⟩
  case untrained =>
    rw [linkRetrain_down hl hst hbad]
    exact .next ⟨rfl, State.lnk_updLnk_same .., (updLnk_others s k _).kept⟩
  case fenced =>
    intro m hon hnewer hnone
    obtain ⟨r, hexec⟩ := exec_fencedReplyReceive hl hon hnewer hnone
    obtain ⟨hmember, hmem, hseq⟩ := quarantined_posted s part epoch r
    rw [hexec]
    exact .next ⟨(congrArg Member.quarantined hmember :), (congrArg Member.fenceEpoch hmember :), (congrArg Member.image hmember :), hmem, hseq⟩
  case expired =>
    intro m
    obtain ⟨n, hexec⟩ := exec_newerEpochHoldExpiry hl part
    have hmember : ((s.updMember part (·.expired s.now)).xuCount part 3 n).member part
        = { m.expired s.now with cnt := updAt (fun x => sat64 (x + n)) m.cnt 3 } := by
      rw [State.xuCount, State.member_updMember_same, State.member_updMember_same]
      rfl
    rw [hexec]
    refine .next ⟨rfl, (congrArg Member.held hmember :), (congrArg Member.heldReports hmember :), fun i hi => ?_⟩
    rw [State.xuCount, State.member_updMember_ne _ _ _ hi, State.member_updMember_ne _ _ _ hi]

end Sys2Proof.Machine
end

section
/-! PROOFS. The exchange units: how a collective ends, its phases, flits, pieces, watchdog and aborts (R354, R361, R362, R364, R365,
R368, R369). -/

namespace Sys2Proof.Machine

/-! ### Changing one collective -/

/-- The collective that a number names. -/
def State.CollIs (s : State) (num : Nat) (c : Coll) : Prop := s.link.colls.find? (fun c => c.num = num) = some c

theorem State.CollIs.num_eq {s : State} {n : Nat} {c : Coll} (h : s.CollIs n c) : c.num = n := of_decide_eq_true (List.find?_some h :)

section
variable {s : State} {num : Nat} {c : Coll}

/-- A change that keeps the number of a collective is what the number finds. -/
theorem State.CollIs.updColl (h : s.CollIs num c) (f : Coll → Coll) (hf : ∀ x, (f x).num = x.num) : (s.updColl num f).CollIs num (f c) := by
  change (s.link.colls.map (fun x => if x.num = num then f x else x)).find? _ = _
  have hkeeps : ((fun x : Coll => decide (x.num = num)) ∘ fun x => if x.num = num then f x else x) = fun x => decide (x.num = num) := by
    funext x
    by_cases hx : x.num = num <;> simp [hx, hf]
  rw [List.find?_map, hkeeps, h, Option.map_some, if_pos h.num_eq]

/-! ### The end of a collective (R369) -/

theorem State.endColl_mem (s : State) (c : Coll) (status : BitVec 8) (stalled : BitVec 32) :
    (s.endColl c status stalled).mem = (s.writeDev c.part c.p.core c.cmd.statAddr (s.collRecord c status stalled) false).mem := by
  simp [State.endColl]

/-- The collective that ends is gone from its exchange unit, the others stay. -/
theorem State.endColl_colls (s : State) (c : Coll) (status : BitVec 8) (stalled : BitVec 32) :
    (s.endColl c status stalled).link.colls = s.link.colls.filter (fun x => x.num ≠ c.num) := by
  unfold State.endColl
  generalize hw : s.writeDev c.part c.p.core c.cmd.statAddr (s.collRecord c status stalled) false = w
  have hlink : w.link = s.link := hw ▸ (writeDev_writes ..).link
  dsimp only
  change (State.action _ c.part c.tag c.cmd.ck c.cmd.ct).link.colls = _
  rw [State.action_eq]
  dsimp only
  rw [(flushMerges_reports ..).link]
  change w.link.colls.filter _ = _
  rw [hlink]

theorem State.not_mem_endColl_colls (s : State) (c : Coll) (status : BitVec 8) (stalled : BitVec 32) :
    ∀ x ∈ (s.endColl c status stalled).link.colls, x.num ≠ c.num := by
  intro x hx
  rw [State.endColl_colls] at hx
  simpa using (List.mem_filter.mp hx).2

theorem exec_collectiveComplete (h : s.CollIs num c) (hl : s.live = true) (hdone : s.collDone c = true) :
    exec (.collectiveComplete num) s = .next (s.endColl c 0x00 0xFFFFFFFF) := by
  change execCollectiveComplete num s = _
  unfold execCollectiveComplete
  rw [h]
  simp only [hl, hdone]
  rfl

/-! ### Phases (R361) -/

theorem phaseStart_counts (h : s.CollIs num c) (hl : s.live = true) (hphase : c.phase = .submitted) (r : PhaseInput) :
    exec (.collectivePhaseStart num r) s
      = .next (s.updColl num (fun c => s.stepFrom { c with phase := .counts, subst := c.subst || s.inputSubst c })) := by
  change execCollectivePhaseStart num r s = _
  unfold execCollectivePhaseStart
  rw [h]
  simp only [hl, hphase, Bool.not_true, Bool.false_eq_true, if_false]

/-- A reduction goes on from its counts to its exponents (R361). -/
theorem phaseStart_exponents (h : s.CollIs num c) (hl : s.live = true) (hphase : c.phase = .counts) (hkind : c.cmd.kind ≤ 1) (r : PhaseInput) :
    ∃ counts, exec (.collectivePhaseStart num r) s = .next (s.updColl num (fun c =>
      s.stepFrom { c with phase := .exponents, totalShards := c.cmd.shards + r.shards, counts := counts })) := by
  change ∃ counts, execCollectivePhaseStart num r s = _
  unfold execCollectivePhaseStart
  rw [h]
  simp only [hl, hphase, hkind, Bool.not_true, Bool.false_eq_true, if_false, if_true]
  exact ⟨_, rfl⟩

/-! ### Flits (R362, R364) -/

/-- A collective that has taken its oldest flit, without its values. -/
def State.tookFlit (s : State) (c : Coll) (x : InFlit) (rest : List InFlit) (y : Coll) : Coll :=
  let f := x.flit
  let done := s.endsStep c ((s.collGroup c).findIdx (· = f.src)) f
  { y with
    inbox := rest
    blight := y.blight || f.blight
    subst := y.subst || f.subst
    ringSteps := y.ringSteps + b2n (done && y.phase ≠ .direct)
    late := if done then addLate y.late f.src (x.came - y.readyAt) else y.late
    readyAt := if done then s.now else y.readyAt
    stepMs := if done then (s.member y.part).ringStepMs else y.stepMs }

theorem pieceReceive_gather_empty {x : InFlit} {rest : List InFlit} (h : s.CollIs num c) (hl : s.live = true) (hphase : c.phase = .gather)
    (hinbox : c.inbox = x :: rest) (hvals : x.flit.vals = []) :
    exec (.collectivePieceReceive num) s = .next (s.updColl num (s.tookFlit c x rest)) := by
  change execCollectivePieceReceive num s = _
  unfold execCollectivePieceReceive
  rw [h]
  obtain ⟨came, tag, f⟩ := x
  change f.vals = [] at hvals
  simp only [hinbox, hl, hphase, hvals]
  rfl

/-- A value in phase C comes by `addCarried`. -/
theorem pieceReceive_reduce_one {x : InFlit} {rest : List InFlit} {v : Nat} (h : s.CollIs num c) (hl : s.live = true) (hphase : c.phase = .reduce)
    (hinbox : c.inbox = x :: rest) (hvals : x.flit.vals = [v]) :
    ∃ across, exec (.collectivePieceReceive num) s
      = .next ((s.updColl num (s.tookFlit c x rest)).addCarried num across x.flit.first v x.flit.blight) := by
  change ∃ across, execCollectivePieceReceive num s = _
  unfold execCollectivePieceReceive
  rw [h]
  obtain ⟨came, tag, f⟩ := x
  change f.vals = [v] at hvals
  simp only [hinbox, hl, hphase, hvals]
  exact ⟨_, rfl⟩

/-- While more contributions to an element are awaited its carried sum is kept (R362). -/
theorem addCarried_awaits (h : s.CollIs num c) (across : Bool) (e v : Nat) (blight : Bool) (hnone : c.sums.find e = none)
    (hmore : c.joined.get 0 e + 1 < (reduceHop (s.collGroup c).length (s.ownerOf c e) (s.collPos c)).1) :
    s.addCarried num across e v blight = s.updColl num (fun y => { y with
      sums := y.sums.set e (c.uncarry v), joined := y.joined.set e (c.joined.get 0 e + 1), crossed := if across then y.crossed.set e 1 else y.crossed }) := by
  unfold State.addCarried
  rw [h]
  simp only [hnone]
  exact if_pos hmore

/-! ### Pieces of an in-place permute (R368) -/

/-- The next piece to commit is the `n` elements from `start` on, and all of them are here. -/
structure Coll.PieceHere (c : Coll) (start n : Nat) : Prop where
  place : c.cmd.inPlace = true
  phase : c.phase = .direct
  begins : piecesEnd (c.sentLocal.length + 1) 0 c.sentLocal = start
  size : min (c.counts.getD 0 0 - start)
    (min (65536 * c.cmd.bufSize / 232 * (232 / collSize c.cmd.outFmt)) (2 ^ 26 / collSize c.cmd.outFmt)) = n
  nonempty : n ≠ 0
  here : ∀ i, i < n → (c.got.find (start + i)).isSome

/-- What a piece writes: its elements, at their place in the output. -/
def Coll.pieceEntry (c : Coll) (start n : Nat) : JEntry :=
  { addr := plus c.cmd.outAddr (start * collSize c.cmd.outFmt)
    data := ((List.range n).map (fun i => leBytes (collSize c.cmd.outFmt) ((c.got.find (start + i)).getD 0))).flatten
    blight := c.blight, subst := c.subst, core := c.p.core }

theorem exec_permutePieceCommit {start n : Nat} (h : s.CollIs num c) (hl : s.live = true) (hp : c.PieceHere start n) :
    exec (.permutePieceCommit num) s
      = .next ((s.updColl num (fun c => { c with sentLocal := c.sentLocal ++ [(start, n)] })).openTx c.part (coreDie c.p.core)
          (coreCluster c.p.core) (fullStep (s.part c.part).lastStarted c.step) (.permute num start n) [c.pieceEntry start n] []) := by
  obtain ⟨hplace, hphase, hbegins, hsize, hsome, hhere⟩ := hp
  change execPermutePieceCommit num s = _
  unfold execPermutePieceCommit
  rw [h]
  dsimp only
  rw [hbegins, hsize]
  refine congrArg _ ((if_neg ?_).trans ?_)
  · have hnone : ((List.range n).map (fun i => c.got.find (start + i))).any (·.isNone) = false := by
      simpa [Option.isSome_iff_ne_none] using hhere
    simp [hl, hplace, hphase, hnone, hsome]
  · rw [List.map_map]
    rfl

/-! ### The watchdog of ring steps (R365) -/

theorem exec_ringStepWatchdog (h : s.CollIs num c) (hl : s.live = true)
    (hphase : c.phase = .exponents ∨ c.phase = .reduce ∨ c.phase = .gather ∨ c.phase = .direct)
    (hwants : (s.awaited c).all (fun e => (c.got.find e).isSome) = false) (hlate : c.readyAt + 1000000 * c.stepMs ≤ s.now) :
    exec (.ringStepWatchdog num) s
      = .next (((s.sendAborts c (s.awaitedFrom c)).endColl c 0x01 (BitVec.ofNat 32 (s.awaitedFrom c))).suspect c.part (s.awaitedFrom c) 2 0) := by
  have hwaits : (decide (c.phase = .exponents) || decide (c.phase = .reduce) || decide (c.phase = .gather) || decide (c.phase = .direct)) = true := by
    simpa [or_assoc] using hphase
  change execRingStepWatchdog num s = _
  unfold execRingStepWatchdog
  rw [h]
  refine congrArg _ (if_neg ?_)
  simp only [hl, hwaits, hwants, decide_eq_false (Nat.not_lt.mpr hlate)]
  decide

/-! ### Aborts (R354, R365) -/

/-- An abort flit for this member is judged by its epoch. -/
theorem exec_abortFlitReceive {f : Flit} (hl : s.live = true) (htype : f.type = 4)
    (hdst : (s.member f.part).installed = true → f.dst = (s.member f.part).image.own) (k : Nat) :
    (epochCmp f.epoch (s.member f.part).image.epoch = 0 → exec (.abortFlitReceive k f) s = .next (s.abortColl f.part f))
    ∧ (epochCmp f.epoch (s.member f.part).image.epoch = 1 →
      exec (.abortFlitReceive k f) s = .next (s.updMember f.part (fun m => { m with held := m.held ++ [(f, k, s.now)] }))) := by
  have hmine := Member.flit_own hdst
  have hjudged : exec (.abortFlitReceive k f) s = .next (s.jobFlit k f.part f) := by
    change execAbortFlitReceive k f s = _
    unfold execAbortFlitReceive
    dsimp only
    rw [hl, hmine, htype, if_neg (by decide)]
  rw [hjudged]
  unfold State.jobFlit
  dsimp only
  rw [hmine, if_neg (by decide), htype, if_neg (by decide)]
  refine ⟨fun hepoch => ?_, fun hepoch => ?_⟩
  all_goals
    rw [hepoch]
    rfl

end

/-- Settles O52: a phase, a flit and a piece change the collective that their number finds (`CollIs.updColl`); every end is `endColl`
(flits, sums and pieces: log entry 41). -/
theorem collectivesRun : Obligations.CollectivesRun := by
  unfold Obligations.CollectivesRun
  intro s num c hl hfind M becomes
  have h : s.CollIs num c := hfind
  refine ⟨fun r hphase => ?submitted, fun r hphase hkind => ?counts, fun r hphase => ?exponents,
    fun t0 w f tail hinbox hphase hvals hends => ?gather, fun t0 w f tail e v p hinbox hphase hvals hfirst hnone hp hmore => ?reduce, ?permute,
    fun hphase hall hlate => ?watchdog, fun k f => ?abort, fun hdone => ?complete⟩
  case submitted =>
    rw [phaseStart_counts h hl hphase]
    exact .next ⟨rfl, h.updColl _ (fun _ => rfl)⟩
  case counts =>
    obtain ⟨counts, hexec⟩ := phaseStart_exponents h hl hphase hkind r
    rw [hexec]
    exact .next ⟨rfl, counts, h.updColl _ (fun _ => rfl)⟩
  case exponents =>
    intro es d under bl x
    change Completes (execCollectivePhaseStart num r s) _
    unfold execCollectivePhaseStart
    rw [hfind]
    simp only [hl, hphase]
    exact .next rfl
  case gather =>
    rw [pieceReceive_gather_empty h hl hphase hinbox hvals]
    have htook : s.tookFlit c ⟨t0, w, f⟩ tail c = { c with inbox := tail, blight := c.blight || f.blight, subst := c.subst || f.subst } := by
      simp only [State.tookFlit, hends, Bool.false_and, Bool.false_eq_true, if_false]
      rfl
    exact .next ⟨rfl, htook ▸ h.updColl _ (fun _ => rfl)⟩
  case reduce =>
    subst hp hfirst
    obtain ⟨across, hexec⟩ := pieceReceive_reduce_one h hl hphase hinbox hvals
    have htook := h.updColl (s.tookFlit c ⟨t0, w, f⟩ tail) (fun _ => rfl)
    rw [hexec]
    dsimp only
    rw [addCarried_awaits htook across f.first v f.blight hnone hmore]
    exact .next ⟨rfl, _, htook.updColl _ (fun _ => rfl), rfl, rfl, rfl, rfl, rfl⟩
  case permute =>
    intro sz start n hplace hphase hn hall
    rw [exec_permutePieceCommit h hl ⟨hplace, hphase, rfl, rfl, hn, hall⟩]
    have hbecomes := h.updColl (fun c => { c with sentLocal := c.sentLocal ++ [(start, n)] }) (fun _ => rfl)
    obtain ⟨y, hy, -, hpart, horigin, hentries, -⟩ := State.openTx_prepares (s.updColl num (fun c => { c with sentLocal := c.sentLocal ++ [(start, n)] }))
      c.part (coreDie c.p.core) (coreCluster c.p.core) (fullStep (s.part c.part).lastStarted c.step) (.permute num start n) [c.pieceEntry start n] []
    refine .next ⟨rfl, ⟨_, hbecomes, rfl, rfl, hphase⟩, y, hy, hpart, horigin, ?_⟩
    rw [hentries]
    rfl
  case watchdog =>
    rw [exec_ringStepWatchdog h hl hphase hall hlate]
    exact .next rfl
  case abort =>
    intro m htype hdst
    obtain ⟨hcurrent, hnewer⟩ := exec_abortFlitReceive hl htype hdst k
    refine ⟨fun hepoch hcoll => ?named, fun hepoch hnone => ?unknown, fun hnew => ?newer⟩
    case named =>
      rw [hcurrent (if_pos hepoch), State.abortColl, hcoll]
      exact .next ⟨rfl, h.num_eq ▸ s.not_mem_endColl_colls c 1 (BitVec.ofNat 32 f.first)⟩
    case unknown => rw [hcurrent (if_pos hepoch), State.abortColl, hnone]
    case newer =>
      rw [hnewer hnew]
      exact .next ⟨rfl, congrArg Member.held (s.member_updMember_same ..)⟩
  case complete =>
    rw [exec_collectiveComplete h hl hdone]
    exact .next ⟨rfl, h.num_eq ▸ s.not_mem_endColl_colls c 0 0xFFFFFFFF, State.endColl_mem ..⟩

end Sys2Proof.Machine
end

section
/-! PROOFS. XCOLL and XLAG: a collective joins its exchange unit, or ends under quarantine; the lag report (R357, R359, R370). -/

namespace Sys2Proof.Machine

section
variable {s : State} {p : At}

/-! ### XCOLL (R357, R359) -/

/-- A collective joins its exchange unit, with the flits that came for it before (R359, R361). -/
def State.joinColl (u : State) (x : Coll) (mine : InFlit → Bool) : State :=
  { u with link := { u.link with
      colls := u.link.colls ++ [x]
      nextColl := u.link.nextColl + 1
      collNums := u.link.collNums.filter (fun y => !(y.1 = x.part && y.2.1 = x.cmd.group && y.2.2.1 = x.step)) ++ [(x.part, x.cmd.group, x.step, x.no + 1)]
      early := u.link.early.filter (fun y => !mine y) } }

/-- What XCOLL leaves where it does not end at once. -/
def State.xcollJoined (s : State) (p : At) (x : Coll) (mine : InFlit → Bool) : State :=
  ((s.issued p).joinColl x mine).active ⟨.exchange, coreDie p.core⟩

theorem xcollJoined_leaves (x : Coll) (mine : InFlit → Bool) :
    let t := s.xcollJoined p x mine
    BesidesIssue s { s with link := t.link } t p ∧ t.ctx p = (s.ctx p).advanced
      ∧ t.link = { s.link with colls := s.link.colls ++ [x], nextColl := s.link.nextColl + 1, collNums := t.link.collNums,
                               early := s.link.early.filter (fun y => !mine y) }
      ∧ ∀ y, y ∈ t.link.collNums ↔ y = (x.part, x.cmd.group, x.step, x.no + 1)
          ∨ (y ∈ s.link.collNums ∧ (y.1, y.2.1, y.2.2.1) ≠ (x.part, x.cmd.group, x.step)) := by
  intro t
  have hjoins : BesidesCores (fun v => { v with link := t.link }) := ⟨fun _ _ _ _ => rfl⟩
  have hctx : t.ctx p = (s.issued p).ctx p := rfl
  refine ⟨((OnlyContext.of_issued s p).then_beside hjoins).then_active _, hctx.trans (State.ctx_issued_same s p), rfl, fun y => ?_⟩
  have hnums : t.link.collNums = s.link.collNums.filter (fun y => !(y.1 = x.part && y.2.1 = x.cmd.group && y.2.2.1 = x.step))
      ++ [(x.part, x.cmd.group, x.step, x.no + 1)] := rfl
  rw [hnums, List.mem_append, List.mem_singleton, List.mem_filter, or_comm]
  refine or_congr_right (and_congr_right fun _ => ?_)
  simp [imp_iff_not_or, or_assoc]

/-- A write of a collective's record finds its bytes where they were before the collective joined. -/
theorem xcollJoined_record (x y : Coll) (mine : InFlit → Bool) (status : BitVec 8) (stalled : BitVec 32) :
    ((s.xcollJoined p x mine).endColl y status stalled).mem
      = (s.writeDev y.part y.p.core y.cmd.statAddr (s.collRecord y status stalled) false).mem := by
  have hmap : SameMap s (s.xcollJoined p x mine) := .of_parts rfl
  rw [State.endColl_mem, State.writeDev_mem, State.writeDev_mem, ← hmap.keysOf]
  rfl

/-! ### XLAG (R370) -/

theorem length_lagReport (s : State) (p : At) : (s.lagReport p).length = 512 := by
  unfold State.lagReport
  extract_lets rs ms of total sorted late entry
  have hentry (i : Nat) : (entry i).length = 16 := by
    simp only [entry]
    split
    · simp
    · simp
  have hentries : (((List.range 28).map entry).flatten).length = 448 := by
    rw [List.length_flatten, List.map_map, show List.length ∘ entry = fun _ => 16 from funext hentry]
    rfl
  simp [hentries]

theorem take_lagReport (s : State) (p : At) : (s.lagReport p).take 16
    = leBytes 8 s.now ++ leBytes 8 (s.link.lag.filter (fun x => x.die = coreDie p.core && x.part = s.partNum p.core)).length := by
  unfold State.lagReport
  extract_lets rs ms of total sorted late entry
  rw [List.append_assoc, List.append_assoc]
  exact List.take_left' (by simp)

end

/-- Settles O12: XCOLL leaves `xcollJoined`, which `endColl` ends under quarantine; XLAG writes its report at issue (log entry 41). -/
theorem exchangeCommands : Obligations.ExchangeCommands := by
  unfold Obligations.ExchangeCommands
  intro s p f c n a g
  refine ⟨fun h => ?xcoll, fun h => ?xlag⟩
  case xcoll =>
    intro no mine x Joined
    have hjoined : Joined (s.xcollJoined p x mine) := xcollJoined_leaves x mine
    refine h.completes (eff := fun t => if (s.member n).quarantined then
      ((t.joinColl x mine).active ⟨.exchange, coreDie p.core⟩).endColl x 0x03 0xFFFFFFFF else (t.joinColl x mine).active ⟨.exchange, coreDie p.core⟩) ?_
    by_cases hq : (s.member n).quarantined = true
    · rw [if_pos hq, if_pos hq]
      exact ⟨_, hjoined, rfl, State.not_mem_endColl_colls _ x 0x03 0xFFFFFFFF, xcollJoined_record x x mine 0x03 0xFFFFFFFF⟩
    · rw [if_neg hq, if_neg hq]
      exact hjoined
  case xlag =>
    intro l
    refine h.completes (eff := fun t => t.writeDev n p.core a l false) ?_
    have hcores := s.issued_writeDev_cores p n p.core a l false
    have hmem := s.issued_writeDev_mem p n p.core a l false
    have hlength : l.length = 512 := length_lagReport s p
    rw [hlength] at hmem
    exact ⟨.of_issued_cores hcores, State.ctx_of_issued_cores hcores, hlength, .of_putAll hmem, take_lagReport s p, hmem⟩

end Sys2Proof.Machine
end
